-- ==== Sys2Proof/Word.lean ====
section
/-! DEFINITION. Word sizes of the machine, and the plainest arithmetic on them (R8, R9, R10). -/

namespace Sys2Proof

/-- One byte. -/
abbrev Byte := BitVec 8
/-- One 32-bit lane element (a vector register holds 32 of them). -/
abbrev W32 := BitVec 32
/-- One 64-bit word (a scalar register, an address, a system register). -/
abbrev W64 := BitVec 64
/-- One 128-bit bundle (R5). -/
abbrev Bundle := BitVec 128

/-- Bits `[hi:lo]` of a natural number, as R9 writes them. -/
def bitsOf (w hi lo : Nat) : Nat := (w >>> lo) % 2 ^ (hi + 1 - lo)

/-- The number with its bits `[hi:lo]` replaced by `v`. -/
def setBits (w hi lo v : Nat) : Nat :=
  let m := 2 ^ (hi + 1 - lo)
  (w / 2 ^ lo / m * m + v % m) * 2 ^ lo + w % 2 ^ lo

/-- Two's complement reading of the low `n` bits of a number (R84). -/
def sextInt (w n : Nat) : Int :=
  let x := w % 2 ^ n
  if n = 0 then 0 else if x < 2 ^ (n - 1) then (x : Int) else (x : Int) - (2 ^ n : Nat)

/-- The low `n` bits of an integer, as a number (R84). -/
def wrapInt (x : Int) (n : Nat) : Nat := (x % (2 ^ n : Nat)).toNat

/-- Sign extension of the low `n` bits, on 64 bits (R226). -/
def sext64 (w n : Nat) : Nat := wrapInt (sextInt w n) 64

/-- The `n` little-endian bytes of a number, lowest address first (R10). -/
def bytesLE : Nat → Nat → List Byte
  | 0, _ => []
  | n + 1, w => BitVec.ofNat 8 w :: bytesLE n (w / 256)

/-- The number whose little-endian bytes are the list, lowest address first (R10). -/
def ofBytesLE : List Byte → Nat
  | [] => 0
  | b :: bs => b.toNat + 256 * ofBytesLE bs

/-- The number of one bits among the low `n` bits. -/
def popNat : Nat → Nat → Nat
  | 0, _ => 0
  | n + 1, w => w % 2 + popNat n (w / 2)

/-- Bit `i` of a number. -/
def bitAt (w i : Nat) : Bool := w.testBit i

/-- The positions of the one bits among the low `n` bits, ascending. -/
def bitList (n w : Nat) : List Nat := (List.range n).filter (fun i => w.testBit i)

end Sys2Proof
end

