-- ==== Sys2Proof/Config.lean ====
section
/-! DEFINITION. Config: what an implementation fixes and the spec does not, and the free values (R12). An opaque constant has
no body: nothing can be proved of its value, so a claim holds whatever it is. Log entry 5. -/

namespace Sys2Proof.Config

/-- An undefined 32-bit value: the k-th use, at a position within it. -/
opaque freeW32 : Nat → Nat → W32
/-- An undefined 64-bit value. -/
opaque freeW64 : Nat → Nat → W64
/-- An undefined byte. -/
opaque freeByte : Nat → Nat → Byte
/-- An undefined bit: a guard or a condition that reads a predicate in flight (R211). -/
opaque freeBit : Nat → Nat → Bool
/-- The set of a slice's translation cache that a page of a context falls in (R26); taken modulo 1,024. -/
opaque tlbSet : Nat → Nat → Nat
/-- The set of an L2 slice that a line falls in (R67); taken modulo 2,048. -/
opaque l2Set : Nat → Nat
/-- The k-th choice among n moves whose order the spec leaves open; taken modulo n. -/
opaque choose : Nat → Nat → Nat
/-- What the scrubber finds in a unit of HBM (R81, R441): modulo 3, no error, one it corrects, or one that cannot be corrected. -/
opaque upset : Nat → Nat
/-- What the IOMMU makes of an inbound PCIe address, at the k-th use (R434): the physical address behind its device directory, its two
stages and its MSI page tables, whose contents and formats the spec does not give, or none where it refuses the request. -/
opaque iommu : Nat → Nat → Option Nat
/-- How far below its fused value of VDIEd a die's fused minimum for 4.0 GHz lies, in mV (R443). -/
opaque margin : Nat → Nat
/-- ML-DSA-44 verification of a signature over a digest under a public key (R436): the algorithm stands outside the spec. -/
opaque mldsaVerify : List Byte → List Byte → List Byte → Bool
/-- DEVINFO.REV (Table 18-3). -/
opaque siliconRev : Nat
/-- Fused reset values of VDIEd, LKTc.j and DWT (Tables 19-2, 19-3, 19-5), by register offset. -/
opaque fused : Nat → W64
/-- Temperature sensors at reset, CLPWRc.TEMP (Table 19-6). -/
opaque temp0 : Nat → Nat

end Sys2Proof.Config
end

