-- ==== Sys2Proof/Syntax.lean ====
section
/-! DEFINITION. Syntax: the one inductive of the machine's steps, one constructor per row of the opcode table: the slot
operations of a bundle (R200 to R225), with their operand fields, then the events of the machine, each a step that
happens whole. An event's operands (which gang, which request, which message) stand in State's event register. -/

namespace Sys2Proof

/-- The slot encodings a no-operation can stand in (R206; NOP_X32 has a row of its own). -/
inductive NopSlot | v36 | v76 | m40 | x72 | c12 | c44
  deriving DecidableEq, Repr

/-- The operand fields of a V-slot operation (R202, Table 7-2). `long` tells V76 from V36; in V36 the fields C and IMM
are absent and held as zero. -/
structure VOp where
  long : Bool
  d : BitVec 8
  a : BitVec 8
  b : BitVec 8
  g : BitVec 4
  c : BitVec 8
  imm : BitVec 32
  deriving DecidableEq, Repr

/-- The operand fields of an M-slot operation (R203, Table 7-3). -/
structure MOp where
  data : BitVec 8
  base : BitVec 5
  ofs : BitVec 8
  z : BitVec 3
  pol : BitVec 3
  flag : BitVec 5
  gm : BitVec 2
  deriving DecidableEq, Repr

/-- Operands of CPYT (X72; R304, R305). -/
structure CpytOp where
  f : BitVec 5
  pol : BitVec 3
  sd : BitVec 5
  ss : BitVec 5
  sg : BitVec 5
  sp : BitVec 5
  zd : BitVec 3
  zs : BitVec 3
  nt : BitVec 1
  sm : BitVec 5
  deriving DecidableEq, Repr

/-- Operands of CPYG (X72; R304, R306). -/
structure CpygOp where
  f : BitVec 5
  pol : BitVec 3
  sd : BitVec 5
  ss : BitVec 5
  si : BitVec 5
  sg : BitVec 5
  sp : BitVec 5
  zd : BitVec 3
  nt : BitVec 1
  sm : BitVec 5
  zs : BitVec 3
  deriving DecidableEq, Repr

/-- Operands of CPYMC (X72; R304, R307). -/
structure CpymcOp where
  f : BitVec 5
  pol : BitVec 3
  sd : BitVec 5
  ss : BitVec 5
  sn : BitVec 5
  mask : BitVec 8
  zd : BitVec 3
  zs : BitVec 3
  nt : BitVec 1
  sm : BitVec 5
  deriving DecidableEq, Repr

/-- Operands of CPYCH (X72; R304, R308). -/
structure CpychOp where
  f : BitVec 5
  pol : BitVec 3
  sd : BitVec 5
  sp : BitVec 5
  ch : BitVec 3
  n : BitVec 4
  zd : BitVec 3
  sgran : BitVec 7
  sslot : BitVec 3
  nt : BitVec 1
  sm : BitVec 5
  deriving DecidableEq, Repr

/-- Operands of WBLD (X72; R304, R309). -/
structure WbldOp where
  f : BitVec 5
  pol : BitVec 3
  ss : BitVec 5
  w : BitVec 9
  n : BitVec 6
  sparse : BitVec 1
  rf : BitVec 3
  zs : BitVec 3
  nt : BitVec 1
  sm : BitVec 5
  deriving DecidableEq, Repr

/-- Operands of MMA (X72; R315). -/
structure MmaOp where
  f : BitVec 5
  t : BitVec 11
  w : BitVec 9
  sa : BitVec 5
  z : BitVec 3
  ms : BitVec 2
  ns : BitVec 2
  ks : BitVec 4
  af : BitVec 3
  wf : BitVec 3
  deriving DecidableEq, Repr

/-- Operands of MLDT (X72; R304). -/
structure MldtOp where
  f : BitVec 5
  sa : BitVec 5
  t : BitVec 11
  n : BitVec 4
  sf : BitVec 2
  add : BitVec 1
  z : BitVec 3
  deriving DecidableEq, Repr

/-- Operands of MDRAIN (X72; R322). -/
structure MdrainOp where
  f : BitVec 5
  t : BitVec 11
  n : BitVec 4
  ch : BitVec 3
  df : BitVec 3
  mode : BitVec 3
  inf : BitVec 1
  kt : BitVec 2
  emin : BitVec 6
  zero : BitVec 1
  deriving DecidableEq, Repr


/-- One constructor per row of the opcode table: the slot operations, then the events. -/
inductive Instr
  /-- X-slot no operation, short form. (R206) -/
  | nopX32
  /-- No operation in a V, M, X72 or C slot. (R206) -/
  | nopSlot (k : NopSlot)
  /-- Integer add, setting lx1 to the carry. (R236) -/
  | iadd (o : VOp)
  /-- Integer subtract, setting lx1 to the borrow. (R236) -/
  | isub (o : VOp)
  /-- Low half of an integer product. (R236) -/
  | imul (o : VOp)
  /-- High half of a signed product. (R236) -/
  | imulhS32 (o : VOp)
  /-- High half of an unsigned product. (R236) -/
  | imulhN32 (o : VOp)
  /-- Integer multiply-add. (R236) -/
  | imad (o : VOp)
  /-- Signed minimum. (R236) -/
  | iminS32 (o : VOp)
  /-- Unsigned minimum. (R236) -/
  | iminN32 (o : VOp)
  /-- Signed maximum. (R236) -/
  | imaxS32 (o : VOp)
  /-- Unsigned maximum. (R236) -/
  | imaxN32 (o : VOp)
  /-- Integer absolute value. (R236) -/
  | iabs (o : VOp)
  /-- Integer negate. (R236) -/
  | ineg (o : VOp)
  /-- 64-bit add into an even register pair, setting lx1. (R237) -/
  | iadd64 (o : VOp)
  /-- Copy a source to the destination. (R236) -/
  | mov (o : VOp)
  /-- Move the V76 immediate to the destination. (R236) -/
  | movi (o : VOp)
  /-- Bitwise AND. (R236) -/
  | and (o : VOp)
  /-- Bitwise OR. (R236) -/
  | or (o : VOp)
  /-- Bitwise XOR. (R236) -/
  | xor (o : VOp)
  /-- a AND NOT b. (R236) -/
  | andn (o : VOp)
  /-- Logical shift left. (R236) -/
  | shl (o : VOp)
  /-- Logical shift right. (R236) -/
  | shr (o : VOp)
  /-- Arithmetic shift right. (R236) -/
  | sar (o : VOp)
  /-- Funnel shift left across two words. (R239) -/
  | shfL (o : VOp)
  /-- Funnel shift right across two words. (R239) -/
  | shfR (o : VOp)
  /-- Population count. (R236) -/
  | popc (o : VOp)
  /-- Count leading zeros. (R236) -/
  | clz (o : VOp)
  /-- Bit reverse. (R236) -/
  | brev (o : VOp)
  /-- Signed bit-field extract. (R238) -/
  | bfxS32 (o : VOp)
  /-- Unsigned bit-field extract. (R238) -/
  | bfxN32 (o : VOp)
  /-- Bit-field insert. (R238) -/
  | bfi (o : VOp)
  /-- Select a where the guard holds, else b. (R241) -/
  | sel (o : VOp)
  /-- Integer compare equal, writing a predicate. (R240) -/
  | icmpEq (o : VOp)
  /-- Integer compare not equal. (R240) -/
  | icmpNe (o : VOp)
  /-- Signed less than. (R240) -/
  | icmpLtS32 (o : VOp)
  /-- Signed less or equal. (R240) -/
  | icmpLeS32 (o : VOp)
  /-- Signed greater than. (R240) -/
  | icmpGtS32 (o : VOp)
  /-- Signed greater or equal. (R240) -/
  | icmpGeS32 (o : VOp)
  /-- Unsigned less than. (R240) -/
  | icmpLtN32 (o : VOp)
  /-- Unsigned less or equal. (R240) -/
  | icmpLeN32 (o : VOp)
  /-- Unsigned greater than. (R240) -/
  | icmpGtN32 (o : VOp)
  /-- Unsigned greater or equal. (R240) -/
  | icmpGeN32 (o : VOp)
  /-- F32 add. (R242) -/
  | fadd (o : VOp)
  /-- F32 subtract. (R242) -/
  | fsub (o : VOp)
  /-- F32 multiply. (R242) -/
  | fmul (o : VOp)
  /-- F32 fused multiply-add. (R242) -/
  | ffma (o : VOp)
  /-- F32 minimum. (R243) -/
  | fmin (o : VOp)
  /-- F32 maximum. (R243) -/
  | fmax (o : VOp)
  /-- Correctly rounded reciprocal. (R245) -/
  | frcp (o : VOp)
  /-- Reciprocal square root. (R246) -/
  | frsq (o : VOp)
  /-- Correctly rounded square root. (R245) -/
  | fsqrt (o : VOp)
  /-- Base-2 exponential. (R246) -/
  | fexp2 (o : VOp)
  /-- Base-2 logarithm. (R246) -/
  | flog2 (o : VOp)
  /-- Sine. (R246) -/
  | fsin (o : VOp)
  /-- Cosine. (R246) -/
  | fcos (o : VOp)
  /-- F32 compare equal. (R244) -/
  | fcmpEq (o : VOp)
  /-- F32 compare not equal. (R244) -/
  | fcmpNe (o : VOp)
  /-- F32 less than. (R244) -/
  | fcmpLt (o : VOp)
  /-- F32 less or equal. (R244) -/
  | fcmpLe (o : VOp)
  /-- F32 greater than. (R244) -/
  | fcmpGt (o : VOp)
  /-- F32 greater or equal. (R244) -/
  | fcmpGe (o : VOp)
  /-- True when neither operand is NaN. (R244) -/
  | fcmpNum (o : VOp)
  /-- True when either operand is NaN. (R244) -/
  | fcmpNan (o : VOp)
  /-- Paired F16 add. (R247) -/
  | hadd2F16 (o : VOp)
  /-- Paired F16 multiply. (R247) -/
  | hmul2F16 (o : VOp)
  /-- Paired F16 fused multiply-add. (R247) -/
  | hfma2F16 (o : VOp)
  /-- Paired F16 minimum. (R247) -/
  | hmin2F16 (o : VOp)
  /-- Paired F16 maximum. (R247) -/
  | hmax2F16 (o : VOp)
  /-- Paired BF16 add. (R247) -/
  | hadd2Bf16 (o : VOp)
  /-- Paired BF16 multiply. (R247) -/
  | hmul2Bf16 (o : VOp)
  /-- Paired BF16 fused multiply-add. (R247) -/
  | hfma2Bf16 (o : VOp)
  /-- Paired BF16 minimum. (R247) -/
  | hmin2Bf16 (o : VOp)
  /-- Paired BF16 maximum. (R247) -/
  | hmax2Bf16 (o : VOp)
  /-- Four-way FP8 dot product into F32, E4M3 by E4M3. (R248) -/
  | fdot4E4m3E4m3 (o : VOp)
  /-- Four-way FP8 dot product, E4M3 by E5M2. (R248) -/
  | fdot4E4m3E5m2 (o : VOp)
  /-- Four-way FP8 dot product, E5M2 by E4M3. (R248) -/
  | fdot4E5m2E4m3 (o : VOp)
  /-- Four-way FP8 dot product, E5M2 by E5M2. (R248) -/
  | fdot4E5m2E5m2 (o : VOp)
  /-- Convert between element types. (R249) -/
  | cvt (o : VOp)
  /-- Narrow k consecutive registers into one. (R251) -/
  | pack (o : VOp)
  /-- Encode F32 lanes into K4 blocks with scale bytes. (R252) -/
  | k4enc (o : VOp)
  /-- Decode one K4 element to F32. (R253) -/
  | k4dec (o : VOp)
  /-- Shuffle from an indexed lane. (R255) -/
  | shflIdx (o : VOp)
  /-- Shuffle from a lower lane. (R255) -/
  | shflUp (o : VOp)
  /-- Shuffle from a higher lane. (R255) -/
  | shflDown (o : VOp)
  /-- Shuffle from the XOR-indexed lane. (R255) -/
  | shflXor (o : VOp)
  /-- True when the predicate holds in every participating lane. (R256) -/
  | voteAll (o : VOp)
  /-- True when the predicate holds in any participating lane. (R256) -/
  | voteAny (o : VOp)
  /-- Ballot mask of the predicate. (R256) -/
  | voteBal (o : VOp)
  /-- Predicate AND. (R259) -/
  | pand (o : VOp)
  /-- Predicate OR. (R259) -/
  | por (o : VOp)
  /-- Predicate XOR. (R259) -/
  | pxor (o : VOp)
  /-- Predicate NOT. (R259) -/
  | pnot (o : VOp)
  /-- Move one lane's value to a scalar register. (R258) -/
  | movs (o : VOp)
  /-- Pop the next 128-byte unit of a chute into a vector register. (R260) -/
  | chpop (o : VOp)
  /-- F32 tree sum over the participating lanes. (R108) -/
  | lredAddF32 (o : VOp)
  /-- Integer sum over the lanes. (R257) -/
  | lredAddN32 (o : VOp)
  /-- F32 minimum over the lanes. (R257) -/
  | lredMinF32 (o : VOp)
  /-- F32 maximum over the lanes. (R257) -/
  | lredMaxF32 (o : VOp)
  /-- Signed minimum over the lanes. (R257) -/
  | lredMinS32 (o : VOp)
  /-- Signed maximum over the lanes. (R257) -/
  | lredMaxS32 (o : VOp)
  /-- Unsigned minimum over the lanes. (R257) -/
  | lredMinN32 (o : VOp)
  /-- Unsigned maximum over the lanes. (R257) -/
  | lredMaxN32 (o : VOp)
  /-- AND over the lanes. (R257) -/
  | lredAnd (o : VOp)
  /-- OR over the lanes. (R257) -/
  | lredOr (o : VOp)
  /-- XOR over the lanes. (R257) -/
  | lredXor (o : VOp)
  /-- Format-decoding byte load. (R267) -/
  | ldB8 (o : MOp)
  /-- Sign-extending byte load. (R267) -/
  | ldB8Sx (o : MOp)
  /-- Format-decoding 16-bit load. (R267) -/
  | ldB16 (o : MOp)
  /-- Sign-extending 16-bit load. (R267) -/
  | ldB16Sx (o : MOp)
  /-- Format-decoding 32-bit load. (R267) -/
  | ldB32 (o : MOp)
  /-- Format-decoding 64-bit group load. (R267) -/
  | ldB64 (o : MOp)
  /-- Format-decoding 128-bit group load. (R267) -/
  | ldB128 (o : MOp)
  /-- Uniform 32-bit load into a scalar register. (R268) -/
  | ldB32S (o : MOp)
  /-- Uniform 64-bit load into a scalar register. (R268) -/
  | ldB64S (o : MOp)
  /-- Byte store. (R269) -/
  | stB8 (o : MOp)
  /-- 16-bit store. (R269) -/
  | stB16 (o : MOp)
  /-- 32-bit store. (R269) -/
  | stB32 (o : MOp)
  /-- 64-bit store. (R269) -/
  | stB64 (o : MOp)
  /-- 128-bit store. (R269) -/
  | stB128 (o : MOp)
  /-- Raw byte load by element index. (R270) -/
  | ldrawB8 (o : MOp)
  /-- Raw 16-bit load by element index. (R270) -/
  | ldrawB16 (o : MOp)
  /-- Raw 32-bit load by element index. (R270) -/
  | ldrawB32 (o : MOp)
  /-- Raw 64-bit load by element index. (R270) -/
  | ldrawB64 (o : MOp)
  /-- Byte store by element index. (R270) -/
  | strawB8 (o : MOp)
  /-- 16-bit store by element index. (R270) -/
  | strawB16 (o : MOp)
  /-- 32-bit store by element index. (R270) -/
  | strawB32 (o : MOp)
  /-- 64-bit store by element index. (R270) -/
  | strawB64 (o : MOp)
  /-- Descriptor-addressed load with bounds mode. (R273) -/
  | ldx (o : MOp)
  /-- Descriptor-addressed store with bounds mode. (R273) -/
  | stx (o : MOp)
  /-- Load a 32-byte descriptor into dN. (R272) -/
  | ldc (o : MOp)
  /-- Declare a stash block, filled now or on touch. (R274) -/
  | lblk (o : MOp)
  /-- Write back a block's dirty lines and keep the block. (R275) -/
  | blkwb (o : MOp)
  /-- Write back and release a block. (R275) -/
  | blkdrop (o : MOp)
  /-- Prefetch lines into the stash or L2. (R276) -/
  | pref (o : MOp)
  /-- Returning unsigned 32-bit atomic. (R277) -/
  | atomN32 (o : MOp)
  /-- Returning signed 32-bit atomic. (R277) -/
  | atomS32 (o : MOp)
  /-- Returning 64-bit atomic. (R277) -/
  | atomN64 (o : MOp)
  /-- Returning F32 atomic add, min or max. (R277) -/
  | atomF32 (o : MOp)
  /-- Non-returning unsigned 32-bit reduction. (R278) -/
  | redmN32 (o : MOp)
  /-- Non-returning signed 32-bit reduction. (R278) -/
  | redmS32 (o : MOp)
  /-- Non-returning 64-bit reduction. (R278) -/
  | redmN64 (o : MOp)
  /-- Non-returning F32 reduction. (R278) -/
  | redmF32 (o : MOp)
  /-- 32-bit compare-and-swap in lane pairs. (R279) -/
  | atomcasB32 (o : MOp)
  /-- 64-bit compare-and-swap in lane pairs. (R279) -/
  | atomcasB64 (o : MOp)
  /-- Add an F32 value into an accumulator element, own or a stand peer's. (R281) -/
  | accstAdd (o : MOp)
  /-- Overwrite an accumulator element. (R281) -/
  | accstOvw (o : MOp)
  /-- Load an accumulator element. (R281) -/
  | accld (o : MOp)
  /-- Store the next chute unit to memory. (R282) -/
  | stch (o : MOp)
  /-- Realign the gang's load and store queues for common locations. (R115) -/
  | mark (o : MOp)
  /-- Order earlier accesses before later ones within a scope. (R128) -/
  | fence (o : MOp)
  /-- Send a 64-bit message to a port. (R285) -/
  | send (o : MOp)
  /-- Push an eight-word record to a task queue. (R286) -/
  | qpush (o : MOp)
  /-- Take a record from a task queue, waiting for one. (R287) -/
  | qpop (o : MOp)
  /-- Take a record if one is on-chip, setting a predicate. (R287) -/
  | qtry (o : MOp)
  /-- 32-bit group-tagged store to a landing. (R290) -/
  | stgB32 (o : MOp)
  /-- 64-bit group-tagged store to a landing. (R290) -/
  | stgB64 (o : MOp)
  /-- Skidder byte copy. (R303) -/
  | cpy (f : BitVec 5) (pol : BitVec 3) (sd : BitVec 5) (ss : BitVec 5) (sn : BitVec 5) (z : BitVec 3)
  /-- Skidder fill with a repeated 8-byte pattern. (R303) -/
  | cpyfill (f : BitVec 5) (pol : BitVec 3) (sd : BitVec 5) (sv : BitVec 5) (sn : BitVec 5) (z : BitVec 3)
  /-- Join the mill ownership queue and wait for the grant. (R312) -/
  | macq (f : BitVec 5)
  /-- Release mill ownership. (R312) -/
  | mrel (f : BitVec 5)
  /-- Order earlier writes before later mill reads. (R313) -/
  | mready (f : BitVec 5)
  /-- Close a mill batch. (R314) -/
  | mfence (f : BitVec 5)
  /-- Zero n accumulator tiles. (R319) -/
  | mzero (f : BitVec 5) (t : BitVec 11) (n : BitVec 7)
  /-- Read the mill status into a scalar register. (R323) -/
  | mstat (f : BitVec 5) (sd : BitVec 5)
  /-- Open a commit group. (R326) -/
  | gopen (f : BitVec 5) (g : BitVec 10)
  /-- Commit a group across its destinations. (R326) -/
  | gcommit (f : BitVec 5) (g : BitVec 10)
  /-- Abort a group. (R326) -/
  | gabort (f : BitVec 5) (g : BitVec 10)
  /-- Read a group's outcome record. (R326) -/
  | gquery (f : BitVec 5) (g : BitVec 10) (sd : BitVec 5)
  /-- Skidder copy of rows with pitches. (R305) -/
  | cpyt (o : CpytOp)
  /-- Skidder gather of indexed rows. (R306) -/
  | cpyg (o : CpygOp)
  /-- Multicast copy into stand crews' scratchpads. (R307) -/
  | cpymc (o : CpymcOp)
  /-- Copy chute entries to memory. (R308) -/
  | cpych (o : CpychOp)
  /-- Load weight slots. (R309) -/
  | wbld (o : WbldOp)
  /-- Dense matrix multiply-accumulate into tiles. (R315) -/
  | mma (o : MmaOp)
  /-- 2:4-sparse matrix multiply-accumulate. (R315) -/
  | mmas (o : MmaOp)
  /-- Load or add scratchpad data into tiles. (R320) -/
  | mldt (o : MldtOp)
  /-- Drain tiles, converted, into a chute. (R322) -/
  | mdrain (o : MdrainOp)
  /-- Wait until a flag reaches zero, or trap on an error or deferred fault. (R331) -/
  | waitf (ne : BitVec 1) (f : BitVec 5)
  /-- Reconvergence point for diverged lanes of a slice. (R181) -/
  | reconv
  /-- Wait until all unended slices meet, then merge them into one part. (R185) -/
  | regang
  /-- End the active lanes where the guard holds. (R182) -/
  | exit (g : BitVec 4)
  /-- Pause the part for 4(n+1) clocks and reset its AGE. (R341) -/
  | yield (n : BitVec 8)
  /-- Arrive at a crew barrier. (R344) -/
  | bara (b : BitVec 4)
  /-- Wait on a crew barrier phase. (R344) -/
  | barw (b : BitVec 4)
  /-- Arrive at and wait on a crew barrier. (R344) -/
  | baraw (b : BitVec 4)
  /-- Continue the part at the address in a scalar register. (R339) -/
  | ret (n : BitVec 5)
  /-- Pause the part for 256(n+1) clocks. (R341) -/
  | sleep (n : BitVec 8)
  /-- Breakpoint trap after the bundle. (R346) -/
  | bkpt (n : BitVec 8)
  /-- Resume a frozen gang from its frame. (R347) -/
  | eret (slot : BitVec 6)
  /-- Software trap after the bundle. (R346) -/
  | trap (n : BitVec 8)
  /-- Branch when the flag count is zero. (R332) -/
  | brfZ (f : BitVec 5) (tgt : BitVec 24)
  /-- Branch when the flag count is not zero. (R332) -/
  | brfNz (f : BitVec 5) (tgt : BitVec 24)
  /-- Branch when the flag's error bit is set. (R332) -/
  | brfErr (f : BitVec 5) (tgt : BitVec 24)
  /-- Branch where the guard holds, diverging under R178. (R335) -/
  | bra (g : BitVec 4) (tgt : BitVec 24)
  /-- Branch on a predicate per lane. (R336) -/
  | brap (g : BitVec 4) (neg : BitVec 1) (q : BitVec 3) (tgt : BitVec 24)
  /-- Jump per lane through a table, grouping lanes by target. (R337) -/
  | jmpt (g : BitVec 4) (sel : BitVec 8) (tofs : BitVec 16) (n : BitVec 8)
  /-- Branch and write the return address into a scalar register. (R338) -/
  | call (g : BitVec 4) (l : BitVec 5) (tgt : BitVec 24)
  /-- Arrive at the stand barrier. (R345) -/
  | sbarA
  /-- Wait on the stand barrier. (R345) -/
  | sbarW
  /-- Arrive at and wait on the stand barrier. (R345) -/
  | sbarAw
  /-- Set a crew barrier and its expected count. (R343) -/
  | barset (c : BitVec 5) (b : BitVec 4)
  /-- System-call trap after the bundle. (R346) -/
  | sysc (n : BitVec 24)
  /-- Read a system register into a scalar register. (R348) -/
  | mfs (sd : BitVec 5) (reg : BitVec 16)
  /-- Write a system register that has no row of its own. (R348) -/
  | mts (sa : BitVec 5) (reg : BitVec 16)
  /-- Write a policy register. (R352) -/
  | mpset (n : BitVec 3) (v : BitVec 8)
  /-- Write both halves of a window register in one step. (R352) -/
  | winset (a : BitVec 5) (n : BitVec 4)
  /-- Send a pattern record to a join unit. (R353) -/
  | patset (s : BitVec 5) (h : BitVec 5) (f : BitVec 5)
  /-- Send a port configuration record to a join unit. (R353) -/
  | portcfg (s : BitVec 5) (h : BitVec 5) (f : BitVec 5)
  /-- Send a queue creation record to a join unit. (R353) -/
  | qcreate (s : BitVec 5) (h : BitVec 5) (f : BitVec 5)
  /-- Send a queue destroy request to a join unit. (R353) -/
  | qdestroy (s : BitVec 5) (h : BitVec 5) (f : BitVec 5)
  /-- Load a register or latch image of the selected gang. (R355) -/
  | limg (a : BitVec 5) (kind : BitVec 3) (f : BitVec 5)
  /-- Store a register or latch image of the selected gang. (R355) -/
  | simg (a : BitVec 5) (kind : BitVec 3) (f : BitVec 5)
  /-- A part of a gang issues one 128-bit bundle in a clock. All slots read their operands at that clock, and the partition selects which candidate issues under R397. (R201) -/
  | bundleIssue
  /-- The line of a bundle or JMPT table reaches the core, so the waiting part may issue. (R6) -/
  | bundleFetchReturn
  /-- A fixed-latency operation writes its destination and latch at the end of clock t + L − 1. (R211) -/
  | fixedLatencyWriteback
  /-- The time of a SLEEP or YIELD elapses, and the part becomes a candidate again with AGE reset for YIELD. (R341) -/
  | waitTimerExpiry
  /-- Once the frozen gang's last fixed-latency operation completes, hardware writes the latch image to the trap frame and sends the notice or interrupt. (R401) -/
  | trapFrameWrite
  /-- An uncorrectable error in gang state is taken at the next bundle boundary as TCAUSE 0x78. (R80) -/
  | asyncErrorTaken
  /-- A watchpoint match arrives at the gang, which takes TCAUSE 0x73 at its next bundle boundary with the matches merged. (R454) -/
  | watchpointTrap
  /-- A TAG 0 access arriving at its translation slice is translated, its companion is read, and it is sent to the home slice, faulted or held. (R27) -/
  | translateAccess
  /-- A hardware fill finishes its zeroing and compare-and-swap, installs the translation and delivers the waiting accesses, or walks again. (R37) -/
  | fillComplete
  /-- A migration offer arrives at device D, which walks its tables, takes a frame and accepts or declines. (R169) -/
  | migrationOffer
  /-- A decline arrives at home H, and the exchange ends with the page unchanged. (R169) -/
  | migrationDecline
  /-- An acceptance arrives at H, which holds accesses, swaps the PTE to a forwarding entry, recalls copies and sends the 32 lines. (R169) -/
  | migrationAccept
  /-- The page's lines arrive at D, which writes them, makes the PTE present, enters the thrash history and acknowledges. (R169) -/
  | migrationLines
  /-- The acknowledgement arrives at H, which writes the vacated frame to the return ring, interrupts and forwards the held accesses. (R169) -/
  | migrationAck
  /-- The pin period of a thrash-table entry expires, and the entry is cleared. (R39) -/
  | throttleExpiry
  /-- A 64-byte fault record is written at TAIL of its fault ring, when the ring has room, and IRQT N is sent. (R43) -/
  | faultRecordWrite
  /-- The unperformed part of a faulted request returns to its core's operand log as a FAULTED entry, waiting if the log is full. (R42) -/
  | faultReturnToLog
  /-- System software writes HEAD of friN, freeing room so that waiting fault records are written. (R428) -/
  | faultRingHeadWrite
  /-- FRESOLVE with ACT 0 makes every log and skidder entry bound to the record READY for replay, and sends notice 0x7C. (R44) -/
  | fresolveRetry
  /-- FRESOLVE with ACT 1 completes every entry bound to the record in error with the given or recorded cause. (R44) -/
  | fresolveFail
  /-- A READY operand-log entry reissues its request unchanged for the lanes in MASK. (R46) -/
  | replay
  /-- A request is performed at its place of effect: stash, home slice, bank, read-only L1 or peer. (R110) -/
  | memoryAccessPerform
  /-- The response of a memory operation returns, its destination is written, and its flag is decremented, with an error where one arose. (R131) -/
  | memoryOpComplete
  /-- A request over UALink arrives at a peer, is acknowledged and is served under the peer context's tables. (R148) -/
  | remoteRequestArrival
  /-- The peer's acknowledgement of a request arrives, and RSPTO stops running for it. (R148) -/
  | remoteAckArrival
  /-- RSPTO expires with no acknowledgement, and the request's lanes complete with cause 0x17. (R148) -/
  | rsptoExpiry
  /-- A peer write reaches the target core's interface and is performed or discarded by generation, counting SCRSTALE on a discard. (R54) -/
  | peerWriteArrival
  /-- A RETIRING granule whose allocation's ICNT is 0 is zeroed and becomes FREE. (R53) -/
  | granuleZeroed
  /-- A line fetch for a stash block completes, and the line becomes present, or stays absent on a translation fault. (R61) -/
  | stashLineFill
  /-- A recall or invalidation arrives at a core, and the named lines become absent, written back if dirty. (R65) -/
  | coherenceRecall
  /-- A read request from a sharer is served at the home slice under Table 2-5. (R68) -/
  | directoryRead
  /-- An ownership request invalidates every other copy and makes the requester the sole M holder. (R68) -/
  | directoryOwnership
  /-- A write-back from the owner updates L2 data and the directory state. (R68) -/
  | directoryWriteback
  /-- A PCIe write passes the IOMMU, invalidates all copies at the home slice and merges its bytes. (R434) -/
  | pcieWrite
  /-- A PCIe read passes the IOMMU and recalls M or O data at the home slice. (R434) -/
  | pcieRead
  /-- A link CRC failure is answered by replay of the flit and counted. (R78) -/
  | linkCrcReplay
  /-- A UALink port loses its link and retries under link-level replay. (R427) -/
  | ualinkLinkLoss
  /-- The fabric reports a destination peer lost, affecting its acknowledged requests and commit exchanges. (R164) -/
  | peerLostReport
  /-- The fabric reports an origin lost, and each destination discards that origin's unprepared groups. (R164) -/
  | originLostReport
  /-- The patrol scrubber reads one 256-byte HBM unit at its pace and corrects it in place, counting completed passes. (R441) -/
  | scrubUnitRead
  /-- The skidder completes a unit of a copy, WBLD or CPYCH and begins the next. (R298) -/
  | skidderUnitDone
  /-- After its last unit a skidder operation completes, sending its completion message when NT = 1. (R301) -/
  | skidderComplete
  /-- Mill ownership is granted to the next queued gang once earlier owners' commands have left the queue, and its MACQ flag is decremented. (R188) -/
  | millGrant
  /-- The head mill command completes its reads and writes in queue order, with chute entries becoming available and batch flags decrementing. (R311) -/
  | millCommandDone
  /-- The writes ordered by an MREADY are performed, its flag is decremented, and the gang's later mill commands proceed. (R313) -/
  | mreadyDone
  /-- A message arrives at a port and is checked for handle, source and space, then accepted, refused or discarded. (R363) -/
  | messageArrival
  /-- PORTCFG OP 0 applied at the join unit creates a port, possibly preloaded, and returns its handle. (R365) -/
  | portCreate
  /-- PORTCFG OP 1 rewrites depth and permissions and applies OVFCLR and DRAIN. (R365) -/
  | portModify
  /-- PORTCFG OP 2 discards the held messages, frees the port, advances its generation and disables the patterns that list it. (R365) -/
  | portDestroy
  /-- PATSET OP 0 applied at the join unit claims a free pattern and writes its record. (R367) -/
  | patternClaim
  /-- PATSET OP 1 replaces a claimed pattern's record whole. (R367) -/
  | patternRewrite
  /-- PATSET OP 2 disables and frees a pattern. (R367) -/
  | patternRelease
  /-- QCREATE applied at the join unit creates a task queue with its ring and returns its handle. (R376) -/
  | queueCreate
  /-- QDESTROY discards the records, fails pending QPOPs, disables bound patterns and advances the generation. (R381) -/
  | queueDestroy
  /-- A push is placed on-chip or at the ring tail, or refused for error or a full ring. (R377) -/
  | queuePush
  /-- A QPOP reaches the join unit and takes the on-chip head record, or waits for one. (R379) -/
  | queuePopRequest
  /-- A QTRY reaches the join unit and takes an on-chip record or returns none. (R379) -/
  | queueTryRequest
  /-- A refill burst returns, its records are appended on-chip, RFL clears, and pending pops are served. (R378) -/
  | queueRefillDone
  /-- A spilled record's ring write is performed, and its QPUSH completes. (R377) -/
  | queueRingWriteDone
  /-- An aligned 8-byte hart or PCIe write to the port-window aperture is delivered as a message to the port its handle names. (R435) -/
  | portApertureWrite
  /-- A read, or a misaligned or wrong-size write, to the port-window aperture is discarded, and STALECNT increments. (R435) -/
  | portApertureRead
  /-- A firing reaches the partitioning controller, takes the next LOTID and creates a launch entry. (R384) -/
  | firingAtController
  /-- The read of a lot template at the head of its queue completes, and the template is checked. (R388) -/
  | templateReadDone
  /-- In a controller clock the controller admits at most one fitting handler, lot member or restore, placing it under R393 and R394. (R392) -/
  | admission
  /-- An ended gang whose flags have all reached zero has its slot and registers released. (R189) -/
  | gangRelease
  /-- A crew's stand-barrier arrival bit reaches another crew of the stand, which may complete its stand phase. (R345) -/
  | sbarCarrArrival
  /-- A GOPEN reaches the origin table and opens the group, or completes with 0x39 or 0x3A. (R326) -/
  | gopenAtTable
  /-- An STG reaches the origin table and is counted and sent, or completes with 0x3B when the group has been ended. (R291) -/
  | stgAtTable
  /-- An STG lane arrives at a destination, is translated and is written into the landing. (R154) -/
  | stgLaneArrival
  /-- A GCOMMIT or GABORT reaches the origin table and starts the exchange or abort, or completes with 0x3B. (R326) -/
  | gcommitAtTable
  /-- Once the counted STGs and prior accesses are complete, the origin sends each destination a prepare carrying its count. (R158) -/
  | commitPrepareSend
  /-- A prepare arrives at a destination, which checks it and prepares the group, holding its lines. (R159) -/
  | prepareArrival
  /-- Once every entry has been checked, including after pending fills, the destination sends ready or refuse. (R159) -/
  | prepareAnswerSend
  /-- An answer reaches the origin, which decides commit or abort when all have answered or one refused. (R158) -/
  | answerArrival
  /-- PREPTO expires before every answer, and the origin sends abort with cause 0x36. (R158) -/
  | preptoExpiry
  /-- A commit arrives at a destination, which publishes every entry at one instant, releases the lines and acknowledges. (R161) -/
  | commitArrival
  /-- An abort arrives at a destination, which discards the entries, releases the lines and acknowledges. (R161) -/
  | abortArrival
  /-- An acknowledgement reaches the origin. At the last one, the outcome record is written and the flag decremented. (R158) -/
  | groupAckArrival
  /-- GRESOLVE ACT 0 resolves a prepared group of a lost origin as a commit. (R164) -/
  | gresolveCommit
  /-- GRESOLVE ACT 1 resolves a prepared group of a lost origin as an abort. (R164) -/
  | gresolveAbort
  /-- ENGSTOP CMD 1 stops the selected crew or stand, freezes its gangs, stops its engines and withdraws its QPOPs. (R410) -/
  | engstopQuiesce
  /-- Every operation of the quiesced crew is complete, FAULTED, stopped or withdrawn, and the command ends with notice 0x7D. (R410) -/
  | quiesceDrained
  /-- ENGSTOP CMD 2 writes the drained crew's engine state and weight slots to the park area and frees them. (R410) -/
  | engstopPark
  /-- ENGSTOP CMD 3 re-enters parked records into the core without counting flags. (R416) -/
  | engstopUnpark
  /-- ENGSTOP CMD 4 frees a parked crew's slots and allotments and retires its scratchpad. (R410) -/
  | engstopRelease
  /-- ENGSTOP CMD 5 ends the crew or stand at once, discarding its engine work and marking it errored. (R410) -/
  | engstopEnd
  /-- ENGSTOP CMD 6 reads and checks the template of a restore record and queues a restore request. (R415) -/
  | engstopRestoreRequest
  /-- An ENGSTOP command finishes, BUSY clears, RES takes its value and notice 0x7D is pushed. (R422) -/
  | engstopCommandDone
  /-- A write of CSTOP stops or lets run again the selected gang's skidder entries. (R409) -/
  | engstopCstop
  /-- A write of MSTOP stops the mill at the next step boundary, or resumes it from MPROG. (R409) -/
  | engstopMstop
  /-- MTS RNGSEED sets every lane's generator state from the seed. (R96) -/
  | rngseedWrite
  /-- MTS FERR clears the error bit and cause of each flag whose bit is written 1. (R334) -/
  | ferrClear
  /-- A supervisor write of CPROG stops, resumes or repositions a skidder entry according to its state. (R302) -/
  | cprogWrite
  /-- A supervisor write of MPROG stops the mill, sets its resume step or resumes it. (R324) -/
  | mprogWrite
  /-- A supervisor write of SLDEPTH sets stack depths, clearing positions that leave the stack. (R351) -/
  | sldepthWrite
  /-- A supervisor write of a granule tag is checked and stored. (R55) -/
  | gtagWrite
  /-- TIC OP 0 queues removal of a context's leaf entries covering one page from all slices. (R31) -/
  | ticOnePage
  /-- TIC OP 1 queues removal of all of one context's translations and walk-cache entries. (R31) -/
  | ticOneContext
  /-- TIC OP 2 queues removal of every context's translations and walk caches. (R31) -/
  | ticAllContexts
  /-- A queued TIC command finishes once removed translations, fills and first-level copies are settled, and BUSY falls when none remain. (R31) -/
  | ticFinish
  /-- CTXCMD OP 0 reads a context's table entry and makes it live, or sets REFUSED. (R426) -/
  | ctxMakeLive
  /-- CTXCMD OP 1 ends the context's crews, discards its launches, destroys its join objects and closes its records. (R426) -/
  | ctxMakeNotLive
  /-- A make-not-live command finishes once every access of the context is performed or discarded and no prepared group remains. (R426) -/
  | ctxNotLiveDone
  /-- A write of SUPGO loads context 0's window image and starts the supervisor gang in slot 63 of one or every core. (R437) -/
  | supgoStart
  /-- A write of SUPRES resumes a frozen supervisor gang as ERET would. (R431) -/
  | supresResume
  /-- A write to a frozen supervisor's frame window acts as a kind-0 LIMG. (R431) -/
  | supervisorFrameWrite
  /-- MBCMD OP 1 reads MRn into MBDATA0–3. (R439) -/
  | mailboxRead
  /-- MBCMD OP 2 extends MRn with the digest in MBDATA0–3, unless the register is locked. (R439) -/
  | mailboxExtend
  /-- A mailbox command completes, MBSTAT.DONE is set and IRQT 146 is sent. (R439) -/
  | mailboxDone
  /-- An SPDM GET_VERSION request on a DOE mailbox is answered. (R438) -/
  | spdmGetVersion
  /-- An SPDM GET_CAPABILITIES request is answered. (R438) -/
  | spdmGetCapabilities
  /-- An SPDM NEGOTIATE_ALGORITHMS request is answered with SHA3-256. (R438) -/
  | spdmNegotiateAlgorithms
  /-- An SPDM GET_MEASUREMENTS request returns the MRn registers as unsigned measurement blocks. (R438) -/
  | spdmGetMeasurements
  /-- A write of OBSCFG restarts the counters and ticks from the next multiple of 2^K. (R452) -/
  | obscfgWrite
  /-- Writing 0 to OBSLOST clears it. (R452) -/
  | obslostClear
  /-- Writing word 0 of a RAS record clears both of its counts. (R440) -/
  | rasCountClear
  /-- A write of SCRUBCFG changes the scrubber's enable and pace from the next unit. (R441) -/
  | scrubcfgWrite
  /-- A write to any other device register stores its writable fields, clears W1C bits, and ignores other sizes and unlisted offsets. (R425) -/
  | registerWrite
  /-- At the end of each 4,000-clock interval the device computes cluster and device power estimates. (R444) -/
  | powerIntervalEnd
  /-- At each 2^K-clock tick every observation counter is latched and cleared, and the block is written to the ring or dropped. (R451) -/
  | obsTick
  /-- The management controller releases base-die reset, and the boot ROM measures, verifies and jumps to the firmware image, or halts. (R436) -/
  | baseDieResetRelease
  /-- The core's read of a context's 1 KiB window image, started at admission or at a supervisor start, returns and is installed as the core's copy of the windows and apertures, so that the admission's gangs may issue. (R20) -/
  | windowImageReadDone
  /-- A UALink port that lost its link regains it through link-level replay, and traffic on it resumes. (R427) -/
  | ualinkLinkRestored
  deriving DecidableEq, Repr

end Sys2Proof
end

