-- ==== Sys2Proof/WellFormed.lean ====
section
/-! DEFINITION. WellFormed: the checks of an operation that the bundle's bits decide alone (class 1 of Table 7-12, R218),
and the numbers of the operations in the opcode maps (Tables 7-13 and 7-16). A register at or beyond the gang's REGS
(R173) is checked at issue, where REGS is known. -/

namespace Sys2Proof

/-- The opcode of a V-slot operation (Table 7-13) with its operand fields. -/
def Instr.vView : Instr → Option (Nat × VOp)
  | .iadd o => some (0x01, o)
  | .isub o => some (0x02, o)
  | .imul o => some (0x03, o)
  | .imulhS32 o => some (0x04, o)
  | .imulhN32 o => some (0x05, o)
  | .imad o => some (0x06, o)
  | .iminS32 o => some (0x07, o)
  | .iminN32 o => some (0x08, o)
  | .imaxS32 o => some (0x09, o)
  | .imaxN32 o => some (0x0A, o)
  | .iabs o => some (0x0B, o)
  | .ineg o => some (0x0C, o)
  | .iadd64 o => some (0x0D, o)
  | .mov o => some (0x0E, o)
  | .movi o => some (0x0F, o)
  | .and o => some (0x10, o)
  | .or o => some (0x11, o)
  | .xor o => some (0x12, o)
  | .andn o => some (0x13, o)
  | .shl o => some (0x14, o)
  | .shr o => some (0x15, o)
  | .sar o => some (0x16, o)
  | .shfL o => some (0x17, o)
  | .shfR o => some (0x18, o)
  | .popc o => some (0x19, o)
  | .clz o => some (0x1A, o)
  | .brev o => some (0x1B, o)
  | .bfxS32 o => some (0x1C, o)
  | .bfxN32 o => some (0x1D, o)
  | .bfi o => some (0x1E, o)
  | .sel o => some (0x1F, o)
  | .icmpEq o => some (0x20, o)
  | .icmpNe o => some (0x21, o)
  | .icmpLtS32 o => some (0x22, o)
  | .icmpLeS32 o => some (0x23, o)
  | .icmpGtS32 o => some (0x24, o)
  | .icmpGeS32 o => some (0x25, o)
  | .icmpLtN32 o => some (0x26, o)
  | .icmpLeN32 o => some (0x27, o)
  | .icmpGtN32 o => some (0x28, o)
  | .icmpGeN32 o => some (0x29, o)
  | .fadd o => some (0x30, o)
  | .fsub o => some (0x31, o)
  | .fmul o => some (0x32, o)
  | .ffma o => some (0x33, o)
  | .fmin o => some (0x34, o)
  | .fmax o => some (0x35, o)
  | .frcp o => some (0x36, o)
  | .frsq o => some (0x37, o)
  | .fsqrt o => some (0x38, o)
  | .fexp2 o => some (0x39, o)
  | .flog2 o => some (0x3A, o)
  | .fsin o => some (0x3B, o)
  | .fcos o => some (0x3C, o)
  | .fcmpEq o => some (0x40, o)
  | .fcmpNe o => some (0x41, o)
  | .fcmpLt o => some (0x42, o)
  | .fcmpLe o => some (0x43, o)
  | .fcmpGt o => some (0x44, o)
  | .fcmpGe o => some (0x45, o)
  | .fcmpNum o => some (0x46, o)
  | .fcmpNan o => some (0x47, o)
  | .hadd2F16 o => some (0x50, o)
  | .hmul2F16 o => some (0x51, o)
  | .hfma2F16 o => some (0x52, o)
  | .hmin2F16 o => some (0x53, o)
  | .hmax2F16 o => some (0x54, o)
  | .hadd2Bf16 o => some (0x58, o)
  | .hmul2Bf16 o => some (0x59, o)
  | .hfma2Bf16 o => some (0x5A, o)
  | .hmin2Bf16 o => some (0x5B, o)
  | .hmax2Bf16 o => some (0x5C, o)
  | .fdot4E4m3E4m3 o => some (0x60, o)
  | .fdot4E4m3E5m2 o => some (0x61, o)
  | .fdot4E5m2E4m3 o => some (0x62, o)
  | .fdot4E5m2E5m2 o => some (0x63, o)
  | .cvt o => some (0x64, o)
  | .pack o => some (0x65, o)
  | .k4enc o => some (0x66, o)
  | .k4dec o => some (0x67, o)
  | .shflIdx o => some (0x70, o)
  | .shflUp o => some (0x71, o)
  | .shflDown o => some (0x72, o)
  | .shflXor o => some (0x73, o)
  | .voteAll o => some (0x74, o)
  | .voteAny o => some (0x75, o)
  | .voteBal o => some (0x76, o)
  | .pand o => some (0x78, o)
  | .por o => some (0x79, o)
  | .pxor o => some (0x7A, o)
  | .pnot o => some (0x7B, o)
  | .movs o => some (0x7C, o)
  | .chpop o => some (0x7D, o)
  | .lredAddF32 o => some (0x80, o)
  | .lredAddN32 o => some (0x81, o)
  | .lredMinF32 o => some (0x82, o)
  | .lredMaxF32 o => some (0x83, o)
  | .lredMinS32 o => some (0x84, o)
  | .lredMaxS32 o => some (0x85, o)
  | .lredMinN32 o => some (0x86, o)
  | .lredMaxN32 o => some (0x87, o)
  | .lredAnd o => some (0x88, o)
  | .lredOr o => some (0x89, o)
  | .lredXor o => some (0x8A, o)
  | _ => none

/-- The V-slot operation of an opcode (Table 7-13). -/
def vInstr (opc : Nat) (o : VOp) : Option Instr :=
  match opc with
  | 0x01 => some (.iadd o)
  | 0x02 => some (.isub o)
  | 0x03 => some (.imul o)
  | 0x04 => some (.imulhS32 o)
  | 0x05 => some (.imulhN32 o)
  | 0x06 => some (.imad o)
  | 0x07 => some (.iminS32 o)
  | 0x08 => some (.iminN32 o)
  | 0x09 => some (.imaxS32 o)
  | 0x0A => some (.imaxN32 o)
  | 0x0B => some (.iabs o)
  | 0x0C => some (.ineg o)
  | 0x0D => some (.iadd64 o)
  | 0x0E => some (.mov o)
  | 0x0F => some (.movi o)
  | 0x10 => some (.and o)
  | 0x11 => some (.or o)
  | 0x12 => some (.xor o)
  | 0x13 => some (.andn o)
  | 0x14 => some (.shl o)
  | 0x15 => some (.shr o)
  | 0x16 => some (.sar o)
  | 0x17 => some (.shfL o)
  | 0x18 => some (.shfR o)
  | 0x19 => some (.popc o)
  | 0x1A => some (.clz o)
  | 0x1B => some (.brev o)
  | 0x1C => some (.bfxS32 o)
  | 0x1D => some (.bfxN32 o)
  | 0x1E => some (.bfi o)
  | 0x1F => some (.sel o)
  | 0x20 => some (.icmpEq o)
  | 0x21 => some (.icmpNe o)
  | 0x22 => some (.icmpLtS32 o)
  | 0x23 => some (.icmpLeS32 o)
  | 0x24 => some (.icmpGtS32 o)
  | 0x25 => some (.icmpGeS32 o)
  | 0x26 => some (.icmpLtN32 o)
  | 0x27 => some (.icmpLeN32 o)
  | 0x28 => some (.icmpGtN32 o)
  | 0x29 => some (.icmpGeN32 o)
  | 0x30 => some (.fadd o)
  | 0x31 => some (.fsub o)
  | 0x32 => some (.fmul o)
  | 0x33 => some (.ffma o)
  | 0x34 => some (.fmin o)
  | 0x35 => some (.fmax o)
  | 0x36 => some (.frcp o)
  | 0x37 => some (.frsq o)
  | 0x38 => some (.fsqrt o)
  | 0x39 => some (.fexp2 o)
  | 0x3A => some (.flog2 o)
  | 0x3B => some (.fsin o)
  | 0x3C => some (.fcos o)
  | 0x40 => some (.fcmpEq o)
  | 0x41 => some (.fcmpNe o)
  | 0x42 => some (.fcmpLt o)
  | 0x43 => some (.fcmpLe o)
  | 0x44 => some (.fcmpGt o)
  | 0x45 => some (.fcmpGe o)
  | 0x46 => some (.fcmpNum o)
  | 0x47 => some (.fcmpNan o)
  | 0x50 => some (.hadd2F16 o)
  | 0x51 => some (.hmul2F16 o)
  | 0x52 => some (.hfma2F16 o)
  | 0x53 => some (.hmin2F16 o)
  | 0x54 => some (.hmax2F16 o)
  | 0x58 => some (.hadd2Bf16 o)
  | 0x59 => some (.hmul2Bf16 o)
  | 0x5A => some (.hfma2Bf16 o)
  | 0x5B => some (.hmin2Bf16 o)
  | 0x5C => some (.hmax2Bf16 o)
  | 0x60 => some (.fdot4E4m3E4m3 o)
  | 0x61 => some (.fdot4E4m3E5m2 o)
  | 0x62 => some (.fdot4E5m2E4m3 o)
  | 0x63 => some (.fdot4E5m2E5m2 o)
  | 0x64 => some (.cvt o)
  | 0x65 => some (.pack o)
  | 0x66 => some (.k4enc o)
  | 0x67 => some (.k4dec o)
  | 0x70 => some (.shflIdx o)
  | 0x71 => some (.shflUp o)
  | 0x72 => some (.shflDown o)
  | 0x73 => some (.shflXor o)
  | 0x74 => some (.voteAll o)
  | 0x75 => some (.voteAny o)
  | 0x76 => some (.voteBal o)
  | 0x78 => some (.pand o)
  | 0x79 => some (.por o)
  | 0x7A => some (.pxor o)
  | 0x7B => some (.pnot o)
  | 0x7C => some (.movs o)
  | 0x7D => some (.chpop o)
  | 0x80 => some (.lredAddF32 o)
  | 0x81 => some (.lredAddN32 o)
  | 0x82 => some (.lredMinF32 o)
  | 0x83 => some (.lredMaxF32 o)
  | 0x84 => some (.lredMinS32 o)
  | 0x85 => some (.lredMaxS32 o)
  | 0x86 => some (.lredMinN32 o)
  | 0x87 => some (.lredMaxN32 o)
  | 0x88 => some (.lredAnd o)
  | 0x89 => some (.lredOr o)
  | 0x8A => some (.lredXor o)
  | _ => none

/-- The opcode of an M-slot operation (Table 7-16) with its operand fields. -/
def Instr.mView : Instr → Option (Nat × MOp)
  | .ldB8 o => some (0x01, o)
  | .ldB8Sx o => some (0x02, o)
  | .ldB16 o => some (0x03, o)
  | .ldB16Sx o => some (0x04, o)
  | .ldB32 o => some (0x05, o)
  | .ldB64 o => some (0x06, o)
  | .ldB128 o => some (0x07, o)
  | .ldB32S o => some (0x08, o)
  | .ldB64S o => some (0x09, o)
  | .stB8 o => some (0x0A, o)
  | .stB16 o => some (0x0B, o)
  | .stB32 o => some (0x0C, o)
  | .stB64 o => some (0x0D, o)
  | .stB128 o => some (0x0E, o)
  | .ldrawB8 o => some (0x10, o)
  | .ldrawB16 o => some (0x11, o)
  | .ldrawB32 o => some (0x12, o)
  | .ldrawB64 o => some (0x13, o)
  | .strawB8 o => some (0x14, o)
  | .strawB16 o => some (0x15, o)
  | .strawB32 o => some (0x16, o)
  | .strawB64 o => some (0x17, o)
  | .ldx o => some (0x18, o)
  | .stx o => some (0x19, o)
  | .ldc o => some (0x1A, o)
  | .lblk o => some (0x1C, o)
  | .blkwb o => some (0x1D, o)
  | .blkdrop o => some (0x1E, o)
  | .pref o => some (0x1F, o)
  | .atomN32 o => some (0x20, o)
  | .atomS32 o => some (0x21, o)
  | .atomN64 o => some (0x22, o)
  | .atomF32 o => some (0x23, o)
  | .redmN32 o => some (0x24, o)
  | .redmS32 o => some (0x25, o)
  | .redmN64 o => some (0x26, o)
  | .redmF32 o => some (0x27, o)
  | .atomcasB32 o => some (0x28, o)
  | .atomcasB64 o => some (0x29, o)
  | .accstAdd o => some (0x2C, o)
  | .accstOvw o => some (0x2D, o)
  | .accld o => some (0x2E, o)
  | .stch o => some (0x2F, o)
  | .mark o => some (0x30, o)
  | .fence o => some (0x31, o)
  | .send o => some (0x32, o)
  | .qpush o => some (0x33, o)
  | .qpop o => some (0x34, o)
  | .qtry o => some (0x35, o)
  | .stgB32 o => some (0x36, o)
  | .stgB64 o => some (0x37, o)
  | _ => none

/-- The M-slot operation of an opcode (Table 7-16). -/
def mInstr (opc : Nat) (o : MOp) : Option Instr :=
  match opc with
  | 0x01 => some (.ldB8 o)
  | 0x02 => some (.ldB8Sx o)
  | 0x03 => some (.ldB16 o)
  | 0x04 => some (.ldB16Sx o)
  | 0x05 => some (.ldB32 o)
  | 0x06 => some (.ldB64 o)
  | 0x07 => some (.ldB128 o)
  | 0x08 => some (.ldB32S o)
  | 0x09 => some (.ldB64S o)
  | 0x0A => some (.stB8 o)
  | 0x0B => some (.stB16 o)
  | 0x0C => some (.stB32 o)
  | 0x0D => some (.stB64 o)
  | 0x0E => some (.stB128 o)
  | 0x10 => some (.ldrawB8 o)
  | 0x11 => some (.ldrawB16 o)
  | 0x12 => some (.ldrawB32 o)
  | 0x13 => some (.ldrawB64 o)
  | 0x14 => some (.strawB8 o)
  | 0x15 => some (.strawB16 o)
  | 0x16 => some (.strawB32 o)
  | 0x17 => some (.strawB64 o)
  | 0x18 => some (.ldx o)
  | 0x19 => some (.stx o)
  | 0x1A => some (.ldc o)
  | 0x1C => some (.lblk o)
  | 0x1D => some (.blkwb o)
  | 0x1E => some (.blkdrop o)
  | 0x1F => some (.pref o)
  | 0x20 => some (.atomN32 o)
  | 0x21 => some (.atomS32 o)
  | 0x22 => some (.atomN64 o)
  | 0x23 => some (.atomF32 o)
  | 0x24 => some (.redmN32 o)
  | 0x25 => some (.redmS32 o)
  | 0x26 => some (.redmN64 o)
  | 0x27 => some (.redmF32 o)
  | 0x28 => some (.atomcasB32 o)
  | 0x29 => some (.atomcasB64 o)
  | 0x2C => some (.accstAdd o)
  | 0x2D => some (.accstOvw o)
  | 0x2E => some (.accld o)
  | 0x2F => some (.stch o)
  | 0x30 => some (.mark o)
  | 0x31 => some (.fence o)
  | 0x32 => some (.send o)
  | 0x33 => some (.qpush o)
  | 0x34 => some (.qpop o)
  | 0x35 => some (.qtry o)
  | 0x36 => some (.stgB32 o)
  | 0x37 => some (.stgB64 o)
  | _ => none

/-! ### Operand selectors (R207, Table 7-7) -/

/-- A vector register v0–v127. -/
def selV (x : BitVec 8) : Bool := x.toNat < 0x80
/-- A scalar register s0–s31. -/
def selS (x : BitVec 8) : Bool := 0x80 ≤ x.toNat && x.toNat < 0xA0
/-- A latch lv1–lv4 or lx1. -/
def selLatch (x : BitVec 8) : Bool := 0xA0 ≤ x.toNat && x.toNat ≤ 0xA4
/-- A special of Table 7-8. -/
def selSpecial (x : BitVec 8) : Bool := 0xB0 ≤ x.toNat && x.toNat ≤ 0xB9
/-- A special that is uniform (Table 7-8). -/
def selUniform (x : BitVec 8) : Bool := 0xB3 ≤ x.toNat && x.toNat ≤ 0xB9
/-- An integer constant. -/
def selInt (x : BitVec 8) : Bool := 0xC0 ≤ x.toNat && x.toNat ≤ 0xEF
/-- A float constant (Table 7-9). -/
def selFloat (x : BitVec 8) : Bool := 0xF0 ≤ x.toNat && x.toNat ≤ 0xFE
/-- Any source class but the reserved selectors and 0xFF. -/
def selAny (x : BitVec 8) : Bool :=
  selV x || selS x || selLatch x || selSpecial x || selInt x || selFloat x
/-- The vector classes of R232: a vector register, a latch or a special that is not uniform. -/
def selVectorClass (x : BitVec 8) : Bool := selV x || selLatch x || (selSpecial x && !selUniform x)
/-- The source classes of a scalar form (R232), the immediate apart. -/
def selScalarSrc (x : BitVec 8) : Bool := selS x || selInt x || selUniform x
/-- A vector destination: a vector register, or 0xFF for the latches only (R231). -/
def selVDest (x : BitVec 8) : Bool := selV x || x == 0xFF
/-- A predicate named by a selector field (R207). -/
def selPred (x : BitVec 8) : Bool := x.toNat < 8
/-- A predicate destination: p7 is never one (R207). -/
def selPredDest (x : BitVec 8) : Bool := x.toNat < 7

/-- Whether field B names the V76 immediate (R221). -/
def VOp.immB (o : VOp) : Bool := o.long && o.b == 0xFF
/-- Source b of a vector form: any class, or in V76 the immediate. -/
def VOp.bOk (o : VOp) : Bool := selAny o.b || o.immB
/-- Source b of a scalar form. -/
def VOp.bScalarOk (o : VOp) : Bool := selScalarSrc o.b || o.immB
/-- The guard is 0x7 (R202). -/
def VOp.unguarded (o : VOp) : Bool := o.g == 0x7
/-- The rounding mode of the modifier word, 0 (RNE) where the operation takes its defaults (R221). -/
def VOp.mode (o : VOp) : Nat := if o.long && !o.immB then o.imm.toNat % 8 else 0
/-- .SAT of the modifier word (R221). -/
def VOp.sat (o : VOp) : Bool := o.long && !o.immB && o.imm.getLsbD 3
/-- .INF of the modifier word (R221). -/
def VOp.inf (o : VOp) : Bool := o.long && !o.immB && o.imm.getLsbD 4

/-- The modifier word holds only modifiers the operation accepts (R221, R233). -/
def VOp.modsOk (o : VOp) (anyMode sat inf : Bool) : Bool :=
  if o.long && !o.immB then
    o.imm.toNat < 32 && o.mode ≤ 4 && (anyMode || o.mode == 0) && (sat || !o.sat) && (inf || !o.inf)
  else true

/-! ### Type codes (R83) and exact pairs (R250) -/

/-- Integer type codes. -/
def tyInt (t : Nat) : Bool := t ≤ 7
/-- Width in bits of a type code (Table 3-1). -/
def tyWidth (t : Nat) : Nat :=
  match t with
  | 0 | 4 | 11 | 12 => 8
  | 1 | 5 | 9 | 10 => 16
  | 2 | 6 | 8 => 32
  | 3 | 7 => 64
  | _ => 4
/-- The types CVT accepts (R249). -/
def tyCvt (t : Nat) : Bool := t ≤ 12 && t ≠ 3 && t ≠ 7
/-- A conversion in which every source value converts without rounding (R250). -/
def exactPair (td ts : Nat) : Bool :=
  (tyInt td && tyInt ts) || (td == ts && !tyInt td) ||
  (td == 8 && 9 ≤ ts && ts ≤ 12) ||
  ((td == 9 || td == 10) && (ts == 11 || ts == 12)) ||
  (td == 8 && (ts == 0 || ts == 4 || ts == 1 || ts == 5)) ||
  ((td == 9 || td == 10) && (ts == 0 || ts == 4))

/-! ### V-slot classes (Table 7-14) -/

/-- The operand classes of the V-slot operations. -/
inductive VClass
  | two | one | three | add64 | movi | sel | icmp | ftwo | fthree | fone | fcmp | ftwoMin
  | htwo | htwoMin | hthree | dot | cvt | pack | k4enc | k4dec | shfl | voteP | votebal | ptwo | pone | movs | chpop
  | lredAdd | lred
  deriving DecidableEq, Repr

/-- The class of a V-slot opcode (Table 7-14). -/
def vClass (opc : Nat) : VClass :=
  if opc = 0x06 ∨ opc = 0x17 ∨ opc = 0x18 ∨ opc = 0x1E then .three
  else if opc = 0x0D then .add64
  else if opc = 0x0F then .movi
  else if opc = 0x1F then .sel
  else if opc = 0x0B ∨ opc = 0x0C ∨ opc = 0x0E ∨ (0x19 ≤ opc ∧ opc ≤ 0x1B) then .one
  else if opc < 0x20 then .two
  else if opc < 0x30 then .icmp
  else if opc = 0x33 then .fthree
  else if opc < 0x33 then .ftwo
  else if opc < 0x36 then .ftwoMin
  else if opc < 0x40 then .fone
  else if opc < 0x50 then .fcmp
  else if opc = 0x52 ∨ opc = 0x5A then .hthree
  else if opc = 0x50 ∨ opc = 0x51 ∨ opc = 0x58 ∨ opc = 0x59 then .htwo
  else if opc < 0x60 then .htwoMin
  else if opc < 0x64 then .dot
  else if opc = 0x64 then .cvt
  else if opc = 0x65 then .pack
  else if opc = 0x66 then .k4enc
  else if opc = 0x67 then .k4dec
  else if opc < 0x74 then .shfl
  else if opc < 0x76 then .voteP
  else if opc = 0x76 then .votebal
  else if opc < 0x7B then .ptwo
  else if opc = 0x7B then .pone
  else if opc = 0x7C then .movs
  else if opc = 0x7D then .chpop
  else if opc = 0x80 then .lredAdd
  else .lred

/-- Three-source operations read c from field C in V76 and from the destination in V36 (R220, R235). -/
def vThree : VClass → Bool
  | .three | .fthree | .hthree | .dot => true
  | _ => false

/-- A compare is in scalar form when neither source lies in a vector class (R232). -/
def VOp.icmpScalar (o : VOp) : Bool :=
  !selVectorClass o.a && (o.immB || !selVectorClass o.b)

/-- A conversion pair and its modifiers (R249, R250, R251). -/
def VOp.cvtOk (o : VOp) (td ts : Nat) : Bool :=
  o.modsOk (!exactPair td ts) (tyInt td && tyInt ts) (td == 12)

/-- FRCP and FSQRT take any mode; the other one-source float operations take RNE only (Table 8-1). -/
def foneAnyMode (opc : Nat) : Bool := opc == 0x36 || opc == 0x38

/-- Source c of a three-source operation is a class the operation accepts (R235). -/
def VOp.cOk (o : VOp) : Bool := if o.long then selAny o.c else o.d != 0xFF

/-- Source c of a scalar three-source form (R232). -/
def VOp.cScalarOk (o : VOp) : Bool := if o.long then selScalarSrc o.c else true

/-- The bits of a V-slot operation form a legal encoding (R202, R207, R219 to R221, R231 to R262). -/
def VOp.wf (opc : Nat) (o : VOp) : Bool :=
  let k := vClass opc
  o.g != 0xF && (o.long || (o.c == 0 && o.imm == 0)) && (vThree k || o.c == 0) &&
  match k with
  | .two => o.modsOk false false false &&
      (if selS o.d then selScalarSrc o.a && o.bScalarOk && o.unguarded
       else selVDest o.d && selAny o.a && o.bOk)
  | .one => o.b == 0 && o.modsOk false false false &&
      (if selS o.d then selScalarSrc o.a && o.unguarded else selVDest o.d && selAny o.a)
  | .three => o.modsOk false false false &&
      (if selS o.d then selScalarSrc o.a && o.bScalarOk && o.cScalarOk && o.unguarded
       else selVDest o.d && selAny o.a && o.bOk && o.cOk)
  | .add64 => o.modsOk false false false &&
      ((selV o.d && o.d.toNat % 2 == 0) || o.d == 0xFF) &&
      selAny o.a && !selFloat o.a && (!selV o.a || o.a.toNat % 2 == 0) &&
      (o.immB || (selAny o.b && !selFloat o.b && (!selV o.b || o.b.toNat % 2 == 0)))
  | .movi => o.long && o.a == 0 && o.b == 0xFF &&
      (if selS o.d then o.unguarded else selVDest o.d)
  | .sel => o.modsOk false false false &&
      (if selS o.d then selScalarSrc o.a && o.bScalarOk else selVDest o.d && selAny o.a && o.bOk)
  | .icmp => o.modsOk false false false && selPredDest o.d &&
      (if o.icmpScalar then selScalarSrc o.a && o.bScalarOk && o.unguarded else selAny o.a && o.bOk)
  | .ftwo => o.modsOk true false false && selVDest o.d && selAny o.a && o.bOk
  | .ftwoMin => o.modsOk false false false && selVDest o.d && selAny o.a && o.bOk
  | .fthree => o.modsOk true false false && selVDest o.d && selAny o.a && o.bOk && o.cOk
  | .fone => o.b == 0 && o.modsOk (foneAnyMode opc) false false && selVDest o.d && selAny o.a
  | .fcmp => o.modsOk false false false && selPredDest o.d && selAny o.a && o.bOk
  | .htwo => o.modsOk true false false && selVDest o.d && selAny o.a && o.bOk
  | .htwoMin => o.modsOk false false false && selVDest o.d && selAny o.a && o.bOk
  | .hthree => o.modsOk true false false && selVDest o.d && selAny o.a && o.bOk && o.cOk
  | .dot => o.modsOk true false false && selVDest o.d && selAny o.a && o.bOk && o.cOk
  | .cvt => let td := o.b.toNat / 16; let ts := o.b.toNat % 16
      tyCvt td && tyCvt ts && selVDest o.d && selAny o.a && o.cvtOk td ts
  | .pack => let td := o.b.toNat / 16; let ts := o.b.toNat % 16
      tyCvt td && tyWidth td ≤ 16 && (ts == 2 || ts == 6 || ts == 8) && selVDest o.d &&
      selV o.a && o.a.toNat % (32 / tyWidth td) == 0 && o.cvtOk td ts
  | .k4enc => o.modsOk true false false && selVDest o.d && selAny o.a && o.bOk
  | .k4dec => o.modsOk false false false && selVDest o.d && selAny o.a && o.bOk
  | .shfl => o.modsOk false false false && selVDest o.d && selAny o.a && o.bOk
  | .voteP => o.b == 0 && o.modsOk false false false && selPredDest o.d && selPred o.a
  | .votebal => o.b == 0 && o.modsOk false false false && selV o.d && selPred o.a
  | .ptwo => o.modsOk false false false && selPredDest o.d && selPred o.a && selPred o.b
  | .pone => o.b == 0 && o.modsOk false false false && selPredDest o.d && selPred o.a
  | .movs => o.modsOk false false false && selS o.d && selAny o.a && o.bScalarOk && o.unguarded
  | .chpop => o.b == 0 && o.modsOk false false false && selVDest o.d && o.a.toNat < 8
  | .lredAdd => o.b == 0 && o.modsOk true false false && selVDest o.d && selAny o.a
  | .lred => o.b == 0 && o.modsOk false false false && selVDest o.d && selAny o.a

/-! ### M-slot operations (Tables 9-1 and 9-5) -/

/-- An offset selector read per lane (R264). -/
def selOffset (x : BitVec 8) : Bool := selV x || selS x || selLatch x || selSpecial x || selInt x
/-- A group of `g` vector registers (R266). -/
def groupV (x : BitVec 8) (g : Nat) : Bool := selV x && x.toNat % g == 0
/-- Store data of a group of `g` registers (R266). -/
def groupStore (x : BitVec 8) (g : Nat) : Bool :=
  if g = 1 then selAny x else if g = 2 then groupV x 2 || selS x else groupV x g

/-- Registers of the group of a plain load, store or element access, by opcode (R266, R270). -/
def mGroup (opc : Nat) : Nat :=
  match opc with
  | 0x06 | 0x0D | 0x13 | 0x17 | 0x22 | 0x26 | 0x29 | 0x37 => 2
  | 0x07 | 0x0E => 4
  | _ => 1

/-- A uniform operation acts once per issue and requires GM = 0 (R263, Table 9-1). -/
def mUniform (opc : Nat) : Bool :=
  opc == 0x08 || opc == 0x09 || (0x1A ≤ opc && opc ≤ 0x1E) || (0x30 ≤ opc && opc ≤ 0x35)

/-- The bits of an M-slot operation form a legal encoding (R222, R263 to R293). -/
def MOp.wf (opc : Nat) (o : MOp) : Bool :=
  (!mUniform opc || o.gm == 0) &&
  if opc ≤ 0x07 then groupV o.data (mGroup opc) && selOffset o.ofs
  else if opc ≤ 0x09 then selS o.data && selScalarSrc o.ofs
  else if opc ≤ 0x0E then groupStore o.data (mGroup opc) && selOffset o.ofs
  else if opc ≤ 0x13 then groupV o.data (mGroup opc) && selOffset o.ofs
  else if opc ≤ 0x17 then groupStore o.data (mGroup opc) && selOffset o.ofs
  else if opc = 0x18 then selV o.data && o.base.toNat < 16 && selOffset o.ofs
  else if opc = 0x19 then selAny o.data && o.base.toNat < 16 && selOffset o.ofs
  else if opc = 0x1A then o.data.toNat < 16 && selScalarSrc o.ofs && o.z == 0
  else if opc = 0x1C then o.data.toNat < 128 && selScalarSrc o.ofs && o.z == 0
  else if opc ≤ 0x1E then o.data == 0 && selScalarSrc o.ofs && o.z == 0
  else if opc = 0x1F then o.data.toNat < 2 && selOffset o.ofs && o.z == 0
  else if opc ≤ 0x23 then groupV o.data (mGroup opc) && selOffset o.ofs &&
    (if opc = 0x23 then o.z.toNat ≤ 2 else o.z.toNat ≤ 6)
  else if opc ≤ 0x27 then groupStore o.data (mGroup opc) && selOffset o.ofs &&
    (if opc = 0x27 then o.z.toNat ≤ 2 else o.z.toNat ≤ 5)
  else if opc ≤ 0x29 then groupV o.data (mGroup opc) && selOffset o.ofs && o.z == 0
  else if opc ≤ 0x2D then selAny o.data && selOffset o.ofs && o.z == 0
  else if opc = 0x2E then selV o.data && selOffset o.ofs && o.z == 0
  else if opc = 0x2F then o.data.toNat < 8 && selOffset o.ofs
  else if opc = 0x30 then o.data == 0 && o.base == 0 && o.ofs == 0 && o.z == 0
  else if opc = 0x31 then o.data == 0 && o.base == 0 && o.ofs == 0 && o.z.toNat ≤ 6
  else if opc = 0x32 then selS o.data && selScalarSrc o.ofs && o.z == 0
  else if opc ≤ 0x34 then
    selS o.data && o.data.toNat % 8 == 0 && selScalarSrc o.ofs && o.z == 0
  else if opc = 0x35 then o.data.toNat / 32 ≤ 6 && o.data.toNat % 8 == 0 && selScalarSrc o.ofs && o.z == 0
  else groupStore o.data (mGroup opc) && selOffset o.ofs && o.z == 0

/-! ### System registers (Table 11-8) -/

/-- The scope of a system register (R349): which state SELGANG redirects. -/
inductive SysScope | gang | crew | context | core | device
  deriving DecidableEq, Repr

/-- One row of Table 11-8: first and last register number, scope, and the access of an ordinary gang and of the
supervisor. -/
structure SysRow where
  lo : Nat
  hi : Nat
  scope : SysScope
  gangR : Bool
  gangW : Bool
  superR : Bool
  superW : Bool
  deriving DecidableEq, Repr

/-- Table 11-8. -/
def sysTable : List SysRow := [
  ⟨0x0000, 0x001F, .gang, true, false, true, true⟩,
  ⟨0x0020, 0x0020, .gang, true, true, true, true⟩,
  ⟨0x0021, 0x0021, .gang, true, false, true, true⟩,
  ⟨0x0028, 0x002F, .gang, true, true, true, true⟩,
  ⟨0x0030, 0x0030, .gang, true, true, true, true⟩,
  ⟨0x0040, 0x005F, .gang, true, false, true, true⟩,
  ⟨0x0060, 0x0066, .gang, true, false, true, true⟩,
  ⟨0x0070, 0x0072, .gang, true, false, true, true⟩,
  ⟨0x0078, 0x007F, .gang, true, false, true, true⟩,
  ⟨0x0080, 0x00BF, .gang, true, false, true, true⟩,
  ⟨0x00C0, 0x00D0, .crew, true, false, true, true⟩,
  ⟨0x0100, 0x017F, .crew, true, false, true, true⟩,
  ⟨0x0180, 0x037F, .crew, false, false, true, false⟩,
  ⟨0x0380, 0x0380, .core, true, false, true, false⟩,
  ⟨0x0381, 0x0381, .device, true, false, true, false⟩,
  ⟨0x0382, 0x0382, .context, true, false, true, false⟩,
  ⟨0x0383, 0x0383, .core, true, false, true, false⟩,
  ⟨0x0384, 0x0386, .core, false, false, true, true⟩,
  ⟨0x0400, 0x045F, .core, false, false, true, true⟩,
  ⟨0x0460, 0x047F, .context, true, false, true, true⟩,
  ⟨0x0481, 0x04BF, .context, false, false, true, true⟩,
  ⟨0x0500, 0x053F, .gang, true, false, true, true⟩,
  ⟨0x0600, 0x06FF, .crew, true, false, true, true⟩]

/-- The row of Table 11-8 that lists a register. -/
def sysRow (reg : Nat) : Option SysRow := sysTable.find? (fun r => decide (r.lo ≤ reg ∧ reg ≤ r.hi))

/-- MFS of this register is granted to some issuer (R348). -/
def sysReadable (reg : Nat) : Bool := (sysRow reg).any (·.superR)

/-- MTS to this register is granted to some issuer and not refused whole (R348; MP0: R118). -/
def sysWritable (reg : Nat) : Bool := (sysRow reg).any (·.superW) && reg != 0x0028

/-! ### X-slot and C-slot operations -/

/-- NT = 0 with sM ≠ 0, or an odd sM, is refused (R301, R327). -/
def ntOk (nt : BitVec 1) (sm : BitVec 5) : Bool :=
  if nt = 1 then sm.toNat % 2 == 0 else sm == 0

/-- The scope bits of a policy value are not the reserved 7 (R118). -/
def policyOk (v : BitVec 8) : Bool := bitsOf v.toNat 5 3 != 7

/-- A slot operation whose bits form a legal encoding, and any event: what class 1 of Table 7-12 accepts, REGS apart. -/
def Instr.wellFormed : Instr → Bool
  | .cpyt o => ntOk o.nt o.sm
  | .cpyg o => ntOk o.nt o.sm
  | .cpymc o => ntOk o.nt o.sm
  | .cpych o => ntOk o.nt o.sm
  | .wbld o => ntOk o.nt o.sm && o.rf.toNat ≤ 4 && (o.sparse == 0 || (1 ≤ o.rf.toNat && o.rf.toNat ≤ 3))
  | .mma o => o.af.toNat ≤ 3 && o.wf.toNat ≤ 3
  | .mmas o => o.af.toNat ≤ 3 && o.wf.toNat ≤ 3
  | .mldt o => o.sf != 3
  | .mdrain o => o.df.toNat ≤ 4 && o.mode.toNat ≤ 3 && (o.inf == 0 || o.df == 3) &&
      (o.df == 4 || (o.kt == 0 && o.emin == 0))
  | .exit g => g != 0xF
  | .bra g _ => g != 0xF
  | .brap g _ _ _ => g != 0xF
  | .jmpt g x _ _ => g != 0xF && selAny x
  | .call g _ _ => g != 0xF
  | .barset c _ => c.toNat ≤ 16
  | .mfs _ reg => sysReadable reg.toNat
  | .mts _ reg => sysWritable reg.toNat
  | .mpset n v => n != 0 && policyOk v
  | .winset a _ => a.toNat % 2 == 0
  | .patset s _ _ => s.toNat % 4 == 0
  | .portcfg s _ _ => s.toNat % 2 == 0
  | .qcreate s _ _ => s.toNat % 4 == 0
  | .qdestroy s _ _ => s == 0
  | .limg _ kind _ => kind.toNat ≤ 2
  | .simg _ kind _ => kind.toNat ≤ 2
  | i =>
    match i.vView with
    | some (n, o) => o.wf n
    | none =>
      match i.mView with
      | some (n, o) => o.wf n
      | none => true

end Sys2Proof
end

