-- ==== Sys2Proof/Machine/Num.lean ====
section
/-! DEFINITION. Num: the number formats and the one rounding function (R83 to R100): a format's values as exact numbers, the
exact arithmetic on them, and rounding with every mode, overflow and saturation. -/

namespace Sys2Proof.Num

/-- An exact number a float pattern or an operation on them can stand for: NaN, an infinity, or the finite value
`(-1)^neg × num ÷ den × 2^e` (a zero keeps its sign; `sticky` adds a positive part below the last bit of `num ÷ den`
where the exact quotient has none to show: a root). -/
inductive XR
  | nan
  | inf (neg : Bool)
  | fin (neg : Bool) (num den : Nat) (e : Int) (sticky : Bool)
  deriving DecidableEq, Repr

/-- The floating-point formats (Table 3-2). -/
structure Fmt where
  ebits : Nat
  mbits : Nat
  bias : Nat
  /-- the format has infinities; E4M3 has none (R86) -/
  hasInf : Bool
  /-- largest finite magnitude, as a pattern -/
  maxFin : Nat
  /-- canonical NaN, as a pattern (R87) -/
  qnan : Nat
  deriving DecidableEq, Repr

def f32 : Fmt := ⟨8, 23, 127, true, 0x7F7FFFFF, 0x7FC00000⟩
def f16 : Fmt := ⟨5, 10, 15, true, 0x7BFF, 0x7E00⟩
def bf16 : Fmt := ⟨8, 7, 127, true, 0x7F7F, 0x7FC0⟩
def e4m3 : Fmt := ⟨4, 3, 7, false, 0x7E, 0x7F⟩
def e5m2 : Fmt := ⟨5, 2, 15, true, 0x7B, 0x7E⟩

/-- Width of a format in bits. -/
def Fmt.width (f : Fmt) : Nat := 1 + f.ebits + f.mbits

/-- The exact value of a pattern (R85, R86). -/
def decode (f : Fmt) (w : Nat) : XR :=
  let s := w.testBit (f.ebits + f.mbits)
  let e := w / 2 ^ f.mbits % 2 ^ f.ebits
  let m := w % 2 ^ f.mbits
  let emax := 2 ^ f.ebits - 1
  if e = 0 then .fin s m 1 (1 - (f.bias : Int) - (f.mbits : Int)) false
  else if f.hasInf && e == emax then (if m = 0 then .inf s else .nan)
  else if !f.hasInf && e == emax && m == 2 ^ f.mbits - 1 then .nan
  else .fin s (2 ^ f.mbits + m) 1 ((e : Int) - (f.bias : Int) - (f.mbits : Int)) false

/-- `num ÷ den × 2^k`, rounded down, and whether nothing was lost. -/
def scaled (num den : Nat) (k : Int) : Nat × Bool :=
  let (n, d) := if 0 ≤ k then (num * 2 ^ k.toNat, den) else (num, den * 2 ^ (-k).toNat)
  (n / d, n % d == 0)

/-- ⌊log2 (num ÷ den)⌋ for a positive quotient. -/
def log2q (num den : Nat) : Int :=
  let l : Int := (Nat.log2 num : Int) - (Nat.log2 den : Int)
  let ge := if 0 ≤ l then decide (den * 2 ^ l.toNat ≤ num) else decide (den ≤ num * 2 ^ (-l).toNat)
  if ge then l else l - 1

/-- Whether the magnitude `n + t/256 (+ more)` is rounded up, by mode (R94, R95): 0 RNE, 1 RZ, 2 RDN, 3 RUP, 4 RS with
draw `r`. -/
def roundUp (mode : Nat) (neg : Bool) (n t : Nat) (exact : Bool) (r : Nat) : Bool :=
  if t = 0 && exact then false
  else match mode with
    | 0 => t > 128 || (t == 128 && (!exact || n % 2 == 1))
    | 1 => false
    | 2 => neg
    | 3 => !neg
    | _ => t + r ≥ 256

/-- The overflow result of an IEEE-style format, as a magnitude pattern (Table 3-7). -/
def overflowMag (f : Fmt) (mode : Nat) (neg : Bool) : Nat :=
  let infinity := f.maxFin + 1
  match mode with
  | 0 => infinity
  | 2 => if neg then infinity else f.maxFin
  | 3 => if neg then f.maxFin else infinity
  | _ => f.maxFin

/-- A magnitude pattern with its sign. -/
def signed (f : Fmt) (neg : Bool) (mag : Nat) : Nat := if neg then 2 ^ (f.ebits + f.mbits) + mag else mag

/-- round(mode, fmt, x) of R94, with R98 for E4M3 and for E5M2 without .INF (`sat`): `r` is the draw under RS (R95). -/
def round (f : Fmt) (sat : Bool) (mode r : Nat) (x : XR) : Nat :=
  match x with
  | .nan => f.qnan
  | .inf neg => signed f neg (if sat || !f.hasInf then f.maxFin else f.maxFin + 1)
  | .fin neg num den e sticky =>
    if num = 0 && !sticky then signed f neg 0
    else
      let qmin : Int := 1 - (f.bias : Int) - (f.mbits : Int)
      let q := max (log2q num den + e - f.mbits) qmin
      let (N, ex) := scaled num den (e - q + 8)
      let n := N / 256
      let t := N % 256
      let up := roundUp mode neg n t (ex && !sticky) r
      let mag := (q - qmin).toNat * 2 ^ f.mbits + (if up then n + 1 else n)
      if mag > f.maxFin then signed f neg (if sat || !f.hasInf then f.maxFin else overflowMag f mode neg)
      else signed f neg mag

/-! ### Exact arithmetic -/

/-- The value with its sign changed. -/
def XR.neg : XR → XR
  | .nan => .nan
  | .inf s => .inf (!s)
  | .fin s n d e k => .fin (!s) n d e k

/-- An integer as an exact value. -/
def XR.ofInt (x : Int) : XR := .fin (decide (x < 0)) x.natAbs 1 0 false

/-- Exact product (R88, R106): zero times infinity is NaN. -/
def XR.mul : XR → XR → XR
  | .nan, _ => .nan
  | _, .nan => .nan
  | .inf s, .inf t => .inf (s != t)
  | .inf s, .fin t n _ _ _ => if n = 0 then .nan else .inf (s != t)
  | .fin t n _ _ _, .inf s => if n = 0 then .nan else .inf (s != t)
  | .fin s n d e _, .fin t n' d' e' _ => .fin (s != t) (n * n') (d * d') (e + e') false

/-- The signed mantissa of a dyadic value at exponent `q ≤ e`. -/
def XR.atExp (q : Int) : XR → Int
  | .fin s n _ e _ => let m : Int := (n * 2 ^ (e - q).toNat : Nat); if s then -m else m
  | _ => 0

/-- The exponent of a finite value, 0 for the others. -/
def XR.exp : XR → Int
  | .fin _ _ _ e _ => e
  | _ => 0

/-- The exact sum of finite dyadic values, as a signed mantissa and an exponent. -/
def exactSum (xs : List XR) : Int × Int :=
  let q := xs.foldl (fun m x => min m x.exp) ((xs.head?.map XR.exp).getD 0)
  (xs.foldl (fun a x => a + x.atExp q) 0, q)

/-- The sign bit of a value (false for NaN). -/
def XR.sign : XR → Bool
  | .nan => false
  | .inf s => s
  | .fin s _ _ _ _ => s

def XR.isNan : XR → Bool
  | .nan => true
  | _ => false

def XR.isInf : XR → Bool
  | .inf _ => true
  | _ => false

def XR.isZero : XR → Bool
  | .fin _ n _ _ k => n == 0 && !k
  | _ => false

/-- The exact sum of a list of values, with `zneg` the sign of an exact zero: NaN for any NaN or for infinities of both
signs, else an infinity, else the exact real sum (R106). -/
def sumWith (zneg : Bool) (xs : List XR) : XR :=
  if xs.any XR.isNan then .nan
  else if xs.any (fun x => x.isInf && x.sign) && xs.any (fun x => x.isInf && !x.sign) then .nan
  else match xs.find? XR.isInf with
    | some x => x
    | none =>
      let (m, q) := exactSum xs
      if m = 0 then .fin zneg 0 1 0 false else .fin (decide (m < 0)) m.natAbs 1 q false

/-- The sum of two values (R88): an exact zero sum of operands of opposite sign is +0, or −0 under RDN. -/
def XR.add (mode : Nat) (a b : XR) : XR :=
  sumWith (if a.sign == b.sign then a.sign else mode == 2) [a, b]

/-- The sum of a mill group or of FDOT4's terms (R106): an exact zero is −0 when every term is −0. -/
def groupSum (xs : List XR) : XR := sumWith (xs.all (fun x => x.sign && x.isZero)) xs

/-- The value `1 ÷ x` of a finite non-zero value. -/
def XR.recip : XR → XR
  | .nan => .nan
  | .inf s => .fin s 0 1 0 false
  | .fin s n d e _ => if n = 0 then .inf s else .fin s d n (-e) false

/-- Order of two values that are not NaN; −0 and +0 compare equal (R244). -/
def XR.lt (a b : XR) : Bool :=
  match a, b with
  | .nan, _ => false
  | _, .nan => false
  | .inf s, .inf t => s && !t
  | .inf s, _ => s
  | _, .inf t => !t
  | .fin _ _ _ e _, .fin _ _ _ e' _ => decide (a.atExp (min e e') < b.atExp (min e e'))

/-- Equality of two values that are not NaN. -/
def XR.eq (a b : XR) : Bool := !a.isNan && !b.isNan && !a.lt b && !b.lt a

/-- The smaller operand's pattern (R243): −0 is less than +0, a lone NaN gives the other, two give the canonical NaN. -/
def fmin (f : Fmt) (a b : Nat) : Nat :=
  let x := decode f a; let y := decode f b
  if x.isNan && y.isNan then f.qnan
  else if x.isNan then b else if y.isNan then a
  else if x.isZero && y.isZero then (if x.sign then a else b)
  else if x.lt y then a else b

/-- The larger operand's pattern (R243). -/
def fmax (f : Fmt) (a b : Nat) : Nat :=
  let x := decode f a; let y := decode f b
  if x.isNan && y.isNan then f.qnan
  else if x.isNan then b else if y.isNan then a
  else if x.isZero && y.isZero then (if x.sign then b else a)
  else if x.lt y then b else a

/-- F32 operations on patterns (R242): `r` is the draw under RS. -/
def fadd (f : Fmt) (mode r a b : Nat) : Nat := round f false mode r ((decode f a).add mode (decode f b))
def fmul (f : Fmt) (mode r a b : Nat) : Nat := round f false mode r ((decode f a).mul (decode f b))
def ffma (f : Fmt) (mode r a b c : Nat) : Nat :=
  round f false mode r (((decode f a).mul (decode f b)).add mode (decode f c))
/-- Subtraction adds the operand with its sign changed; a NaN stays NaN (R87, R242). -/
def fsub (f : Fmt) (mode r a b : Nat) : Nat := round f false mode r ((decode f a).add mode (decode f b).neg)

/-! ### Roots and transcendentals (R245, R246) -/

/-- √x for a value not below zero: 64 more bits than any format keeps, and whether more follow. -/
def XR.sqrt : XR → XR
  | .nan => .nan
  | .inf s => if s then .nan else .inf false
  | .fin s n d e k =>
    if n = 0 then .fin s n d e k
    else if s then .nan
    else
      let odd : Nat := if e % 2 = 0 then 0 else 1
      let m := n * 2 ^ odd * 2 ^ 128
      let q := Nat.sqrt m
      .fin false q 1 ((e - odd) / 2 - 64) (q * q != m)

/-- 1 ÷ √x (R246). -/
def XR.rsqrt : XR → XR
  | .nan => .nan
  | .inf s => if s then .nan else .fin false 0 1 0 false
  | .fin s n _ e _ =>
    if n = 0 then .inf s
    else if s then .nan
    else
      let odd : Nat := if e % 2 = 0 then 0 else 1
      let m := n * 2 ^ odd
      let q := Nat.sqrt (2 ^ 256 / m)
      .fin false q 1 (-((e - odd) / 2) - 128) (q * q * m != 2 ^ 256)

/-- Fixed-point sum of a series of positive terms: `term` gives the next term from the last; every term and the sum are
rounded down, so the sum is low by at most one unit for each term. -/
def series (term : Nat → Nat → Nat) : Nat → Nat → Nat → Nat → Nat
  | 0, _, _, acc => acc
  | fuel + 1, k, t, acc => if t = 0 then acc else series term fuel (k + 1) (term k t) (acc + t)

/-- ln 2 × 2^p, low by at most 2p units: Σ 1 ÷ (k 2^k). -/
def ln2 (p : Nat) : Nat :=
  (List.range p).foldl (fun a k => a + 2 ^ p / ((k + 1) * 2 ^ (k + 1))) 0

/-- atan(1 ÷ n) × 2^p for the Machin formula, within 2p units. -/
def atanInv (p n : Nat) : Int :=
  (List.range p).foldl (fun a k =>
    let t : Int := (2 ^ p / ((2 * k + 1) * n ^ (2 * k + 1)) : Nat)
    if k % 2 = 0 then a + t else a - t) 0

/-- π × 2^p within 40p units (Machin: π = 16 atan(1/5) − 4 atan(1/239)). -/
def piFix (p : Nat) : Int := 16 * atanInv p 5 - 4 * atanInv p 239

/-- A bound on a real value in units of 2^−p. -/
structure Bound where
  lo : Int
  hi : Int
  deriving DecidableEq, Repr

/-- The F32 pattern both ends of a bound round to, if they agree. -/
def Bound.pattern (b : Bound) (e : Int) : Option Nat :=
  let f (x : Int) := round f32 false 0 0 (.fin (decide (x < 0)) x.natAbs 1 e false)
  if f b.lo = f b.hi then some (f b.lo) else none

/-- e^y for 0 ≤ y < 1 given in units of 2^−p, in the same units, by its Taylor series. -/
def expFix (p y : Nat) : Nat := series (fun k t => t * y / 2 ^ p / (k + 1)) (2 * p) 0 (2 ^ p) 0

/-- 2^a for a finite `a = m × 2^e`: bounds on the fraction power, and the integer power (R246). -/
def exp2At (p : Nat) (m e : Int) : Bound × Int :=
  -- a in units of 2^−p is exact: F32 fractions reach 2^−149 and p is larger
  let a : Int := if 0 ≤ e then m * 2 ^ (e.toNat + p) else m * 2 ^ ((p : Int) + e).toNat
  let i := a / 2 ^ p
  let fr := (a % 2 ^ p).toNat
  let y := fr * ln2 p / 2 ^ p
  let v : Int := (expFix p y : Nat)
  (⟨v, v + 16 * p⟩, i)

/-- ln(1 + z) for the ratio `z = (m − 1) ÷ (m + 1)`: 2 atanh z = 2 Σ z^(2k+1) ÷ (2k+1), within 4p units. -/
def lnFix (p num den : Nat) : Nat :=
  let z := (num - den) * 2 ^ p / (num + den)
  let z2 := z * z / 2 ^ p
  2 * ((List.range p).foldl (fun (a : Nat × Nat) k => (a.1 + a.2 / (2 * k + 1), a.2 * z2 / 2 ^ p)) (0, z)).1

/-- log2 of a positive value `num × 2^e` (R246), in units of 2^−p. -/
def log2At (p num : Nat) (e : Int) : Bound :=
  let l := Nat.log2 num
  let i := e + l
  let v : Int := (lnFix p num (2 ^ l) * 2 ^ p / ln2 p : Nat)
  ⟨i * 2 ^ p + v - 64 * p, i * 2 ^ p + v + 64 * p⟩

/-- cos (even start) and sin (odd start) Taylor sums of y in units of 2^−p. -/
def sinCosFix (p : Nat) (y : Nat) : Int × Int :=
  let step (a : (Int × Int) × Nat) (k : Nat) : (Int × Int) × Nat :=
    let t := a.2
    let s : Int := if k / 2 % 2 = 0 then t else -(t : Int)
    ((if k % 2 = 0 then (a.1.1, a.1.2 + s) else (a.1.1 + s, a.1.2)), t * y / 2 ^ p / (k + 1))
  ((List.range (p / 2)).foldl step ((0, 0), 2 ^ p)).1

/-- sin (or cos) of the positive value `num × 2^e`, in units of 2^−p: reduced by multiples of π ÷ 2, exactly enough. -/
def sinCosAt (p : Nat) (cosine : Bool) (num : Nat) (e : Int) : Bound :=
  let x : Nat := if 0 ≤ e then num * 2 ^ (e.toNat + p) else num * 2 ^ ((p : Int) + e).toNat
  -- π with 256 more bits, so that the multiple taken away is exact to 2^−p
  let pi2 := (piFix (p + 256)).toNat
  let k := x * 2 ^ 257 / pi2
  let r := (x * 2 ^ 256 - k * pi2 / 2) / 2 ^ 256
  let (s, c) := sinCosFix p r
  let q := (k + if cosine then 1 else 0) % 4
  let v : Int := if q = 0 then s else if q = 1 then c else if q = 2 then -s else -c
  ⟨v - 8 * p, v + 8 * p⟩

/-- The first precision whose bound rounds to one pattern. -/
def settle (at_ : Nat → Option Nat) : List Nat → Nat
  | [] => f32.qnan
  | p :: ps => match at_ p with
    | some w => w
    | none => settle at_ ps

/-- The precisions tried. The values are never a tie or exact where they are not handled apart, so one of these settles. -/
def precisions : List Nat := [224, 640, 1280, 2560]

/-- FRCP (R245). -/
def frcp (mode r a : Nat) : Nat := round f32 false mode r (decode f32 a).recip
/-- FSQRT (R245). -/
def fsqrt (mode r a : Nat) : Nat := round f32 false mode r (decode f32 a).sqrt
/-- FRSQ (R246). -/
def frsq (a : Nat) : Nat := round f32 false 0 0 (decode f32 a).rsqrt

/-- FEXP2 (R246, Table 8-4). -/
def fexp2 (a : Nat) : Nat :=
  match decode f32 a with
  | .nan => f32.qnan
  | .inf s => if s then 0 else 0x7F800000
  | .fin s n _ e _ =>
    let m : Int := if s then -(n : Int) else n
    let ip : Int := if 0 ≤ e then m * 2 ^ e.toNat else m / 2 ^ (-e).toNat
    if ip ≥ 128 then 0x7F800000
    else if ip < -151 then 0
    else if 0 ≤ e || m % 2 ^ (-e).toNat = 0 then round f32 false 0 0 (.fin false 1 1 ip false)
    else settle (fun p => let (b, i) := exp2At p m e; b.pattern (i - p)) precisions

/-- FLOG2 (R246, Table 8-4). -/
def flog2 (a : Nat) : Nat :=
  match decode f32 a with
  | .nan => f32.qnan
  | .inf s => if s then f32.qnan else 0x7F800000
  | .fin s n _ e _ =>
    if n = 0 then 0xFF800000
    else if s then f32.qnan
    else if n = 2 ^ Nat.log2 n then round f32 false 0 0 (XR.ofInt (e + Nat.log2 n))
    else settle (fun p => (log2At p n e).pattern (-(p : Int))) precisions

/-- FSIN (R246, Table 8-4): odd, so the sign of the argument is put back. -/
def fsin (a : Nat) : Nat :=
  match decode f32 a with
  | .nan | .inf _ => f32.qnan
  | .fin s n _ e _ =>
    if n = 0 then signed f32 s 0
    else settle (fun p =>
      let b := sinCosAt p false n e
      (if s then (⟨-b.hi, -b.lo⟩ : Bound) else b).pattern (-(p : Int))) precisions

/-- FCOS (R246, Table 8-4). -/
def fcos (a : Nat) : Nat :=
  match decode f32 a with
  | .nan | .inf _ => f32.qnan
  | .fin _ n _ e _ =>
    if n = 0 then 0x3F800000
    else settle (fun p => (sinCosAt p true n e).pattern (-(p : Int))) precisions

/-! ### The K4 family (R89 to R92, R99) -/

/-- Magnitude of the value of code bits b2b1b0 under types 1 to 3, in eighths (Table 3-4). -/
def k4Mag8 (t k : Nat) : Nat :=
  match t with
  | 1 => if k / 2 = 0 then k % 2 * 4 else 2 ^ (k / 2 - 1) * (8 + k % 2 * 4)
  | 2 => if k = 0 then 0 else 2 ^ (k - 1)
  | _ => if k ≤ 3 then k * 8 else 2 ^ (k - 2) * 8

/-- The value of code `c` under scale byte `s` (R90 to R92). -/
def k4Value (s c : Nat) : XR :=
  let t := s / 64 % 4
  let e : Int := (s % 64 : Nat) - 32
  if t = 0 then
    let x := sextInt c 4
    .fin (decide (x < 0)) x.natAbs 1 e false
  else .fin (c.testBit 3) (k4Mag8 t (c % 8)) 1 (e - 3) false

/-- The F32 pattern of a K4 element (R92: exact). -/
def k4ToF32 (s c : Nat) : Nat := round f32 false 0 0 (k4Value s c)

/-- The magnitudes of the positive codes of a type in eighths, ascending, with their code bits; type 0 has −8 too. -/
def k4Mags (t : Nat) (neg : Bool) : List (Nat × Nat) :=
  if t = 0 then
    if neg then (0, 0) :: (List.range 8).map (fun i => ((i + 1) * 8, 16 - (i + 1)))
    else (List.range 8).map (fun i => (i * 8, i))
  else (List.range 8).map (fun k => (k4Mag8 t k, if neg then 8 + k else k))

/-- Choose between neighbours `a` (smaller) and `b` (larger magnitude, eighths) for `y = num ÷ den` eighths (R99). -/
def k4Up (mode : Nat) (neg : Bool) (num den a b bCodeOdd r : Nat) : Bool :=
  if num = a * den then false
  else match mode with
    | 0 => let l := 2 * num; let mid := (a + b) * den
           l > mid || (l == mid && bCodeOdd == 0)
    | 1 => false
    | 2 => neg
    | 3 => !neg
    | _ => 256 * (num - a * den) / ((b - a) * den) + r ≥ 256

/-- The code for `y = num ÷ den` eighths among the magnitudes of a column; beyond the last one it saturates (R98). -/
def k4Pick (mode : Nat) (neg : Bool) (num den r : Nat) : List (Nat × Nat) → Nat
  | [] => 0
  | [(_, c)] => c
  | (a, ca) :: (b, cb) :: rest =>
    if num ≤ b * den then (if num = b * den then cb else if k4Up mode neg num den a b (cb % 2) r then cb else ca)
    else k4Pick mode neg num den r ((b, cb) :: rest)

/-- Encode an F32 value as K4 under scale byte `s` (R98, R99). NaN gives 0; an infinity saturates. -/
def k4Encode (mode r s : Nat) (x : XR) : Nat :=
  let t := s / 64 % 4
  let e : Int := (s % 64 : Nat) - 32
  match x with
  | .nan => 0
  | .inf neg => ((k4Mags t neg).getLast?.map Prod.snd).getD 0
  | .fin neg n d e' _ =>
    if n = 0 then (if t = 0 then 0 else if neg then 8 else 0)
    else
      let k := e' - e + 3
      let (num, den) := if 0 ≤ k then (n * 2 ^ k.toNat, d) else (n, d * 2 ^ (-k).toNat)
      k4Pick mode neg num den r (k4Mags t neg)

/-- Largest positive code value of a type (R252). -/
def k4Max (t : Nat) : Nat := match t with | 0 => 7 | 1 => 6 | 2 => 8 | _ => 32

/-- `|x| ≤ M × 2^(e − 32)` for a finite dyadic value. -/
def k4Fits (m : XR) (mx : Nat) (e : Nat) : Bool :=
  match m with
  | .fin _ n d e' _ =>
    let k := e' - ((e : Int) - 32)
    if 0 ≤ k then decide (n * 2 ^ k.toNat ≤ mx * d) else decide (n ≤ mx * d * 2 ^ (-k).toNat)
  | _ => true

/-- The scale byte K4ENC chooses (R252): the smallest e in EMIN..63 for which the largest finite magnitude fits. -/
def k4Scale (t emin : Nat) (xs : List XR) : Nat :=
  let fits (e : Nat) := xs.all (fun x => k4Fits x (k4Max t) e)
  let e := ((List.range 64).find? (fun e => decide (emin ≤ e) && fits e)).getD 63
  t * 64 + e

/-! ### Conversions (R97, R98, R100, R249) -/

/-- The float format of a type code (Table 3-1). -/
def fmtOf (ty : Nat) : Fmt :=
  match ty with
  | 9 => f16
  | 10 => bf16
  | 11 => e4m3
  | 12 => e5m2
  | _ => f32

/-- The exact value of a source of type code `ty` (R83 to R86). -/
def tyValue (ty w : Nat) : XR :=
  if ty ≤ 3 then XR.ofInt (w % 2 ^ tyWidth ty : Nat)
  else if ty ≤ 7 then XR.ofInt (sextInt w (tyWidth ty))
  else decode (fmtOf ty) (w % 2 ^ tyWidth ty)

/-- Smallest and largest value of an integer type (R84). -/
def intRange (ty : Nat) : Int × Int :=
  let n := tyWidth ty
  if ty ≤ 3 then (0, 2 ^ n - 1) else (-(2 ^ (n - 1)), 2 ^ (n - 1) - 1)

/-- A value clamped to a range. -/
def clampInt (r : Int × Int) (x : Int) : Int := if x < r.1 then r.1 else if x > r.2 then r.2 else x

/-- A float value as an integer of the type: rounded under the mode, saturated; NaN gives 0 (R100). -/
def toIntSat (ty mode r : Nat) (x : XR) : Int :=
  match x with
  | .nan => 0
  | .inf s => if s then (intRange ty).1 else (intRange ty).2
  | .fin s n d e _ =>
    let (N, ex) := scaled n d (e + 8)
    let q := N / 256
    let m : Int := (if roundUp mode s q (N % 256) ex r then q + 1 else q : Nat)
    clampInt (intRange ty) (if s then -m else m)

/-- The low bits of a result of type `td` as the 32-bit register receives them (R249): N8 and N16 zero-extended, S8 and
S16 sign-extended, floats zero above. -/
def narrow32 (td : Nat) (x : Int) : Nat :=
  if td ≤ 3 then wrapInt x (min 32 (tyWidth td)) else wrapInt (sextInt (wrapInt x (tyWidth td)) (tyWidth td)) 32

/-- CVT.td.ts of one element (R97 to R100, R249): `r` is the draw under RS; a float converted to the same float keeps its bits, an
infinity of E5M2 among them. -/
def cvt (td ts mode : Nat) (sat inf : Bool) (r w : Nat) : Nat :=
  if tyInt td then
    if tyInt ts then
      let x : Int := if ts ≤ 3 then (w % 2 ^ tyWidth ts : Nat) else sextInt w (tyWidth ts)
      narrow32 td (if sat then clampInt (intRange td) x else x)
    else narrow32 td (toIntSat td mode r (tyValue ts w))
  else round (fmtOf td) (td == 12 && ts != 12 && !inf) mode r (tyValue ts w)

/-- One step of a lane's generator (R96). -/
def rngStep (s : W32) : W32 :=
  let s := s ^^^ (s <<< 13)
  let s := s ^^^ (s >>> 17)
  s ^^^ (s <<< 5)

/-- The draw of a new state (R96). -/
def rngDraw (s : W32) : Nat := s.toNat / 2 ^ 24

/-- The state of lane L after a write of RNGSEED (R96). -/
def rngSeed (seed : W32) (l : Nat) : W32 :=
  let x := seed + BitVec.ofNat 32 (0x9E3779B9 * (l + 1))
  if x = 0 then 1 else x

end Sys2Proof.Num
end

