-- ==== Sys2Proof/Machine/Alu.lean ====
section
/-! DEFINITION. Alu: what each integer, float, paired, conversion and cross-lane operation computes from operand values
(R236 to R259), on numbers below `2^w` for a width `w` of 32 (vector form) or 64 (scalar form). -/

namespace Sys2Proof.Alu
open Sys2Proof.Num

/-- The low `w` bits. -/
def lo (w x : Nat) : Nat := x % 2 ^ w
/-- All ones. -/
def ones (w : Nat) : Nat := 2 ^ w - 1

def iadd (w a b : Nat) : Nat := lo w (a + b)
/-- Carry out of the unsigned sum. -/
def iaddCarry (w a b : Nat) : Bool := decide (2 ^ w ≤ a + b)
def isub (w a b : Nat) : Nat := lo w (a + 2 ^ w - b)
/-- Borrow of the unsigned difference. -/
def isubBorrow (a b : Nat) : Bool := decide (a < b)
def imul (w a b : Nat) : Nat := lo w (a * b)
def imulhS (w a b : Nat) : Nat := wrapInt (sextInt a w * sextInt b w / 2 ^ w) w
def imulhN (w a b : Nat) : Nat := lo w (a * b / 2 ^ w)
def imad (w a b c : Nat) : Nat := lo w (a * b + c)
def iminS (w a b : Nat) : Nat := if sextInt b w < sextInt a w then b else a
def iminN (a b : Nat) : Nat := if b < a then b else a
def imaxS (w a b : Nat) : Nat := if sextInt a w < sextInt b w then b else a
def imaxN (a b : Nat) : Nat := if a < b then b else a
def iabs (w a : Nat) : Nat := if sextInt a w < 0 then lo w (2 ^ w - a) else a
def ineg (w a : Nat) : Nat := lo w (2 ^ w - a)
def andn (w a b : Nat) : Nat := a &&& (ones w - b)
def shl (w a b : Nat) : Nat := let n := b % 256; if n ≥ w then 0 else lo w (a * 2 ^ n)
def shr (w a b : Nat) : Nat := let n := b % 256; if n ≥ w then 0 else a / 2 ^ n
def sar (w a b : Nat) : Nat := wrapInt (sextInt a w / 2 ^ (min (b % 256) w)) w
/-- R239: the upper word of the shifted pair (c, a). -/
def shfL (w a b c : Nat) : Nat := lo w ((c * 2 ^ w + a) * 2 ^ (min (b % 256) w) / 2 ^ w)
/-- R239: the lower word of the shifted pair (c, a). -/
def shfR (w a b c : Nat) : Nat := lo w ((c * 2 ^ w + a) / 2 ^ (min (b % 256) w))
def popc (w a : Nat) : Nat := popNat w a
def clz (w a : Nat) : Nat := if a = 0 then w else w - 1 - Nat.log2 a
def brev (w a : Nat) : Nat := (List.range w).foldl (fun r i => 2 * r + a / 2 ^ i % 2) 0
/-- Position, and length cut at the top bit, of a bit field (R238); length 0 means no field. -/
def field (w b : Nat) : Nat × Nat :=
  let pos := b % 256; let len := b / 256 % 256
  if len = 0 ∨ pos ≥ w then (0, 0) else (pos, min len (w - pos))
def bfxN (w a b : Nat) : Nat := let (p, m) := field w b; a / 2 ^ p % 2 ^ m
def bfxS (w a b : Nat) : Nat := let (p, m) := field w b; wrapInt (sextInt (a / 2 ^ p) m) w
def bfi (w a b c : Nat) : Nat :=
  let (p, m) := field w b; if m = 0 then c else setBits c (p + m - 1) p a

/-- ICMP conditions by opcode 0x20 to 0x29 (R240). -/
def icmpEq (a b : Nat) : Bool := a == b
def icmpNe (a b : Nat) : Bool := a != b
def icmpLtS (w a b : Nat) : Bool := decide (sextInt a w < sextInt b w)
def icmpLeS (w a b : Nat) : Bool := decide (sextInt a w ≤ sextInt b w)
def icmpLtN (a b : Nat) : Bool := decide (a < b)
def icmpLeN (a b : Nat) : Bool := decide (a ≤ b)

/-! FCMP (R244): `u` tells that a NaN takes part. -/
def fnan (a b : Nat) : Bool := (decode f32 a).isNan || (decode f32 b).isNan
def flt (a b : Nat) : Bool := (decode f32 a).lt (decode f32 b)
def feq (a b : Nat) : Bool := (decode f32 a).eq (decode f32 b)
def fle (a b : Nat) : Bool := flt a b || feq a b

/-- A paired operation: each half on its own, the low half first (R247). -/
def pair2 (f : Nat → Nat → Nat) (a b : Nat) : Nat :=
  f (a % 65536) (b % 65536) + 65536 * f (a / 65536 % 65536) (b / 65536 % 65536)
/-- A paired operation that rounds, with a draw for each half. -/
def pair2r (f : Nat → Nat → Nat → Nat) (r0 r1 a b : Nat) : Nat :=
  f r0 (a % 65536) (b % 65536) + 65536 * f r1 (a / 65536 % 65536) (b / 65536 % 65536)
def pair3r (f : Nat → Nat → Nat → Nat → Nat) (r0 r1 a b c : Nat) : Nat :=
  f r0 (a % 65536) (b % 65536) (c % 65536) +
    65536 * f r1 (a / 65536 % 65536) (b / 65536 % 65536) (c / 65536 % 65536)

/-- FDOT4 (R248): the exact sum of c and the four products, rounded once. -/
def fdot4 (fa fb : Fmt) (mode r a b c : Nat) : Nat :=
  let el (f : Fmt) (x i : Nat) := decode f (x / 256 ^ i % 256)
  round f32 false mode r
    (groupSum (decode f32 c :: (List.range 4).map (fun i => (el fa a i).mul (el fb b i))))

/-- K4DEC (R253). -/
def k4dec (a b : Nat) : Nat := k4ToF32 (b % 256) (a / 16 ^ (b / 256 % 8) % 16)

/-- The source lane of a shuffle (R255): `kind` 0 IDX, 1 UP, 2 DOWN, 3 XOR. -/
def shflLane (kind l b : Nat) : Nat :=
  let n := b % 32
  let k := b / 256 % 8
  let w := if 1 ≤ k ∧ k ≤ 4 then 2 ^ k else 32
  let base := l - l % w
  match kind with
  | 0 => base + n % w
  | 1 => if base + n ≤ l then l - n else l
  | 2 => if l + n < base + w then l + n else l
  | _ => base + ((l - base) ^^^ (n % w))

/-- One level of the reduction tree (R108): each node from its two children, a lone child unchanged. The values carry
their lowest present lane, whose generator rounds; `f` gives the rounded sum and threads the generators `g`. -/
def treeLevel {G : Type} (f : G → Nat → Nat → Nat → Nat × G) :
    G → List (Option (Nat × Nat)) → List (Option (Nat × Nat)) × G
  | g, x :: y :: rest =>
    let (n, g1) := match x, y with
      | some (la, a), some (_, b) => let (v, g1) := f g la a b; (some (la, v), g1)
      | some p, none => (some p, g)
      | none, q => (q, g)
    let (ns, g2) := treeLevel f g1 rest
    (n :: ns, g2)
  | g, xs => (xs, g)

/-- The five levels of the tree over 32 lane positions (R108); an absent root gives +0. -/
def tree {G : Type} (f : G → Nat → Nat → Nat → Nat × G) (g : G) (xs : List (Option (Nat × Nat))) : Nat × G :=
  let step (p : List (Option (Nat × Nat)) × G) := treeLevel f p.2 p.1
  let r := step (step (step (step (step (xs, g)))))
  ((r.1.head?.join.map Prod.snd).getD 0, r.2)

end Sys2Proof.Alu
end

