-- ==== Sys2Proof/Decode.lean ====
section
/-! DEFINITION. Decode: from the bits of a slot to its operation or a rejection by name, from a bundle to its gap and its
slots, and the encoder written from the same tables (R200 to R225, R294, R303 to R326, R328). -/

namespace Sys2Proof

/-- Why the bits of a slot or a bundle name no operation (R225). -/
inductive DecodeError
  /-- the template field holds 4 to 15 (R5): the illegal-bundle trap -/
  | reservedTemplate
  /-- an opcode no table assigns (R219, R222 to R224): the illegal-operation trap -/
  | reservedOpcode
  /-- a bit that must be zero is one (R225): the illegal-operation trap -/
  | mustBeZero
  /-- a reserved value or a selector class not accepted (class 1 of Table 7-12): the illegal-operation trap -/
  | illegalField
  deriving DecidableEq, Repr

/-- Field `[lo+n-1:lo]` of a word. -/
def fld (n w lo : Nat) : BitVec n := BitVec.ofNat n (w / 2 ^ lo)

/-- Bits `[lo+n-1:lo]` of the word are all zero. -/
def zeroBits (w lo n : Nat) : Bool := w / 2 ^ lo % 2 ^ n == 0

/-- Accept an operation whose fields are legal. -/
def accept (i : Instr) : Except DecodeError Instr :=
  if i.wellFormed then .ok i else .error .illegalField

/-- Accept an operation whose unnamed bits are zero and whose fields are legal. -/
def acceptZ (z : Bool) (i : Instr) : Except DecodeError Instr :=
  if z then accept i else .error .mustBeZero

/-- The 36 bits of a V slot (R202, R206). -/
def decodeV36 (w : Nat) : Except DecodeError Instr :=
  let opc := w / 2 ^ 28 % 256
  if opc = 0 then .ok (.nopSlot .v36)
  else match vInstr opc ⟨false, fld 8 w 20, fld 8 w 12, fld 8 w 4, fld 4 w 0, 0, 0⟩ with
    | some i => accept i
    | none => .error .reservedOpcode

/-- The 76 bits of a long V slot (R202, R206). -/
def decodeV76 (w : Nat) : Except DecodeError Instr :=
  let opc := w / 2 ^ 68 % 256
  if opc = 0 then .ok (.nopSlot .v76)
  else match vInstr opc ⟨true, fld 8 w 60, fld 8 w 52, fld 8 w 44, fld 4 w 40, fld 8 w 32, fld 32 w 0⟩ with
    | some i => accept i
    | none => .error .reservedOpcode

/-- The 40 bits of an M slot (R203, R206). -/
def decodeM40 (w : Nat) : Except DecodeError Instr :=
  let opc := w / 2 ^ 34 % 64
  if opc = 0 then .ok (.nopSlot .m40)
  else match mInstr opc ⟨fld 8 w 26, fld 5 w 21, fld 8 w 13, fld 3 w 10, fld 3 w 7, fld 5 w 2, fld 2 w 0⟩ with
    | some i => accept i
    | none => .error .reservedOpcode

/-- The 32 bits of an X slot (R204, R206, R223). -/
def decodeX32 (w : Nat) : Except DecodeError Instr :=
  match w / 2 ^ 26 % 64 with
  | 0x00 => .ok .nopX32
  | 0x01 => acceptZ (true) (.cpy (fld 5 w 21) (fld 3 w 18) (fld 5 w 13) (fld 5 w 8) (fld 5 w 3) (fld 3 w 0))
  | 0x02 => acceptZ (true) (.cpyfill (fld 5 w 21) (fld 3 w 18) (fld 5 w 13) (fld 5 w 8) (fld 5 w 3) (fld 3 w 0))
  | 0x08 => acceptZ (zeroBits w 0 21) (.macq (fld 5 w 21))
  | 0x09 => acceptZ (zeroBits w 0 21) (.mrel (fld 5 w 21))
  | 0x0A => acceptZ (zeroBits w 0 21) (.mready (fld 5 w 21))
  | 0x0B => acceptZ (zeroBits w 0 21) (.mfence (fld 5 w 21))
  | 0x0C => acceptZ (zeroBits w 18 3) (.mzero (fld 5 w 21) (fld 11 w 7) (fld 7 w 0))
  | 0x0D => acceptZ (zeroBits w 0 13 && zeroBits w 18 3) (.mstat (fld 5 w 21) (fld 5 w 13))
  | 0x10 => acceptZ (zeroBits w 0 8 && zeroBits w 18 3) (.gopen (fld 5 w 21) (fld 10 w 8))
  | 0x11 => acceptZ (zeroBits w 0 8 && zeroBits w 18 3) (.gcommit (fld 5 w 21) (fld 10 w 8))
  | 0x12 => acceptZ (zeroBits w 0 8 && zeroBits w 18 3) (.gabort (fld 5 w 21) (fld 10 w 8))
  | 0x13 => acceptZ (zeroBits w 0 3 && zeroBits w 18 3) (.gquery (fld 5 w 21) (fld 10 w 8) (fld 5 w 3))
  | _ => .error .reservedOpcode

/-- The 72 bits of an X slot (R204, R206, R223). -/
def decodeX72 (w : Nat) : Except DecodeError Instr :=
  match w / 2 ^ 64 % 256 with
  | 0x00 => .ok (.nopSlot .x72)
  | 0x40 => acceptZ (zeroBits w 0 24) (.cpyt ⟨fld 5 w 59, fld 3 w 56, fld 5 w 51, fld 5 w 46, fld 5 w 41, fld 5 w 36, fld 3 w 33, fld 3 w 30, fld 1 w 29, fld 5 w 24⟩)
  | 0x41 => acceptZ (zeroBits w 0 19) (.cpyg ⟨fld 5 w 59, fld 3 w 56, fld 5 w 51, fld 5 w 46, fld 5 w 41, fld 5 w 36, fld 5 w 31, fld 3 w 28, fld 1 w 27, fld 5 w 22, fld 3 w 19⟩)
  | 0x42 => acceptZ (zeroBits w 0 21) (.cpymc ⟨fld 5 w 59, fld 3 w 56, fld 5 w 51, fld 5 w 46, fld 5 w 41, fld 8 w 33, fld 3 w 30, fld 3 w 27, fld 1 w 26, fld 5 w 21⟩)
  | 0x43 => acceptZ (zeroBits w 0 20) (.cpych ⟨fld 5 w 59, fld 3 w 56, fld 5 w 51, fld 5 w 46, fld 3 w 43, fld 4 w 39, fld 3 w 36, fld 7 w 29, fld 3 w 26, fld 1 w 25, fld 5 w 20⟩)
  | 0x44 => acceptZ (zeroBits w 0 23) (.wbld ⟨fld 5 w 59, fld 3 w 56, fld 5 w 51, fld 9 w 42, fld 6 w 36, fld 1 w 35, fld 3 w 32, fld 3 w 29, fld 1 w 28, fld 5 w 23⟩)
  | 0x48 => acceptZ (zeroBits w 0 14 && zeroBits w 56 3) (.mma ⟨fld 5 w 59, fld 11 w 45, fld 9 w 36, fld 5 w 31, fld 3 w 28, fld 2 w 26, fld 2 w 24, fld 4 w 20, fld 3 w 17, fld 3 w 14⟩)
  | 0x49 => acceptZ (zeroBits w 0 14 && zeroBits w 56 3) (.mmas ⟨fld 5 w 59, fld 11 w 45, fld 9 w 36, fld 5 w 31, fld 3 w 28, fld 2 w 26, fld 2 w 24, fld 4 w 20, fld 3 w 17, fld 3 w 14⟩)
  | 0x4A => acceptZ (zeroBits w 0 30 && zeroBits w 56 3) (.mldt ⟨fld 5 w 59, fld 5 w 51, fld 11 w 40, fld 4 w 36, fld 2 w 34, fld 1 w 33, fld 3 w 30⟩)
  | 0x4B => acceptZ (zeroBits w 0 22 && zeroBits w 56 3) (.mdrain ⟨fld 5 w 59, fld 11 w 45, fld 4 w 41, fld 3 w 38, fld 3 w 35, fld 3 w 32, fld 1 w 31, fld 2 w 29, fld 6 w 23, fld 1 w 22⟩)
  | _ => .error .reservedOpcode

/-- The 12 bits of a C slot (R205, R206, R224). C12 EXIT ends every active lane (R328). -/
def decodeC12 (w : Nat) : Except DecodeError Instr :=
  match w / 2 ^ 8 % 16 with
  | 0x0 => .ok (.nopSlot .c12)
  | 0x1 => acceptZ (zeroBits w 6 2) (.waitf (fld 1 w 5) (fld 5 w 0))
  | 0x2 => acceptZ (zeroBits w 0 8) (.reconv )
  | 0x3 => acceptZ (zeroBits w 0 8) (.regang )
  | 0x4 => acceptZ (zeroBits w 0 8) (.exit 7)
  | 0x5 => acceptZ (true) (.yield (fld 8 w 0))
  | 0x6 => acceptZ (zeroBits w 4 4) (.bara (fld 4 w 0))
  | 0x7 => acceptZ (zeroBits w 4 4) (.barw (fld 4 w 0))
  | 0x8 => acceptZ (zeroBits w 4 4) (.baraw (fld 4 w 0))
  | 0x9 => acceptZ (zeroBits w 5 3) (.ret (fld 5 w 0))
  | 0xA => acceptZ (true) (.sleep (fld 8 w 0))
  | 0xB => acceptZ (true) (.bkpt (fld 8 w 0))
  | 0xC => acceptZ (zeroBits w 6 2) (.eret (fld 6 w 0))
  | 0xD => acceptZ (true) (.trap (fld 8 w 0))
  | _ => .error .reservedOpcode

/-- The 44 bits of a long C slot (R205, R206, R224, Table 11-1). An operation without a guard of its own requires
guard 0x7. -/
def decodeC44 (w : Nat) : Except DecodeError Instr :=
  match w / 2 ^ 36 % 256 with
  | 0x00 => .ok (.nopSlot .c44)
  | 0x01 => if w / 2 ^ 8 % 16 = 7 then acceptZ (zeroBits w 0 8 && zeroBits w 18 18) (.waitf (fld 1 w 17) (fld 5 w 12)) else .error .illegalField
  | 0x02 => if w / 2 ^ 8 % 16 = 7 then acceptZ (zeroBits w 0 8 && zeroBits w 12 24) (.reconv) else .error .illegalField
  | 0x03 => if w / 2 ^ 8 % 16 = 7 then acceptZ (zeroBits w 0 8 && zeroBits w 12 24) (.regang) else .error .illegalField
  | 0x04 => acceptZ (zeroBits w 0 8 && zeroBits w 12 24) (.exit (fld 4 w 8))
  | 0x05 => if w / 2 ^ 8 % 16 = 7 then acceptZ (zeroBits w 0 8 && zeroBits w 20 16) (.yield (fld 8 w 12)) else .error .illegalField
  | 0x06 => if w / 2 ^ 8 % 16 = 7 then acceptZ (zeroBits w 0 8 && zeroBits w 16 20) (.bara (fld 4 w 12)) else .error .illegalField
  | 0x07 => if w / 2 ^ 8 % 16 = 7 then acceptZ (zeroBits w 0 8 && zeroBits w 16 20) (.barw (fld 4 w 12)) else .error .illegalField
  | 0x08 => if w / 2 ^ 8 % 16 = 7 then acceptZ (zeroBits w 0 8 && zeroBits w 16 20) (.baraw (fld 4 w 12)) else .error .illegalField
  | 0x09 => if w / 2 ^ 8 % 16 = 7 then acceptZ (zeroBits w 0 8 && zeroBits w 17 19) (.ret (fld 5 w 12)) else .error .illegalField
  | 0x0A => if w / 2 ^ 8 % 16 = 7 then acceptZ (zeroBits w 0 8 && zeroBits w 20 16) (.sleep (fld 8 w 12)) else .error .illegalField
  | 0x0B => if w / 2 ^ 8 % 16 = 7 then acceptZ (zeroBits w 0 8 && zeroBits w 20 16) (.bkpt (fld 8 w 12)) else .error .illegalField
  | 0x0C => if w / 2 ^ 8 % 16 = 7 then acceptZ (zeroBits w 0 8 && zeroBits w 18 18) (.eret (fld 6 w 12)) else .error .illegalField
  | 0x0D => if w / 2 ^ 8 % 16 = 7 then acceptZ (zeroBits w 0 8 && zeroBits w 20 16) (.trap (fld 8 w 12)) else .error .illegalField
  | 0x10 => if w / 2 ^ 8 % 16 = 7 then acceptZ (zeroBits w 0 3) (.brfZ (fld 5 w 3) (fld 24 w 12)) else .error .illegalField
  | 0x11 => if w / 2 ^ 8 % 16 = 7 then acceptZ (zeroBits w 0 3) (.brfNz (fld 5 w 3) (fld 24 w 12)) else .error .illegalField
  | 0x12 => if w / 2 ^ 8 % 16 = 7 then acceptZ (zeroBits w 0 3) (.brfErr (fld 5 w 3) (fld 24 w 12)) else .error .illegalField
  | 0x13 => acceptZ (zeroBits w 0 8) (.bra (fld 4 w 8) (fld 24 w 12))
  | 0x14 => acceptZ (zeroBits w 4 4) (.brap (fld 4 w 8) (fld 1 w 3) (fld 3 w 0) (fld 24 w 12))
  | 0x15 => acceptZ (true) (.jmpt (fld 4 w 8) (fld 8 w 28) (fld 16 w 12) (fld 8 w 0))
  | 0x16 => acceptZ (zeroBits w 0 3) (.call (fld 4 w 8) (fld 5 w 3) (fld 24 w 12))
  | 0x17 =>
    if w / 2 ^ 8 % 16 = 7 then
      if zeroBits w 0 8 && zeroBits w 14 22 then
        match w / 2 ^ 12 % 4 with
        | 1 => .ok .sbarA
        | 2 => .ok .sbarW
        | 3 => .ok .sbarAw
        | _ => .error .illegalField
      else .error .mustBeZero
    else .error .illegalField
  | 0x18 => if w / 2 ^ 8 % 16 = 7 then acceptZ (zeroBits w 0 8 && zeroBits w 16 4 && zeroBits w 25 11) (.barset (fld 5 w 20) (fld 4 w 12)) else .error .illegalField
  | 0x19 => if w / 2 ^ 8 % 16 = 7 then acceptZ (zeroBits w 0 8) (.sysc (fld 24 w 12)) else .error .illegalField
  | 0x1A => if w / 2 ^ 8 % 16 = 7 then acceptZ (zeroBits w 0 8 && zeroBits w 28 3) (.mfs (fld 5 w 31) (fld 16 w 12)) else .error .illegalField
  | 0x1B => if w / 2 ^ 8 % 16 = 7 then acceptZ (zeroBits w 0 8 && zeroBits w 28 3) (.mts (fld 5 w 31) (fld 16 w 12)) else .error .illegalField
  | 0x1C => if w / 2 ^ 8 % 16 = 7 then acceptZ (zeroBits w 0 8 && zeroBits w 23 13) (.mpset (fld 3 w 20) (fld 8 w 12)) else .error .illegalField
  | 0x1D => if w / 2 ^ 8 % 16 = 7 then acceptZ (zeroBits w 0 8 && zeroBits w 16 15) (.winset (fld 5 w 31) (fld 4 w 12)) else .error .illegalField
  | 0x1E => if w / 2 ^ 8 % 16 = 7 then acceptZ (zeroBits w 0 3 && zeroBits w 12 14) (.patset (fld 5 w 31) (fld 5 w 26) (fld 5 w 3)) else .error .illegalField
  | 0x1F => if w / 2 ^ 8 % 16 = 7 then acceptZ (zeroBits w 0 3 && zeroBits w 12 14) (.portcfg (fld 5 w 31) (fld 5 w 26) (fld 5 w 3)) else .error .illegalField
  | 0x20 => if w / 2 ^ 8 % 16 = 7 then acceptZ (zeroBits w 0 3 && zeroBits w 12 14) (.qcreate (fld 5 w 31) (fld 5 w 26) (fld 5 w 3)) else .error .illegalField
  | 0x21 => if w / 2 ^ 8 % 16 = 7 then acceptZ (zeroBits w 0 3 && zeroBits w 12 14) (.qdestroy (fld 5 w 31) (fld 5 w 26) (fld 5 w 3)) else .error .illegalField
  | 0x22 => if w / 2 ^ 8 % 16 = 7 then acceptZ (zeroBits w 0 3 && zeroBits w 12 16) (.limg (fld 5 w 31) (fld 3 w 28) (fld 5 w 3)) else .error .illegalField
  | 0x23 => if w / 2 ^ 8 % 16 = 7 then acceptZ (zeroBits w 0 3 && zeroBits w 12 16) (.simg (fld 5 w 31) (fld 3 w 28) (fld 5 w 3)) else .error .illegalField
  | _ => .error .reservedOpcode

/-! ### The encoder -/

/-- The word of an operation in a V36 slot (Table 7-2); none where the slot has no form of it. -/
def encodeV36 (i : Instr) : Option Nat :=
  match i with
  | .nopSlot .v36 => some 0
  | i => match i.vView with
    | some (n, o) =>
      if o.long then none
      else some (n * 2 ^ 28 + o.d.toNat * 2 ^ 20 + o.a.toNat * 2 ^ 12 + o.b.toNat * 2 ^ 4 + o.g.toNat)
    | none => none

/-- The word of an operation in a V76 slot (Table 7-2). -/
def encodeV76 (i : Instr) : Option Nat :=
  match i with
  | .nopSlot .v76 => some 0
  | i => match i.vView with
    | some (n, o) =>
      if o.long then
        some (n * 2 ^ 68 + o.d.toNat * 2 ^ 60 + o.a.toNat * 2 ^ 52 + o.b.toNat * 2 ^ 44 + o.g.toNat * 2 ^ 40 +
          o.c.toNat * 2 ^ 32 + o.imm.toNat)
      else none
    | none => none

/-- The word of an operation in an M40 slot (Table 7-3). -/
def encodeM40 (i : Instr) : Option Nat :=
  match i with
  | .nopSlot .m40 => some 0
  | i => match i.mView with
    | some (n, o) =>
      some (n * 2 ^ 34 + o.data.toNat * 2 ^ 26 + o.base.toNat * 2 ^ 21 + o.ofs.toNat * 2 ^ 13 + o.z.toNat * 2 ^ 10 +
        o.pol.toNat * 2 ^ 7 + o.flag.toNat * 2 ^ 2 + o.gm.toNat)
    | none => none

/-- The word of an operation in an X32 slot (Table 7-5, R303, R312 to R326). -/
def encodeX32 : Instr → Option Nat
  | .nopX32 => some 0
  | .cpy f pol sd ss sn z => some (0x1 * 2 ^ 26 + f.toNat * 2 ^ 21 + pol.toNat * 2 ^ 18 + sd.toNat * 2 ^ 13 + ss.toNat * 2 ^ 8 + sn.toNat * 2 ^ 3 + z.toNat * 2 ^ 0)
  | .cpyfill f pol sd sv sn z => some (0x2 * 2 ^ 26 + f.toNat * 2 ^ 21 + pol.toNat * 2 ^ 18 + sd.toNat * 2 ^ 13 + sv.toNat * 2 ^ 8 + sn.toNat * 2 ^ 3 + z.toNat * 2 ^ 0)
  | .macq f => some (0x8 * 2 ^ 26 + f.toNat * 2 ^ 21)
  | .mrel f => some (0x9 * 2 ^ 26 + f.toNat * 2 ^ 21)
  | .mready f => some (0xA * 2 ^ 26 + f.toNat * 2 ^ 21)
  | .mfence f => some (0xB * 2 ^ 26 + f.toNat * 2 ^ 21)
  | .mzero f t n => some (0xC * 2 ^ 26 + f.toNat * 2 ^ 21 + t.toNat * 2 ^ 7 + n.toNat * 2 ^ 0)
  | .mstat f sd => some (0xD * 2 ^ 26 + f.toNat * 2 ^ 21 + sd.toNat * 2 ^ 13)
  | .gopen f g => some (0x10 * 2 ^ 26 + f.toNat * 2 ^ 21 + g.toNat * 2 ^ 8)
  | .gcommit f g => some (0x11 * 2 ^ 26 + f.toNat * 2 ^ 21 + g.toNat * 2 ^ 8)
  | .gabort f g => some (0x12 * 2 ^ 26 + f.toNat * 2 ^ 21 + g.toNat * 2 ^ 8)
  | .gquery f g sd => some (0x13 * 2 ^ 26 + f.toNat * 2 ^ 21 + g.toNat * 2 ^ 8 + sd.toNat * 2 ^ 3)
  | _ => none

/-- The word of an operation in an X72 slot (Table 7-5, Tables 10-5 and 10-8). -/
def encodeX72 : Instr → Option Nat
  | .nopSlot .x72 => some 0
  | .cpyt o => some (0x40 * 2 ^ 64 + o.f.toNat * 2 ^ 59 + o.pol.toNat * 2 ^ 56 + o.sd.toNat * 2 ^ 51 + o.ss.toNat * 2 ^ 46 + o.sg.toNat * 2 ^ 41 + o.sp.toNat * 2 ^ 36 + o.zd.toNat * 2 ^ 33 + o.zs.toNat * 2 ^ 30 + o.nt.toNat * 2 ^ 29 + o.sm.toNat * 2 ^ 24)
  | .cpyg o => some (0x41 * 2 ^ 64 + o.f.toNat * 2 ^ 59 + o.pol.toNat * 2 ^ 56 + o.sd.toNat * 2 ^ 51 + o.ss.toNat * 2 ^ 46 + o.si.toNat * 2 ^ 41 + o.sg.toNat * 2 ^ 36 + o.sp.toNat * 2 ^ 31 + o.zd.toNat * 2 ^ 28 + o.nt.toNat * 2 ^ 27 + o.sm.toNat * 2 ^ 22 + o.zs.toNat * 2 ^ 19)
  | .cpymc o => some (0x42 * 2 ^ 64 + o.f.toNat * 2 ^ 59 + o.pol.toNat * 2 ^ 56 + o.sd.toNat * 2 ^ 51 + o.ss.toNat * 2 ^ 46 + o.sn.toNat * 2 ^ 41 + o.mask.toNat * 2 ^ 33 + o.zd.toNat * 2 ^ 30 + o.zs.toNat * 2 ^ 27 + o.nt.toNat * 2 ^ 26 + o.sm.toNat * 2 ^ 21)
  | .cpych o => some (0x43 * 2 ^ 64 + o.f.toNat * 2 ^ 59 + o.pol.toNat * 2 ^ 56 + o.sd.toNat * 2 ^ 51 + o.sp.toNat * 2 ^ 46 + o.ch.toNat * 2 ^ 43 + o.n.toNat * 2 ^ 39 + o.zd.toNat * 2 ^ 36 + o.sgran.toNat * 2 ^ 29 + o.sslot.toNat * 2 ^ 26 + o.nt.toNat * 2 ^ 25 + o.sm.toNat * 2 ^ 20)
  | .wbld o => some (0x44 * 2 ^ 64 + o.f.toNat * 2 ^ 59 + o.pol.toNat * 2 ^ 56 + o.ss.toNat * 2 ^ 51 + o.w.toNat * 2 ^ 42 + o.n.toNat * 2 ^ 36 + o.sparse.toNat * 2 ^ 35 + o.rf.toNat * 2 ^ 32 + o.zs.toNat * 2 ^ 29 + o.nt.toNat * 2 ^ 28 + o.sm.toNat * 2 ^ 23)
  | .mma o => some (0x48 * 2 ^ 64 + o.f.toNat * 2 ^ 59 + o.t.toNat * 2 ^ 45 + o.w.toNat * 2 ^ 36 + o.sa.toNat * 2 ^ 31 + o.z.toNat * 2 ^ 28 + o.ms.toNat * 2 ^ 26 + o.ns.toNat * 2 ^ 24 + o.ks.toNat * 2 ^ 20 + o.af.toNat * 2 ^ 17 + o.wf.toNat * 2 ^ 14)
  | .mmas o => some (0x49 * 2 ^ 64 + o.f.toNat * 2 ^ 59 + o.t.toNat * 2 ^ 45 + o.w.toNat * 2 ^ 36 + o.sa.toNat * 2 ^ 31 + o.z.toNat * 2 ^ 28 + o.ms.toNat * 2 ^ 26 + o.ns.toNat * 2 ^ 24 + o.ks.toNat * 2 ^ 20 + o.af.toNat * 2 ^ 17 + o.wf.toNat * 2 ^ 14)
  | .mldt o => some (0x4A * 2 ^ 64 + o.f.toNat * 2 ^ 59 + o.sa.toNat * 2 ^ 51 + o.t.toNat * 2 ^ 40 + o.n.toNat * 2 ^ 36 + o.sf.toNat * 2 ^ 34 + o.add.toNat * 2 ^ 33 + o.z.toNat * 2 ^ 30)
  | .mdrain o => some (0x4B * 2 ^ 64 + o.f.toNat * 2 ^ 59 + o.t.toNat * 2 ^ 45 + o.n.toNat * 2 ^ 41 + o.ch.toNat * 2 ^ 38 + o.df.toNat * 2 ^ 35 + o.mode.toNat * 2 ^ 32 + o.inf.toNat * 2 ^ 31 + o.kt.toNat * 2 ^ 29 + o.emin.toNat * 2 ^ 23 + o.zero.toNat * 2 ^ 22)
  | _ => none

/-- The word of an operation in a C12 slot (Tables 7-6 and 11-1). -/
def encodeC12 : Instr → Option Nat
  | .nopSlot .c12 => some 0
  | .waitf ne f => some (0x1 * 2 ^ 8 + ne.toNat * 2 ^ 5 + f.toNat * 2 ^ 0)
  | .reconv  => some (0x2 * 2 ^ 8)
  | .regang  => some (0x3 * 2 ^ 8)
  | .exit 7 => some (0x4 * 2 ^ 8)
  | .yield n => some (0x5 * 2 ^ 8 + n.toNat * 2 ^ 0)
  | .bara b => some (0x6 * 2 ^ 8 + b.toNat * 2 ^ 0)
  | .barw b => some (0x7 * 2 ^ 8 + b.toNat * 2 ^ 0)
  | .baraw b => some (0x8 * 2 ^ 8 + b.toNat * 2 ^ 0)
  | .ret n => some (0x9 * 2 ^ 8 + n.toNat * 2 ^ 0)
  | .sleep n => some (0xA * 2 ^ 8 + n.toNat * 2 ^ 0)
  | .bkpt n => some (0xB * 2 ^ 8 + n.toNat * 2 ^ 0)
  | .eret slot => some (0xC * 2 ^ 8 + slot.toNat * 2 ^ 0)
  | .trap n => some (0xD * 2 ^ 8 + n.toNat * 2 ^ 0)
  | _ => none

/-- The word of an operation in a C44 slot (Tables 7-6 and 11-1). -/
def encodeC44 : Instr → Option Nat
  | .nopSlot .c44 => some 0
  | .waitf ne f => some (0x1 * 2 ^ 36 + ne.toNat * 2 ^ 17 + f.toNat * 2 ^ 12 + 7 * 2 ^ 8)
  | .reconv => some (0x2 * 2 ^ 36 + 7 * 2 ^ 8)
  | .regang => some (0x3 * 2 ^ 36 + 7 * 2 ^ 8)
  | .exit g => some (0x4 * 2 ^ 36 + g.toNat * 2 ^ 8)
  | .yield n => some (0x5 * 2 ^ 36 + n.toNat * 2 ^ 12 + 7 * 2 ^ 8)
  | .bara b => some (0x6 * 2 ^ 36 + b.toNat * 2 ^ 12 + 7 * 2 ^ 8)
  | .barw b => some (0x7 * 2 ^ 36 + b.toNat * 2 ^ 12 + 7 * 2 ^ 8)
  | .baraw b => some (0x8 * 2 ^ 36 + b.toNat * 2 ^ 12 + 7 * 2 ^ 8)
  | .ret n => some (0x9 * 2 ^ 36 + n.toNat * 2 ^ 12 + 7 * 2 ^ 8)
  | .sleep n => some (0xA * 2 ^ 36 + n.toNat * 2 ^ 12 + 7 * 2 ^ 8)
  | .bkpt n => some (0xB * 2 ^ 36 + n.toNat * 2 ^ 12 + 7 * 2 ^ 8)
  | .eret slot => some (0xC * 2 ^ 36 + slot.toNat * 2 ^ 12 + 7 * 2 ^ 8)
  | .trap n => some (0xD * 2 ^ 36 + n.toNat * 2 ^ 12 + 7 * 2 ^ 8)
  | .brfZ f tgt => some (0x10 * 2 ^ 36 + f.toNat * 2 ^ 3 + tgt.toNat * 2 ^ 12 + 7 * 2 ^ 8)
  | .brfNz f tgt => some (0x11 * 2 ^ 36 + f.toNat * 2 ^ 3 + tgt.toNat * 2 ^ 12 + 7 * 2 ^ 8)
  | .brfErr f tgt => some (0x12 * 2 ^ 36 + f.toNat * 2 ^ 3 + tgt.toNat * 2 ^ 12 + 7 * 2 ^ 8)
  | .bra g tgt => some (0x13 * 2 ^ 36 + g.toNat * 2 ^ 8 + tgt.toNat * 2 ^ 12)
  | .brap g neg q tgt => some (0x14 * 2 ^ 36 + g.toNat * 2 ^ 8 + neg.toNat * 2 ^ 3 + q.toNat * 2 ^ 0 + tgt.toNat * 2 ^ 12)
  | .jmpt g sel tofs n => some (0x15 * 2 ^ 36 + g.toNat * 2 ^ 8 + sel.toNat * 2 ^ 28 + tofs.toNat * 2 ^ 12 + n.toNat * 2 ^ 0)
  | .call g l tgt => some (0x16 * 2 ^ 36 + g.toNat * 2 ^ 8 + l.toNat * 2 ^ 3 + tgt.toNat * 2 ^ 12)
  | .sbarA => some (0x17 * 2 ^ 36 + 1 * 2 ^ 12 + 7 * 2 ^ 8)
  | .sbarW => some (0x17 * 2 ^ 36 + 2 * 2 ^ 12 + 7 * 2 ^ 8)
  | .sbarAw => some (0x17 * 2 ^ 36 + 3 * 2 ^ 12 + 7 * 2 ^ 8)
  | .barset c b => some (0x18 * 2 ^ 36 + c.toNat * 2 ^ 20 + b.toNat * 2 ^ 12 + 7 * 2 ^ 8)
  | .sysc n => some (0x19 * 2 ^ 36 + n.toNat * 2 ^ 12 + 7 * 2 ^ 8)
  | .mfs sd reg => some (0x1A * 2 ^ 36 + sd.toNat * 2 ^ 31 + reg.toNat * 2 ^ 12 + 7 * 2 ^ 8)
  | .mts sa reg => some (0x1B * 2 ^ 36 + sa.toNat * 2 ^ 31 + reg.toNat * 2 ^ 12 + 7 * 2 ^ 8)
  | .mpset n v => some (0x1C * 2 ^ 36 + n.toNat * 2 ^ 20 + v.toNat * 2 ^ 12 + 7 * 2 ^ 8)
  | .winset a n => some (0x1D * 2 ^ 36 + a.toNat * 2 ^ 31 + n.toNat * 2 ^ 12 + 7 * 2 ^ 8)
  | .patset s h f => some (0x1E * 2 ^ 36 + s.toNat * 2 ^ 31 + h.toNat * 2 ^ 26 + f.toNat * 2 ^ 3 + 7 * 2 ^ 8)
  | .portcfg s h f => some (0x1F * 2 ^ 36 + s.toNat * 2 ^ 31 + h.toNat * 2 ^ 26 + f.toNat * 2 ^ 3 + 7 * 2 ^ 8)
  | .qcreate s h f => some (0x20 * 2 ^ 36 + s.toNat * 2 ^ 31 + h.toNat * 2 ^ 26 + f.toNat * 2 ^ 3 + 7 * 2 ^ 8)
  | .qdestroy s h f => some (0x21 * 2 ^ 36 + s.toNat * 2 ^ 31 + h.toNat * 2 ^ 26 + f.toNat * 2 ^ 3 + 7 * 2 ^ 8)
  | .limg a kind f => some (0x22 * 2 ^ 36 + a.toNat * 2 ^ 31 + kind.toNat * 2 ^ 28 + f.toNat * 2 ^ 3 + 7 * 2 ^ 8)
  | .simg a kind f => some (0x23 * 2 ^ 36 + a.toNat * 2 ^ 31 + kind.toNat * 2 ^ 28 + f.toNat * 2 ^ 3 + 7 * 2 ^ 8)
  | _ => none

/-- The slots of a bundle. -/
inductive Slot | v | m | x | c
  deriving DecidableEq, Repr

/-- A slot's bits decoded: its operation, or why it has none. -/
inductive SlotCode
  | op (i : Instr)
  | bad (e : DecodeError)
  deriving DecidableEq, Repr

/-- A decode as plain data. -/
def SlotCode.of : Except DecodeError Instr → SlotCode
  | .ok i => .op i
  | .error e => .bad e

/-- A bundle taken apart (R5, R200): its gap and the slots its template has, in the order V, M, X, C. -/
structure BundleCode where
  gap : Nat
  slots : List (Slot × SlotCode)
  deriving DecidableEq, Repr

/-- The bundle's gap and slots, or the rejection of its template (Tables 0-3 and 7-1). -/
def decodeBundle (b : Bundle) : Except DecodeError BundleCode :=
  let w := b.toNat
  let g := w / 2 ^ 124
  match w / 2 ^ 120 % 16 with
  | 0 => .ok ⟨g, [(.v, .of (decodeV36 (w / 2 ^ 84 % 2 ^ 36))), (.m, .of (decodeM40 (w / 2 ^ 44 % 2 ^ 40))),
      (.x, .of (decodeX32 (w / 2 ^ 12 % 2 ^ 32))), (.c, .of (decodeC12 (w % 2 ^ 12)))]⟩
  | 1 => .ok ⟨g, [(.v, .of (decodeV36 (w / 2 ^ 84 % 2 ^ 36))), (.m, .of (decodeM40 (w / 2 ^ 44 % 2 ^ 40))),
      (.c, .of (decodeC44 (w % 2 ^ 44)))]⟩
  | 2 => .ok ⟨g, [(.v, .of (decodeV36 (w / 2 ^ 84 % 2 ^ 36))), (.x, .of (decodeX72 (w / 2 ^ 12 % 2 ^ 72))),
      (.c, .of (decodeC12 (w % 2 ^ 12)))]⟩
  | 3 => .ok ⟨g, [(.v, .of (decodeV76 (w / 2 ^ 44 % 2 ^ 76))), (.c, .of (decodeC44 (w % 2 ^ 44)))]⟩
  | _ => .error .reservedTemplate

/-- The bundle of template 0 with gap 0 that holds one X32 word and no other operation. -/
def x32Bundle (w : Nat) : Bundle := BitVec.ofNat 128 (w % 2 ^ 32 * 2 ^ 12)

/-- The operation this decoder reads from the bits of an opcode-table row: the X32 word (32 bits), the M40 word (40) or
the X72 word (72). The bits of a slot word are not laid out in memory by themselves; a bundle holds them (Table 7-1). -/
def decodeTableWord (nbits w : Nat) : Option Instr :=
  match nbits with
  | 32 => (decodeX32 (w % 2 ^ 32)).toOption
  | 40 => (decodeM40 (w % 2 ^ 40)).toOption
  | 72 => (decodeX72 (w % 2 ^ 72)).toOption
  | _ => none

end Sys2Proof
end

