-- ==== Sys2Proof/Machine/State.lean ====
section
/-! DEFINITION. State: every piece of state the spec gives the machine, as plain data, with its value at reset; the reasons a
step can stop. Tables are lists of (key, entry) with rising keys; an absent key reads as the entry's reset value. -/

namespace Sys2Proof.Machine

/-- A table by number: keys rise; an absent key reads as the default its reader names. -/
abbrev Map (α : Type) := List (Nat × α)

/-- The 32 lanes of a vector register (a lane beyond the list reads 0). -/
abbrev Lanes := List W32

/-! ### A gang (R171 to R185, R215, R217, R271, R331, R401) -/

/-- A completion flag (R217, Table 11-3). -/
structure Flag where
  count : Nat := 0
  err : Bool := false
  cause : Nat := 0
  deriving DecidableEq, Repr

/-- One latch entry of a slice (R214): valid from clock `ready`; lanes outside `mask` are undefined. -/
structure Latch where
  ready : Nat := 0
  mask : BitVec 32 := 0
  vals : Lanes := []
  deriving DecidableEq, Repr

/-- A slice (R171, R351): program counter, active mask, stack depth and the eight stored stack positions in the layout of
Table 11-9, END, RGW, the lowest slice of its part, and its four latches, newest first. -/
structure Slice where
  pc : W64 := 0
  mask : BitVec 4 := 0xF
  depth : Nat := 0
  stack : Map W64 := []
  ended : Bool := false
  rgw : Bool := false
  lead : Nat := 0
  latches : List Latch := []
  deriving DecidableEq, Repr

/-- What the C slot of a part's last bundle waits for (R186). `met` notes a completed phase (R401). -/
inductive WaitC
  | none
  | flag (f : Nat) (ne : Bool)
  | bar (n : Nat) (clear met : Bool)
  | sbar (clear met : Bool)
  | timer (until_ : Nat) (yield : Bool)
  | regang (since : Nat)
  /-- inside the wait of the bundle at its PC, which is still to be fetched (R404) -/
  | resume
  deriving DecidableEq, Repr

/-- A part (R183, R184, R396), kept under its lowest slice: earliest next issue clock, AGE, its waits (C slot, and MACQ in
the X slot), the bundle fetched for its PC, whether the bank delay of its next bundle has been served, and a bank delay a
trap interrupted, still to serve. -/
structure Part where
  next : Nat := 0
  age : Nat := 0
  wait : WaitC := .none
  macq : Bool := false
  fetched : Option (W64 × Bundle) := Option.none
  /-- cause of a fetch that failed, and the record that names it -/
  fetchFault : Option (Nat × Nat) := Option.none
  bankPaid : Bool := false
  bankd : Nat := 0
  /-- the first clock in which a wait entered again by ERET is tested (R404) -/
  tests : Nat := 0
  deriving DecidableEq, Repr

/-- A register an operation writes; `lv` stands for the latches of a slice. -/
inductive Dest
  | v (n : Nat)
  | lv
  | s (n : Nat)
  | p (n : Nat)
  | d (n : Nat)
  | lx1
  | mp (n : Nat)
  /-- a system register of Table 11-8, of the gang in `slot` of the core -/
  | sys (slot reg : Nat)
  deriving DecidableEq, Repr

/-- A fixed-latency write in flight (R211): issued at clock `born`, written at the start of clock `due`, in the lanes of
`mask` (vector registers, predicates, lx1); a scalar or system register takes `word`. -/
structure Pend where
  due : Nat
  born : Nat
  dest : Dest
  mask : BitVec 32 := 0
  vals : Lanes := []
  word : W64 := 0
  deriving DecidableEq, Repr

/-- A variable-latency destination not yet observed (R213): its flag, its issue clock, whether a fixed-latency write met it, the
lanes such writes have reached, and the lanes it is performed in. -/
structure Mark where
  dest : Dest
  flag : Nat
  born : Nat
  tainted : Bool := false
  lanes : BitVec 32 := 0
  mask : BitVec 32 := BitVec.allOnes 32
  deriving DecidableEq, Repr

/-- A trap frame (R402, Tables 14-2 to 14-4). -/
structure Frame where
  lv : List Lanes := []
  flags : List (BitVec 16) := []
  lx1 : BitVec 32 := 0
  tcause : Nat := 0
  dcause : Nat := 0
  slot : Nat := 0
  flag : Nat := 0
  next : W64 := 0
  info : W64 := 0
  timing : List (BitVec 16) := []
  clock : Nat := 0
  deriving DecidableEq, Repr

/-- A gang in a gang slot (R171 to R189). -/
structure Gang where
  /-- the core's supervisor (R405) -/
  super : Bool := false
  cslot : Nat := 0
  cgang : Nat := 0
  role : Nat := 0
  rgang : Nat := 0
  prio : Nat := 0
  regs : Nat := 16
  nsl : Nat := 1
  v : Map Lanes := []
  s : Map W64 := []
  p : Map (BitVec 32) := []
  lx1 : BitVec 32 := 0
  mp : Map (BitVec 8) := []
  rng : Lanes := []
  flags : Map Flag := []
  /-- descriptor words: word w of dN at 4N + w (R271) -/
  desc : Map W64 := []
  slices : List Slice := []
  parts : Map Part := []
  pend : List Pend := []
  marks : List Mark := []
  /-- registers last written by a part that others have not merged with (R184): the register, the slice of its lanes (0 of a scalar),
  and the slices that may not rely on it -/
  foreign : List (Dest × Nat × BitVec 8) := []
  frozen : Bool := false
  /-- a trap's frame is still to be written (R401) -/
  frameOpen : Bool := false
  frame : Frame := {}
  /-- a kind-0 LIMG has completed since the gang froze; the last one has written the flags already (R403, R404) -/
  limg0 : Bool := false
  limgFlags : Bool := false
  /-- the flags whose words such a load, or writes of the supervisor's frame window, have given (R403, R431) -/
  limgMask : BitVec 32 := BitVec.allOnes 32
  /-- a word of the gang's state that the next bundle reads is bad (R80) -/
  bad : Bool := false
  /-- pending asynchronous error (R80) and merged watchpoint matches (R454): lowest number, any store, count -/
  asyncErr : Bool := false
  watch : Option (Nat × Bool × Nat) := Option.none
  /-- the match was pending when ERET resumed the gang: the trap comes before any bundle (R400) -/
  watchDue : Bool := false
  /-- every slice has ended (R182) -/
  ended : Bool := false
  /-- created by a restore request and not yet resumed by ERET (R415) -/
  restored : Bool := false
  /-- ids of the gang's accesses not yet performed: load queue and store queue, oldest first (R112) -/
  loadQ : List Nat := []
  storeQ : List Nat := []
  /-- ids every later access waits for: acquires and fences (R120, R128) -/
  barQ : List Nat := []
  /-- scope codes within which an id of barQ is waited for; every observer where none is held (R120, R128, R133) -/
  barS : Map Nat := []
  /-- those of barQ that fences and barriers put there, which copies wait for too (R128, R133, R135) -/
  heldQ : List Nat := []
  /-- MARKs with the ids they cover (R115) -/
  markQ : List (Nat × List Nat) := []
  /-- what the gang has written since its last MREADY and a later mill read must not meet (R136): kind 0 scratchpad bytes, 1
  weight slots, 2 accumulator elements, 3 tags of granules (R317); first, count -/
  unready : List (Nat × Nat × Nat) := []
  /-- the same of copies not yet observed, each with its flag (R136) -/
  copied : List (Nat × Nat × Nat × Nat) := []
  deriving DecidableEq, Repr

/-! ### A crew (R52, R73, R76, R172 to R177, R342, R345, R449) -/

/-- Where a crew stands in pre-emption (R409 to R416). -/
inductive CrewPhase | running | quiescing | drained | parked | restoring | unparked
  deriving DecidableEq, Repr

/-- An allocation of scratchpad as an operation knew it at issue (R52, R54): its generation and its physical granules in offset
order. -/
structure Alloc where
  gen : Nat := 0
  grans : List Nat := []
  deriving DecidableEq, Repr

/-- A crew in a crew slot. -/
structure Crew where
  ctx : Nat := 0
  lotid : Nat := 0
  /-- number of the launched lot's record in the controller, 0 for a handler or supervisor -/
  lot : Nat := 0
  /-- crews per stand (0: not of a stand lot), position, and the stand's number -/
  standN : Nat := 0
  spos : Nat := 0
  stand : Nat := 0
  ngangs : Nat := 1
  /-- physical granules of the allocation in offset order, and its generation (R52, R53) -/
  granules : List Nat := []
  gen : Nat := 0
  tiles : Nat := 0
  wslots : Nat := 0
  /-- accumulator elements, element (i, j) of tile t at 256t + 16i + j (R73); poisoned elements -/
  acc : Map W32 := []
  accPoison : List Nat := []
  /-- weight-buffer bytes, byte b of slot w at 1024w + b, slot tags and poisoned slots (R76) -/
  wbuf : Map Byte := []
  wstag : Map (BitVec 16) := []
  wPoison : List Nat := []
  bst : Map W64 := []
  sbst : W64 := 0
  /-- ids of accesses the arrivals of a barrier's phase cover, and of its completed phases (R133); the stand barrier is 16 -/
  barIds : Map (List Nat) := []
  barDone : Map (List Nat) := []
  pmc : Map W64 := []
  errored : Bool := false
  phase : CrewPhase := .running
  /-- gangs released so far (R189), as a CGANG mask, and gangs that have ended -/
  released : Nat := 0
  /-- own arrival at the stand barrier already sent, and arrivals of crews that are a phase ahead: position, accesses (R345) -/
  sbarSent : Bool := false
  carrNext : List (Nat × List Nat) := []
  /-- what a quiesce records: the gangs that waited at MACQ (gang slot, flags), and the stand as it then stood: position, core,
  crew slot, generation (R196, R312) -/
  queued : List (Nat × List Nat) := []
  standAt : List (Nat × Nat × Nat × Alloc) := []
  deriving DecidableEq, Repr

/-! ### Core engines -/

/-- A chute entry (R321, R322): its format, units (128-byte lists) left with the poisoned byte offsets of each, first unit's
number, whether every unit is written. -/
structure ChuteEntry where
  df : Nat := 0
  units : List (List Byte) := []
  first : Nat := 0
  ready : Bool := false
  bad : List (List Nat) := []
  deriving DecidableEq, Repr

/-- A chute (R321): the crew slot that holds it, its entries head first, drains pending into it. -/
structure Chute where
  holder : Option Nat := Option.none
  entries : List ChuteEntry := []
  drains : Nat := 0
  deriving DecidableEq, Repr

/-- What a skidder operation moves (R303 to R309), with the operands captured at issue. -/
inductive CopyKind | cpy | fill | rows | gather | multicast | chute | wbld
  deriving DecidableEq, Repr

/-- One side of a copy as it is resolved at issue (R297): path, space tag, address of the first byte and its offset in the
window, aperture word, the allocation it names, swizzle, and the least and greatest distance from the first byte that
its window covers. -/
structure Side where
  path : Nat := 0
  tag : Nat := 0
  va : Nat := 0
  ofs : Nat := 0
  peer : W64 := 0
  core : Nat := 0
  cslot : Nat := 0
  alloc : Alloc := {}
  z : Nat := 0
  lo : Int := 0
  hi : Int := 0
  deriving DecidableEq, Repr

/-- A skidder entry (R296 to R302): the operation with its captured operands, and its progress register. -/
structure Skid where
  slot : Nat := 0
  flag : Nat := 0
  pol : BitVec 8 := 0
  kind : CopyKind := .cpy
  dst : Side := {}
  src : Side := {}
  idx : Side := {}
  /-- bytes (or bytes of a row), rows, pitches -/
  bytes : Nat := 0
  rows : Nat := 0
  spitch : Int := 0
  dpitch : Int := 0
  sgran : Nat := 0
  sslot : Nat := 0
  pattern : W64 := 0
  /-- multicast targets: core, crew slot, allocation -/
  targets : List (Nat × Nat × Alloc) := []
  /-- WBLD: first slot, RF, SP -/
  wslot : Nat := 0
  rf : Nat := 0
  sparse : Bool := false
  /-- CPYCH: the entries taken -/
  entries : List ChuteEntry := []
  /-- completion message: the port piece's offset and aperture word, and the message -/
  note : Option (Nat × W64 × W64) := Option.none
  /-- CPROG (Table 10-4): 1 running, 2 stopped, 3 FAULTED; cause; units done; bytes of the unit moved -/
  state : Nat := 1
  cause : Nat := 0
  done : Nat := 0
  sub : Nat := 0
  /-- first cause to report at completion, and whether the operation was resumed behind its gang's ERET (R416) -/
  err : Nat := 0
  held : Bool := false
  record : Option (Nat × Nat) := Option.none
  /-- it stops with `err`: no further byte is moved -/
  failed : Bool := false
  /-- the piece under way: 0 index, 1 read, 2 write, 3 message, 4 attribute of the source, 5 attribute of a place of it before the first byte; the request that serves it; what was read, its poison,
  attribute and scale byte; the index of the row -/
  phase : Nat := 0
  aux : Option Nat := Option.none
  buf : Nat := 0
  poison : Bool := false
  attr : Nat := 0
  scale : Nat := 0
  index : Option Nat := Option.none
  /-- WBLD: attribute of the source's first byte, which governs every slot, once it is known; whether any of the slot in hand is
  poisoned -/
  slotAttr : Nat := 0
  attrKnown : Bool := false
  slotBad : Bool := false
  /-- CPYG: indices read so far -/
  seen : List Nat := []
  /-- the bytes written last to a memory destination: the address after them, how many of their line stand together from its start, and
  which words of it were poisoned (R79) -/
  run : Nat × Nat × List Nat := (0, 0, [])
  /-- places of the source whose attribute has been asked for before anything is moved (R300) -/
  probed : Nat := 0
  /-- highest offset written so far in each granule of a target: core, crew slot, granule, offset (R300) -/
  high : List (Nat × Nat × Nat × Nat) := []
  /-- ids of earlier accesses the copy is ordered after (R128, R133), those that a MARK covers, which an element at a common location
  comes after (R115), and the clock of issue -/
  deps : List Nat := []
  marked : List Nat := []
  born : Nat := 0
  deriving DecidableEq, Repr

/-- A command in the mill's queue (R311): the instruction, its gang slot and flag, the operand formats and tags read at issue,
A offset (of MFENCE, the batch number) and pitch, and the first cause met so far. -/
structure MillCmd where
  op : Instr
  slot : Nat := 0
  flag : Nat := 0
  fa : Nat := 0
  fb : Nat := 0
  ta : Nat := 0
  tb : Nat := 0
  ofs : Nat := 0
  pitch : Nat := 0
  cause : Nat := 0
  /-- ids of writes an MREADY waits for (R136), or the MREADYs the command waits behind (R313) -/
  deps : List Nat := []
  id : Nat := 0
  born : Nat := 0
  deriving DecidableEq, Repr

/-- Operand locations of a mill command, and the accumulator elements whose computation uses them (R136, R138): `n` scratchpad
bytes from `lo` (kind 0), with the tags of their granules where `tag` is set (R317), or `n` weight slots (kind 1); the elements
base + step · i + j for i below `count` and j below `run`, of which only those of the bytes met where each takes `unit` bytes. -/
structure MillRead where
  kind : Nat
  lo : Nat
  n : Nat
  tag : Bool := false
  base : Nat := 0
  step : Nat := 0
  count : Nat := 1
  run : Nat := 0
  unit : Nat := 0
  deriving DecidableEq, Repr

/-- What a mill command not yet observed reads and writes (R138): its gang, its batch flag once MFENCE names it, operand
locations, tiles written, elements a write to an operand has made undefined while the command was queued, and tiles a later
command has overwritten since. -/
structure MillUse where
  slot : Nat
  id : Nat
  flag : Option Nat := Option.none
  reads : List MillRead := []
  tiles : List Nat := []
  spoilt : List Nat := []
  gone : List Nat := []
  deriving DecidableEq, Repr

/-- Commands of a restored crew, to enter with the grant to the gang in `slot` (R416): whether it is to own the mill, the commands,
MPROG's group and tile, and the batch in progress. -/
structure MillBack where
  slot : Nat
  own : Bool
  cmds : List MillCmd := []
  group : Nat := 0
  tile : Nat := 0
  issued : Nat := 0
  cause : Nat := 0
  deriving DecidableEq, Repr

/-- The mill (R311 to R324): owner and ownership queue (gang slots, each with the flags of its MACQs), command queue head
first, numbers of the last batch closed and completed, first cause of the batch in progress, whether it is stopped (2),
MPROG's group and tile. -/
structure Mill where
  owner : Option Nat := Option.none
  waiters : List (Nat × List Nat) := []
  /-- gangs, by slot, that have owned it (R311) -/
  owners : List Nat := []
  queue : List MillCmd := []
  closed : Nat := 0
  doneBatch : Nat := 0
  batchCause : Nat := 0
  /-- commands the owner has issued since its last MFENCE or its grant (R314) -/
  issued : Nat := 0
  state : Nat := 0
  /-- stopped by MSTOP or MPROG, until either lets it go on (R324, R409) -/
  held : Bool := false
  group : Nat := 0
  tile : Nat := 0
  /-- tiles already written by the head command are undefined after a changed step (R324) -/
  spoiled : Bool := false
  uses : List MillUse := []
  /-- clock in which commands last left the queue, and how many (R209, R311) -/
  left : Nat × Nat := (0, 0)
  /-- what a restored crew brings back with the grant to a gang of it (R416) -/
  resume : List MillBack := []
  deriving DecidableEq, Repr

/-- An operand-log entry (R45, Table 1-19); `req` names the request whose lanes it keeps. -/
structure LogEntry where
  state : Nat := 0
  slot : Nat := 0
  flag : Nat := 0
  req : Nat := 0
  mask : BitVec 32 := 0
  cause : Nat := 0
  record : Option (Nat × Nat) := Option.none
  /-- re-entered by unpark and held until its gang's ERET (R416) -/
  held : Bool := false
  deriving DecidableEq, Repr

/-- A context's window and aperture registers as one core holds them (R20): words 2N and 2N + 1 of window N, aperture N at
64 + N. -/
structure CtxCopy where
  words : Map W64 := []
  /-- window-register writes not yet in effect (R19): due clock, word, value -/
  pend : List (Nat × Nat × W64) := []
  loading : Bool := false
  /-- clock from which the words of the last load are in effect, before which no gang of the context issues -/
  from_ : Nat := 0
  deriving DecidableEq, Repr

/-- A line of a stash block (R60, R63): state 0 absent, 1 S, 2 E, 3 O, 4 M; the physical line; its valid bytes as bits; the 8-byte
words stored poisoned while some bytes were not valid. An owned line with bytes not valid is write-allocated. -/
structure Line where
  st : Nat := 0
  pl : Nat := 0
  valid : Nat := 0
  bad : List Nat := []
  deriving DecidableEq, Repr

/-- A stash block (R60 to R64): context, base line (IA line number), its lines; rank, declared or implicit, clock of the last
touch. -/
structure Block where
  ctx : Nat
  base : Nat
  lines : List Line
  rank : Nat := 0
  declared : Bool := true
  touched : Nat := 0
  deriving DecidableEq, Repr

/-- A notice (R406, Table 14-5): gang slot, code, and the eight words. -/
structure Notice where
  slot : Nat
  code : Nat
  words : List W64
  deriving DecidableEq, Repr

/-- ENGSTOP (R409, Table 14-8): command under way, its selected slot, crew slot and area, BUSY, RES, CSTOP, MSTOP; RES and cause
of a command about to finish, the words of its notice, the crews it is about, and an area access that waits for the answer to
its fault or has failed. -/
structure Engstop where
  cmd : Nat := 0
  slot : Nat := 0
  cslot : Nat := 0
  addr : W64 := 0
  busy : Bool := false
  res : Nat := 0
  cause : Nat := 0
  out : Nat := 0
  info : List W64 := []
  crews : List (Nat × Nat) := []
  record : Option (Nat × Nat) := Option.none
  failed : Nat := 0
  /-- shared skidder entries an unpark waits for -/
  need : Nat := 0
  finished : Bool := false
  /-- the clock in which the command started -/
  began : Nat := 0
  /-- what the free bytes of the area written are drawn from -/
  seed : Nat := 0
  cstop : Bool := false
  mstop : Bool := false
  deriving DecidableEq, Repr

/-- A core. -/
structure Core where
  gangs : Map Gang := []
  crews : Map Crew := []
  /-- scratchpad bytes by physical granule: byte b of granule k at 4096k + b; poisoned 8-byte words; GTAG by granule -/
  scratch : Map Byte := []
  scrPoison : List Nat := []
  gtag : Map (BitVec 32) := []
  /-- generation counter (R53); inbound counts by generation, 0 between events, since PEER_WRITE_ARRIVAL accepts and writes in one
  (log entry 43); SCRSTALE (R54) -/
  gen : Nat := 0
  icnt : Map Nat := []
  scrstale : Nat := 0
  lastAlloc : Option Nat := Option.none
  chutes : Map Chute := []
  skid : Map Skid := []
  /-- clock at which each skidder entry was last freed (R209, R296) -/
  skidFreed : Map Nat := []
  mill : Mill := {}
  log : Map LogEntry := []
  copies : Map CtxCopy := []
  blocks : List Block := []
  /-- read-only L1 lines: context, IA line, physical line (R66) -/
  roL1 : List (Nat × Nat × Nat) := []
  selgang : W64 := 0
  engstop : Engstop := {}
  notices : List Notice := []
  /-- clock until which each partition is held by a bank delay (R216), and the clock of its last issue -/
  hold : Map Nat := []
  issued : Map Nat := []
  /-- the clock of each partition's last bundle that met a precise trap: no other issues in it (R397, R400) -/
  tried : Map Nat := []
  /-- this core's copy of commit-group state where it is ahead of the origin table, by 1024 ctx + G: 1 open, 2 exchange in
  progress (R325) -/
  groups : Map Nat := []
  deriving DecidableEq, Repr

/-! ### Memory requests (R7, R40 to R49, R110 to R132) -/

/-- Kinds of access (R45, Table 4-1). -/
inductive ReqKind
  | load | store | rawLoad | rawStore | loadS | ldx | stx | ldc | atom | redm | cas | accld | accst | stch
  | stg | send | portSt | qpush | qpop | qtry | lblk | blkwb | blkdrop | pref | mark | fence | simg | limg
  | gopen | gend | gquery | join | mrel | mstat
  deriving DecidableEq, Repr

/-- A part of a request: a naturally aligned piece of one lane's element (R110, R265), or one element of a decoding load
(R267). `off` is its byte offset in the element, or its element index. `path` is the window's path code (8: accumulator
store). `peer` is the aperture word in force at issue; `core`, `cslot`, `alloc` name the allocation a scratchpad piece
addresses, and `ofs` its offset there before the swizzle. Progress: 0 to translate, 1 translated, 2
performed, 3 faulted, 4 completed in error, 5 held by a fill, 6 sent to a peer, 7 returned to the log, 8 waiting for a scale
byte read at a peer. `fmt` 14 marks a piece whose lane its decoded elements stand for. `out` is the value read, `frec` the
fault record. -/
structure LaneAcc where
  lane : Nat
  off : Nat := 0
  ia : W64 := 0
  path : Nat := 0
  peer : W64 := 0
  core : Nat := 0
  cslot : Nat := 0
  alloc : Alloc := {}
  /-- stand of the crew an accumulator piece addresses (R75) -/
  stand : Nat := 0
  size : Nat := 0
  data : Nat := 0
  cmp : Nat := 0
  stage : Nat := 0
  pa : Nat := 0
  ofs : Nat := 0
  /-- scale byte of a K4 element: its address, where it lies here, or its value and poison as a peer gave them (R34, R101) -/
  sva : Option Nat := Option.none
  spa : Nat := 0
  scale : Option (Nat × Bool) := Option.none
  fmt : Nat := 0
  nc : Bool := false
  evl1 : Nat := 0
  evl2 : Nat := 0
  cause : Nat := 0
  out : Nat := 0
  undef : Bool := false
  frec : Option (Nat × Nat) := Option.none
  fwds : Nat := 0
  /-- the request to a peer that carries the piece, named by its first piece (R148) -/
  sent : Nat := 0
  /-- order of arrival of an access that a migration or a held line makes wait (R161, R169) -/
  hold : Option Nat := Option.none
  /-- performed ahead of earlier accesses that no observer in scope may see it before (R113, R126) -/
  early : Bool := false
  /-- order of arrival of an access that waits for its cluster's budget (R447) -/
  arb : Option Nat := Option.none
  /-- its translation has been noted for migration and watchpoints (R38, R454) -/
  seen : Bool := false
  /-- attribute of the page that a copy's piece, or one read for or at a peer, reaches (R101) -/
  attr : Nat := 0
  deriving DecidableEq, Repr

/-- A memory or engine request in progress, counted on its flag once (R217). Its issuer is the gang in `slot` of `core`;
`opc` is the M-slot opcode. A request served for a peer names the peer's device, context and request. -/
structure Req where
  kind : ReqKind
  core : Nat := 0
  slot : Nat := 0
  ctx : Nat := 0
  flag : Nat := 0
  pol : BitVec 8 := 0
  dest : Nat := 0
  group : Nat := 1
  opc : Nat := 0
  z : Nat := 0
  lanes : List LaneAcc := []
  /-- paths of the lanes at issue (R145) -/
  paths0 : List Nat := []
  /-- registers carried: a message, a record, a configuration record -/
  words : List W64 := []
  /-- earlier requests it is performed after (R113 to R128) -/
  deps : List Nat := []
  /-- for each of them, the scope code of the observers towards whom that order holds; 7: every observer (R113, R124) -/
  scopes : List Nat := []
  /-- and why, as bits: 0 it comes before every piece; 1 queue order between paths that Table 4-6 orders (R145); 2 a MARK, between pieces
  at a common location (R115); 3 within the scope of both; 4 within the request's own scope; 5 within that of the earlier one -/
  why : List Nat := []
  cause : Nat := 0
  born : Nat := 0
  /-- served for a peer: its device, context and tag -/
  peer : Option (Nat × Nat × Nat) := Option.none
  /-- of those, one that a migration made wait at the page's old home (R169) -/
  held : Bool := false
  deriving DecidableEq, Repr

/-! ### Contexts and translation (R25 to R39, R43, R44, R426) -/

/-- A context the device knows: live, and the words of its table entry read when it was made live (R28, R390). -/
structure Ctx where
  live : Bool := false
  catp : W64 := 0
  chgatp : W64 := 0
  cxcfg : W64 := 0
  sched : W64 := 0
  deriving DecidableEq, Repr

/-- A translation-cache entry (R26): slice, set, context, page number (VA[56:12]), page level, leaf entry, companion, the
permission bits of the G-stage leaf (all set without a G-stage), and the migration fields of R38. -/
structure Tlb where
  slice : Nat
  set : Nat
  ctx : Nat
  vpn : Nat
  level : Nat
  pte : W64
  comp : W64
  gpte : W64
  req : Nat := 0
  rqctx : Nat := 0
  cnt : Nat := 0
  deriving DecidableEq, Repr

/-- A walk-cache entry (R26): group of slices, context, level (1 to 4), the part of the page number above that level, and the
non-leaf entry. -/
structure WalkEntry where
  group : Nat
  ctx : Nat
  level : Nat
  idx : Nat
  pte : W64
  deriving DecidableEq, Repr

/-- A line the L2 holds (R67, R144): physical line, retention rank, clock of the last touch, whether HBM is behind it. -/
structure L2Line where
  line : Nat
  rank : Nat
  touched : Nat
  dirty : Bool := false
  deriving DecidableEq, Repr

/-- A thrash-table entry (R39). -/
structure Thrash where
  ctx : Nat
  vpn : Nat
  count : Nat
  start : Nat
  pinned : Bool := false
  deriving DecidableEq, Repr

/-- An open fault record (R43, R44): ring, sequence number, context, page, cause; the answer kept for parked entries. -/
structure FaultRec where
  ring : Nat
  seq : Nat
  ctx : Nat
  ia : Nat
  cause : Nat
  access : Nat
  gpa : Nat := 0
  core : Nat := 0
  time : Nat := 0
  written : Bool := false
  answer : Option (Nat × Nat) := Option.none
  deriving DecidableEq, Repr

/-- A hardware fill under way (R37): request lanes wait on it. -/
structure Fill where
  ctx : Nat
  vpn : Nat
  frame : Nat
  pteAddr : Nat
  pte : W64
  store : Bool
  deriving DecidableEq, Repr

/-- A migration under way (R169): page, the other device and context, the role (0 home, 1 receiver), the step. -/
structure Migr where
  ctx : Nat
  vpn : Nat
  dev : Nat
  rctx : Nat
  home : Bool
  step : Nat
  frame : Nat := 0
  pte : W64 := 0
  pteAddr : Nat := 0
  count : Nat := 0
  age : Nat := 0
  deriving DecidableEq, Repr

/-! ### Join units (R357 to R383) -/

/-- A port (Table 12-2): messages head first. -/
structure Port where
  created : Bool := false
  ovf : Bool := false
  apeer : Bool := false
  ahost : Bool := false
  apcie : Bool := false
  depth : Nat := 0
  msgs : List W64 := []
  ovfcnt : Nat := 0
  gen : Nat := 1
  ctx : Nat := 0
  deriving DecidableEq, Repr

/-- A pattern (Tables 12-5, 12-11): its record as last written. -/
structure Pattern where
  claimed : Bool := false
  en : Bool := false
  dis : Bool := false
  gen : Nat := 0
  ctx : Nat := 0
  words : List W64 := []
  deriving DecidableEq, Repr

/-- A task queue (Table 12-8): on-chip records head first, pending pops (request ids) in arrival order, records of a refill
in flight, and a ring access that waits for the answer to its fault. -/
structure TaskQ where
  created : Bool := false
  err : Bool := false
  prio : Nat := 0
  logn : Nat := 0
  ring : W64 := 0
  recs : List (List W64) := []
  rfl : Bool := false
  refillN : Nat := 0
  cause : Nat := 0
  gen : Nat := 1
  ctx : Nat := 0
  rtail : Nat := 0
  rhead : Nat := 0
  pops : List Nat := []
  /-- spilled records whose ring write is not yet performed: ring index, record, request id (0: a firing's push) -/
  spills : List (Nat × List W64 × Nat) := []
  faulted : Option (Nat × Nat) := Option.none
  deriving DecidableEq, Repr

/-- A join unit (R357, R370, R383). -/
structure JoinUnit where
  ports : Map Port := []
  pats : Map Pattern := []
  queues : Map TaskQ := []
  ptr : Map Nat := []
  qptr : Map Nat := []
  fireseq : Nat := 0
  stalecnt : Nat := 0
  /-- the last event may have firings still to be made, one for each 2.0 GHz clock (R369) -/
  busy : Bool := false
  /-- the 2.0 GHz clock of the last event from outside, and its place in that clock's order (R369) -/
  last : Nat × Nat := (0, 0)
  deriving DecidableEq, Repr

/-- A message on its way to a port (Table 12-3): handle, 64 bits, source (0 SEND, 1 gang store, 2 hart, 3 PCIe, 4 lot
completion, 5 skidder completion), sending context and device, and whom to answer: a request and lane, or a skidder
entry. -/
structure Msg where
  handle : Nat
  data : W64
  source : Nat
  ctx : Nat := 0
  dev : Nat := 0
  core : Nat := 0
  entry : Nat := 0
  req : Nat := 0
  deriving DecidableEq, Repr

/-! ### The partitioning controller (R384 to R394, R415) -/

/-- A launch entry or restore request (R384, R415): kind 0 handler, 1 lot, 2 restore. -/
structure Launch where
  kind : Nat
  tenant : Nat
  ctx : Nat
  pattern : Nat
  lotid : Nat
  payload : List W64 := []
  w1 : W64 := 0
  w2 : W64 := 0
  /-- lot: template words once read and accepted, next member, record number; restore: stand position -/
  tmpl : List W64 := []
  read : Bool := false
  next : Nat := 0
  lot : Nat := 0
  spos : Nat := 0
  record : W64 := 0
  faulted : Option (Nat × Nat) := Option.none
  failed : Bool := false
  deriving DecidableEq, Repr

/-- What park wrote (R410): its crew, the bytes at the area, and what their interiors, which the spec does not lay out, stand for.
Gangs are named by CGANG. `gangs` holds the queues and pending destinations of each gang, `standAt` the stand as it stood. -/
structure Parked where
  ctx : Nat := 0
  lotid : Nat := 0
  spos : Nat := 0
  stand : Nat := 0
  bytes : List Byte := []
  gangs : List (Nat × Gang) := []
  reqs : List (Nat × Req) := []
  log : List LogEntry := []
  skid : List Skid := []
  chutes : List (Nat × Chute) := []
  cmds : List MillCmd := []
  uses : List MillUse := []
  owner : Option Nat := Option.none
  queued : List (Nat × List Nat) := []
  group : Nat := 0
  tile : Nat := 0
  /-- mill commands of the batch in progress, and its first cause (R314) -/
  issued : Nat := 0
  batchCause : Nat := 0
  wbuf : Map Byte := []
  wstag : Map (BitVec 16) := []
  wPoison : List Nat := []
  barIds : Map (List Nat) := []
  barDone : Map (List Nat) := []
  standAt : List (Nat × Nat × Nat × Alloc) := []
  deriving DecidableEq, Repr

/-- A crew of a stand that was saved and released, and is still to be restored (R195, R196). -/
structure Saved where
  ctx : Nat
  lotid : Nat
  stand : Nat
  spos : Nat
  deriving DecidableEq, Repr

/-- A launched lot until its end (R192): members not yet ended, completion port, errored. -/
structure Lot where
  ctx : Nat
  lotid : Nat
  left : Nat
  cport : Nat
  errored : Bool := false
  deriving DecidableEq, Repr

/-! ### Commit groups (R151 to R164) -/

/-- Origin state of a group, by 1024 ctx + G (R153, R158, R163): outcome record fields, destinations (device, context,
count, answered, acknowledged), the exchange's phase (0 open, 1 waiting, 2 prepared, 3 commit sent, 4 abort sent, 5 done),
the flag to decrement, when the last prepare was sent, the STGs and accesses it waits for. -/
structure Group where
  status : Nat := 0
  failed : Bool := false
  lost : Bool := false
  cause : Nat := 0
  dcause : Nat := 0
  dev : Nat := 0
  dests : List (Nat × Nat × Nat × Bool × Bool) := []
  phase : Nat := 0
  req : Nat := 0
  voluntary : Bool := false
  sent : Nat := 0
  waits : List Nat := []
  opened : Bool := false
  /-- destination devices reported lost before the exchange has come to them (R164) -/
  gone : List Nat := []
  deriving DecidableEq, Repr

/-- A landing-directory entry (R155): its index, which gives its record in HBM with the data bytes and their valid marks, its key,
the physical line, translation removed since. -/
structure LandEntry where
  idx : Nat
  odev : Nat
  octx : Nat
  group : Nat
  dctx : Nat
  va : Nat
  pa : Nat
  stale : Bool := false
  deriving DecidableEq, Repr

/-- Destination state of a group (R155, R159, R160). -/
structure DestGroup where
  odev : Nat
  octx : Nat
  group : Nat
  dctx : Nat
  received : Nat := 0
  prepared : Bool := false
  deriving DecidableEq, Repr

/-- What passes between devices over UALink (R147, R152, R158, R169): kind, devices and contexts, group, numbers, words,
bytes with poison, and the pieces of a request's line. -/
structure Packet where
  kind : Nat
  dev : Nat
  ctx : Nat
  peerCtx : Nat := 0
  tag : Nat := 0
  va : Nat := 0
  a : Nat := 0
  b : Nat := 0
  words : List W64 := []
  bytes : List Byte := []
  lanes : List LaneAcc := []
  fwd : Nat := 0
  deriving DecidableEq, Repr

/-! ### Events -/

/-- The operands of an event: which gang, part, request, entry, message or register it is about. -/
inductive Event
  | none
  | core (c : Nat)
  | gang (c slot : Nat)
  | part (c slot lead : Nat)
  | req (id lane : Nat)
  | entry (c e : Nat)
  | page (ctx vpn : Nat)
  | line (c ctx line req_ : Nat)
  | fault (ring seq cause : Nat)
  | msg (m : Msg)
  | cfg (id : Nat)
  | queue (unit q i : Nat)
  | launch (i : Nat)
  | fire (kind ctx pattern : Nat) (w1 w2 : W64) (payload : List W64)
  | group (ctx g : Nat) (req_ : Nat)
  | dest (p : Packet)
  | packet (p : Packet)
  | reg (off : Nat) (val : W64) (size : Nat)
  | sysw (c slot reg : Nat) (val : W64)
  | carr (core cslot stand pos : Nat) (ph : Bool) (ids : List Nat)
  | mem (addr : Nat) (bytes : List Byte) (size : Nat)
  | host (a b : Nat)
  | boot (image : List Byte) (romDigest keyHash : List Byte) (minSvn dev : Nat) (landbase : W64)
  deriving DecidableEq, Repr

/-- An event that may happen: its row, its operands, the clock from which it may, and its number. -/
structure Pending where
  op : Instr
  arg : Event
  due : Nat := 0
  deriving DecidableEq, Repr

/-- A trap: TCAUSE, slot (0 V, 1 M, 2 X, 3 C, 4 none), DCAUSE, flag and INFO (Tables 14-1, 14-3); `page` names the page,
access kind and guest address of a fault still to be recorded. -/
structure Trap where
  tcause : Nat
  slot : Nat := 4
  dcause : Nat := 0
  flag : Nat := 0
  info : Nat := 0
  page : Option (Nat × Nat × Nat) := Option.none
  deriving DecidableEq, Repr

/-- The bundle being issued: core, gang slot, lowest slice and slices of the part, its address, the clock, the latch
result and the generator states its V slot leaves for the end of the bundle (no slot sees another's result, R201), whether a slot redirected the part,
and the bundle's gap. -/
structure Issue where
  core : Nat := 0
  slot : Nat := 0
  lead : Nat := 0
  slices : List Nat := []
  pc : W64 := 0
  gap : Nat := 0
  /-- an operand of it is a word that cannot be corrected (R80) -/
  bad : Bool := false
  latch : Option Latch := Option.none
  rng : Option Lanes := Option.none
  redirect : Bool := false
  jmpt : Bool := false
  next : Map W64 := []
  /-- the precise trap a slot has met; the crew's counters before the bundle (R450) -/
  trap : Option Trap := Option.none
  pmc : Map W64 := []
  deriving DecidableEq, Repr

/-- Counters of one interval or tick (R444, R451): by kind and number. -/
structure Counts where
  events : Map Nat := []
  lines : Map Nat := []
  tick : Map Nat := []
  power : Nat := 0
  deriving DecidableEq, Repr

/-- The machine. -/
structure State where
  clock : Nat
  cores : Map Core
  /-- HBM bytes by physical address; poisoned 8-byte words -/
  mem : List Host.Cell
  poison : List Nat
  /-- poisoned words of HBM beneath a line that the L2 holds (R79, R441) -/
  hbmBad : List Nat
  reqs : Map Req
  nextId : Nat
  ctxs : Map Ctx
  tlb : List Tlb
  walkc : List WalkEntry
  /-- pages above 4 KiB that a walk has found and no TIC command has covered since: context, level, page number of that size (R31) -/
  large : List (Nat × Nat × Nat)
  thrash : List Thrash
  spare : Map Nat
  fills : List Fill
  /-- fills that wait for one of a slice's 16 to end, in arrival order, and those whose frame failed, with the cause the next access
  to the page meets (R37) -/
  fillq : List Fill
  fillBad : List (Nat × Nat × Nat)
  migr : List Migr
  seqs : Map Nat
  recs : List FaultRec
  lowSent : List Nat
  ticq : List W64
  join : Map JoinUnit
  /-- each unit as its last completed event left it, for the window to read while the next one's firings go on (R369, R383) -/
  joinSeen : Map JoinUnit
  lotid : Nat
  lotRec : Nat
  launches : List Launch
  lots : Map Lot
  parked : List Parked
  /-- crews of stands saved and released (R195, R196) -/
  saved : List Saved
  trot : Nat
  /-- this clock's admission is still to be made (R392) -/
  admitting : Bool
  standNo : Nat
  groups : Map Group
  landing : List LandEntry
  dests : List DestGroup
  /-- directory state of L2 lines by line number: MOESI (0 I, 1 S, 2 E, 3 O, 4 M), owner, sharers (R68) -/
  dir : Map (Nat × Nat × Nat)
  l2 : List L2Line
  /-- device registers by offset (Tables 18-2 and 19-1); an absent one holds its reset value -/
  dregs : Map W64
  mrs : Map (List Byte)
  mrLocked : Bool
  ras : Map W64
  scrub : Nat
  /-- clock of the scrubber's last unit read (R441) -/
  scrubAt : Nat
  counts : Counts
  obsFrom : Nat
  obsTick : Nat
  linksLost : List Nat
  /-- addresses of inbound requests that the IOMMU has refused, as its fault queue reports them (R434) -/
  iommuq : List Nat
  /-- base die halted by a failed boot check, with its code; firmware entered -/
  halted : Option Nat
  booted : Bool
  /-- the bundle being issued, and the operands of the event being run -/
  cur : Issue
  ev : Event
  agenda : List Pending
  inbox : List Pending
  /-- what leaves the device: interrupts (IRQT number, FILE, EIID), UALink packets, read values, DOE responses -/
  irqs : List (Nat × Nat × Nat)
  outbox : List Packet
  replies : List (List Byte)
  /-- arrivals noted so far (R161, R169) -/
  tickets : Nat
  /-- the model's own counter of free values (R12): each use advances it -/
  free : Nat
  deriving DecidableEq, Repr

/-- Why the machine stops. -/
inductive Fault
  /-- Raised by step once a failed boot check has halted the base die and no reset of the module has come (R436: no later step runs).
  Safe: the spec names no later step. -/
  | bootHalted
  /-- Raised by step while a die's supply stands below its fused minimum, where every structure of the die gives undefined results (R443).
  Safe: nothing is claimed of such a die. -/
  | belowMinimum (die : Nat)
  deriving DecidableEq, Repr

/-- Why an instruction has no meaning here. -/
inductive Refusal
  /-- Raised by an arm of Dispatch for a row not modelled. Safe: nothing is claimed of it. -/
  | notModelled (mnemonic : String)
  deriving DecidableEq, Repr

/-- A core at reset: no gang, every granule FREE with GEN 0 (R53). -/
def Core.reset : Core := {}

/-- The machine right after reset: clock 0, no context live, nothing resident, memory with nothing listed. -/
def State.reset : State where
  clock := 0
  cores := []
  mem := []
  poison := []
  hbmBad := []
  reqs := []
  nextId := 1
  ctxs := []
  tlb := []
  walkc := []
  large := []
  thrash := []
  spare := []
  fills := []
  fillq := []
  fillBad := []
  migr := []
  seqs := []
  recs := []
  lowSent := []
  ticq := []
  join := []
  joinSeen := []
  lotid := 1
  lotRec := 1
  launches := []
  lots := []
  parked := []
  saved := []
  trot := 0
  admitting := false
  standNo := 1
  groups := []
  landing := []
  dests := []
  dir := []
  l2 := []
  dregs := []
  mrs := []
  mrLocked := false
  ras := []
  scrub := 0
  scrubAt := 0
  counts := {}
  obsFrom := 0
  obsTick := 0
  linksLost := []
  iommuq := []
  halted := Option.none
  booted := false
  cur := {}
  ev := .none
  agenda := []
  inbox := []
  irqs := []
  outbox := []
  replies := []
  tickets := 0
  free := 0

/-- A meaning's outcome. -/
abbrev Out := Host.Outcome State Fault Refusal

end Sys2Proof.Machine
end

