-- ==== Sys2Proof/Machine/Banks.lean ====
section
/-! DEFINITION. Banks: the vector registers an operation names, against REGS (R173) and as reads of the register banks, and the bank
delay of a bundle (R216). -/

namespace Sys2Proof.Machine
open Sys2Proof

/-! ### Registers named, against REGS (R173), and reads of the banks (R216) -/

/-- The vector registers a V-slot operation names as sources. -/
def vSources (opc : Nat) (o : VOp) : List Nat :=
  let one (x : BitVec 8) : List Nat := if selV x then [x.toNat] else []
  let pair (x : BitVec 8) : List Nat := if selV x then [x.toNat, x.toNat + 1] else []
  match vClass opc with
  | .movi | .voteP | .votebal | .ptwo | .pone | .chpop => []
  | .one | .fone | .lred | .lredAdd | .cvt => one o.a
  | .pack => (List.range (32 / tyWidth (o.b.toNat / 16))).map (o.a.toNat + ·)
  | .add64 => pair o.a ++ (if o.immB then [] else pair o.b)
  | .three | .fthree | .hthree | .dot =>
    one o.a ++ (if o.immB then [] else one o.b) ++ (if o.long then one o.c else one o.d)
  | _ => one o.a ++ (if o.immB then [] else one o.b)

/-- The vector registers a V-slot operation writes. -/
def vDests (opc : Nat) (o : VOp) : List Nat :=
  match vClass opc with
  | .icmp | .fcmp | .voteP | .ptwo | .pone | .movs => []
  | .add64 => if selV o.d then [o.d.toNat, o.d.toNat + 1] else []
  | _ => if selV o.d then [o.d.toNat] else []

/-- The vector registers an M-slot operation reads: offset, and the data of stores and atomics (R216, R266). -/
def mSources (opc : Nat) (o : MOp) : List Nat :=
  let ofs := if selV o.ofs && opc != 0x30 && opc != 0x31 then [o.ofs.toNat] else []
  let grp := if selV o.data then (List.range (mGroup opc)).map (o.data.toNat + ·) else []
  let dat :=
    if 0x0A ≤ opc ∧ opc ≤ 0x0E then grp
    else if 0x14 ≤ opc ∧ opc ≤ 0x17 then grp
    else if opc = 0x19 then grp
    else if 0x20 ≤ opc ∧ opc ≤ 0x29 then grp
    else if opc = 0x2C ∨ opc = 0x2D ∨ opc = 0x36 ∨ opc = 0x37 then grp
    else []
  ofs ++ dat

/-- The vector registers an M-slot operation writes (R266). -/
def mDests (opc : Nat) (o : MOp) : List Nat :=
  if opc ≤ 0x07 ∨ (0x10 ≤ opc ∧ opc ≤ 0x13) ∨ opc = 0x18 ∨ (0x20 ≤ opc ∧ opc ≤ 0x23) ∨ opc = 0x28 ∨ opc = 0x29 ∨ opc = 0x2E
  then (List.range (mGroup opc)).map (o.data.toNat + ·) else []

/-- The vector registers a C-slot operation reads: JMPT's index. -/
def cSources : Instr → List Nat
  | .jmpt _ x _ _ => if selV x then [x.toNat] else []
  | _ => []

/-- The vector registers an operation names. -/
def opRegs (i : Instr) : List Nat :=
  match i.vView with
  | some (n, o) => vSources n o ++ vDests n o
  | none => match i.mView with
    | some (n, o) => mSources n o ++ mDests n o
    | none => cSources i

/-- The vector registers an operation reads. A memory operation's destination group counts as a read (R266). -/
def opReads (i : Instr) : List Nat :=
  match i.vView with
  | some (n, o) => vSources n o
  | none => match i.mView with
    | some (n, o) => mSources n o ++ mDests n o
    | none => cSources i

/-- The second register of the pair of an LDX or STX whose descriptor is 8 bytes wide (R266, R273). -/
def pairReads (wide : Nat → Bool) (i : Instr) : List Nat :=
  match i.mView with
  | some (n, o) => if (n == 0x18 || n == 0x19) && selV o.data && wide o.base.toNat then [o.data.toNat + 1] else []
  | none => []

/-- The bits and the gang's REGS make the operation legal (class 1 of Table 7-12). -/
def opLegal (i : Instr) (regs : Nat) : Bool := i.wellFormed && (opRegs i).all (fun n => decide (n < regs))

/-- The bank delay of a bundle's reads: each bank has two ports (R216). -/
def bankDelay (reads : List Nat) : Nat :=
  let d := reads.eraseDups
  (List.range 4).foldl (fun a b => a + ((d.filter (fun n => n % 4 == b)).length - 2)) 0

/-- The operations of a decoded bundle that its slots hold. -/
def bundleOps (b : BundleCode) : List Instr :=
  b.slots.filterMap (fun p => match p.2 with | .op i => some i | .bad _ => none)

/-- The bank delay of a bundle (R216). -/
def bundleDelay (wide : Nat → Bool) (b : Bundle) : Nat :=
  match decodeBundle b with
  | .ok c => bankDelay ((bundleOps c).flatMap (fun i => opReads i ++ pairReads wide i))
  | .error _ => 0

end Sys2Proof.Machine
end

