-- ==== Sys2Proof/Machine/Ops.lean ====
section
/-! DEFINITION. Ops: the named operations on the state: tables, cores, gangs and crews, free values, fixed-latency writes,
flags of the issuing gang, and the one way a trap is taken and left (R399 to R404). -/

namespace Sys2Proof.Machine

/-! ### Tables -/

/-- The entry of a key. -/
def mget? {α : Type} (m : Map α) (k : Nat) : Option α :=
  match m with
  | [] => none
  | (k', a) :: r => if k' = k then some a else mget? r k

/-- The entry of a key, or a default. -/
def mget {α : Type} (d : α) (m : Map α) (k : Nat) : α := (mget? m k).getD d

/-- The table with an entry written; keys stay rising. -/
def mset {α : Type} (m : Map α) (k : Nat) (a : α) : Map α :=
  match m with
  | [] => [(k, a)]
  | (k', b) :: r =>
    if k < k' then (k, a) :: (k', b) :: r
    else if k = k' then (k, a) :: r
    else (k', b) :: mset r k a

/-- The table without a key. -/
def mdel {α : Type} (m : Map α) (k : Nat) : Map α := m.filter (fun p => p.1 != k)

/-- 32 lanes from a function. -/
def lanesOf (f : Nat → W32) : Lanes := (List.range 32).map f

/-- One lane. -/
def laneGet (v : Lanes) (l : Nat) : W32 := v.getD l 0

/-- The lane mask of a list of lanes. -/
def maskOf (ls : List Nat) : BitVec 32 := ls.foldl (fun m l => m ||| (1#32 <<< l)) 0

/-! ### Cores, gangs, crews -/

def State.core (s : State) (c : Nat) : Core := mget {} s.cores c
def State.setCore (s : State) (c : Nat) (k : Core) : State := { s with cores := mset s.cores c k }
def State.gang? (s : State) (c g : Nat) : Option Gang := mget? (s.core c).gangs g
def State.gang (s : State) (c g : Nat) : Gang := mget {} (s.core c).gangs g
def State.setGang (s : State) (c g : Nat) (x : Gang) : State :=
  s.setCore c { s.core c with gangs := mset (s.core c).gangs g x }
def State.crew (s : State) (c k : Nat) : Crew := mget {} (s.core c).crews k
def State.setCrew (s : State) (c k : Nat) (x : Crew) : State :=
  s.setCore c { s.core c with crews := mset (s.core c).crews k x }
/-- The gang whose bundle is being issued. -/
def State.me (s : State) : Gang := s.gang s.cur.core s.cur.slot
def State.setMe (s : State) (g : Gang) : State := s.setGang s.cur.core s.cur.slot g
/-- Its crew. -/
def State.myCrew (s : State) : Crew := s.crew s.cur.core s.me.cslot
def State.setMyCrew (s : State) (k : Crew) : State := s.setCrew s.cur.core s.me.cslot k
/-- The context of a gang. -/
def State.ctxOf (s : State) (c g : Nat) : Nat := (s.crew c (s.gang c g).cslot).ctx
/-- The supervisor gang alone may issue privileged instructions (R328, R405). -/
def State.isSuper (s : State) : Bool := s.me.super
/-- The partition of a gang slot (R393). -/
def partOf (slot : Nat) : Nat := slot / 16

/-- Advance the counter of free values. -/
def State.bump (s : State) : State := { s with free := s.free + 1 }

/-- Add to a counter of a crew (R449). -/
def State.pmcAdd (s : State) (c k n d : Nat) : State :=
  if d = 0 then s
  else
    let w := s.crew c k
    s.setCrew c k { w with pmc := mset w.pmc n (mget 0 w.pmc n + BitVec.ofNat 64 d) }
/-- Add to a counter of the issuing gang's crew. -/
def State.pmc (s : State) (n d : Nat) : State := s.pmcAdd s.cur.core s.me.cslot n d

/-- Add to an event count of the power estimate (R444): event j of cluster c at 16j + c. -/
def State.power (s : State) (core j d : Nat) : State :=
  let k := 16 * j + core / 8
  { s with counts := { s.counts with events := mset s.counts.events k (mget 0 s.counts.events k + d) } }

/-- Add to an observation counter (R451): counter j of object i of kind k at 2^20 k + 2^10 i + j. -/
def State.observe (s : State) (kind i j d : Nat) : State :=
  let k := 2 ^ 20 * kind + 2 ^ 10 * i + j
  { s with counts := { s.counts with tick := mset s.counts.tick k (mget 0 s.counts.tick k + d) } }

/-- The base die's 2.0 GHz clock: one for two arithmetic clocks (R8, R369, R384, R392). -/
def State.baseClock (s : State) : Nat := s.clock / 2

/-- Put an event among those that may happen. -/
def State.later (s : State) (op : Instr) (arg : Event) : State :=
  { s with agenda := s.agenda ++ [{ op := op, arg := arg }] }

/-! ### Registers of a gang -/

def Gang.vreg (g : Gang) (n : Nat) : Lanes := mget [] g.v n
def Gang.sreg (g : Gang) (n : Nat) : W64 := mget 0 g.s n
/-- A predicate; p7 is true in every lane (R176). -/
def Gang.preg (g : Gang) (n : Nat) : BitVec 32 := if n = 7 then BitVec.allOnes 32 else mget 0 g.p n
/-- A policy register; mp0 holds 0x23 permanently (R118). -/
def Gang.mpreg (g : Gang) (n : Nat) : BitVec 8 := if n = 0 then 0x23 else mget 0x23 g.mp n
def Gang.flag (g : Gang) (n : Nat) : Flag := mget {} g.flags n
def Gang.slice (g : Gang) (k : Nat) : Slice := g.slices.getD k {}
def Gang.setSlice (g : Gang) (k : Nat) (x : Slice) : Gang := { g with slices := g.slices.set k x }
def Gang.part (g : Gang) (lead : Nat) : Part := mget {} g.parts lead
def Gang.setPart (g : Gang) (lead : Nat) (p : Part) : Gang := { g with parts := mset g.parts lead p }

/-- The slices of the part whose lowest slice is `lead`. -/
def Gang.partSlices (g : Gang) (lead : Nat) : List Nat :=
  (List.range g.nsl).filter (fun k => (g.slice k).lead == lead && !(g.slice k).ended)

/-- A read at this clock meets a write still in flight (R211, R212) or a variable-latency write not observed (R213). -/
def Gang.busy (g : Gang) (now : Nat) (d : Dest) : Bool :=
  g.pend.any (fun p => p.dest == d && p.born < now) || g.marks.any (fun m => m.dest == d && m.born < now)

/-- A write of lx1 in a lane is in flight at this clock (R215). -/
def Gang.carryOpen (g : Gang) (now l : Nat) : Bool := g.pend.any (fun p => p.dest == .lx1 && p.born < now && p.mask.getLsbD l)

/-- Put a fixed-latency write in flight; it taints a variable-latency write pending on the register (R213). -/
def Gang.write (g : Gang) (p : Pend) : Gang :=
  { g with
    pend := g.pend ++ [p]
    marks := g.marks.map (fun m => if m.dest = p.dest then { m with tainted := true } else m) }

/-- Note a variable-latency destination; it is tainted where a fixed-latency write is in flight (R213). -/
def Gang.mark (g : Gang) (d : Dest) (flag now : Nat) (mask : BitVec 32 := BitVec.allOnes 32) : Gang :=
  { g with marks := g.marks ++ [⟨d, flag, now, g.pend.any (fun p => p.dest == d), 0, mask⟩] }

/-- The lanes of `mask` take new values, the others keep theirs (R211). -/
def mergeLanes (mask : BitVec 32) (new old : Lanes) : Lanes :=
  lanesOf (fun l => if mask.getLsbD l then laneGet new l else laneGet old l)

/-- Bits of `mask` from `new`, the others from `old`. -/
def mergeBits (mask new old : BitVec 32) : BitVec 32 := (new &&& mask) ||| (old &&& ~~~mask)

/-- A write reaches its register, and is noted in the variable-latency writes that are pending there (R213). A system register is
written by the caller. -/
def Gang.land (g0 : Gang) (p : Pend) : Gang :=
  let g := { g0 with marks := g0.marks.map (fun m => if m.dest = p.dest then { m with lanes := m.lanes ||| p.mask } else m) }
  match p.dest with
  | .v n => { g with v := mset g.v n (mergeLanes p.mask p.vals (g.vreg n)) }
  | .s n => { g with s := mset g.s n p.word }
  | .p n => if n = 7 then g else { g with p := mset g.p n (mergeBits p.mask (p.word.setWidth 32) (g.preg n)) }
  | .lx1 => { g with lx1 := mergeBits p.mask (p.word.setWidth 32) g.lx1 }
  | .mp n => if n = 0 then g else { g with mp := mset g.mp n (p.word.setWidth 8) }
  | .d _ | .lv => g
  | .sys _ _ => g

/-! ### Lanes of the issuing part -/

/-- The lanes of the issuing part whose slice's active mask holds them (R226), ascending. -/
def State.activeLanes (s : State) : List Nat :=
  (List.range 32).filter (fun l =>
    s.cur.slices.contains (l / 4) && ((s.me.slice (l / 4)).mask.getLsbD (l % 4)))

/-- What a part has written of a register, by slice of its lanes, is not for the slices outside it to rely on (R184); the latches
that its slices have moved neither. -/
def Gang.noteDest (g : Gang) (slices : List Nat) (d : Dest) (mask : BitVec 32) : Gang :=
  let outside := BitVec.ofNat 8 (((List.range g.nsl).filter (fun k => !slices.contains k)).foldl (fun a k => a + 2 ^ k) 0)
  let keys := match d with
    | .s _ => [0]
    | .v _ | .p _ | .lx1 => (List.range g.nsl).filter (fun k => (List.range 4).any (fun l => mask.getLsbD (4 * k + l)))
    | .lv => slices
    | _ => []
  let rest := g.foreign.filter (fun x => !(x.1 == d && keys.contains x.2.1))
  { g with foreign := if outside = 0 then rest else rest ++ keys.map (fun k => (d, k, outside)) }

/-- The registers that a bundle issued at clock `now` by a part writes (R184). -/
def Gang.noteWrites (g : Gang) (slices : List Nat) (now : Nat) : Gang :=
  let g1 := (g.pend.filter (fun p => p.born == now)).foldl (fun g p => g.noteDest slices p.dest p.mask) g
  (g.marks.filter (fun m => m.born == now)).foldl (fun g m => g.noteDest slices m.dest m.mask) g1

/-- Slices that a REGANG has merged know what any of them knew. -/
def Gang.noteMerge (g : Gang) (slices : List Nat) : Gang :=
  { g with foreign := g.foreign.filterMap (fun x =>
      if slices.all (fun k => x.2.2.getLsbD k) then some x
      else
        let left := slices.foldl (fun m k => m &&& ~~~(1#8 <<< k)) x.2.2
        if left = 0 then none else some (x.1, x.2.1, left)) }

/-- The issuing part may not rely on a register, in the lanes of a slice (R184). -/
def State.unmerged (s : State) (d : Dest) (k : Nat) : Bool :=
  s.me.foreign.any (fun x => x.1 == d && x.2.1 == k && s.cur.slices.any (fun j => x.2.2.getLsbD j))

/-- A predicate in a lane as a guard or condition reads it; in flight, or written by another part, it is undefined (R184, R211). -/
def State.predLane (s : State) (n l : Nat) : Bool :=
  if n ≠ 7 ∧ (s.cur.bad ∨ s.me.busy s.clock (.p n) ∨ s.unmerged (.p n) (l / 4)) then Config.freeBit s.free (64 * n + l) else (s.me.preg n).getLsbD l

/-- The guard in a lane (R202). -/
def State.guardLane (s : State) (g : BitVec 4) (l : Nat) : Bool :=
  xor (s.predLane (g.toNat % 8) l) (g.getLsbD 3)

/-- The participating lanes of a V-slot operation (R231). -/
def State.vLanes (s : State) (o : VOp) : List Nat := s.activeLanes.filter (s.guardLane o.g)

/-! ### Flags of the issuing gang (R217) -/

/-- Count one more operation on a flag. -/
def Gang.flagInc (g : Gang) (f : Nat) : Gang :=
  let x := g.flag f
  { g with flags := mset g.flags f { x with count := x.count + 1 } }

/-- An operation completes on a flag; the first error's cause is kept (R217). -/
def Gang.flagDec (g : Gang) (f cause : Nat) : Gang :=
  let x := g.flag f
  let y : Flag := ⟨x.count - 1, x.err || cause != 0, if x.err then x.cause else if cause = 0 then x.cause else cause⟩
  { g with flags := mset g.flags f y }

/-- Count an operation of the issuing gang on its flag. -/
def State.inc (s : State) (f : Nat) : State := s.setMe (s.me.flagInc f)
/-- An operation of a gang completes on its flag. -/
def State.dec (s : State) (c g f cause : Nat) : State :=
  match s.gang? c g with
  | some x => s.setGang c g (x.flagDec f cause)
  | none => s

/-- What an observation of the flag at zero makes final (R132, R213): the destinations counted on it; a tainted one takes a free value
in the lanes that it and a fixed-latency write that met it perform (R417), and so does what of these is still in flight; what its copies have written
waits for an MREADY (R136). -/
def Gang.observe (g : Gang) (f now k : Nat) : Gang :=
  let seen := g.marks.filter (fun m => m.flag == f && m.born < now)
  let g1 := { g with
    marks := g.marks.filter (fun m => !(m.flag == f && m.born < now))
    unready := g.unready ++ (g.copied.filter (fun x => x.1 == f)).map (·.2)
    copied := g.copied.filter (fun x => x.1 != f) }
  seen.foldl (fun g m =>
    if !m.tainted then g
    else
      let free (n : Nat) : Lanes := lanesOf (fun l => Config.freeW32 k (4096 + 32 * n + l))
      let word (n : Nat) : W64 := Config.freeW64 k (4096 + n)
      let met := m.mask &&& (g.pend.filter (fun p => p.dest == m.dest)).foldl (fun a p => a ||| p.mask) m.lanes
      let spoil (i : Nat) (p : Pend) : Pend := match p.dest with
        | .v _ => { p with vals := mergeLanes m.mask (free (128 + i)) p.vals }
        | .p _ => { p with word := (mergeBits m.mask ((word (128 + i)).setWidth 32) (p.word.setWidth 32)).setWidth 64 }
        | _ => { p with word := word (128 + i) }
      let h := { g with pend := ((List.range g.pend.length).zip g.pend).map (fun p => if p.2.dest = m.dest then spoil p.1 p.2 else p.2) }
      match m.dest with
      | .v n => { h with v := mset h.v n (mergeLanes met (free n) (h.vreg n)) }
      | .s n => { h with s := mset h.s n (word n) }
      | .p n => if n = 7 then h else { h with p := mset h.p n (mergeBits met (Config.freeW32 k (8192 + n)) (h.preg n)) }
      | _ => h) g1

/-- A gang observes one of its flags at zero (R132): a mill batch of the flag is observed too (R138). -/
def State.observeAt (s : State) (c slot f : Nat) : State :=
  let k := s.core c
  let uses := k.mill.uses.filter (fun u => !(u.slot == slot && u.flag == some f && !k.mill.queue.any (fun q => q.id == u.id)))
  ((s.setCore c { k with mill := { k.mill with uses := uses } }).setGang c slot ((s.gang c slot).observe f s.clock s.free)).bump

/-! ### Traps (R399 to R402) -/

/-- Whether a part is inside the C-slot wait of the bundle at its PC (Table 14-4, field W). -/
def WaitC.inside : WaitC → Bool
  | .flag _ _ | .bar _ _ _ | .sbar _ _ | .regang _ | .resume => true
  | _ => false

/-- A descriptor of a gang says 8 bytes (Table 9-2); one that an LDC is still to write says either. -/
def Gang.wide (g : Gang) (now k n : Nat) : Bool :=
  if g.busy now (.d n) then Config.freeBit k (0x2200 + n) else bitsOf (mget 0 g.desc (4 * n + 3)).toNat 60 59 == 3

/-- The bank delay a part still owes: what a trap left of it (R404), else its bundle's. -/
def Part.owed (p : Part) (wide : Nat → Bool) (b : Bundle) : Nat :=
  if p.bankPaid then 0 else if 0 < p.bankd then p.bankd else bundleDelay wide b

/-- The slice timing word at a trap in clock `now` (Table 14-4). The bank delay of a bundle that is at hand and has not been served is
still to serve. -/
def Gang.timing (g : Gang) (now seed k : Nat) : BitVec 16 :=
  let x := g.slice k
  if k ≥ g.nsl ∨ x.ended then 0
  else
    let p := g.part x.lead
    let w := if p.wait.inside then 1 else 0
    let timer := match p.wait with | .timer _ _ => true | _ => false
    let left := p.next - (now + 1)
    let remain := if timer || p.bankPaid then 0 else min 16 left
    let bankd := if p.bankPaid then left else match p.fetched with
      | some (pc, b) => if pc = x.pc then p.owed (g.wide now seed) b else p.bankd
      | none => p.bankd
    BitVec.ofNat 16 (32768 + w * 16384 + min 7 bankd * 2048 + remain)

/-- SLEEP and YIELD waits end at a freeze: the part resumes at its next bundle with no time remaining (R341, R401). -/
def Gang.endTimers (g : Gang) (now : Nat) : Gang :=
  { g with parts := g.parts.map (fun q =>
      match q.2.wait with
      | .timer _ y => (q.1, { q.2 with wait := .none, next := now, age := if y then 0 else q.2.age })
      | _ => q) }

/-- The address bits of a program counter: `[56:4]`. -/
def pcBits (pc : W64) : W64 := pc &&& 0x01FFFFFFFFFFFFF0

/-- Freeze a gang with a trap (R401, R402): the cause, the next bundle of the trapping part, INFO and the timing words are
fixed now; the latches and flags are written into the frame once the last fixed-latency operation completes. -/
def Gang.freeze (g : Gang) (t : Trap) (next : W64) (now seed : Nat) : Gang :=
  let tm := (List.range 8).map (g.timing now seed)
  { g.endTimers now with
    frozen := true
    frameOpen := true
    limg0 := false
    limgFlags := false
    frame := { tcause := t.tcause, dcause := t.dcause, slot := t.slot, flag := t.flag, next := pcBits next,
               info := BitVec.ofNat 64 t.info, timing := tm, clock := now } }

/-- TAKING A TRAP: the gang in a slot of a core freezes, every part, with the trap's cause; the bundle recorded as next is
`next`. Counter PMC13 counts it (Table 19-8). -/
def State.takeTrapAt (s : State) (c slot : Nat) (t : Trap) (next : W64) : State :=
  (s.setGang c slot ((s.gang c slot).freeze t next s.clock s.free)).pmcAdd c (s.gang c slot).cslot 13 1

/-- A precise trap of the bundle being issued: the bundle has no other effect and is the next bundle (R218). The error of a bad word that
its slots have read is pending from here on (R80, R400). -/
def State.takeTrap (s : State) (t : Trap) : State :=
  let g := s.me
  let p := g.part s.cur.lead
  let h := g.setPart s.cur.lead { p with fetched := none, fetchFault := none, bankPaid := false, bankd := 0 }
  let s1 := s.setMe { h with bad := g.bad && t.slot == 4, asyncErr := g.asyncErr || (g.bad && t.slot != 4) }
  let s2 := s1.takeTrapAt s.cur.core s.cur.slot t s.cur.pc
  { s2 with cur := { s2.cur with trap := some t } }

/-- The slots' numbers in a trap frame (Table 14-3). -/
def slotNum : Slot → Nat
  | .v => 0
  | .m => 1
  | .x => 2
  | .c => 3

/-- Illegal operation in a slot. -/
def illegal (k : Slot) : Trap := { tcause := 0x61, slot := slotNum k }

/-! ### Return from a trap (R347, R404) -/

/-- The latches of the frame go back to the slices: each slice's four latches are valid at once (R404). -/
def Gang.restoreLatches (g : Gang) : Gang :=
  { g with
    lx1 := g.frame.lx1
    slices := g.slices.map (fun x =>
      { x with latches := (List.range 4).map (fun k => ⟨0, BitVec.allOnes 32, g.frame.lv.getD k []⟩) }) }

/-- The flags that a load of the frame has given go to the live flags (R403): COUNT [5:0], ERR [7], CAUSE [15:8] of each word. -/
def Gang.restoreFlags (g : Gang) : Gang :=
  { g with flags := (List.range 32).map (fun n =>
      let w := (g.frame.flags.getD n 0).toNat
      (n, if g.limgMask.getLsbD n then { count := w % 64, err := w.testBit 7, cause := w / 256 } else g.flag n)) }

/-- The parts of the gang as its slices name them: one for each group of slices, under its lowest (Table 11-8, SLPART). -/
def Gang.regroup (g : Gang) : Gang :=
  let live := (List.range g.nsl).filter (fun k => !(g.slice k).ended)
  let low (k : Nat) : Nat := (live.find? (fun j => (g.slice j).lead == (g.slice k).lead)).getD k
  let slices := (List.range g.slices.length).map (fun k => { g.slice k with lead := if live.contains k then low k else (g.slice k).lead })
  let leads := (live.map low).eraseDups
  { g with
    slices := slices
    parts := leads.foldl (fun m k => mset m k (g.part (g.slice k).lead)) [] }

/-- A part at ERET in clock `e`, from its timing word (R404). -/
def Part.resume (p : Part) (w : BitVec 16) (e : Nat) : Part :=
  let q := { p with fetched := none, fetchFault := none, bankPaid := false, bankd := 0 }
  if w.getLsbD 14 then
    let wait := if p.wait.inside then p.wait else .resume
    { q with next := max p.next (e + 1), wait := wait, tests := e + 1 }
  else { q with next := e + 1 + w.toNat % 32, bankd := w.toNat / 2048 % 8, wait := .none }

/-- ERET of the gang in a slot at clock `e` (R404): latches and, after a kind-0 LIMG, flags come from the frame; parts inside
a C-slot wait test again from e + 1; the others issue no earlier than e + 1 + REMAIN + BANKD. A frame not yet written leaves
the latches as they are. -/
def Gang.eret (g : Gang) (e : Nat) : Gang :=
  let g1 := if g.frameOpen then g else g.restoreLatches
  let g2 := (if g.limg0 && !g.limgFlags then g1.restoreFlags else g1).regroup
  { g2 with
    frozen := false
    frameOpen := false
    restored := false
    limg0 := false
    limgFlags := false
    watchDue := g2.watch.isSome
    parts := g2.parts.map (fun q => (q.1, q.2.resume (g.frame.timing.getD q.1 0) e)) }

end Sys2Proof.Machine
end

