-- ==== Sys2Proof/Machine/Mem.lean ====
section
/-! DEFINITION. Mem: bytes of HBM in canonical form with their poison (R10, R77, R79), device registers and their reset values
(Tables 18-2 and 19-1), interrupts (R429) and RAS counts (R440). -/

namespace Sys2Proof.Machine
open Sys2Proof

/-- The form of a table of bytes: rising addresses, no entry equal to what an unlisted address reads as (0, log entry 2). -/
def Mem.wf : List Host.Cell → Bool
  | [] => true
  | [(_, b)] => b != 0
  | (a, b) :: (c, d) :: r => b != 0 && decide (a < c) && Mem.wf ((c, d) :: r)

/-- The byte at an address. -/
def Mem.read (m : List Host.Cell) (a : Nat) : Byte := mget 0 m a

/-- Write one byte; writing 0 removes the entry. -/
def Mem.write : List Host.Cell → Nat → Byte → List Host.Cell
  | [], a, b => if b = 0 then [] else [(a, b)]
  | (k, v) :: r, a, b =>
    if a < k then (if b = 0 then (k, v) :: r else (a, b) :: (k, v) :: r)
    else if a = k then (if b = 0 then r else (a, b) :: r)
    else (k, v) :: Mem.write r a b

/-- `n` bytes from an address, lowest first. -/
def Mem.bytes (m : List Host.Cell) (a n : Nat) : List Byte := (List.range n).map (fun i => Mem.read m (a + i))

/-- Write bytes from an address. -/
def Mem.put (m : List Host.Cell) (a : Nat) : List Byte → List Host.Cell
  | [] => m
  | b :: bs => Mem.put (Mem.write m a b) (a + 1) bs

/-- A little-endian word of `n` bytes. -/
def Mem.word (m : List Host.Cell) (a n : Nat) : Nat := ofBytesLE (Mem.bytes m a n)

/-! ### HBM -/

/-- The size of HBM: 768 GiB (R77). -/
def hbmSize : Nat := 0xC000000000

/-- The `n` bytes from a physical address lie in HBM (R424). -/
def inHbm (pa n : Nat) : Bool := decide (pa + n ≤ hbmSize)

/-- The stack, the unit within it and the channel of a physical address (R77). -/
def hbmStack (pa : Nat) : Nat := bitsOf pa 39 8 % 12
def hbmUnit (pa : Nat) : Nat := bitsOf pa 39 8 / 12
def hbmChannel (pa : Nat) : Nat := (hbmUnit pa % 32) ^^^ (hbmUnit pa / 2 ^ 13 % 32)

def State.rd (s : State) (pa n : Nat) : Nat := Mem.word s.mem pa n
def State.rdBytes (s : State) (pa n : Nat) : List Byte := Mem.bytes s.mem pa n
def State.wrBytes (s : State) (pa : Nat) (bs : List Byte) : State := { s with mem := Mem.put s.mem pa bs }
def State.wr (s : State) (pa n v : Nat) : State := s.wrBytes pa (bytesLE n v)

/-- The 8-byte words a range touches. -/
def wordsOf (pa n : Nat) : List Nat := (List.range ((pa + n + 7) / 8 - pa / 8)).map (pa / 8 + ·)

/-- A range holds poison (R79). -/
def State.poisoned (s : State) (pa n : Nat) : Bool := (wordsOf pa n).any s.poison.contains

/-- Mark a range poisoned. -/
def State.poisonRange (s : State) (pa n : Nat) : State :=
  { s with poison := s.poison ++ (wordsOf pa n).filter (fun w => !s.poison.contains w) }

/-- A full-line write: it clears the line's poison (R79). -/
def State.wrLine (s : State) (pa : Nat) (bs : List Byte) : State :=
  { s.wrBytes pa bs with poison := s.poison.filter (fun w => decide (w < pa / 8 ∨ pa / 8 + 16 ≤ w)) }

/-! ### Device registers -/

/-- Reset values of Tables 18-2 and 19-1; fused fields, the revision and the sensors are Config's (log entries 3, 5). -/
def dregReset (off : Nat) : W64 :=
  if off = 0x0 then BitVec.ofNat 64 (0x9128 * 2 ^ 48 + Config.siliconRev % 256 * 2 ^ 40)
  else if off = 0x38 then BitVec.ofNat 64 (50 * 2 ^ 48 + 1000 * 2 ^ 32 + 8 * 2 ^ 24 + 64)
  else if off = 0x40 then BitVec.ofNat 64 (100 * 2 ^ 48 + 1000 * 2 ^ 32)
  else if off = 0x70 then BitVec.ofNat 64 (2 ^ 63 + 24)
  else if 0x80 ≤ off ∧ off < 0x100 then BitVec.ofNat 64 (64 * 2 ^ 25 + 256 * 2 ^ 16 + 128 * 2 ^ 8)
  else if off = 0x3000 then BitVec.ofNat 64 (2700 * 2 ^ 48 + 750 * 2 ^ 36 + 420 * 2 ^ 24 + 1024 * 2 ^ 8 + 64)
  else if 0x3010 ≤ off ∧ off < 0x3038 then Config.fused off &&& 0xFFF
  else if off = 0x3040 then Config.fused off
  else if 0x3100 ≤ off ∧ off < 0x3180 then
    BitVec.ofNat 64 (Config.temp0 ((off - 0x3100) / 8) % 256 * 2 ^ 52 + 0xFFFF * 2 ^ 36)
  else if 0x3200 ≤ off ∧ off < 0x3600 then Config.fused off
  else if off = 0x3600 then BitVec.ofNat 64 (16 * 2 ^ 57)
  else 0

/-- A device register. -/
def State.dreg (s : State) (off : Nat) : W64 := (mget? s.dregs off).getD (dregReset off)
def State.setDreg (s : State) (off : Nat) (v : W64) : State := { s with dregs := mset s.dregs off v }
/-- Bits `[hi:lo]` of a device register. -/
def State.dfld (s : State) (off hi lo : Nat) : Nat := bitsOf (s.dreg off).toNat hi lo

/-- The device's UALink ID (Table 18-3). -/
def State.devId (s : State) : Nat := s.dfld 0 9 0

/-- Signal interrupt source i (R429): nothing where EN or EIID is 0. -/
def State.irq (s : State) (i : Nat) : State :=
  let w := (s.dreg (0x400 + 8 * i)).toNat
  if w.testBit 63 ∧ w % 2 ^ 11 ≠ 0 then { s with irqs := s.irqs ++ [(i, bitsOf w 55 12 * 4096, w % 2 ^ 11)] } else s

/-- Saturating increment below `2^n`. -/
def satInc (n x : Nat) : Nat := if x + 1 < 2 ^ n then x + 1 else x

/-- Count a corrected error of a structure at a location (R440). Words 4s to 4s + 2. -/
def State.rasCorrected (s : State) (k loc : Nat) : State :=
  let w := (mget 0 s.ras (4 * k)).toNat
  let r1 := mset s.ras (4 * k) (BitVec.ofNat 64 (w / 2 ^ 32 * 2 ^ 32 + satInc 32 (w % 2 ^ 32)))
  { s with ras := mset r1 (4 * k + 1) (BitVec.ofNat 64 loc) }

/-- Count an uncorrectable error (R440): IRQT 145. -/
def State.rasUncorrected (s : State) (k loc : Nat) : State :=
  let w := (mget 0 s.ras (4 * k)).toNat
  let r1 := mset s.ras (4 * k) (BitVec.ofNat 64 (satInc 32 (w / 2 ^ 32) * 2 ^ 32 + w % 2 ^ 32))
  { s with ras := mset r1 (4 * k + 2) (BitVec.ofNat 64 loc) }.irq 145

/-- The context a number names. -/
def State.ctx (s : State) (c : Nat) : Ctx := mget {} s.ctxs c
/-- The physical address of word w of a context's table entry (R426). -/
def State.ctxWordPa (s : State) (c w : Nat) : Nat := s.dfld 0x8 55 18 * 2 ^ 18 + 64 * c + 8 * w

/-- A CTXCMD makes the context not live and has not finished (R426). -/
def State.dying (s : State) (c : Nat) : Bool :=
  (s.dreg 0x18).getLsbD 0 && s.dfld 0x10 63 62 == 1 && s.dfld 0x10 11 0 == c

/-- The device time stamp in ns: four clocks a nanosecond (R208: a 4 GHz count). -/
def State.ns (s : State) : Nat := s.clock / 4

end Sys2Proof.Machine
end

