-- ==== Sys2Proof/Machine/Dir.lean ====
section
/-! DEFINITION. Dir: the L2 and its directory (R65 to R71, R143, R144), with the first-level copies a directory action reaches, and
the budget of the memory-side arbiters (R447). Data stand in memory alone: every observer sees a store at once (R110). -/

namespace Sys2Proof.Machine
open Sys2Proof

/-- The home slice of a physical address (R67). -/
def homeSlice (pa : Nat) : Nat :=
  bitsOf pa 12 7 ^^^ bitsOf pa 18 13 ^^^ bitsOf pa 24 19 ^^^ bitsOf pa 30 25 ^^^ bitsOf pa 36 31 ^^^ bitsOf pa 39 37

/-! ### Budgets (R447) -/

/-- The budget register of a core's cluster leaves room for one more line in this interval; no budget binds the units, numbered from
128. -/
def State.budgetOk (s : State) (core : Nat) : Bool :=
  let b := s.dfld (0x3100 + 8 * (core / 8)) 51 36
  decide (128 ≤ core) || b == 0xFFFF || decide (mget 0 s.counts.lines (core / 8) < b)

/-- One line granted to a core's cluster. -/
def State.grant (s : State) (core : Nat) : State :=
  let k := core / 8
  ({ s with counts := { s.counts with lines := mset s.counts.lines k (mget 0 s.counts.lines k + 1) } }.power core 3 1).observe
    3 k 1 1

/-! ### Blocks of the stash -/

/-- Every byte of a line valid. -/
def fullLine : Nat := 2 ^ 128 - 1

def Block.holds (b : Block) (ctx line : Nat) : Bool :=
  b.ctx == ctx && decide (b.base ≤ line) && decide (line < b.base + b.lines.length)

def Core.block? (k : Core) (ctx line : Nat) : Option Block := k.blocks.find? (·.holds ctx line)

/-- A line in a core's stash; absent where no block holds it. -/
def Core.stLine (k : Core) (ctx line : Nat) : Line :=
  match k.block? ctx line with
  | some b => b.lines.getD (line - b.base) {}
  | none => {}

/-- The state of a line in a core's stash: 0 absent, 1 S, 2 E, 3 O, 4 M. -/
def Core.lineState (k : Core) (ctx line : Nat) : Nat := (k.stLine ctx line).st

/-- Write a line of a block the core holds. -/
def Core.setLine (k : Core) (ctx line : Nat) (x : Line) : Core :=
  { k with blocks := k.blocks.map (fun b => if b.holds ctx line then { b with lines := b.lines.set (line - b.base) x } else b) }

/-- Raise a block's rank and note the touch (R144). -/
def Core.touch (k : Core) (ctx line rank now : Nat) : Core :=
  { k with blocks := k.blocks.map (fun b =>
      if b.holds ctx line then { b with rank := max b.rank rank, touched := now } else b) }

/-- Retention rank (Table 4-5). -/
def retention (hint pri : Nat) : Nat :=
  match hint with
  | 0 => pri
  | 1 => 0
  | 2 => max pri 6
  | _ => 0

/-- The first-level copies of a physical line that the snoop filters name (R69): core, context, IA line. They name every copy there is (log
entry 26). -/
def State.holders (s : State) (pl : Nat) : List (Nat × Nat × Nat) :=
  s.cores.flatMap (fun x =>
    (x.2.blocks.flatMap (fun b =>
      ((List.range b.lines.length).filter (fun i => let l := b.lines.getD i {}; l.st != 0 && l.pl == pl)).map
        (fun i => (x.1, b.ctx, b.base + i)))) ++
    ((x.2.roL1.filter (fun r => r.2.2 == pl)).map (fun r => (x.1, r.1, r.2.1))))

/-! ### The directory (Table 2-5) -/

/-- MOESI state (0 I, 1 S, 2 E, 3 O, 4 M), owner, sharers of a line. Sharer 16 is the application-core complex (R71). -/
def State.dirOf (s : State) (pl : Nat) : Nat × Nat × Nat := mget (0, 0, 0) s.dir pl
def State.setDir (s : State) (pl : Nat) (d : Nat × Nat × Nat) : State := { s with dir := mset s.dir pl d }

/-- Sharer `c` reads: a line in E or M at its owner becomes S or O there. -/
def State.dirRead (s : State) (pl c : Nat) : State :=
  let (m, o, sh) := s.dirOf pl
  match m with
  | 0 => s.setDir pl (2, c, 2 ^ c)
  | 2 => s.setDir pl (1, 0, sh ||| 2 ^ c)
  | 4 => s.setDir pl (3, o, sh ||| 2 ^ c)
  | _ => s.setDir pl (m, o, sh ||| 2 ^ c)

/-- Copies of a line held as E or M become S or O; what a write-allocated one lacks is merged beneath it. -/
def State.downgrade (s : State) (pl : Nat) : State :=
  { s with cores := s.cores.map (fun x => (x.1, { x.2 with blocks := x.2.blocks.map (fun b =>
      { b with lines := b.lines.map (fun l => if l.pl = pl then
          (if l.st = 2 then ⟨1, pl, fullLine, []⟩ else if l.st = 4 then ⟨3, pl, fullLine, []⟩ else l) else l) }) })) }

/-- A read at the home slice that keeps no copy takes the data of a line the complex owns: M becomes O there (Table 2-5, R71). -/
def State.yields (s : State) (pl : Nat) : State :=
  if (s.dirOf pl).1 = 4 ∧ (s.dirOf pl).2.1 = 16 then s.setDir pl (3, 16, (s.dirOf pl).2.2) else s

/-- Sharer `c` takes ownership: M, c only. -/
def State.dirOwn (s : State) (pl c : Nat) : State := s.setDir pl (4, c, 2 ^ c)

/-- A write-back from the owner: S if sharers remain, else I; the L2's data is ahead of HBM. -/
def State.dirWriteback (s : State) (pl : Nat) : State :=
  let (_, _, sh) := s.dirOf pl
  let t : State := { s with l2 := s.l2.map (fun x => if x.line = pl then { x with dirty := true } else x) }
  if sh = 0 then t.setDir pl (0, 0, 0) else t.setDir pl (1, 0, sh)

/-- A cluster no longer holds a line: it leaves the sharers. -/
def State.dirDrop (s : State) (pl c : Nat) : State :=
  let (m, o, sh) := s.dirOf pl
  let held := (s.holders pl).any (fun h => h.1 / 8 == c)
  if held then s
  else
    let sh' := if sh.testBit c then sh - 2 ^ c else sh
    if sh' = 0 then s.setDir pl (0, 0, 0) else s.setDir pl ((if m = 4 ∨ m = 2 then 1 else m), o, sh')

/-- A fill of a physical line on its way to a core. -/
def Pending.fillOf (p : Pending) (pl : Nat) : Bool :=
  p.op == .stashLineFill && (match p.arg with | .line _ _ _ q => q == pl | _ => false)

/-- One core's copies of a line become absent, written back if dirty (R65). -/
def State.recall (s : State) (c ctx line : Nat) : State :=
  let k := s.core c
  let l := k.stLine ctx line
  let pl := if l.st ≠ 0 then l.pl else ((k.roL1.find? (fun r => r.1 == ctx && r.2.1 == line)).map (·.2.2)).getD 0
  let s1 := s.setCore c { k.setLine ctx line {} with roL1 := k.roL1.filter (fun r => !(r.1 == ctx && r.2.1 == line)) }
  let s2 := s1.dirDrop pl (c / 8)
  if 3 ≤ l.st then s2.dirWriteback pl else s2

/-- Every first-level copy of a physical line is recalled, the complex's with them; a fill still on its way is asked for again. -/
def State.recallAll (s : State) (pl : Nat) : State :=
  let t := (s.holders pl).foldl (fun t h => t.recall h.1 h.2.1 h.2.2) s
  let (_, o, sh) := t.dirOf pl
  let t1 := if sh.testBit 16 then (if o = 16 then t.dirWriteback pl else t).dirDrop pl 16 else t
  { t1 with agenda := t1.agenda.filter (fun p => !p.fillOf pl) }

/-! ### The L2 (R67, R68, R144) -/

/-- The lines of the slice and set of a line. -/
def State.l2Mates (s : State) (pl : Nat) : List L2Line :=
  s.l2.filter (fun x => homeSlice (128 * x.line) == homeSlice (128 * pl) && Config.l2Set x.line % 2048 == Config.l2Set pl % 2048)

/-- The victim of a set: lowest rank, then least recently touched. -/
def l2Victim : List L2Line → Option L2Line
  | [] => none
  | x :: xs => match l2Victim xs with
    | none => some x
    | some y => if x.rank < y.rank ∨ (x.rank = y.rank ∧ x.touched ≤ y.touched) then some x else some y

/-- A line leaves the L2: its copies are recalled first, and dirty data goes to HBM (R68); of a clean one what lies in HBM is left. -/
def State.l2Evict (s : State) (x : L2Line) : State :=
  let t := s.recallAll x.line
  let dirty := t.l2.any (fun y => y.line == x.line && y.dirty)
  let under := t.hbmBad.filter (fun w => w / 16 == x.line)
  let u : State := { t with l2 := t.l2.filter (fun y => y.line != x.line), dir := mdel t.dir x.line,
                            hbmBad := t.hbmBad.filter (fun w => w / 16 != x.line), poison := if dirty then t.poison else (t.poison ++ under).eraseDups }
  if dirty then u.observe 2 (homeSlice (128 * x.line)) 7 1 else u

/-- An access of a line at its home slice (R143, R144): it is entered at a rank, `last` as least recently touched, or its rank
raised; `fetch`: its data comes from HBM. -/
def State.l2Use (s : State) (pl rank : Nat) (last wr fetch : Bool) : State :=
  let sl := homeSlice (128 * pl)
  if s.l2.any (·.line == pl) then
    ({ s with l2 := s.l2.map (fun x => if x.line = pl then
        { x with rank := max x.rank rank, touched := s.clock, dirty := x.dirty || wr } else x) } : State).observe 2 sl 0 1
  else
    let s1 := if (s.l2Mates pl).length < 12 then s else (match l2Victim (s.l2Mates pl) with | some x => s.l2Evict x | none => s)
    let t := ({ s1 with l2 := s1.l2 ++ [⟨pl, rank, if last then 0 else s.clock, wr⟩] } : State).observe 2 sl 1 1
    if fetch then t.observe 2 sl 6 1 else t

/-- The directory state after a write that takes effect at the home slice: no copy remains (R68, R72). -/
def State.atSlice (s : State) (pa : Nat) : State := (s.recallAll (pa / 128)).setDir (pa / 128) (0, 0, 0)

/-- A write of whole lines at their home slices. -/
def State.lineWrite (s : State) (pa : Nat) (bs : List Byte) : State := ((s.l2Use (pa / 128) 0 false true false).atSlice pa).wrLine pa bs

/-- A frame of zeros: 32 full-line writes (R37). -/
def State.zeroFrame (s : State) (frame : Nat) : State :=
  (List.range 32).foldl (fun t i => t.lineWrite (frame + 128 * i) (List.replicate 128 0)) s

/-- The lines a range touches. -/
def linesOf (a n : Nat) : List Nat := (List.range ((a + n + 127) / 128 - a / 128)).map (a / 128 + ·)

/-- A write of bytes at the home slices of their lines; a line written whole loses its poison (R79). -/
def State.wrOver (s : State) (pa : Nat) (bs : List Byte) : State :=
  let lines := linesOf pa bs.length
  let t := lines.foldl (fun t l => t.atSlice (128 * l)) s
  let whole (l : Nat) : Bool := decide (pa ≤ 128 * l) && decide (128 * l + 128 ≤ pa + bs.length)
  { t.wrBytes pa bs with poison := t.poison.filter (fun w => !(lines.contains (w / 16) && whole (w / 16))) }

end Sys2Proof.Machine
end

