-- ==== Sys2Proof/Machine/Walk.lean ====
section
/-! DEFINITION. Walk: translation at the memory side (R25 to R29, R32 to R37), and fault records (R42, R43). -/

namespace Sys2Proof.Machine
open Sys2Proof

/-- The translation slice of an access (R25). -/
def tslice (ctx va : Nat) : Nat :=
  (ctx % 64) ^^^ (ctx / 64 % 64) ^^^ bitsOf va 17 12 ^^^ bitsOf va 23 18 ^^^ bitsOf va 29 24 ^^^ bitsOf va 35 30 ^^^
    bitsOf va 41 36 ^^^ bitsOf va 47 42 ^^^ bitsOf va 53 48 ^^^ bitsOf va 56 54

/-- Kinds of access a translation checks: 0 load, 1 store, 2 atomic, 3 fetch. -/
def writesAcc (acc : Nat) : Bool := acc == 1 || acc == 2

/-! ### Page-table entries (R27) -/

inductive PteKind | absent | bad | next | high | leaf
  deriving DecidableEq, Repr

/-- Frame number field of an entry. -/
def ptePpn (e : Nat) : Nat := bitsOf e 53 10
def pteN (e : Nat) : Bool := e.testBit 63
def ptePbmt (e : Nat) : Nat := bitsOf e 62 61

/-- What an entry at a level is. -/
def pteKind (e level : Nat) : PteKind :=
  let r := e.testBit 1; let w := e.testBit 2; let x := e.testBit 3
  if !e.testBit 0 then .absent
  else if 3 ≤ level ∧ (r ∨ w ∨ x) then .high
  else if w && !r then .bad
  else if ptePbmt e = 3 ∨ bitsOf e 60 54 ≠ 0 then .bad
  else if !r && !w && !x then
    if level = 0 ∨ e.testBit 7 ∨ e.testBit 6 ∨ e.testBit 4 ∨ pteN e ∨ ptePbmt e ≠ 0 then .bad else .next
  else if ptePpn e % 512 ^ level ≠ 0 then .bad
  else if pteN e && (decide (level ≠ 0) || decide (ptePpn e % 16 ≠ 8)) then .bad
  else .leaf

/-- The 4 KiB frame a leaf gives the page `vpn` (Svnapot included). -/
def leafFrame (e level vpn : Nat) : Nat :=
  if pteN e then ptePpn e / 16 * 16 + vpn % 16 else ptePpn e + vpn % 512 ^ level

/-- The leaf permits the access (R27). -/
def pteAllows (e acc : Nat) : Bool :=
  e.testBit 4 && (if writesAcc acc then e.testBit 2 else if acc = 3 then e.testBit 3 else e.testBit 1)

/-- The entry with A, and D for a store, set. -/
def pteAD (e acc : Nat) : Nat := e ||| (if writesAcc acc then 0xC0 else 0x40)

/-- Index of a page number at a level. -/
def vpnIdx (vpn level : Nat) : Nat := vpn / 512 ^ level % 512

/-- A table or companion entry read by a walk, through the L2 at its home slice (R26). -/
def State.readEntry (s : State) (pa : Nat) : State := s.l2Use (pa / 128) 0 false false true

/-- A table entry written by compare-and-swap at its home slice (R27). -/
def State.writeEntry (s : State) (pa e : Nat) : State := ((s.l2Use (pa / 128) 0 false true true).atSlice pa).wr pa 8 e

/-! ### The G-stage (R29) -/

/-- A G-stage walk from `level` in the table at `base`: the frame and the leaf, or the cause of a fault or of poison. -/
def gWalk : Nat → State → Nat → Nat → Nat → Nat → State × Except Nat (Nat × Nat)
  | 0, s, _, _, _, _ => (s, .error 0x16)
  | fuel + 1, s, base, level, vpn, acc =>
    let idx := if level = 4 then vpn / 512 ^ 4 else vpnIdx vpn level
    let pa := base + 8 * idx
    if !inHbm pa 8 then (s, .error 0x16)
    else if s.poisoned pa 8 then (s, .error 0x20)
    else
      let e := s.rd pa 8
      match pteKind e level with
      | .next => gWalk fuel (s.readEntry pa) (4096 * ptePpn e) (level - 1) vpn acc
      | .leaf =>
        if pteAllows e acc then
          ((if pteAD e acc = e then s.readEntry pa else s.writeEntry pa (pteAD e acc)), .ok (leafFrame e level vpn, pteAD e acc))
        else (s, .error 0x16)
      | _ => (s, .error 0x16)

/-- What the leaf of a context without a G-stage would permit: everything, as ordinary memory. -/
def noGStage : Nat := 0xDF

/-- A guest physical address through the context's G-stage, with its leaf, or itself where it has none. -/
def State.gAddr (s : State) (ctx gpa acc : Nat) : State × Except Nat (Nat × Nat) :=
  let h := (s.ctx ctx).chgatp.toNat
  if h / 2 ^ 60 = 0 then (s, .ok (gpa, noGStage))
  else if 2 ^ 59 ≤ gpa then (s, .error 0x16)
  else match gWalk 5 s (4096 * (h % 2 ^ 44)) 4 (gpa / 4096) acc with
    | (t, .ok (f, m)) => (t, .ok (4096 * f + gpa % 4096, m))
    | (t, .error c) => (t, .error c)

/-! ### The first stage (R26, R27, R32, R33) -/

/-- What a translation answers: a frame with the leaf, the companion, the level and the G-stage leaf; a fault with the guest address and access kind of its
record; a fill to start; a forwarding entry. -/
inductive Trans
  | ok (frame pte comp level gpte : Nat)
  | fault (cause gpa acc : Nat)
  | fill (pteAddr pte comp : Nat)
  | fwd (pte : Nat)
  deriving DecidableEq, Repr

/-- The companion entry faults (R33, R34). -/
def compBad (c level : Nat) : Bool :=
  let fmt := bitsOf c 63 61
  let geom := c.testBit 60
  decide (5 ≤ fmt) || (fmt == 1 && !geom) || (geom && fmt != 1) || decide (bitsOf c 50 45 ≠ 0) ||
    (decide (level ≠ 0) && decide (bitsOf c 53 51 ≠ 0))

/-- A fault of a walk's own read. -/
def walkFault (cause gpa : Nat) : Trans := .fault cause (if cause = 0x16 then gpa else 0) 4

/-- The walk-cache entry of a group of 16 slices that a page's walk meets at a level (R26). -/
def State.walkOf (s : State) (ctx vpn level : Nat) : Option WalkEntry :=
  s.walkc.find? (fun w => w.group == tslice ctx (4096 * vpn) / 16 && w.ctx == ctx && w.level == level && w.idx == vpn / 512 ^ level)

/-- Enter a non-leaf entry read by a walk; the oldest of a full group leaves (log entry 8). -/
def State.walkNote (s : State) (ctx vpn level e : Nat) : State :=
  let g := tslice ctx (4096 * vpn) / 16
  let others := s.walkc.filter (fun w => !(w.group == g && w.ctx == ctx && w.level == level && w.idx == vpn / 512 ^ level))
  let kept := if (others.filter (fun w => w.group == g)).length < 2048 then others else
    (match others.find? (fun w => w.group == g) with | some w => others.erase w | none => others)
  { s with walkc := kept ++ [⟨g, ctx, level, vpn / 512 ^ level, BitVec.ofNat 64 e⟩] }

/-- Where a walk begins: at the table that the deepest cached entry names, else at the context's root; address and level. -/
def State.walkStart (s : State) (ctx vpn : Nat) : Nat × Nat :=
  match [1, 2, 3, 4].findSome? (s.walkOf ctx vpn) with
  | some w => (4096 * ptePpn w.pte.toNat, w.level - 1)
  | none => (4096 * ((s.ctx ctx).catp.toNat % 2 ^ 44), 4)

/-- A first-stage walk from `level` in the table whose (guest) physical address is `base`. Where several causes apply to one entry, 0x10
comes first, then 0x11, 0x13 and 0x18; the guest address of a data access is that of its page (log entry 16). -/
def walkFrom : Nat → State → Nat → Nat → Nat → Nat → Nat → State × Trans
  | 0, s, _, _, _, _, _ => (s, .fault 0x10 0 4)
  | fuel + 1, s, ctx, base, level, vpn, acc =>
    let ga := base + 8 * vpnIdx vpn level
    match s.gAddr ctx ga 0 with
    | (s1, .error c) => (s1, walkFault c ga)
    | (s1, .ok (pa, _)) =>
      if !inHbm pa 8 then (s1, .fault 0x10 0 4)
      else if s1.poisoned pa 8 then (s1, .fault 0x20 0 4)
      else
        let e := s1.rd pa 8
        let s1 := s1.readEntry pa
        match pteKind e level with
        | .next => walkFrom fuel (s1.walkNote ctx vpn level e) ctx (4096 * ptePpn e) (level - 1) vpn acc
        | .high => (s1, .fault 0x12 0 acc)
        | .bad => (s1, .fault 0x10 0 acc)
        | k =>
          if k = .absent ∧ level ≠ 0 then (s1, .fault 0x10 0 acc)
          else if k = .absent ∧ bitsOf e 63 54 = 0x3FF then (s1, .fwd e)
          else
            match s1.gAddr ctx (ga + 4096) 0 with
            | (s2, .error c) => (s2, walkFault c (ga + 4096))
            | (s2, .ok (cpa, _)) =>
              if !inHbm cpa 8 then (s2, .fault 0x10 0 4)
              else if s2.poisoned cpa 8 then (s2, .fault 0x20 0 4)
              else
                let c := s2.rd cpa 8
                let s2 := s2.readEntry cpa
                if k = .absent then
                  if !c.testBit 59 then (s2, .fault 0x10 0 acc)
                  else if compBad c 0 then (s2, .fault 0x13 0 acc)
                  else match s2.gAddr ctx ga 1 with
                    | (s3, .error c) => (s3, walkFault c ga)
                    | (s3, .ok (wpa, _)) => (s3, .fill wpa e c)
                else if !pteAllows e acc then (s2, .fault 0x11 0 acc)
                else if compBad c level then (s2, .fault 0x13 0 acc)
                else
                  match s2.gAddr ctx (4096 * leafFrame e level vpn) acc with
                  | (s3, .error c) => (s3, .fault c (if c = 0x16 then 4096 * leafFrame e level vpn else 0) acc)
                  | (s3, .ok (fa, ge)) =>
                    let m := if ptePbmt e = 0 then ptePbmt ge else ptePbmt e
                    if m = 2 ∨ !inHbm fa 4096 then (s3, .fault 0x18 0 acc)
                    else
                      let e' := pteAD e acc
                      let cached := setBits (setBits e' 62 61 m) 53 10 (fa / 4096)
                      if e' = e then (s3, .ok (fa / 4096) cached c level ge)
                      else match s3.gAddr ctx ga 1 with
                        | (s4, .error c) => (s4, walkFault c ga)
                        | (s4, .ok (wpa, _)) => (s4.writeEntry wpa e', .ok (fa / 4096) cached c level ge)

/-- Cached entries of a page (R26). -/
def State.tlbFind (s : State) (ctx vpn : Nat) : Option Tlb := s.tlb.find? (fun t => t.ctx == ctx && t.vpn == vpn)

/-- The entry of a full list that leaves, by the choice the spec leaves open. -/
def State.victim {α : Type} (s : State) (xs : List α) : Option α := xs[Config.choose s.free xs.length % xs.length]?

/-- Enter a translation in its set of eight ways; one of a full set leaves (R26, log entry 8). An entry walked again starts
with its migration fields clear (R38, log entry 44). A page above 4 KiB is noted for the commands that remove it. -/
def State.tlbInstall (s : State) (ctx vpn pte comp level gpte : Nat) : State :=
  let sl := tslice ctx (4096 * vpn)
  let st := Config.tlbSet ctx vpn % 1024
  let others := s.tlb.filter (fun t => !(t.ctx == ctx && t.vpn == vpn))
  let mine := others.filter (fun t => t.slice == sl && t.set == st)
  let kept := if mine.length < 8 then others else (match s.victim mine with | some t => others.erase t | none => others)
  let note := (ctx, level, vpn / 512 ^ level)
  { s with tlb := kept ++ [⟨sl, st, ctx, vpn, level, BitVec.ofNat 64 pte, BitVec.ofNat 64 comp, BitVec.ofNat 64 gpte, 0, 0, 0⟩]
           large := if level = 0 ∨ s.large.contains note then s.large else s.large ++ [note] }

/-- A cached entry serves an access: for a store D is set in both stages, and the G-stage leaf permits the access (R27, R29). -/
def Tlb.serves (t : Tlb) (acc : Nat) : Bool :=
  (!writesAcc acc || (t.pte.getLsbD 7 && t.gpte.getLsbD 7)) && pteAllows t.gpte.toNat acc

/-- Translate an address of a context for an access (R26, R27). -/
def State.translate (s : State) (ctx va acc : Nat) : State × Trans :=
  let vpn := va / 4096
  let sl := tslice ctx va
  let walk (_ : Unit) : State × Trans :=
    let s := (s.observe 2 sl 3 1).observe 2 sl 4 1
    let from_ := s.walkStart ctx vpn
    match walkFrom 5 s ctx from_.1 from_.2 vpn acc with
    | (t, .ok f e c l g) => (t.tlbInstall ctx vpn e c l g, .ok f e c l g)
    | r => r
  match s.tlbFind ctx vpn with
  | some t =>
    if !t.serves acc then walk ()
    else if !pteAllows t.pte.toNat acc then (s.observe 2 sl 2 1, .fault 0x11 0 acc)
    else (s.observe 2 sl 2 1, .ok (ptePpn t.pte.toNat) t.pte.toNat t.comp.toNat t.level t.gpte.toNat)
  | none => walk ()

/-- The offset of a K4 element's scale byte from the scale page's address (R34): one byte for each block of 8 bytes. -/
def scaleVa (comp level va : Nat) : Nat :=
  let page := 4096 * 512 ^ level
  (bitsOf comp 44 0) * 4096 + (if level = 0 then bitsOf comp 53 51 * 512 else 0) + va % page / 8

/-! ### The frame pool (R35 to R37) -/

/-- Take a frame for a fill: the slice's spare, else the entry at HEAD. The cause of a failure is on the left. -/
def State.takeFrame (s : State) (ctx sl : Nat) : State × Except Nat Nat :=
  match mget? s.spare (4096 * sl + ctx) with
  | some f => ({ s with spare := mdel s.spare (4096 * sl + ctx) }, .ok f)
  | none =>
    let ring := s.rd (s.ctxWordPa ctx 3) 8
    let ipa := s.ctxWordPa ctx 4
    let idx := s.rd ipa 8
    let head := idx % 2 ^ 32
    let occ := (idx / 2 ^ 32 + 2 ^ 32 - head) % 2 ^ 32
    let logn := ring / 2 ^ 60
    let low := ring % 4096
    if logn ≥ 11 ∨ occ = 0 then (s, .error 0x15)
    else
      let size := 2 ^ (logn + 6)
      let ea := bitsOf ring 55 12 * 4096 + 8 * (head % size)
      let e := if size < occ then (Config.freeW64 s.free 700).toNat else s.rd ea 8
      let bad := s.poisoned ea 8
      let s1 := s.wrOver ipa (bytesLE 4 ((head + 1) % 2 ^ 32))
      let sent := s.lowSent.contains ctx && decide (occ < low)
      let fring := bitsOf (s.ctx ctx).cxcfg.toNat 62 59
      let s2 :=
        if occ - 1 < low ∧ !sent then { s1.irq fring with lowSent := ctx :: s1.lowSent.filter (· != ctx) }
        else if low ≤ occ - 1 then { s1 with lowSent := s1.lowSent.filter (· != ctx) }
        else s1
      let s3 := s2.bump
      if bad then (s3, .error 0x20)
      else if e % 4096 ≠ 0 ∨ 2 ^ 56 ≤ e ∨ !inHbm e 4096 then (s3, .error 0x15)
      else (s3, .ok e)

/-- A fill of a page is under way or waits its turn (R37). -/
def State.filling (s : State) (ctx vpn : Nat) : Bool := (s.fills ++ s.fillq).any (fun f => f.ctx == ctx && f.vpn == vpn)

/-- A fill takes its frame and runs (R37 step 1), or its cause. -/
def State.runFill (s : State) (f : Fill) : State × Option Nat :=
  match s.takeFrame f.ctx (tslice f.ctx (4096 * f.vpn)) with
  | (t, .error c) => (t, some c)
  | (t, .ok frame) => ({ t with fills := t.fills ++ [{ f with frame := frame }] }, none)

/-- A fill starts for a page, joins one under way, waits behind the 16 of its slice, or answers the cause of its failure (R37). -/
def State.startFill (s : State) (ctx va acc pteAddr pte : Nat) : State × Option Nat :=
  let vpn := va / 4096
  let sl := tslice ctx va
  let f : Fill := ⟨ctx, vpn, 0, pteAddr, BitVec.ofNat 64 pte, writesAcc acc⟩
  if s.filling ctx vpn then (s, none)
  else match s.fillBad.find? (fun x => x.1 == ctx && x.2.1 == vpn) with
    | some x => ({ s with fillBad := s.fillBad.erase x }, some x.2.2)
    | none =>
      if 16 ≤ ((s.fills.filter (fun f => tslice f.ctx (4096 * f.vpn) == sl)).length) then ({ s with fillq := s.fillq ++ [f] }, none)
      else s.runFill f

/-- The first queued fills of a slice run, up to one that gets its frame; the pages of those that fail are returned (R37). -/
def State.nextFill (sl : Nat) : List Fill → State → State × List (Nat × Nat)
  | [], s => (s, [])
  | f :: fs, s =>
    if tslice f.ctx (4096 * f.vpn) ≠ sl then State.nextFill sl fs s
    else match ({ s with fillq := s.fillq.erase f } : State).runFill f with
      | (t, none) => (t, [(f.ctx, f.vpn)])
      | (t, some c) =>
        let (u, ps) := State.nextFill sl fs { t with fillBad := t.fillBad ++ [(f.ctx, f.vpn, c)] }
        (u, (f.ctx, f.vpn) :: ps)

/-! ### Fault records (R42, R43) -/

/-- The next sequence number of a ring. -/
def State.nextSeq (s : State) (ring : Nat) : Nat :=
  let n := (mget 0 s.seqs ring + 1) % 2 ^ 32
  if n = 0 then 1 else n

/-- The record of a fault: an open one of the same context, page and cause, else a new one in the context's ring (R29). -/
def State.recordFault (s : State) (ctx page cause acc gpa core : Nat) : State × (Nat × Nat) :=
  match s.recs.find? (fun r => r.ctx == ctx && r.ia == page && r.cause == cause && r.answer.isNone) with
  | some r => (s, (r.ring, r.seq))
  | none =>
    let cfg := (s.ctx ctx).cxcfg.toNat
    let ring := if cause = 0x16 then bitsOf cfg 58 55 else bitsOf cfg 62 59
    let q := s.nextSeq ring
    let r : FaultRec := { ring := ring, seq := q, ctx := ctx, ia := page, cause := cause, access := acc,
                          gpa := if cause = 0x16 then gpa else 0,
                          core := core, time := s.ns }
    ({ s with recs := s.recs ++ [r], seqs := mset s.seqs ring q,
              agenda := s.agenda ++ [{ op := .faultRecordWrite, arg := .fault ring q cause }] }, (ring, q))

/-- A cause that a record and the log take up (Table 1-16); poison met by a walk is treated so too (Table 2-9). -/
def escalated (cause : Nat) : Bool := (0x10 ≤ cause && cause ≤ 0x16) || cause == 0x20

end Sys2Proof.Machine
end

