-- ==== Sys2Proof/Machine/Access.lean ====
section
/-! DEFINITION. Access: from a formed address to its path (R14 to R24, R50), the naturally aligned pieces of an element (R110,
R265), and the queues that order a gang's requests (R112 to R129, R145). -/

namespace Sys2Proof.Machine
open Sys2Proof

/-! ### Windows (R15 to R19) -/

/-- A window or aperture word as an operation at clock `now` sees it: a write counts from its due clock (R19). -/
def CtxCopy.word (k : CtxCopy) (now i : Nat) : W64 :=
  match (k.pend.filter (fun p => p.2.1 == i && decide (p.1 ≤ now))).getLast? with
  | some p => p.2.2
  | none => mget 0 k.words i

/-- A write of a word, in effect from clock `due`; writes already in effect are merged. -/
def CtxCopy.write (k : CtxCopy) (now due i : Nat) (v : W64) : CtxCopy :=
  let old := k.pend.filter (fun p => decide (p.1 ≤ now))
  { k with
    words := old.foldl (fun m p => mset m p.2.1 p.2.2) k.words
    pend := k.pend.filter (fun p => decide (now < p.1)) ++ [(due, i, v)] }

/-- The copy of a context on a core. -/
def State.copy (s : State) (c ctx : Nat) : CtxCopy := mget {} (s.core c).copies ctx
def State.ctxWord (s : State) (c ctx i : Nat) : Nat := ((s.copy c ctx).word s.clock i).toNat

/-- Split-path mode (R50). -/
def State.split (s : State) (ctx : Nat) : Bool := (s.ctx ctx).cxcfg.getLsbD 63

/-- Where an address goes: a cause, or a path code, space tag, the address carried, the offset in the window (scratchpad or
port offset), the aperture word (0 when local) and the stand position named. -/
structure Look where
  cause : Nat := 0
  path : Nat := 0
  tag : Nat := 0
  va : Nat := 0
  ofs : Nat := 0
  peer : W64 := 0
  pos : Nat := 0
  deriving DecidableEq, Repr

/-- The intermediate address (R21). -/
def Look.ia (k : Look) : W64 := BitVec.ofNat 64 (k.tag * 2 ^ 57 + k.va % 2 ^ 57)

/-- Bits [63:57] equal bit 56 (R14). -/
def canonical (a : Nat) : Bool := decide (a % 2 ^ 64 / 2 ^ 56 = 0) || decide (a % 2 ^ 64 / 2 ^ 56 = 255)

/-- The tag and aperture of paths 3 to 5 (R17, R24): cause 0x05 where the aperture is not valid. -/
def State.viaAper (s : State) (c ctx aper : Nat) (k : Look) : Look :=
  if aper = 0 then { k with tag := if k.path = 4 then 73 else 74 }
  else
    let w := s.ctxWord c ctx (64 + aper)
    if w.testBit 63 then { k with tag := aper, peer := BitVec.ofNat 64 w } else { k with cause := 0x05 }

/-- The lookup of split-path mode (R50, Table 1-21). -/
def State.lookSplit (s : State) (c ctx a : Nat) (wr : Bool) : Look :=
  let va := a % 2 ^ 57
  match va / 2 ^ 54 with
  | 0 => { va := va % 2 ^ 54 }
  | 1 => { path := 1, tag := 64, va := va % 2 ^ 54, ofs := va % 2 ^ 54 }
  | 2 => { path := 2, tag := 65 + va / 2 ^ 51 % 8, va := va % 2 ^ 51, ofs := va % 2 ^ 51, pos := va / 2 ^ 51 % 8 }
  | 6 => if wr then { cause := 0x02 } else { path := 6, va := va % 2 ^ 54 }
  | 7 => { cause := 0x03 }
  | p =>
    let aper := va / 2 ^ 48 % 64
    let v := va % 2 ^ 48
    if p = 3 ∧ aper = 0 then { cause := 0x03 }
    else s.viaAper c ctx aper { path := p, va := v, ofs := v }

/-- The lowest-numbered window that matches a page (R18). -/
def State.window (s : State) (c ctx page : Nat) : Option Nat :=
  (List.range 16).find? (fun n =>
    let a := s.ctxWord c ctx (2 * n)
    let b := s.ctxWord c ctx (2 * n + 1)
    a.testBit 63 && decide (bitsOf a 56 12 ≤ page) && decide (page ≤ bitsOf b 56 12))

/-- The lookup of a formed address for a load (`wr` false) or a store or atomic (R14, R18, R50). -/
def State.look (s : State) (c ctx a : Nat) (wr : Bool) : Look :=
  if !canonical a then { cause := 0x06 }
  else if s.split ctx then s.lookSplit c ctx a wr
  else
    let va := a % 2 ^ 57
    match s.window c ctx (va / 4096) with
    | none => { cause := 0x01 }
    | some n =>
      let wa := s.ctxWord c ctx (2 * n)
      let wb := s.ctxWord c ctx (2 * n + 1)
      let path := bitsOf wa 62 60
      let aper := bitsOf wb 63 58
      let ofs := va - bitsOf wa 56 12 * 4096
      if path = 7 ∨ (path = 3 ∧ aper = 0) then { cause := 0x03 }
      else if (if wr then !wa.testBit 58 || wa.testBit 57 || path == 6 else !wa.testBit 59) then { cause := 0x02 }
      else match path with
        | 0 => { va := va }
        | 6 => { path := 6, va := va }
        | 1 => { path := 1, tag := 64, va := va, ofs := ofs }
        | 2 => { path := 2, tag := 65 + bitsOf wa 11 9, va := va, ofs := ofs, pos := bitsOf wa 11 9 }
        | _ => s.viaAper c ctx aper { path := path, va := va, ofs := ofs }

/-! ### Scratchpad targets (R18, R52, R54, R59) -/

/-- The core and crew slot of the stand crew at a position, for the crew in a slot of a core (R175, R191). -/
def State.standPeer (s : State) (c k pos : Nat) : Option (Nat × Nat) :=
  let me := s.crew c k
  let pc := c / 8 * 8 + pos
  if me.standN = 0 then none
  else ((s.core pc).crews.find? (fun x => x.2.standN != 0 && x.2.stand == me.stand && x.2.spos == pos)).map
    (fun x => (pc, x.1))

/-- The crew whose scratchpad and tiles the crew in a slot addresses as its own: for the supervisor with SELGANG.V set, the
selected gang's crew while it is quiesced, parked or being restored (R411). -/
def State.ownSlot (s : State) (c k : Nat) : Nat :=
  let w := (s.core c).selgang
  if !w.getLsbD 63 || (s.gang? c 63).map (·.cslot) != some k then k
  else match s.gang? c (w.toNat % 64) with
    | some g => if [CrewPhase.drained, .parked, .restoring].contains (s.crew c g.cslot).phase then g.cslot else k
    | none => k

/-- The allocation of a crew. -/
def Crew.alloc (w : Crew) : Alloc := ⟨w.gen, w.granules⟩

/-- The offset after the swizzle z (R59). -/
def swizzle (z p : Nat) : Nat := if z = 0 then p else p ^^^ (p / 2 ^ (z + 6) % 8 * 16)

/-- The naturally aligned pieces of `n` bytes at `a`, of at most 8 bytes: offset and size of each (R110, R265). -/
def pieces : Nat → Nat → Nat → Nat → List (Nat × Nat)
  | 0, _, _, _ => []
  | fuel + 1, a, off, n =>
    if n = 0 then []
    else
      let k := if a % 8 = 0 ∧ 8 ≤ n then 8 else if a % 4 = 0 ∧ 4 ≤ n then 4 else if a % 2 = 0 ∧ 2 ≤ n then 2 else 1
      (off, k) :: pieces fuel (a + k) (off + k) (n - k)

/-- The pieces of a lane's element of `n` bytes at a formed address, with its data. A lane that fails its lookup is one
piece that has completed in error. `okPaths` are the paths the instruction may take; others give cause 0x02 (R147). -/
def State.lanePieces (s : State) (c k ctx a n : Nat) (wr : Bool) (z lane data : Nat) (okPaths : List Nat) : List LaneAcc :=
  let v := s.look c ctx a wr
  let bad (cause : Nat) : List LaneAcc := [{ lane := lane, ia := v.ia, path := v.path, size := n, stage := 4, cause := cause }]
  if v.cause ≠ 0 then bad v.cause
  else if !okPaths.contains v.path then bad 0x02
  else
    let piece (p : Nat × Nat) : LaneAcc :=
      { lane := lane, off := p.1, ia := BitVec.ofNat 64 (v.tag * 2 ^ 57 + (v.va + p.1) % 2 ^ 57), path := v.path,
        peer := v.peer, size := p.2, data := data / 256 ^ p.1 % 256 ^ p.2 }
    if v.path = 1 ∨ v.path = 2 then
      match (if v.path = 1 then some (c, s.ownSlot c k) else s.standPeer c k v.pos) with
      | none => bad 0x07
      | some (tc, tk) =>
        if v.ofs + n > 4096 * (s.crew tc tk).granules.length then bad 0x04
        else (pieces n v.ofs 0 n).map (fun p =>
          { piece p with core := tc, cslot := tk, alloc := (s.crew tc tk).alloc, stage := 1, ofs := v.ofs + p.1,
                         pa := swizzle z (v.ofs + p.1) })
    else if v.path = 4 then
      (if 2 ^ 32 ≤ v.ofs then bad 0x02 else [{ piece (0, n) with data := data, stage := 1, pa := v.ofs }])
    else (pieces n v.va 0 n).map (fun p => { piece p with stage := if v.path = 3 then 1 else 0 })

/-! ### Queues of a gang (R112 to R129) -/

/-- Members of the load queue and of the store queue (Table 4-1), by M-slot opcode; 0x40 stands for LIMG, 0x41 for SIMG and
0x42 for the join-unit operations (R353, R355). -/
def inLoadQ (opc : Nat) : Bool :=
  opc ≤ 0x09 || (0x10 ≤ opc && opc ≤ 0x13) || opc == 0x18 || opc == 0x1A || (0x20 ≤ opc && opc ≤ 0x23) ||
    opc == 0x28 || opc == 0x29 || opc == 0x2E || opc == 0x34 || opc == 0x35 || opc == 0x40
def inStoreQ (opc : Nat) : Bool :=
  (0x0A ≤ opc && opc ≤ 0x0E) || (0x14 ≤ opc && opc ≤ 0x17) || opc == 0x19 || (0x20 ≤ opc && opc ≤ 0x29) ||
    opc == 0x2C || opc == 0x2D || opc == 0x2F || (0x32 ≤ opc && opc ≤ 0x37) || opc == 0x41 || opc == 0x42

/-- Table 4-6: in split-path mode queue order relates the paths. An accumulator access, which the table does not list, comes after none
(log entry 11). -/
def pathsOrdered (a b : Nat) : Bool :=
  match a with
  | 0 => [0, 4, 6].contains b
  | 1 | 2 => [1, 2, 4].contains b
  | 3 => [3, 4].contains b
  | 4 => b != 5
  | 5 => b == 5
  | 6 => [0, 4, 6].contains b
  | _ => true

/-- The offset in a page or granule at which a piece lies. -/
def LaneAcc.inPage (x : LaneAcc) : Nat := (if x.path == 1 || x.path == 2 then x.pa else x.ia.toNat) % 4096

/-- The piece lies in a scratchpad. -/
def LaneAcc.scr (l : LaneAcc) : Bool := l.path == 1 || l.path == 2

/-- Where a piece's location lies: 0 memory, here or at a peer, 1 a scratchpad, 2 an accumulator, 3 no location of memory. -/
def LaneAcc.store (x : LaneAcc) : Nat := if x.path = 1 ∨ x.path = 2 then 1 else if x.path = 8 then 2 else if x.path = 4 ∨ x.path = 5 then 3 else 0

/-- `n` bytes from `a` and `m` from `b` overlap, a BF16 element beginning at an even byte and having two. -/
def nearMeet (a n b m : Nat) : Bool := decide (a / 2 < (b + m + 1) / 2) && decide (b / 2 < (a + n + 1) / 2)

/-- Two pieces may touch a common location, as far as an issue shows it: on one kind of store, and at overlapping bytes of a page
(R115). -/
def mayShare (a b : LaneAcc) : Bool := a.store == b.store && a.store != 3 && nearMeet a.inPage a.size b.inPage b.size

/-- A decoding load's piece may take its scale byte from bytes that the other piece covers: the scale byte lies at an eighth of the
piece's offset in its page or granule, in the slot of 512 bytes that its companion entry or tag names (R34, R56). -/
def mayScale (a b : LaneAcc) : Bool :=
  a.store == b.store && decide (a.store ≤ 1) && decide ((a.inPage / 8 + 512 - b.inPage % 512) % 512 < b.size)

/-- Two requests may touch a common location (R115), their scale bytes among them. -/
def Req.mayShare (a b : Req) : Bool :=
  a.lanes.any (fun x => b.lanes.any (fun y =>
    Sys2Proof.Machine.mayShare x y || (a.kind == .load && mayScale x y) || (b.kind == .load && mayScale y x)))

/-- The order field of a policy value (Table 4-2): 0 RLX, 1 ACQ, 2 REL, 3 SC. -/
def polOrd (p : BitVec 8) : Nat := p.toNat / 64

/-- The request of a number. -/
def State.req (s : State) (id : Nat) : Option Req := mget? s.reqs id

/-- The earlier requests an access of the gang is performed after: its queue's order (R113, R145), acquires and fences
(R120, R128), its own release (R121) and SC order (R122), and accesses before a MARK that may share a location (R115). -/
def State.orderDeps (s : State) (g : Gang) (ctx : Nat) (r : Req) : List Nat :=
  let related (id : Nat) : Bool :=
    !s.split ctx || (match s.req id with
      | some q => q.paths0.any (fun a => r.paths0.any (pathsOrdered a))
      | none => false)
  let ql := if inLoadQ r.opc then g.loadQ.filter related else []
  let qs := if inStoreQ r.opc then g.storeQ.filter related else []
  let all := g.loadQ ++ g.storeQ
  let o := polOrd r.pol
  let rel := if inStoreQ r.opc && decide (2 ≤ o) then all else []
  let sc := if o = 3 then all.filter (fun id => (s.req id).any (fun q => polOrd q.pol == 3)) else []
  let mk := g.markQ.flatMap (fun m => m.2.filter (fun id => (s.req id).any (fun q => q.mayShare r)))
  (ql ++ qs ++ g.barQ ++ rel ++ sc ++ mk).eraseDups

/-- The scope code of an access: slice scope has the effect of gang scope (R125), and an access of another device has at least pod
scope (R127). -/
def Req.scope (r : Req) : Nat :=
  let c := max 1 (r.pol.toNat / 8 % 8)
  if r.paths0.contains 3 || r.lanes.any (·.path == 3) then max 5 c else c

/-- The access acquires: every later access of its gang comes after it (R120). -/
def Req.acquires (r : Req) : Bool := inLoadQ r.opc && (polOrd r.pol == 1 || polOrd r.pol == 3)

/-- QPOP or QTRY: it acquires from the access that sent its record, within that access's scope, which it does not know yet (R134). -/
def Req.takesRecord (r : Req) : Bool := r.opc == 0x34 || r.opc == 0x35

/-- Why an access comes after earlier request `id` (Req.why). -/
def State.depWhy (s : State) (g : Gang) (ctx : Nat) (r : Req) (id : Nat) : Nat :=
  match s.req id with
  | none => 1
  | some q =>
    let queue := (inLoadQ r.opc && g.loadQ.contains id) || (inStoreQ r.opc && g.storeQ.contains id)
    let rel := inStoreQ r.opc && decide (2 ≤ polOrd r.pol)
    let whole := g.barQ.contains id || rel || (polOrd r.pol == 3 && polOrd q.pol == 3) || (queue && !s.split ctx)
    (if whole then 1 else 0) + (if queue && s.split ctx then 2 else 0) +
      (if g.markQ.any (fun m => m.2.contains id) && q.mayShare r then 4 else 0) + (if queue then 8 else 0) +
      (if rel && inStoreQ q.opc && !inLoadQ q.opc then 16 else 0) + (if g.barQ.contains id && q.acquires then 32 else 0)

/-- The scope within which an access comes after earlier request `id` (R113, R120, R121, R128): for queue order alone the scope of
both, for what the gang waits for its acquire's or fence's, for a release its own; 7 stands for every observer. -/
def State.depScope (s : State) (g : Gang) (r : Req) (id : Nat) : Nat :=
  match s.req id with
  | none => 7
  | some q =>
    let queue := if (inLoadQ r.opc && inLoadQ q.opc) || (inStoreQ r.opc && inStoreQ q.opc) then min q.scope r.scope else 0
    let bar := if g.barQ.contains id then mget 7 g.barS id else 0
    let rel := if inStoreQ r.opc && decide (2 ≤ polOrd r.pol) then (if inStoreQ q.opc && !inLoadQ q.opc then r.scope else 7) else 0
    let sc := if polOrd r.pol = 3 ∧ polOrd q.pol = 3 then 7 else 0
    let mk := if g.markQ.any (fun m => m.2.contains id) && q.mayShare r then 7 else 0
    max (max queue bar) (max rel (max sc mk))

/-- Earlier requests `ids` are waited for by every later access, within scope `c` (R120, R128, R133). -/
def Gang.hold (g : Gang) (ids : List Nat) (c : Nat) : Gang :=
  { g with
    barQ := (g.barQ ++ ids).eraseDups
    barS := ids.foldl (fun m id => mset m id (if g.barQ.contains id then max c (mget 7 m id) else c)) g.barS
    heldQ := (g.heldQ ++ ids).eraseDups }

/-- The gang's queues with a new access entered; an acquire holds back every later access (R120), towards every observer where it
acquires from a record still to come (R134). -/
def Gang.enqueue (g : Gang) (id : Nat) (r : Req) : Gang :=
  let acq := r.acquires || r.takesRecord
  { g with
    barS := if acq then mset g.barS id (if r.takesRecord then 7 else r.scope) else g.barS
    loadQ := if inLoadQ r.opc then g.loadQ ++ [id] else g.loadQ
    storeQ := if inStoreQ r.opc then g.storeQ ++ [id] else g.storeQ
    barQ := if acq then g.barQ ++ [id] else g.barQ }

/-- The gang's queues without a request that has been performed. -/
def Gang.dequeue (g : Gang) (id : Nat) : Gang :=
  { g with
    loadQ := g.loadQ.filter (· != id)
    storeQ := g.storeQ.filter (· != id)
    barQ := g.barQ.filter (· != id)
    heldQ := g.heldQ.filter (· != id)
    barS := mdel g.barS id
    markQ := (g.markQ.map (fun m => (m.1, m.2.filter (· != id)))).filter (fun m => !m.2.isEmpty) }

/-- Every access of a request is performed or has completed in error. -/
def Req.performed (r : Req) : Bool := r.lanes.all (fun l => l.stage == 2 || l.stage == 4)

/-- A request of that number no longer holds others back. -/
def State.settled (s : State) (id : Nat) : Bool :=
  match s.req id with
  | some r => r.performed && r.lanes.length != 0
  | none => true

/-- The key of a group. -/
def groupKey (ctx g : Nat) : Nat := 1024 * ctx + g

/-- Enter a new request. -/
def State.addReq (s : State) (r : Req) : State := { s with reqs := mset s.reqs s.nextId r, nextId := s.nextId + 1 }
def State.setReq (s : State) (id : Nat) (r : Req) : State := { s with reqs := mset s.reqs id r }
def State.delReq (s : State) (id : Nat) : State := { s with reqs := mdel s.reqs id }

/-- A request of the issuing gang: ordered, queued and counted. -/
def State.issueReq (s : State) (r : Req) : State :=
  let g := s.me
  let r1 := { r with core := s.cur.core, slot := s.cur.slot, ctx := s.myCrew.ctx, born := s.clock,
                     paths0 := (r.lanes.map (fun (l : LaneAcc) => l.path)).eraseDups }
  let ds := s.orderDeps g r1.ctx r1
  let r2 := { r1 with deps := ds, scopes := ds.map (s.depScope g r1), why := ds.map (s.depWhy g r1.ctx r1) }
  (s.addReq r2).setMe ((g.enqueue s.nextId r2).flagInc r.flag)

end Sys2Proof.Machine
end

