-- ==== Sys2Proof/Machine/Notice.lean ====
section
/-! DEFINITION. Notice: notices to a core's supervisor (R406, R407), the deferred fault a wait on a flag meets (R48), and pages
and lines that hold accesses back (R160, R169). -/

namespace Sys2Proof.Machine
open Sys2Proof

/-! ### Deferred faults (R48) -/

/-- The FAULTED log entry of a request. -/
def Core.faultedEntry (k : Core) (id : Nat) : Option Nat :=
  (k.log.find? (fun e => e.2.state == 1 && e.2.req == id)).map Prod.fst

/-- The requests of a gang that have a log entry of a kind, or are held behind one that has, each with that entry (R47). -/
def State.behind (s : State) (c slot : Nat) (entry : Nat → Option Nat) : List (Nat × Nat) :=
  s.reqs.foldl (fun acc r =>
    if r.2.core = c ∧ r.2.slot = slot ∧ r.2.peer = none then
      match entry r.1 with
      | some e => acc ++ [(r.1, e)]
      | none => match r.2.deps.findSome? (fun d => (acc.find? (fun x => x.1 == d)).map Prod.snd) with
        | some e => acc ++ [(r.1, e)]
        | none => acc
    else acc) []

/-- Those that are FAULTED or held behind a FAULTED entry. -/
def State.blocked (s : State) (c slot : Nat) : List (Nat × Nat) := s.behind c slot (s.core c).faultedEntry

/-- The cause and INFO of the deferred fault a WAITF on flag f meets (R48, Table 14-1). -/
def State.faultOn (s : State) (c slot f : Nat) : Option (Nat × Nat) :=
  let k := s.core c
  match k.log.find? (fun e => e.2.state == 1 && e.2.slot == slot && e.2.flag == f) with
  | some e => some (e.2.cause, e.1)
  | none => match k.skid.find? (fun e => e.2.state == 3 && e.2.slot == slot && e.2.flag == f) with
    | some e => some (e.2.cause, 256 + e.1)
    | none =>
      ((s.blocked c slot).find? (fun b => (s.req b.1).any (fun r => r.flag == f))).map
        (fun b => ((mget {} k.log b.2).cause, b.2))

/-! ### Notices (Table 14-5) -/

/-- The words of a notice about the gang in a slot. -/
def State.noticeWords (s : State) (c slot code dcause : Nat) (w1 w2 : W64) : List W64 :=
  let k := (s.gang c slot).cslot
  let w := s.crew c k
  [BitVec.ofNat 64 (w.ctx * 2 ^ 32 + w.spos * 2 ^ 28 + k * 2 ^ 24 + dcause * 2 ^ 16 + slot * 2 ^ 8 + code),
   w1, w2, BitVec.ofNat 64 w.lotid, BitVec.ofNat 64 s.clock, 0, 0, 0]

/-- A notice joins those the core holds. -/
def State.holdNotice (s : State) (c slot code : Nat) (words : List W64) : State :=
  let k := s.core c
  s.setCore c { k with notices := k.notices ++ [{ slot := slot, code := code, words := words }] }

/-- A notice joins those of the core and goes to the supervisor's queue, behind those the queue has refused (R406). -/
def State.notice (s : State) (c slot code : Nat) (words : List W64) : State :=
  let t := s.holdNotice c slot code words
  if (s.core c).notices.isEmpty then t.later .queuePush (.core c) else t

/-- Escalation to the application cores (R430): kind 0 port overflow, 1 launch overflow. -/
def State.escalate (s : State) (kind id : Nat) : State :=
  if (s.dreg 0x68).getLsbD 63 then s
  else (s.setDreg 0x68 (BitVec.ofNat 64 (2 ^ 63 + kind * 2 ^ 62 + id % 2 ^ 32))).irq 144

/-- An asynchronous error of a port or launch (R364, R385): to the supervisor of the cluster's lowest core on which the owner
context has a resident gang, else to the application cores. -/
def State.tellOwner (s : State) (cluster ctx code info kind id : Nat) : State :=
  match ((List.range 8).map (8 * cluster + ·)).find? (fun c => (s.core c).crews.any (fun k => k.2.ctx == ctx)) with
  | some c => s.notice c 0 code [BitVec.ofNat 64 (ctx * 2 ^ 32 + code), 0, BitVec.ofNat 64 info, 0, BitVec.ofNat 64 s.clock, 0, 0, 0]
  | none => s.escalate kind id

/-- A notice about a gang. -/
def State.notify (s : State) (c slot code dcause : Nat) (w1 w2 : W64) : State :=
  s.notice c slot code (s.noticeWords c slot code dcause w1 w2)

/-- What a trap sends once its frame is written: the notice, with the clock of the trap (R406, Table 14-5), or for the supervisor the
interrupt (R408, R431). -/
def State.tellTrap (s : State) (c slot : Nat) (f : Frame) : State :=
  if (s.gang c slot).super then s.irq (16 + c)
  else s.notice c slot f.tcause ((s.noticeWords c slot f.tcause f.dcause f.next f.info).set 4 (BitVec.ofNat 64 f.clock))

/-- The frozen gangs whose trap waits for an answer to the record (R407). -/
def State.awaiting (s : State) (ring seq : Nat) : List (Nat × Nat) :=
  s.cores.flatMap (fun x => (x.2.gangs.filter (fun g => g.2.frozen &&
    ((g.2.frame.tcause == 0x6B && g.2.frame.info.toNat == ring * 2 ^ 32 + seq) ||
     (g.2.frame.tcause == 0x6D && (s.faultOn x.1 g.1 g.2.frame.flag).isSome)))).map (fun g => (x.1, g.1)))

/-- Notice 0x7C for each gang of the list whose wait the answer has ended (R407). -/
def State.answered (s : State) (ws : List (Nat × Nat)) : State :=
  ws.foldl (fun t w =>
    let g := t.gang w.1 w.2
    if g.frame.tcause = 0x6D ∧ (t.faultOn w.1 w.2 g.frame.flag).isSome then t
    else t.notify w.1 w.2 0x7C 0 0 0) s

/-! ### Held pages and lines -/

/-- The page is on its way to another device (R169): its accesses wait. -/
def State.migrating (s : State) (ctx vpn : Nat) : Bool :=
  s.migr.any (fun m => m.ctx == ctx && m.vpn == vpn && m.home && m.step == 3)

/-- A line that holds a store of a prepared group (R160): its reads wait. -/
def State.lineHeld (s : State) (line : Nat) : Bool :=
  s.landing.any (fun e => e.pa == line && s.dests.any (fun d =>
    d.prepared && d.odev == e.odev && d.octx == e.octx && d.group == e.group && d.dctx == e.dctx))

end Sys2Proof.Machine
end

