-- ==== Sys2Proof/Machine/Image.lean ====
section
/-! DEFINITION. Image: the register images of a gang (R355, Table 11-12) and its latch image in the trap frame (R402, R403). -/

namespace Sys2Proof.Machine
open Sys2Proof

/-- The bytes of 32 lanes. -/
def laneBytes (v : Lanes) : List Byte := (List.range 32).flatMap (fun l => bytesLE 4 (laneGet v l).toNat)

/-- The 32 lanes at an offset of an image. -/
def lanesAt (bs : List Byte) (ofs : Nat) : Lanes :=
  lanesOf (fun l => BitVec.ofNat 32 (ofBytesLE ((bs.drop (ofs + 4 * l)).take 4)))

/-- A word of `n` bytes at an offset of an image. -/
def wordAt (bs : List Byte) (ofs n : Nat) : Nat := ofBytesLE ((bs.drop ofs).take n)

/-- Bits [15:0] of FSTn, FLT apart (Table 11-3). -/
def Flag.word (f : Flag) (flt : Bool) : Nat :=
  f.count % 64 + (if flt then 64 else 0) + (if f.err then 128 else 0) + f.cause % 256 * 256

/-- TRAPW (Table 14-3). -/
def Frame.trapw (f : Frame) : Nat :=
  f.slot % 8 * 2 ^ 29 + f.flag % 32 * 2 ^ 24 + f.dcause % 256 * 2 ^ 16 + f.tcause % 256

/-- The 640 bytes of the latch image, with the flag words given (Table 14-2). -/
def Frame.bytes (f : Frame) (flags : List Nat) : List Byte :=
  (List.range 4).flatMap (fun k => laneBytes (f.lv.getD k [])) ++
    (List.range 32).flatMap (fun n => bytesLE 2 (flags.getD n 0)) ++
    bytesLE 4 f.lx1.toNat ++ bytesLE 4 f.trapw ++ bytesLE 8 f.next.toNat ++ bytesLE 8 f.info.toNat ++
    (List.range 8).flatMap (fun k => bytesLE 2 (f.timing.getD k 0).toNat) ++ bytesLE 8 f.clock ++ bytesLE 16 0

/-- The frame an image of 640 bytes describes. -/
def Frame.ofBytes (bs : List Byte) : Frame :=
  let w := wordAt bs 0x244 4
  { lv := (List.range 4).map (fun k => lanesAt bs (128 * k))
    flags := (List.range 32).map (fun n => BitVec.ofNat 16 (wordAt bs (0x200 + 2 * n) 2))
    lx1 := BitVec.ofNat 32 (wordAt bs 0x240 4)
    tcause := w % 256
    dcause := bitsOf w 23 16
    slot := bitsOf w 31 29
    flag := bitsOf w 28 24
    next := pcBits (BitVec.ofNat 64 (wordAt bs 0x248 8))
    info := BitVec.ofNat 64 (wordAt bs 0x250 8)
    timing := (List.range 8).map (fun k => BitVec.ofNat 16 (wordAt bs (0x258 + 2 * k) 2))
    clock := wordAt bs 0x268 8 }

/-- The image of a kind; `flt` tells the flags on which a WAITF would trap. -/
def Gang.image (g : Gang) (kind : Nat) (flt : Nat → Bool) : List Byte :=
  match kind with
  | 0 => g.frame.bytes ((List.range 32).map (fun n => (g.flag n).word (flt n)))
  | 1 => (List.range g.regs).flatMap (fun n => laneBytes (g.vreg n))
  | _ => (List.range 32).flatMap (fun n => bytesLE 8 (g.sreg n).toNat)

/-- The bytes of an image (Table 11-12). -/
def imageSize (kind regs : Nat) : Nat :=
  match kind with
  | 0 => 640
  | 1 => 128 * regs
  | _ => 256

/-- The gang with an image loaded. A latch image waits for ERET; for a gang not yet unparked it writes the flags at once
(R403). Of one that comes before the trap's frame is written (R401) the flags alone remain. -/
def Gang.loadImage (g : Gang) (kind : Nat) (bs : List Byte) (now : Bool) : Gang :=
  match kind with
  | 0 =>
    let f := Frame.ofBytes bs
    let g1 := { g with frame := if g.frameOpen then { g.frame with flags := f.flags } else f, limg0 := true, limgFlags := now,
                       limgMask := BitVec.allOnes 32 }
    if now then g1.restoreFlags else g1
  | 1 => { g with v := (List.range g.regs).foldl (fun m n => mset m n (lanesAt bs (128 * n))) g.v }
  | _ => { g with s := (List.range 32).foldl (fun m n => mset m n (BitVec.ofNat 64 (wordAt bs (8 * n) 8))) g.s }

end Sys2Proof.Machine
end

