-- ==== Sys2Proof/Machine/Scratch.lean ====
section
/-! DEFINITION. Scratch: scratchpad bytes by allocation (R52 to R59), accumulator elements (R73 to R75), and what a write does to
mill commands that depend on it (R138). -/

namespace Sys2Proof.Machine
open Sys2Proof

/-! ### Granules -/

/-- GTAG fields (Table 2-3). -/
def gtState (t : BitVec 32) : Nat := t.toNat / 2 ^ 30
def gtGen (t : BitVec 32) : Nat := bitsOf t.toNat 29 18
def gtFmt (t : BitVec 32) : Nat := bitsOf t.toNat 17 15
def gtSgran (t : BitVec 32) : Nat := bitsOf t.toNat 13 7
def gtSslot (t : BitVec 32) : Nat := bitsOf t.toNat 6 4

/-- A tag with its format fields replaced, GEOM set for K4. DESIGN CHOICE (log entry 46): SGRAN and SSLOT, which the spec sets for a K4 copy
alone, are 0 after a copy of another format. -/
def gtSet (t : BitVec 32) (fmt sgran sslot : Nat) : BitVec 32 :=
  BitVec.ofNat 32 (t.toNat / 2 ^ 18 * 2 ^ 18 + fmt % 8 * 2 ^ 15 + (if fmt = 1 then 2 ^ 14 + sgran % 128 * 2 ^ 7 + sslot % 8 * 16 else 0))

def Core.tag (k : Core) (g : Nat) : BitVec 32 := mget 0 k.gtag g

/-- The place of a byte offset of an allocation; none where its granule is FREE or carries another generation (R54). -/
def Core.place (k : Core) (a : Alloc) (ofs : Nat) : Option Nat :=
  match a.grans[ofs / 4096]? with
  | some g => if gtState (k.tag g) ≠ 0 ∧ gtGen (k.tag g) = a.gen then some (4096 * g + ofs % 4096) else none
  | none => none

/-- `n` bytes of an allocation (0 where it is gone). -/
def Core.srd (k : Core) (a : Alloc) (ofs n : Nat) : Nat :=
  ofBytesLE ((List.range n).map (fun i => match k.place a (ofs + i) with | some p => Mem.read k.scratch p | none => 0))

/-- Poison in a range of an allocation (R79). -/
def Core.spoison (k : Core) (a : Alloc) (ofs n : Nat) : Bool :=
  (List.range n).any (fun i => match k.place a (ofs + i) with | some p => k.scrPoison.contains (p / 8) | none => false)

/-- Write bytes of an allocation. A write of a whole 8-byte word clears its poison (log entry 9). -/
def Core.swr (k : Core) (a : Alloc) (ofs : Nat) (bs : List Byte) : Core :=
  match k.place a ofs with
  | none => k
  | some q =>
    let k1 := { k with scratch := (List.range bs.length).foldl (fun m i =>
      match k.place a (ofs + i) with | some p => Mem.write m p (bs.getD i 0) | none => m) k.scratch }
    if q % 8 = 0 ∧ bs.length = 8 then { k1 with scrPoison := k1.scrPoison.filter (· != q / 8) } else k1

/-- Mark a range of an allocation poisoned. -/
def Core.spoisonRange (k : Core) (a : Alloc) (ofs n : Nat) : Core :=
  let ws := ((List.range n).filterMap (fun i => (k.place a (ofs + i)).map (· / 8))).eraseDups
  { k with scrPoison := k.scrPoison ++ ws.filter (fun w => !k.scrPoison.contains w) }

/-- The tag of the granule that holds an offset. -/
def Core.tagAt (k : Core) (a : Alloc) (ofs : Nat) : BitVec 32 :=
  match k.place a ofs with | some p => k.tag (p / 4096) | none => 0

/-- Set the tag of the granule that holds an offset (R56). -/
def Core.setTagAt (k : Core) (a : Alloc) (ofs fmt sgran sslot : Nat) : Core :=
  match k.place a ofs with
  | some p => { k with gtag := mset k.gtag (p / 4096) (gtSet (k.tag (p / 4096)) fmt sgran sslot) }
  | none => k

/-- An access of an allocation finds its granule (R54). -/
def Core.accepts (k : Core) (a : Alloc) (ofs : Nat) : Bool := (k.place a ofs).isSome

/-- A write that reaches no granule of its allocation is discarded and counted (R54, R75). -/
def Core.stale (k : Core) : Core := { k with scrstale := min (2 ^ 32 - 1) (k.scrstale + 1) }

/-! ### Mill commands that depend on a location (R138) -/

/-- A gang slot holds a gang of the crew. -/
def State.inSlot (s : State) (c cs slot : Nat) : Bool := (s.gang? c slot).any (fun g => g.cslot == cs)

/-- Two ranges (first, count) overlap. -/
def rangesMeet (a n b m : Nat) : Bool := decide (a < b + m) && decide (b < a + n)

/-- Undefined accumulator elements take free values. -/
def State.freeElems (s : State) (c k : Nat) (es : List Nat) : State :=
  if es.isEmpty then s
  else
    let w := s.crew c k
    (s.setCrew c k { w with acc := es.foldl (fun m e => mset m e (Config.freeW32 s.free e)) w.acc }).bump

/-- The elements of tiles. -/
def tileElems (ts : List Nat) : List Nat := ts.flatMap (fun t => (List.range 256).map (256 * t + ·))

/-- The MREADYs in the queue that wait for a request (R136): commands behind one of them read after it. -/
def Mill.readies (m : Mill) (req : Nat) : List Nat :=
  (m.queue.filter (fun q => (match q.op with | .mready _ => true | _ => false) && q.deps.contains req)).map (·.id)

/-- The elements of a command that use some of `n` locations from `lo`: the bytes or slots themselves, or the tags of granules (kind
3, R317). -/
def MillRead.met (r : MillRead) (kind lo n : Nat) : List Nat :=
  let (q, lo1, n1) := if kind = 3 then (0, 4096 * lo, 4096 * n) else (kind, lo, n)
  if r.kind ≠ q ∨ (kind = 3 ∧ r.tag = false) ∨ !rangesMeet r.lo r.n lo1 n1 then []
  else
    let (a, b) := if r.unit = 0 ∨ kind = 3 then (0, r.run)
      else ((max lo1 r.lo - r.lo) / r.unit, (min (lo1 + n1) (r.lo + r.n) - r.lo + r.unit - 1) / r.unit)
    (List.range r.count).flatMap (fun i => (List.range (b - a)).map (fun j => r.base + r.step * i + a + j))

/-- The elements of a command's tiles that locations decide, but for those a later command has overwritten. -/
def MillUse.met (u : MillUse) (kind lo n : Nat) : List Nat :=
  (u.reads.flatMap (·.met kind lo n)).filter (fun e => !u.gone.contains (e / 256))

/-- A write, by request `req` or by hardware (0), to operand locations of commands not yet observed: the elements that depend on
them are undefined (R138), from now on or, of a command still in the queue, once it completes. -/
def State.spoil (s : State) (c k kind lo len req : Nat) : State :=
  let m := (s.core c).mill
  let rs := m.readies req
  let queued (u : MillUse) : Bool := m.queue.any (fun q => q.id == u.id)
  let after (u : MillUse) : Bool := m.queue.any (fun q => q.id == u.id && q.deps.any rs.contains)
  let es (u : MillUse) : List Nat := if s.inSlot c k u.slot ∧ after u = false then u.met kind lo len else []
  if m.uses.all (fun u => (es u).isEmpty) then s
  else
    (s.setCore c { s.core c with mill := { m with
      uses := m.uses.map (fun u => if queued u then { u with spoilt := u.spoilt ++ es u } else u) } }).freeElems c k
        ((m.uses.filter (fun u => !queued u)).flatMap es).eraseDups

/-- A tile written by commands not yet observed (R138). -/
def State.tileOpen (s : State) (c k t : Nat) : Bool :=
  (s.core c).mill.uses.any (fun u => s.inSlot c k u.slot && u.tiles.contains t)

/-! ### Writes and reads of a crew's scratchpad -/

/-- Write bytes to an allocation of a core. -/
def State.scratchWrite (s : State) (c k : Nat) (a : Alloc) (ofs : Nat) (bs : List Byte) (bad : Bool) (req : Nat) : State :=
  let k1 := (s.core c).swr a ofs bs
  let k2 := if bad then k1.spoisonRange a ofs bs.length else k1
  ((s.setCore c k2).spoil c k 0 ofs bs.length req).power c 2 ((bs.length + 7) / 8)

/-- A list of ranges with one more: it extends a range it follows on. -/
def addRange (rs : List (Nat × Nat × Nat)) (kind lo n : Nat) : List (Nat × Nat × Nat) :=
  match rs with
  | [] => [(kind, lo, n)]
  | (k, a, m) :: r => if k = kind ∧ a + m = lo then (k, a, m + n) :: r else (k, a, m) :: addRange r kind lo n

/-! ### Accumulator elements (R74) -/

/-- Add to or overwrite an element. -/
def State.accWrite (s : State) (c k e v : Nat) (add : Bool) : State :=
  let w := s.crew c k
  let x := if add then Num.fadd Num.f32 0 0 (mget 0 w.acc e).toNat v else v
  s.setCrew c k { w with acc := mset w.acc e (BitVec.ofNat 32 x)
                         accPoison := if add then w.accPoison else w.accPoison.filter (· != e) }

end Sys2Proof.Machine
end

