-- ==== Sys2Proof/Machine/Scope.lean ====
section
/-! DEFINITION. Scope: the observers within the scope of an access (R124 to R127), and HBM accesses performed ahead of earlier ones
whose order no observer within that scope may see broken (R113, R126). -/

namespace Sys2Proof.Machine
open Sys2Proof

/-- Who observes an access (Table 4-4): a gang, an engine of a core, a unit of the device, another device's agent, an application
core or PCIe device. -/
inductive Observer
  | gang (core slot : Nat)
  | engine (core : Nat)
  | unit
  | peer
  | host
  deriving DecidableEq, Repr

/-- The slot of a request that reads or writes a scale byte at a peer for piece `words[1]` of request `words[0]` (R34, R42). -/
def scaleSlot : Nat := 200

/-- The slot of a PCIe read that waits (R113, R160). -/
def pcieSlot : Nat := 203

/-- The agent on whose behalf a request accesses memory. -/
def Req.agent (r : Req) : Observer :=
  if r.peer.isSome then .peer
  else if r.slot = pcieSlot then .host
  else if 128 ≤ r.core ∨ scaleSlot ≤ r.slot then .unit
  else if r.slot < 64 then .gang r.core r.slot
  else .engine r.core

/-- The crew of a gang slot: its context, lot and stand. -/
def State.crewOf (s : State) (core slot : Nat) : Crew := s.crew core (s.gang core slot).cslot

/-- Two crews of one stand. -/
def Crew.sameStand (a b : Crew) : Bool := a.standN != 0 && b.standN != 0 && a.stand == b.stand

/-- Table 4-4: observer `o` lies within the scope of code `code` taken by the gang in `slot` of `core`. -/
def State.inScope (s : State) (core slot code : Nat) (o : Observer) : Bool :=
  match o with
  | .gang c g =>
    decide (4 ≤ code) || (c == core && g == slot) || (decide (2 ≤ code) && c == core && (s.gang c g).cslot == (s.gang core slot).cslot) ||
      (decide (3 ≤ code) && (s.crewOf c g).sameStand (s.crewOf core slot))
  | .engine c =>
    decide (4 ≤ code) || (decide (2 ≤ code) && c == core) ||
      (decide (3 ≤ code) && (s.core c).crews.any (fun w => w.2.sameStand (s.crewOf core slot)))
  | .unit => decide (4 ≤ code)
  | .peer => decide (5 ≤ code)
  | .host => decide (6 ≤ code)

/-! ### What an earlier request holds back (R113, R115, R145) -/

/-- The physical address of a piece on a page of HBM, as its translation has given it or would give it now. -/
def State.placeOf (s : State) (r : Req) (l : LaneAcc) : Option Nat :=
  if l.path ≠ 0 ∧ l.path ≠ 6 then none
  else if l.stage = 1 ∨ l.stage = 2 ∨ l.stage = 8 then some l.pa
  else match (s.translate r.ctx (l.ia.toNat % 2 ^ 57) 0).2 with
    | .ok f _ _ _ _ => some (4096 * f + l.ia.toNat % 4096)
    | _ => none

/-- Piece `a` of a decoding load takes its scale byte from bytes of piece `b`, as far as both places are known. -/
def State.scaleShare (s : State) (q r : Req) (a b : LaneAcc) : Bool :=
  q.kind == .load && (a.fmt == 0 || a.fmt == 1) && (a.scr || a.stage == 0 || a.fmt == 1) &&
    (match a.sva, s.placeOf r b with
     | some _, some p => a.stage == 1 && a.scale.isNone && rangesMeet a.spa 1 p b.size
     | _, _ => mayScale a b)

/-- Two pieces touch a common location, or may where a place is not known yet (R115). -/
def State.share (s : State) (q r : Req) (a b : LaneAcc) : Bool :=
  s.scaleShare q r a b || s.scaleShare r q b a ||
    (a.store == b.store && (match a.store with
     | 0 => (match s.placeOf q a, s.placeOf r b with
       | some x, some y => nearMeet x a.size y b.size
       | _, _ => if a.ia.toNat / 4096 = b.ia.toNat / 4096 ∧ q.ctx = r.ctx then nearMeet a.ia.toNat a.size b.ia.toNat b.size else mayShare a b)
     | 3 => false
     | _ => a.core == b.core && a.cslot == b.cslot && a.alloc == b.alloc && nearMeet a.pa a.size b.pa b.size))

/-- The path of a piece at issue, by which Table 4-6 orders it: 0 and 6 are ordered alike. -/
def LaneAcc.path0 (l : LaneAcc) : Nat := if l.path = 3 ∧ l.fwds ≠ 0 then 0 else l.path

/-- Earlier request `id` holds piece `l` back for the reasons `why`. -/
def State.binds (s : State) (r : Req) (l : LaneAcc) (id why : Nat) : Bool :=
  !s.settled id && (why.testBit 0 || (match s.req id with
    | some q => q.lanes.any (fun m => !(m.stage == 2 || m.stage == 4) &&
        ((why.testBit 1 && pathsOrdered m.path0 l.path0) || (why.testBit 2 && s.share q r m l)))
    | none => false))

/-- The earlier requests of a request, why each comes first, and the scope code held at issue. -/
def Req.reasons (r : Req) : List (Nat × Nat × Nat) :=
  (List.range r.deps.length).map (fun k => (r.deps.getD k 0, r.why.getD k 1, r.scopes.getD k 7))

/-- Nothing earlier holds the piece back. -/
def State.inTurn (s : State) (r : Req) (l : LaneAcc) : Bool := r.reasons.all (fun d => !s.binds r l d.1 d.2.1)

/-- The scope code of an order as it stands: an access that has been forwarded has pod scope at least (R127, R168). -/
def State.codeNow (s : State) (r : Req) (d : Nat × Nat × Nat) : Nat :=
  match s.req d.1 with
  | none => d.2.2
  | some q => max (max d.2.2 (if d.2.1.testBit 3 then min q.scope r.scope else 0))
      (max (if d.2.1.testBit 4 then r.scope else 0) (if d.2.1.testBit 5 then q.scope else 0))

/-- The widest scope within which a piece still comes after an earlier request; 0 when it waits for none. -/
def State.within (s : State) (r : Req) (l : LaneAcc) : Nat :=
  (r.reasons.filter (fun d => s.binds r l d.1 d.2.1)).foldl (fun n d => max n (s.codeNow r d)) 0

/-- What an early piece gives: its value is fixed, and it is performed in its order later. -/
def LaneAcc.ahead (l : LaneAcc) : LaneAcc := if l.stage = 2 then { l with stage := 1, early := true } else l

/-- An early load whose location is written before its turn reads it again. -/
def LaneAcc.again (l : LaneAcc) : LaneAcc := { l with early := false, undef := false, cause := 0, out := 0 }

/-- The request's kind writes memory. -/
def Req.writes (r : Req) : Bool := [ReqKind.store, .rawStore, .stx, .stch, .simg, .atom, .redm, .cas].contains r.kind
/-- The request's kind reads and writes indivisibly. -/
def Req.atomic (r : Req) : Bool := [ReqKind.atom, .redm, .cas].contains r.kind

/-- A write by `o` of `n` bytes at `pa` is performed: an early load of them that `o` lies in scope of reads again (R126). -/
def State.voids (s : State) (o : Observer) (pa n : Nat) : State :=
  { s with reqs := s.reqs.map (fun q =>
      if q.2.writes then q
      else (q.1, { q.2 with lanes := q.2.lanes.map (fun l =>
        if l.early && (rangesMeet l.pa l.size pa n || (l.sva.isSome && rangesMeet l.spa 1 pa n)) &&
          s.inScope q.2.core q.2.slot (s.within q.2 l) o then l.again else l) })) }

/-- A store of another request performed early is not for observer `o` to see yet (R113, R126). -/
def State.unseen (s : State) (o : Observer) (pa n : Nat) : Bool :=
  s.reqs.any (fun q => q.2.writes && q.2.lanes.any (fun l => l.early && rangesMeet l.pa l.size pa n &&
    s.inScope q.2.core q.2.slot (s.within q.2 l) o))

/-- A unit of the device writes bytes (R72). -/
def State.unitStore (s : State) (pa : Nat) (bs : List Byte) : State := (s.wrOver pa bs).voids .unit pa bs.length

end Sys2Proof.Machine
end

