-- ==== Sys2Proof/Machine/Stash.lean ====
section
/-! DEFINITION. Stash: allocation in the stash (R60 to R64), what an access needs of its line, and the events of lines (R65 to R71,
Table 2-5). -/

namespace Sys2Proof.Machine
open Sys2Proof

/-! ### Allocation (R61, R62) -/

/-- The dirty lines of a block: IA line and physical line. -/
def Block.dirty (b : Block) : List (Nat × Nat) :=
  ((List.range b.lines.length).filter (fun i => 3 ≤ (b.lines.getD i {}).st)).map (fun i => (b.base + i, (b.lines.getD i {}).pl))

/-- A dirty line is written back: it stays clean, or becomes absent where some of its bytes were never valid (R63). -/
def State.cleanLine (s : State) (c ctx line : Nat) : State :=
  let x := (s.core c).stLine ctx line
  if x.st < 3 then s
  else if x.valid = fullLine then
    (((s.setCore c ((s.core c).setLine ctx line { x with st := 1 })).dirWriteback x.pl).grant c).power c 2 16
  else ((((s.setCore c ((s.core c).setLine ctx line {})).dirWriteback x.pl).dirDrop x.pl (c / 8)).grant c).power c 2 16

/-- A block without dirty lines is released. -/
def State.releaseBlock (s : State) (c : Nat) (b : Block) : State :=
  let s1 := s.setCore c { s.core c with blocks := (s.core c).blocks.erase b }
  b.lines.foldl (fun t l => if l.st = 0 then t else t.dirDrop l.pl (c / 8)) s1

/-- A line fetch of the block is on its way, or an access waits on one of its lines (R62). -/
def State.blockBusy (s : State) (c : Nat) (b : Block) : Bool :=
  s.agenda.any (fun p => match p.op, p.arg with
    | .stashLineFill, .line c' ctx line _ => c' == c && b.holds ctx line
    | _, _ => false) ||
  s.reqs.any (fun r => r.2.core == c && r.2.ctx == b.ctx &&
    r.2.lanes.any (fun l => l.path == 0 && b.holds b.ctx (l.ia.toNat % 2 ^ 57 / 128) &&
      (if r.2.kind == .lblk then l.lane != 0 && (l.stage == 0 || l.stage == 1 || l.stage == 5) else l.stage == 1)))

/-- Victims come by rank, implicit before declared, least recently touched first. -/
def Block.before (a b : Block) : Bool :=
  if a.rank ≠ b.rank then decide (a.rank < b.rank)
  else if a.declared ≠ b.declared then !a.declared
  else decide (a.touched < b.touched)

/-- The first victim of a list. -/
def firstVictim : List Block → Option Block
  | [] => none
  | b :: bs => match firstVictim bs with
    | none => some b
    | some c => if c.before b then some c else some b

/-- Make room for `n` frames and one table entry: victims without dirty lines are released. On the right, the victim whose dirty
lines must be written back first, or none where there is no victim yet. -/
def State.makeRoom : Nat → State → Nat → Nat → Except (Option Block) State
  | 0, _, _, _ => .error none
  | fuel + 1, s, c, n =>
    let k := s.core c
    let used := (k.blocks.map (·.lines.length)).sum
    if used + n ≤ 12288 ∧ k.blocks.length < 2048 then .ok s
    else match firstVictim (k.blocks.filter (fun b => !s.blockBusy c b)) with
      | none => .error none
      | some b => if b.dirty.isEmpty then State.makeRoom fuel (s.releaseBlock c b) c n else .error (some b)

/-- The blocks of a core that hold any of `n` lines of a context. -/
def Core.overlaps (k : Core) (ctx base n : Nat) : List Block :=
  k.blocks.filter (fun b => b.ctx == ctx && decide (b.base < base + n) && decide (base < b.base + b.lines.length))

/-- Room for a block of `n` lines: blocks of the context that hold any of its lines are released first (R61). -/
def State.stashRoom (s : State) (c ctx base n : Nat) : Except (Option Block) State :=
  let old := (s.core c).overlaps ctx base n
  match old.find? (fun b => !b.dirty.isEmpty) with
  | some b => .error (some b)
  | none =>
    let s1 := old.foldl (fun t b => t.releaseBlock c b) s
    s1.makeRoom ((s1.core c).blocks.length + 1) c n

/-- Enter a block of `n` absent lines (R61); none while it waits for room. -/
def State.enterBlock (s : State) (c ctx base n rank : Nat) (declared : Bool) : Option State :=
  match s.stashRoom c ctx base n with
  | .error _ => none
  | .ok t =>
    let k := t.core c
    some (t.setCore c { k with blocks := k.blocks ++
      [{ ctx := ctx, base := base, lines := List.replicate n {}, rank := rank, declared := declared, touched := t.clock }] })

/-- The write-backs a block of `n` lines waits for (R62). -/
def State.roomEvents (s : State) (c ctx base n : Nat) : List Pending :=
  match s.stashRoom c ctx base n with
  | .error (some b) => b.dirty.map (fun d => { op := .directoryWriteback, arg := .line c b.ctx d.1 d.2 })
  | _ => []

/-! ### What an access needs of its line -/

/-- Bytes of a line as bits. -/
def byteMask (ofs n : Nat) : Nat := (2 ^ n - 1) * 2 ^ ofs

/-- The bytes are valid. -/
def Line.has (x : Line) (ofs n : Nat) : Bool := x.valid &&& byteMask ofs n == byteMask ofs n

/-- The piece is served at its home slice and no copy is made: a page with PBMT = NC, an implicit line of a page marked "do not
allocate" (R27, R143), an access of a unit of the base die. -/
def State.homeServed (s : State) (c ctx : Nat) (l : LaneAcc) : Bool :=
  l.nc || decide (128 ≤ c) || (l.path == 0 && l.evl1 == 3 && ((s.core c).block? ctx (l.ia.toNat % 2 ^ 57 / 128)).isNone)

/-- What a piece needs of its line: 0 nothing more, 1 a read of the line, 2 ownership (R63, R66, R72). Bytes of an owned line that
are not valid are fetched beneath the valid ones by ownership with data. -/
def State.lineNeed (s : State) (c ctx : Nat) (l : LaneAcc) (wr : Bool) : Nat :=
  let k := s.core c
  let line := l.ia.toNat % 2 ^ 57 / 128
  if s.homeServed c ctx l then 0
  else if l.path = 6 then (if k.roL1.any (fun r => r.1 == ctx && r.2.1 == line) then 0 else 1)
  else if l.path ≠ 0 then 0
  else
    let x := k.stLine ctx line
    if wr then (if x.st = 2 ∨ x.st = 4 then 0 else 2)
    else if x.st = 0 then 1
    else if x.has (l.ia.toNat % 128) l.size then 0 else 2

/-- The accesses of a core that wait for a line. -/
def State.askers (s : State) (c ctx line : Nat) : List (Req × LaneAcc) :=
  s.reqs.flatMap (fun r => if r.2.core == c && r.2.ctx == ctx && r.2.peer.isNone && decide (r.2.slot < 64) then
    (r.2.lanes.filter (fun l => l.stage == 1 && (l.path == 0 || l.path == 6) && !l.nc && l.ia.toNat % 2 ^ 57 / 128 == line)).map
      (fun l => (r.2, l)) else [])
/-- Those of them that the read-only L1 serves, and those of the stash. -/
def roAsks (xs : List (Req × LaneAcc)) : List (Req × LaneAcc) := xs.filter (fun x => x.2.path == 6)
def stashAsks (xs : List (Req × LaneAcc)) : List (Req × LaneAcc) := xs.filter (fun x => x.2.path != 6)
/-- Retention rank of an access for the stash and for the L2 (R144). -/
def stashRank (x : Req × LaneAcc) : Nat := retention x.2.evl1 (x.1.pol.toNat % 8)
def l2Rank (x : Req × LaneAcc) : Nat := retention x.2.evl2 (x.1.pol.toNat % 8)

/-- The line of a request is used at its home slice for a core's access of it. -/
def State.l2Ask (s : State) (c ctx line pl : Nat) (fetch : Bool) : State :=
  let xs := s.askers c ctx line
  s.l2Use pl ((xs.map l2Rank).foldl max 0) (!xs.isEmpty && xs.all (fun x => x.2.evl2 == 3)) false fetch

/-! ### Events -/

/-- The complex names itself as core 128, of cluster 16 (R71). -/
def ofComplex (c : Nat) : Bool := c == 128

/-- DIRECTORY_READ (Table 2-5): a read request is served at the home slice; a core's line comes by a fill. -/
def execDirectoryRead (s : State) : Out :=
  match s.ev with
  | .line c ctx line pl =>
    let s1 := ((s.l2Ask c ctx line pl true).dirRead pl (c / 8)).downgrade pl
    .next (if ofComplex c then s1 else (s1.grant c).later .stashLineFill (.line c ctx line pl))
  | _ => .next s

/-- The complex has a line as its own (R71): what its harts store there is not the device's to know, and is what whoever takes the line
from it is given: free values from here on, which no observer sees before the line leaves the complex. -/
def State.complexTakes (s : State) (pl : Nat) : State :=
  if inHbm (128 * pl) 128 then
    ((s.wrLine (128 * pl) ((List.range 128).map (fun i => Config.freeByte s.free (4096 + i)))).voids .host (128 * pl) 128).bump
  else s

/-- DIRECTORY_OWNERSHIP (Table 2-5): every other copy is invalidated and the requester is the sole M holder. What the requester
holds of the line stays valid (R63). -/
def execDirectoryOwnership (s : State) : Out :=
  match s.ev with
  | .line c ctx line pl =>
    let x := (s.core c).stLine ctx line
    let s0 := (s.l2Ask c ctx line pl (decide (x.st = 4))).recallAll pl
    let s1 := (s0.dirOwn pl (c / 8))
    let kept := if x.st = 4 then x else { x with st := 1 }
    let s2 := if x.st = 0 then s1 else s1.setCore c ((s1.core c).setLine ctx line kept)
    .next (if ofComplex c then s1.complexTakes pl else (s2.grant c).later .stashLineFill (.line c ctx line pl))
  | _ => .next s

/-- DIRECTORY_WRITEBACK (Table 2-5): a dirty line of a core, or one of the complex with its bytes, is written back by its owner;
a line that has another owner by now is left. The bytes of a line the complex holds as O have been read already. -/
def execDirectoryWriteback (s : State) : Out :=
  match s.ev with
  | .line c ctx line pl =>
    if ofComplex c then .next (if 3 ≤ (s.dirOf pl).1 ∧ (s.dirOf pl).2.1 = 16 then s.dirWriteback pl else s)
    else .next (if ((s.core c).stLine ctx line).pl = pl then s.cleanLine c ctx line else s)
  | .mem pa bs _ =>
    let pl := pa / 128
    let whole := pa % 128 = 0 ∧ bs.length = 128
    .next (if 3 ≤ (s.dirOf pl).1 ∧ (s.dirOf pl).2.1 = 16 ∧ inHbm pa bs.length ∧ pa % 128 + bs.length ≤ 128 then
      (if (s.dirOf pl).1 = 3 then s.dirWriteback pl
       else (((if whole then s.wrLine pa bs else s.wrBytes pa bs)).dirWriteback pl).voids .host pa bs.length) else s)
  | _ => .next s

/-- COHERENCE_RECALL (R65): the named line becomes absent in the core. -/
def execCoherenceRecall (s : State) : Out :=
  match s.ev with
  | .line c ctx line _ => .next (s.recall c ctx line)
  | _ => .next s

/-- Pieces of a core's stash operations that wait for a line in the read-only L1 (`ro`) or in the stash are done with it (R61). -/
def State.lineArrived (s : State) (c ctx line : Nat) (ro : Bool) : State :=
  { s with reqs := s.reqs.map (fun r =>
      if r.2.core == c && r.2.ctx == ctx && (r.2.kind == .lblk || r.2.kind == .pref) then
        (r.1, { r.2 with lanes := r.2.lanes.map (fun l =>
          if l.stage == 1 && (l.path == 6) == ro && (l.lane != 0 || r.2.kind == .pref) && l.ia.toNat % 2 ^ 57 / 128 == line then
            { l with stage := 2 } else l) })
      else r) }

/-- The frame that leaves a full read-only L1: the spec names none, the model takes the oldest (log entry 8). -/
def roRoom (xs : List (Nat × Nat × Nat)) : List (Nat × Nat × Nat) := if xs.length < 512 then xs else xs.drop 1

/-- A fill of the stash counts for the crew whose access asked for the line first (PMC11, Table 19-8). -/
def State.countFill (s : State) (c : Nat) (asks : List (Req × LaneAcc)) : State :=
  match stashAsks asks with
  | x :: _ => s.pmcAdd c (s.gang c x.1.slot).cslot 11 1
  | [] => s

/-- A line enters the read-only L1 (R66). -/
def State.roEnter (s : State) (c ctx line pl : Nat) : State :=
  let k := s.core c
  (s.setCore c { k with roL1 := roRoom (k.roL1.filter (fun r => !(r.1 == ctx && r.2.1 == line))) ++ [(ctx, line, pl)] }).power c 2 16

/-- A line enters the stash, in its block or in an implicit block of one line; none while it waits for room (R61, R64). -/
def State.stashEnter (s : State) (c ctx line pl : Nat) (asks : List (Req × LaneAcc)) : Option State :=
  let (m, o, _) := s.dirOf pl
  let rank := ((asks.filter (fun x => x.1.kind != .lblk)).map stashRank).foldl max 0
  let st := if (m = 4 ∨ m = 2) ∧ o = c / 8 then m else 1
  let x := (s.core c).stLine ctx line
  let y : Line := ⟨st, pl, if st = 4 ∧ x.st = 0 then 0 else fullLine, []⟩
  let s1 := match (s.core c).block? ctx line with
    | some _ => some (s.setCore c ((s.core c).touch ctx line rank s.clock))
    | none => s.enterBlock c ctx line 1 rank false
  s1.map (fun s1 => (s1.setCore c ((s1.core c).setLine ctx line y)).power c 2 16)

/-- STASH_LINE_FILL (R61, R64, R66): if the cluster still shares the line, it enters the read-only L1 for the PATH 6 loads that wait for
it and the stash for the others, and for none, at the state the directory gives this cluster; a line owned without its data has no
valid byte yet (R63). A line the cluster has lost meanwhile is asked for again. -/
def execStashLineFill (s : State) : Out :=
  match s.ev with
  | .line c ctx line pl =>
    let asks := s.askers c ctx line
    if !(s.dirOf pl).2.2.testBit (c / 8) then .next s
    else
      let s1 := if (roAsks asks).isEmpty then s else (s.roEnter c ctx line pl).lineArrived c ctx line true
      if (stashAsks asks).isEmpty && !asks.isEmpty then .next s1
      else match s1.stashEnter c ctx line pl (stashAsks asks) with
        | some s2 => .next (((s2.lineArrived c ctx line false).observe 1 c 11 1).countFill c asks)
        | none => .next (s1.later .stashLineFill (.line c ctx line pl))
  | _ => .next s

end Sys2Proof.Machine
end

