-- ==== Sys2Proof/Machine/Perform.lean ====
section
/-! DEFINITION. Perform: a piece of a request takes effect at its place (R72, R110, R267, R277 to R281), and the values a
completed request writes to its destination (R213, R267). -/

namespace Sys2Proof.Machine
open Sys2Proof Sys2Proof.Num

/-! ### Decoding loads (R97, R101, R267) -/

/-- Bytes of one stored element of a format: BF16 two, the others one (a K4 byte holds two elements). -/
def elemBytes (fmt : Nat) : Nat := if fmt = 4 then 2 else 1

/-- The address of element i of a group whose first byte is `a`, and its nibble. -/
def elemAddr (fmt a i : Nat) : Nat × Nat :=
  match fmt with
  | 1 => (a + i / 2, i % 2)
  | 4 => (a / 2 * 2 + 2 * i, 0)
  | _ => (a + i, 0)

/-- The F32 value of an element from its stored bytes; a K4 code takes its scale byte. -/
def decodeElem (fmt x nib scale : Nat) : Nat :=
  match fmt with
  | 1 => k4ToF32 scale (x / 16 ^ nib % 16)
  | 2 => round f32 false 0 0 (decode e4m3 (x % 256))
  | 3 => round f32 false 0 0 (decode e5m2 (x % 256))
  | 4 => round f32 false 0 0 (decode bf16 (x % 65536))
  | _ => x

/-! ### Atomics (Table 9-3) -/

/-- The new value of an element of width `w` bits: type 0 N32 or N64, 1 S32, 2 F32. -/
def atomOp (op ty w old v : Nat) : Nat :=
  match op with
  | 0 => if ty = 2 then fadd f32 0 0 old v else (old + v) % 2 ^ w
  | 1 => if ty = 2 then fmin f32 old v else if ty = 1 then Alu.iminS w old v else Alu.iminN old v
  | 2 => if ty = 2 then fmax f32 old v else if ty = 1 then Alu.imaxS w old v else Alu.imaxN old v
  | 3 => old &&& v
  | 4 => old ||| v
  | 5 => old ^^^ v
  | _ => v

/-- Type of an atomic or reduction opcode. -/
def atomType (opc : Nat) : Nat := match opc % 4 with | 1 => 1 | 3 => 2 | _ => 0

/-- What a piece does to the value at its place: the value written, if any. -/
def Req.update (r : Req) (l : LaneAcc) (old : Nat) : Option Nat :=
  match r.kind with
  | .atom | .redm => some (atomOp r.z (atomType r.opc) (8 * l.size) old l.data)
  | .cas => if old = l.cmp then some l.data else none
  | .store | .rawStore | .stx | .stch | .simg => some l.data
  | _ => none

/-- The access kind of its translations and records (R43). -/
def Req.acc (r : Req) : Nat := if r.atomic then 2 else if r.writes || r.kind == .stg then 1 else 0

/-- The piece has a physical address here. -/
def LaneAcc.placed (l : LaneAcc) : Bool := l.path != 3 && (l.stage == 1 || l.stage == 2 || l.stage == 8)

/-- The offset of piece `m` from piece `l` where both lie at known places of one store, or have one intermediate address space:
the same allocation of a scratchpad whatever the path (R18, R59), the same memory, or the same addresses. -/
def LaneAcc.base? (l m : LaneAcc) : Option (Nat × Nat) :=
  if l.scr && m.scr then (if l.core == m.core && l.cslot == m.cslot && l.alloc == m.alloc then some (l.pa, m.pa) else none)
  else if l.scr || m.scr then none
  else if l.ia.toNat / 4096 == m.ia.toNat / 4096 then some (l.ia.toNat, m.ia.toNat)
  else if l.placed && m.placed then some (l.pa, m.pa) else none

/-- Bytes of a store that a higher lane of the same instruction has written keep that lane's value (R59, R110): the bytes of
piece `l` still to write, as offsets. An atomic writes all of its bytes (R72). -/
def Req.openBytes (r : Req) (l : LaneAcc) : List Nat :=
  (List.range l.size).filter (fun k =>
    r.atomic || !r.lanes.any (fun m => (m.stage == 2 || m.early) && decide (l.lane < m.lane) &&
      (match l.base? m with
       | some (a, b) => decide (b ≤ a + k) && decide (a + k < b + m.size)
       | none => false)))

/-- Lanes' pieces may lie at one place: where that is decided elsewhere, what a peer maps to one frame has the same offset in
its page. -/
def LaneAcc.mayMeet (l m : LaneAcc) : Bool :=
  match l.base? m with
  | some (a, b) => rangesMeet a l.size b m.size
  | none => !l.scr && !m.scr && rangesMeet (l.ia.toNat % 4096) l.size (m.ia.toNat % 4096) m.size

/-- Two pieces go to one peer in one request (R148). -/
def LaneAcc.together (l m : LaneAcc) : Bool :=
  l.path == 3 && m.path == 3 && l.peer == m.peer && l.fwds == m.fwds && l.ia.toNat / 128 == m.ia.toNat / 128

/-- A lower lane's piece at the same place, or whose place is not known yet, comes first: for an atomic (R72), and for a store
where the place is known only to a peer (R59). What goes to a peer together is ordered there. -/
def Req.behindLane (r : Req) (l : LaneAcc) : Bool :=
  r.writes && r.lanes.any (fun m => decide (m.lane < l.lane) && !l.together m && (r.atomic || l.path == 3 || m.path == 3) && l.mayMeet m &&
    !(m.stage == 2 || m.stage == 4 || m.early))

/-- Replace piece i. -/
def Req.setLane (r : Req) (i : Nat) (l : LaneAcc) : Req := { r with lanes := r.lanes.set i l }

/-- The piece belongs to a copy or WBLD: opcode 0x43 reads, 0x44 writes. -/
def Req.copying (r : Req) : Bool := r.opc == 0x43 || r.opc == 0x44

/-- The piece is the first of its line, or of its run, that a copy asks for: it is granted at the arbiters (R447). -/
def firstOfLine (r : Req) (l : LaneAcc) : Bool := r.z.testBit 3 || decide (l.pa % 128 = 0)

/-- Another piece of the request has been granted the line already (R447). -/
def Req.lineGranted (r : Req) (l : LaneAcc) : Bool :=
  if r.copying then !firstOfLine r l
  else r.lanes.any (fun m => (m.stage == 2 || m.early) && m.path == l.path && m.pa / 128 == l.pa / 128 && (m.lane != l.lane || m.off != l.off))

/-- The line of a piece served at the home slice is granted to its cluster, once for a request; a peer's or a base-die unit's is not counted here (R447). -/
def State.grantOf (s : State) (r : Req) (l : LaneAcc) : State := if r.peer.isSome || decide (128 ≤ r.core) || r.lineGranted l then s else s.grant r.core

/-- A copy's piece is written at its home slice (R298 to R300): z bit 0, data of K4 with scale byte `cmp`; bit 1, the scale
byte alone; bit 2, the run on this page does not begin and end on blocks; bit 3, the first piece of its run; bit 4, its line has been written
whole, which clears older poison (R79): `words` are the words of the line that the copy has written poisoned. -/
def State.copyWrite (s : State) (r : Req) (l : LaneAcc) : State × LaneAcc :=
  if r.z.testBit 2 && l.attr == 1 then (s, { l with stage := 4, cause := 0x50 })
  else
    let s0 := (s.l2Use (l.pa / 128) (retention l.evl2 (r.pol.toNat % 8)) (l.evl2 == 3) true true).atSlice l.pa
    let s1 := if r.z.testBit 1 then s0 else
      let t := s0.wrBytes l.pa (bytesLE l.size l.data)
      let u := if r.z.testBit 4 ∧ (l.pa + l.size) % 128 = 0 then { t with poison := t.poison.filter (fun w => w / 16 != l.pa / 128) } else t
      let bad := if r.z.testBit 4 ∧ (l.pa + l.size) % 128 = 0 then r.words.map (fun w => l.pa / 128 * 16 + w.toNat) else []
      let v := if l.undef then u.poisonRange l.pa l.size else u
      bad.foldl (fun t w => t.poisonRange (8 * w) 8) v
    let s2 := if r.z.testBit 0 && l.attr == 1 && l.scale.isNone then
        let t := (s1.atSlice l.spa).wr l.spa 1 l.cmp
        if l.undef then t.poisonRange l.spa 1 else t
      else s1
    (s2.grantOf r l, { l with stage := 2, undef := false, cause := if r.z.testBit 0 && l.attr != 1 then 0x53 else 0 })

/-- The scale byte of a K4 piece, and whether it is poisoned: read here, as a peer gave it, or, where its page has none, a free
value (R34, R101). -/
def State.scaleOf (s : State) (l : LaneAcc) : Nat × Bool :=
  match l.scale with
  | some x => x
  | none => if l.sva.isNone then ((Config.freeByte s.free 0).toNat, false) else (s.rd l.spa 1, s.poisoned l.spa 1)

/-- A copy's piece is read at its home slice, with the scale byte of a K4 block. -/
def State.copyRead (s : State) (r : Req) (l : LaneAcc) : State × LaneAcc :=
  let (sc, scBad) := s.scaleOf l
  let bad := s.poisoned l.pa l.size || (l.attr == 1 && scBad)
  let s1 := (s.l2Use (l.pa / 128) (retention l.evl2 (r.pol.toNat % 8)) (l.evl2 == 3) false true).yields (l.pa / 128)
  (s1.grantOf r l,
    { l with stage := 2, out := s.rd l.pa l.size, cmp := if l.attr = 1 then sc else 0, undef := bad,
             cause := if bad then 0x20 else 0 })

/-- What a piece served for a peer's LD returns: a lone byte of a BF16 page comes with its element (R101, R267). -/
def LaneAcc.unit (l : LaneAcc) (r : Req) : Nat × Nat :=
  if r.peer.isSome && r.kind == .load && l.attr == 4 && l.size == 1 then (l.pa / 2 * 2, 2)
  else (l.pa, if l.fmt = 0 || r.peer.isSome then l.size else elemBytes l.fmt)

/-- Reading a range of a line by a core consumes poison: bytes it has written over an unfetched line carry only the poison stored
with them (R63, R79). -/
def State.consumes (s : State) (c ctx line a n : Nat) : Bool :=
  let x := (s.core c).stLine ctx line
  if x.st = 4 ∧ x.valid ≠ fullLine ∧ x.pl = a / 128 ∧ x.has (a % 128) n then (wordsOf a n).any x.bad.contains else s.poisoned a n

/-- An access of a line at its place (R72): the home slice, where a write invalidates every copy, or the stash, where it raises the
block's rank and makes an owned line M. -/
def State.reach (s : State) (r : Req) (l : LaneAcc) (line n : Nat) : State :=
  let pri := r.pol.toNat % 8
  if r.atomic || r.peer.isSome || s.homeServed r.core r.ctx l then
    let t := s.l2Use (l.pa / 128) (retention l.evl2 pri) (l.evl2 == 3) r.writes true
    (if r.writes then t.atSlice l.pa else t.yields (l.pa / 128)).grantOf r l
  else
    let x := (s.core r.core).stLine r.ctx line
    let k1 := (s.core r.core).touch r.ctx line (retention l.evl1 pri) s.clock
    let own := r.writes && x.st == 2
    let s1 := (s.setCore r.core (if own then k1.setLine r.ctx line { x with st := 4 } else k1)).power r.core 2 ((n + 7) / 8)
    if own then s1.dirOwn (l.pa / 128) (r.core / 8) else s1

/-- The bytes of a line that pieces of a request cover. -/
def linesCover (ls : List LaneAcc) : Nat := ls.foldl (fun a m => a ||| byteMask (m.pa % 128) m.size) 0

/-- A store has been performed on a line: its bytes are valid there; a line that has become valid, or that one instruction has
written, whole keeps no older poison (R63, R79). -/
def State.wroteLine (s : State) (r : Req) (l : LaneAcc) (line : Nat) (keep : List Nat) : State :=
  let pl := l.pa / 128
  let words (m : LaneAcc) : List Nat := if m.undef then wordsOf m.pa m.size else []
  let fresh (t : State) (bad : List Nat) : State :=
    { t with poison := t.poison.filter (fun w => w / 16 != pl) ++ bad.eraseDups }
  let mates := l :: r.lanes.filter (fun m => m.stage == 2 && m.pa / 128 == pl && m.scr == l.scr)
  let s1 := if linesCover mates = fullLine then fresh s (mates.flatMap words) else s
  let x := (s1.core r.core).stLine r.ctx line
  if r.peer.isSome || x.st ≠ 4 || x.pl ≠ pl || x.valid == fullLine then s1
  else
    let valid := keep.foldl (fun a k => a ||| byteMask (l.pa % 128 + k) 1) x.valid
    let bad := (if l.size = 8 then x.bad.filter (fun w => !(wordsOf l.pa 8).contains w) else x.bad) ++ words l
    if valid = fullLine then (fresh s1 bad).setCore r.core ((s1.core r.core).setLine r.ctx line ⟨4, pl, fullLine, []⟩)
    else s1.setCore r.core ((s1.core r.core).setLine r.ctx line { x with valid := valid, bad := bad })

/-- A piece on a page of HBM: at the home slice, or with its line held in the stash or the read-only L1. -/
def State.performMem (s : State) (r : Req) (l : LaneAcc) : State × LaneAcc :=
  if r.copying then (if r.writes then s.copyWrite r l else s.copyRead r l) else
  let (a, n) := l.unit r
  let x := s.rd a n
  let line := l.ia.toNat % 2 ^ 57 / 128
  let (sc, scBad) := s.scaleOf l
  let coded := l.fmt == 1 || (r.peer.isSome && r.kind == .load && l.attr == 1)
  let bad := s.consumes r.core r.ctx line a n || (coded && scBad)
  let s0 := s.reach r l line n
  if r.writes then
    if r.atomic && bad then (s0, { l with stage := 2, cause := 0x20, undef := true })
    else match r.update l x with
      | none => (s0, { l with stage := 2, out := x })
      | some v =>
        let bs := bytesLE l.size v
        let keep := r.openBytes l
        let s1 := keep.foldl (fun t i => t.wrBytes (l.pa + i) [bs.getD i 0]) s0
        let s2 := if l.undef then s1.poisonRange l.pa l.size else s1
        (s2.wroteLine r l line keep, { l with stage := 2, out := x, undef := l.undef && !r.atomic })
  else if bad then (s0, { l with stage := 2, cause := 0x20, undef := true })
  else if r.peer.isSome then (s0, { l with stage := 2, out := x, cmp := if l.attr = 1 then sc else l.cmp })
  else (s0, { l with stage := 2, out := if l.fmt = 0 then x else decodeElem l.fmt x (l.off % 2) sc })

/-- A whole decoding load of a lane from a tagged granule (R56, R267): its elements as decoded pieces, each at its own swizzled
location (R59). -/
def State.decodeScratch (s : State) (r : Req) (l : LaneAcc) : List LaneAcc :=
  let k := s.core l.core
  let fmt := gtFmt (k.tagAt l.alloc l.ofs)
  (List.range r.group).map (fun i =>
    let (o, nib) := elemAddr fmt l.ofs i
    let p := swizzle r.z o
    let tg := k.tagAt l.alloc p
    let sofs := gtSgran tg * 4096 + gtSslot tg * 512 + p % 4096 / 8
    let n := elemBytes fmt
    let bad := k.spoison l.alloc p n || (fmt == 1 && k.spoison l.alloc sofs 1)
    { l with off := i, ofs := o, pa := p, fmt := fmt, stage := 2, cause := if bad then 0x20 else 0, undef := bad,
             out := decodeElem fmt (k.srd l.alloc p n) nib (k.srd l.alloc sofs 1) })

/-- A piece on a crew's scratchpad. A write whose granule no longer belongs to the allocation is discarded and counted; a read
finds undefined data (R54). DESIGN CHOICE (log entry 46): SCRSTALE counts each piece of at most 8 bytes, as it counts each of a copy's. -/
def State.performScratch (s : State) (id : Nat) (r : Req) (l : LaneAcc) : State × LaneAcc :=
  let k := s.core l.core
  if !k.accepts l.alloc l.pa then
    if r.writes then (s.setCore l.core k.stale, { l with stage := 2, undef := true })
    else (s, { l with stage := 2, undef := true })
  else
    let x := k.srd l.alloc l.pa l.size
    let bad := k.spoison l.alloc l.pa l.size
    if r.writes then
      if r.atomic && bad then (s, { l with stage := 2, cause := 0x20, undef := true })
      else match r.update l x with
        | none => (s, { l with stage := 2, out := x })
        | some v =>
          let bs := bytesLE l.size v
          let keep := r.openBytes l
          let s1 := if keep.length = l.size then s.scratchWrite l.core l.cslot l.alloc l.pa bs l.undef id
            else keep.foldl (fun t i => t.scratchWrite l.core l.cslot l.alloc (l.pa + i) [bs.getD i 0] l.undef id) s
          (s1, { l with stage := 2, out := x, undef := false })
    else (s.power l.core 2 ((l.size + 7) / 8), { l with stage := 2, out := x, undef := bad, cause := if bad then 0x20 else 0 })

/-- A piece on an accumulator element (R74, R75, R138). -/
def State.performAcc (s : State) (r : Req) (l : LaneAcc) : State × LaneAcc :=
  let w := s.crew l.core l.cslot
  let here := ((s.core l.core).crews.any (fun x => x.1 == l.cslot)) && w.stand == l.stand
  if !here then (if r.kind = .accst then s.setCore l.core (s.core l.core).stale else s, { l with stage := 2, undef := true })
  else match r.kind with
    | .accst => ((s.accWrite l.core l.cslot l.pa l.data (r.opc == 0x2C)), { l with stage := 2 })
    | _ =>
      let bad := w.accPoison.contains l.pa
      (s, { l with stage := 2, out := (mget 0 w.acc l.pa).toNat, cause := if bad then 0x20 else 0,
                   undef := bad || s.tileOpen l.core l.cslot (l.pa / 256) })

/-! ### Completion -/

/-- A lane's raw pieces give way to its decoded elements; every other piece of the request keeps its place. -/
def Req.decoded (r : Req) (lane : Nat) (ls : List LaneAcc) : Req :=
  { r with lanes := r.lanes.map (fun m =>
      if m.lane = lane ∧ m.fmt = 0 then { m with stage := 2, fmt := 14 } else m) ++ ls }

/-- A lane's decoded elements give way to its raw pieces again, which stand for the part a record held (R292). -/
def Req.recoded (r : Req) (lane : Nat) (rec : Option (Nat × Nat)) : Req :=
  { r with lanes := (r.lanes.filter (fun m => !(m.lane == lane && m.fmt != 0 && m.fmt != 14))).map (fun m =>
      if m.lane = lane ∧ m.fmt = 14 then
        { m with stage := if m.scr || (m.path == 3 && m.fwds == 0) then 1 else 0, path := if m.path = 3 ∧ m.fwds ≠ 0 then 0 else m.path,
                 peer := if m.fwds = 0 then m.peer else 0, fwds := 0, fmt := 0, cause := 0, frec := rec } else m) }

/-- The pieces of a lane. -/
def Req.of (r : Req) (lane : Nat) : List LaneAcc := r.lanes.filter (fun l => l.lane == lane)

/-- The lanes of a request. -/
def Req.laneNos (r : Req) : List Nat := (r.lanes.map (·.lane)).eraseDups

/-- The cause a request reports: that of its first piece in error (log entry 10). -/
def Req.firstCause (r : Req) : Nat :=
  if r.cause ≠ 0 then r.cause else ((r.lanes.find? (fun l => l.cause != 0)).map (·.cause)).getD 0

/-- A lane whose destination is written: none of its pieces has failed. -/
def Req.laneOk (r : Req) (lane : Nat) : Bool := (r.of lane).all (fun l => l.stage == 2)
def Req.laneUndef (r : Req) (lane : Nat) : Bool := (r.of lane).any (·.undef)

/-- The raw value of a lane: its pieces put together. -/
def Req.raw (r : Req) (lane : Nat) : Nat :=
  (r.of lane).foldl (fun a l => if l.fmt = 0 then a + l.out * 256 ^ l.off else a) 0

/-- The value register i of the group takes in a lane. -/
def Req.value (r : Req) (lane i : Nat) : Nat :=
  match (r.of lane).find? (fun l => l.fmt != 0 && l.fmt != 14 && l.off == i) with
  | some l => l.out
  | none =>
    let x := r.raw lane
    let sx (w : Nat) : Nat := wrapInt (sextInt x w) 32
    match r.kind with
    | .load => if r.opc = 2 then sx 8 else if r.opc = 4 then sx 16 else x / 2 ^ (32 * i) % 2 ^ 32
    | .ldx => if r.z = 8 then sx 8 else if r.z = 9 then sx 16 else x / 2 ^ (32 * i) % 2 ^ 32
    | _ => x / 2 ^ (32 * i) % 2 ^ 32

/-- The lanes that take a value: a CAS writes both lanes of its pair (R279). -/
def Req.source (r : Req) (l : Nat) : Nat := if r.kind = .cas then l / 2 * 2 else l

/-- The destination of a completed request is written (R213, R267, R268, R272, R287); undefined lanes take free values. -/
def Gang.deliver (g : Gang) (r : Req) (k : Nat) : Gang :=
  let ls := r.laneNos
  match r.kind with
  | .load | .rawLoad | .ldx | .atom | .cas | .accld =>
    let lanes := (List.range 32).filter (fun l => ls.contains (r.source l) && r.laneOk (r.source l))
    let x (i l : Nat) := if r.laneUndef (r.source l) then Config.freeW32 k (2048 + 32 * i + l)
      else BitVec.ofNat 32 (r.value (r.source l) i)
    (List.range r.group).foldl (fun g i =>
      let v := mergeLanes (maskOf lanes) (lanesOf (x i)) (g.vreg (r.dest + i))
      { g with v := mset g.v (r.dest + i) v }) g
  | .loadS =>
    let x := if r.laneUndef 0 then Config.freeW64 k 2048 else BitVec.ofNat 64 (r.raw 0)
    if r.laneOk 0 then { g with s := mset g.s (r.dest - 0x80) x } else g
  | .ldc =>
    let x (w : Nat) := if r.laneUndef 0 then Config.freeW64 k (2048 + w) else BitVec.ofNat 64 (r.raw 0 / 2 ^ (64 * w))
    if r.laneOk 0 then (List.range 4).foldl (fun g w => { g with desc := mset g.desc (4 * r.dest + w) (x w) }) g else g
  | .qpop | .qtry =>
    let n := if r.kind = .qpop then r.dest - 0x80 else r.dest % 32
    let got := r.words.length == 8 && r.firstCause == 0
    let g1 := if got then (List.range 8).foldl (fun g i => { g with s := mset g.s (n + i) (r.words.getD i 0) }) g else g
    if r.kind = .qtry ∧ r.firstCause = 0 then
      { g1 with p := mset g1.p (r.dest / 32) (if got then BitVec.allOnes 32 else 0) }
    else g1
  | .gquery | .mstat => if r.firstCause = 0 then { g with s := mset g.s r.dest (r.words.getD 0 0) } else g
  | .join =>
    match r.lanes.head? with
    | some l => if (r.z = 1 ∨ r.z = 2) ∧ r.firstCause = 0 then { g with s := mset g.s r.dest (BitVec.ofNat 64 l.out) } else g
    | none => g
  | _ => g

end Sys2Proof.Machine
end

