-- ==== Sys2Proof/Machine/Packets.lean ====
section
/-! DEFINITION. Packets: what passes between devices (R147, R148, R152, R158, R169), and the migration counters and watchpoints a
translation updates (R38, R39, R453, R454). -/

namespace Sys2Proof.Machine
open Sys2Proof

/-- Packet kinds: 0 request, 1 acknowledgement, 2 response, 3 message or record, 4 its response, 5 STG lane, 6 its response,
7 prepare, 8 answer, 9 commit, 10 abort, 11 group acknowledgement, 12 to 16 the migration exchange of Table 5-10. -/
def packetRow (kind : Nat) : Instr :=
  match kind with
  | 0 => .remoteRequestArrival
  | 1 => .remoteAckArrival
  | 2 => .memoryOpComplete
  | 3 => .messageArrival
  | 4 => .memoryOpComplete
  | 5 => .stgLaneArrival
  | 6 => .memoryOpComplete
  | 7 => .prepareArrival
  | 8 => .answerArrival
  | 9 => .commitArrival
  | 10 => .abortArrival
  | 11 => .groupAckArrival
  | 12 => .migrationOffer
  | 13 => .migrationDecline
  | 14 => .migrationAccept
  | 15 => .migrationLines
  | _ => .migrationAck

/-- Send a packet to device `p.dev`; one to the own device arrives here (R24), naming this device as its sender. -/
def State.send (s : State) (p : Packet) : State :=
  if p.dev = s.devId then s.later (packetRow p.kind) (.packet p) else { s with outbox := s.outbox ++ [p] }

/-- Fields of an aperture word (Table 1-6). -/
def aperDev (w : W64) : Nat := bitsOf w.toNat 39 30
def aperCtx (w : W64) : Nat := bitsOf w.toNat 51 40

/-- Aperture N in a context's window image (R20): 0 where the image is outside HBM or the word is poisoned. -/
def State.imageAper (s : State) (ctx n : Nat) : W64 :=
  let pa := bitsOf (s.ctx ctx).cxcfg.toNat 54 11 * 4096 + 0x100 + 8 * n
  if inHbm pa 8 ∧ !s.poisoned pa 8 then BitVec.ofNat 64 (s.rd pa 8) else 0

/-- The request kind of an M-slot opcode, for an access served for a peer. -/
def opcKind (opc : Nat) : ReqKind :=
  if opc ≤ 0x07 then .load
  else if opc ≤ 0x09 then .loadS
  else if opc ≤ 0x0E then .store
  else if opc ≤ 0x13 then .rawLoad
  else if opc ≤ 0x17 then .rawStore
  else match opc with
    | 0x43 => .rawLoad
    | 0x44 => .rawStore
    | 0x18 => .ldx
    | 0x19 => .stx
    | 0x1A => .ldc
    | 0x2F => .stch
    | _ => if opc ≤ 0x23 then .atom else if opc ≤ 0x27 then .redm else .cas

/-- Clocks in a microsecond (R208). -/
def clocksPerUs : Nat := 4000

/-- GRPCFG times in clocks; 0 counts as 1 µs (Table 5-2). -/
def State.rspto (s : State) : Nat := max 1 (s.dfld 0x40 47 32) * clocksPerUs
def State.prepto (s : State) : Nat := max 1 (s.dfld 0x40 63 48) * clocksPerUs

/-- RSPTO runs until the acknowledgement of the request to a peer that piece i names (R148). -/
def State.rsptoRuns (s : State) (id i : Nat) : State :=
  { s with agenda := s.agenda ++ [{ op := .rsptoExpiry, arg := .req id i, due := s.clock + s.rspto }] }

/-- The number of a piece of a request at its issuer. -/
def pieceTag (id i : Nat) : Nat := 1024 * id + i

/-- A line requested of a peer counts on its core's cluster; one of a unit of the base die does not (R447). -/
def State.grantFor (s : State) (r : Req) : State := if r.core < 128 then s.grant r.core else s

/-- A message or record goes to a peer's port or queue (R362). -/
def State.sendPiece (s : State) (id i : Nat) (r : Req) (l : LaneAcc) (b : Nat) : State :=
  let p : Packet :=
    { kind := 3, dev := aperDev l.peer, ctx := aperCtx l.peer, peerCtx := r.ctx, tag := pieceTag id i,
      va := l.pa, a := r.opc + 2 ^ 8 * r.z + 2 ^ 16 * r.pol.toNat, b := b,
      words := if r.words.isEmpty then [BitVec.ofNat 64 l.data] else r.words }
  (((s.setReq id (r.setLane i { l with stage := 6, sent := i })).send p).rsptoRuns id i)

/-- What a piece carries to a peer: its lane, its place in the element, its address, data and compare value. -/
def LaneAcc.carried (l : LaneAcc) : LaneAcc :=
  { lane := l.lane, off := l.off, ia := BitVec.ofNat 64 (l.ia.toNat % 2 ^ 57), size := l.size, data := l.data, cmp := l.cmp,
    fmt := l.fmt, undef := l.undef }

/-- The pieces that go to a peer with piece i: those of its line ready to go (R148). -/
def Req.mates (r : Req) (i : Nat) (l : LaneAcc) : List Nat :=
  (List.range r.lanes.length).filter (fun j => j == i ||
    (r.lanes[j]?).any (fun m => m.stage == 1 && l.together m && !r.behindLane m))

/-- One request to a peer for the pieces of a line (R148); `b`: accesses that a migration made wait, which the page's new home performs in
their order (R169). -/
def State.sendLine (s : State) (id i : Nat) (r : Req) (l : LaneAcc) : State :=
  let js := r.mates i l
  let p : Packet :=
    { kind := 0, dev := aperDev l.peer, ctx := aperCtx l.peer, peerCtx := r.ctx, tag := pieceTag id i,
      va := l.ia.toNat % 2 ^ 57, a := r.opc + 2 ^ 8 * r.z + 2 ^ 16 * r.pol.toNat + 2 ^ 24 * r.group,
      b := if js.any (fun j => (r.lanes[j]?).any (fun m => m.hold.isSome)) then 1 else 0,
      lanes := js.filterMap (fun j => (r.lanes[j]?).map LaneAcc.carried), fwd := l.fwds, words := if r.copying then r.words else [] }
  let r1 := js.foldl (fun q j => match q.lanes[j]? with | some m => q.setLane j { m with stage := 6, sent := i } | none => q) r
  (((s.setReq id r1).send p).grantFor r).rsptoRuns id i

/-! ### Watchpoints (R453, R454) -/

/-- The lowest enabled watchpoint that an access of a context matches: KIND bit 0 loads, bit 1 stores and atomics. -/
def State.watchHit (s : State) (ctx va n : Nat) (wr : Bool) : Option Nat :=
  (List.range 8).find? (fun i =>
    let a := (s.dreg (0x3700 + 16 * i)).toNat
    let m := (s.dreg (0x3708 + 16 * i)).toNat
    let z := 2 ^ max 3 (bitsOf m 51 46)
    let lo := a % 2 ^ 57 / z * z
    a.testBit 63 && a.testBit (if wr then 62 else 61) && decide (bitsOf m 63 52 = ctx) &&
      decide (va < lo + z) && decide (lo < va + n))

/-- A match reaches the gang and is merged with those it holds (R454); `more` is 0 where another part of the same lane's access has
matched already. -/
def State.watch (s : State) (c slot ctx va n : Nat) (wr : Bool) (more : Nat) : State :=
  match s.watchHit ctx va n wr, s.gang? c slot with
  | some i, some g =>
    let w := match g.watch with
      | none => if more = 0 then none else some (i, wr, 1)
      | some (j, b, k) => some (min i j, b || wr, min (2 ^ 24 - 1) (k + more))
    s.setGang c slot { g with watch := w }
  | _, _ => s

/-! ### Migration counters (R38, R39) -/

/-- A page is pinned (R39). -/
def State.pinned (s : State) (ctx vpn : Nat) : Bool := s.thrash.any (fun t => t.ctx == ctx && t.vpn == vpn && t.pinned)

/-- Occupancy and size of a context's return ring (R170); none where LOGN is 11 to 15. -/
def State.retRing (s : State) (ctx : Nat) : Option (Nat × Nat) :=
  let logn := s.rd (s.ctxWordPa ctx 5) 8 / 2 ^ 60
  let idx := s.rd (s.ctxWordPa ctx 6) 8
  if logn ≥ 11 then none else some ((idx / 2 ^ 32 + 2 ^ 32 - idx % 2 ^ 32) % 2 ^ 32, 2 ^ (logn + 6))

/-- The home context's aperture toward a device and context (R169). -/
def State.aperTo (s : State) (ctx dev rctx : Nat) : Option Nat :=
  ((List.range 64).drop 1).find? (fun n =>
    let w := s.imageAper ctx n
    w.getLsbD 63 && aperDev w == dev && aperCtx w == rctx)

/-- The page holds landing entries or held lines, under any mapping of its frame, or a fill or another migration is under way (R169). -/
def State.pageBusy (s : State) (ctx vpn frame : Nat) : Bool :=
  s.landing.any (fun e => (e.dctx == ctx && e.va / 4096 == vpn) || e.pa / 32 == frame) || s.filling ctx vpn ||
    s.migr.any (fun m => m.ctx == ctx && m.vpn == vpn)

/-- An access meets a page with MIG = 1: a local one halves CNT; one from a peer counts, and at MIGTHR the migration toward
it starts, or CNT is cleared where it may not (R38, R169). What counts as one access is log entry 44's choice. -/
def State.migTouch (s : State) (ctx vpn : Nat) (peer : Option (Nat × Nat)) : State :=
  match s.tlbFind ctx vpn with
  | none => s
  | some t =>
    if !t.comp.getLsbD 58 then s
    else
      let upd (u : Tlb) : State := { s with tlb := s.tlb.map (fun x => if x = t then u else x) }
      match peer with
      | none => upd { t with cnt := t.cnt / 2 }
      | some (d, x) =>
        let u := if t.req = d ∧ t.rqctx = x then { t with cnt := min 255 (t.cnt + 1) } else { t with req := d, rqctx := x, cnt := 1 }
        let thr := s.dfld 0x38 7 0
        if thr = 0 ∨ u.cnt < thr then upd u
        else if s.pinned ctx vpn || t.level != 0 || s.pageBusy ctx vpn (ptePpn t.pte.toNat) || (s.aperTo ctx d x).isNone || decide ((s.ctx ctx).chgatp.toNat / 2 ^ 60 ≠ 0) ||
            (s.retRing ctx).all (fun p => decide (p.2 ≤ p.1)) then upd { u with cnt := 0 }
        else
          let s1 := upd { u with cnt := 0 }
          let th := s.thrash.find? (fun h => h.ctx == ctx && h.vpn == vpn)
          let count := (th.map (·.count)).getD 0
          let age := s.clock - (th.map (·.start)).getD s.clock
          let m : Migr := { ctx := ctx, vpn := vpn, dev := d, rctx := x, home := true, step := 1, count := count, age := age }
          let s2 : State := { s1 with migr := s1.migr ++ [m] }
          s2.send { kind := 12, dev := d, ctx := x, peerCtx := ctx, va := 4096 * vpn, a := count, b := age }

end Sys2Proof.Machine
end

