-- ==== Sys2Proof/Machine/Requests.lean ====
section
/-! DEFINITION. Requests: the life of a memory request after issue: translation, fills, performance, faults, the operand log and
replay, remote service, and completion (R27, R37, R40 to R49, R110 to R131, R147, R148). -/

namespace Sys2Proof.Machine
open Sys2Proof

/-- Change piece i of a request. -/
def State.setPiece (s : State) (id i : Nat) (l : LaneAcc) : State :=
  match s.req id with
  | some r => s.setReq id (r.setLane i l)
  | none => s

/-! ### The operand log (R45) -/

/-- The entry's part of a request: the lanes of its mask that its record has held (R45, R265). -/
def LogEntry.part (e : LogEntry) (l : LaneAcc) : Bool := e.mask.getLsbD l.lane && l.frec == e.record

/-- Free log entries whose lanes are all performed or completed in error, and the lanes' marks. -/
def State.cleanLog (s : State) (c : Nat) : State :=
  let k := s.core c
  let live (e : LogEntry) : Bool :=
    e.state != 3 || (match s.req e.req with
      | some r => r.lanes.any (fun l => e.part l && !(l.stage == 2 || l.stage == 4))
      | none => false)
  if k.log.all (fun p => live p.2) then s else s.setCore c { k with log := k.log.filter (fun p => live p.2) }

/-- The lowest free of 256 entries. -/
def freeSlot {α : Type} (n : Nat) (m : Map α) : Option Nat := (List.range n).find? (fun i => (mget? m i).isNone)

/-! ### Translation -/

/-- The slot of the request that reads a dropped launch's completion port at a peer (R385); `words[0]` is its LOTID. -/
def peekSlot : Nat := 202

/-- A piece fails with a cause: an escalated one is bound to a record (R42), another completes the lane in error (R41). The
stash operations drop the line (R61, R276); a dropped launch's read writes no record (R385). -/
def State.failPiece (s : State) (id i cause acc gpa : Nat) (r : Req) (l : LaneAcc) (page : Nat) : State :=
  if r.kind = .lblk ∨ r.kind = .pref then s.setPiece id i { l with stage := 2 }
  else if escalated cause ∧ r.slot ≠ peekSlot then
    let (s1, rec) := s.recordFault r.ctx page cause acc gpa r.core
    s1.setPiece id i { l with stage := 3, cause := cause, frec := some rec }
  else s.setPiece id i { l with stage := 4, cause := cause }

/-- An element of a decoding load as a piece of its own, after piece `l` of its lane (R267). -/
def elemPiece (l : LaneAcc) (va fmt i : Nat) : LaneAcc :=
  { l with off := i, ia := BitVec.ofNat 64 (l.ia.toNat / 2 ^ 57 * 2 ^ 57 + (elemAddr fmt va i).1), size := elemBytes fmt, fmt := fmt,
           stage := 0, sva := none, scale := none, hold := none, arb := none }

/-- The pieces of a decoding load once the attribute of its first byte is known (R267). -/
def decodePieces (r : Req) (l : LaneAcc) (fmt : Nat) : List LaneAcc :=
  (List.range r.group).map (fun i =>
    let m := elemPiece l (l.ia.toNat % 2 ^ 57) fmt i
    { m with seen := l.seen && m.ia.toNat / 4096 == l.ia.toNat / 4096 })

/-- The gang slot on whose behalf a request acts: slot 64 + e stands for skidder entry e. -/
def State.issuer (s : State) (r : Req) : Nat :=
  if r.slot < 64 then r.slot else (mget {} (s.core r.core).skid (r.slot - 64)).slot

/-- Bytes that leave on PCIe: a read's completion, or a response on the DOE mailbox that asked. -/
def State.reply (s : State) (bs : List Byte) : State := { s with replies := s.replies ++ [bs] }

/-- What a PCIe read that has waited returns: free bytes for those that are poisoned. -/
def State.pcieReturn (s : State) (r : Req) : State :=
  (s.reply (r.lanes.flatMap (fun l => if l.undef then (List.range l.size).map (fun i => Config.freeByte s.free (l.off + i)) else bytesLE l.size l.out))).bump

/-- A lot-completion message (Table 12-9). -/
def completionWord (err : Bool) (ctx lotid : Nat) : W64 :=
  BitVec.ofNat 64 ((if err then 2 ^ 63 else 0) + ctx * 2 ^ 32 + lotid)

/-- A lot's completion message for a refused or dropped launch: errored, at once (R382, R385, R389). -/
def State.refuseMessage (s : State) (ctx lotid cport : Nat) : State :=
  s.later .messageArrival (.msg { handle := cport, data := completionWord true ctx lotid, source := 4, ctx := ctx, dev := s.devId })

/-- A dropped launch's completion port has been read: a fault or poison sends no message (R385). -/
def State.peeked (s : State) (r : Req) : State :=
  match r.lanes with
  | [l] => if l.stage = 2 ∧ l.undef = false ∧ l.cause = 0 then s.refuseMessage r.ctx (r.words.getD 0 0).toNat (l.out % 2 ^ 32) else s
  | _ => s

/-- The aperture a forwarding entry of a context names, as the issuing core or, for a peer's access, the window image gives it
(R168). -/
def State.fwdAper (s : State) (core ctx e : Nat) (own : Bool) : Option W64 :=
  let n := bitsOf e 15 10
  let w := if own then BitVec.ofNat 64 (s.ctxWord core ctx (64 + n)) else s.imageAper ctx n
  if n = 0 ∨ w.getLsbD 63 = false then none else some w

/-- A scale page that forwards: the byte is read, or by a copy written, at its home (R34, R42, R168). -/
def State.sendScale (s : State) (id i : Nat) (r : Req) (l1 : LaneAcc) (sva e : Nat) : State :=
  match s.fwdAper r.core r.ctx e r.peer.isNone with
  | none => s.setPiece id i { l1 with stage := 4, cause := 0x05 }
  | some w =>
    let wr := r.opc = 0x44
    let m : LaneAcc := { lane := 0, ia := BitVec.ofNat 64 sva, path := 3, peer := w, size := 1, stage := 1, fwds := 1,
                         data := l1.cmp, undef := wr && l1.undef }
    let q : Req := { kind := if wr then .rawStore else .rawLoad, core := r.core, slot := scaleSlot, ctx := r.ctx, pol := r.pol,
                     opc := if wr then 0x14 else 0x10, lanes := [m], words := [BitVec.ofNat 64 id, BitVec.ofNat 64 i], born := s.clock }
    (s.setPiece id i { l1 with stage := 8 }).addReq q

/-- The scale byte's address of a K4 piece is translated too (R34); where its page is on its way elsewhere, or being filled, the
piece waits. -/
def State.placeScale (s : State) (id i : Nat) (r : Req) (l l1 : LaneAcc) (comp level : Nat) : State :=
  let acc := if r.opc = 0x44 then 1 else 0
  let sva := scaleVa comp level (l.ia.toNat % 2 ^ 57)
  let page := sva / 4096 * 4096
  let wait (t : State) : State := t.setPiece id i { l1 with stage := 5, sva := some sva }
  let fail (t : State) (c a : Nat) : State := t.failPiece id i (if escalated c && c != 0x20 then 0x14 else c) a 0 r { l1 with sva := some sva } page
  if s.migrating r.ctx (sva / 4096) then wait s
  else match s.translate r.ctx sva acc with
    | (t, .ok f _ _ _ _) => (t.migTouch r.ctx (sva / 4096) none).setPiece id i { l1 with sva := some sva, spa := 4096 * f + sva % 4096 }
    | (t, .fill pa e _) => (match t.startFill r.ctx sva acc pa e with
        | (u, some c) => fail u c acc
        | (u, none) => wait u)
    | (t, .fault c _ a) => fail t c a
    | (t, .fwd e) =>
      if r.opc = 0x44 ∧ r.z.testBit 2 then t.setPiece id i l1 else t.sendScale id i r { l1 with sva := some sva } sva e

/-- A gang's access meets its watchpoints once its translation is known, here or at a peer the page forwards to (R453). -/
def State.watchPiece (s : State) (r : Req) (l : LaneAcc) : State :=
  let again := r.lanes.any (fun m => m.seen && m.lane == l.lane && (s.watchHit r.ctx (m.ia.toNat % 2 ^ 57) m.size r.writes).isSome)
  if r.peer.isNone && !l.seen then s.watch r.core (s.issuer r) r.ctx (l.ia.toNat % 2 ^ 57) l.size r.writes (if again then 0 else 1) else s

/-- The piece with its translation (R27, R32), and its scale byte's for a K4 element (R34) or block (R102). A lane's access counts
once for a page (R38). -/
def State.placePiece (s : State) (id i : Nat) (r : Req) (l : LaneAcc) (frame pte comp level : Nat) : State :=
  let va := l.ia.toNat % 2 ^ 57
  let fmt := bitsOf comp 63 61
  let counted := r.lanes.any (fun m => m.seen && m.lane == l.lane && m.ia.toNat / 4096 == l.ia.toNat / 4096)
  let s0 := if counted then s else s.migTouch r.ctx (va / 4096) (r.peer.map (fun p => (p.1, p.2.1)))
  let s1 := s0.watchPiece r l
  let m := { l with seen := true, hold := none }
  let l1 := { m with pa := 4096 * frame + va % 4096, nc := ptePbmt pte == 1, evl1 := bitsOf comp 55 54, evl2 := bitsOf comp 57 56,
                     stage := 1, attr := if r.copying || r.peer.isSome then fmt else 0 }
  let scaled := l.fmt == 1 || (fmt == 1 && (r.opc == 0x43 || (r.opc == 0x44 && r.z.testBit 0) || (r.peer.isSome && r.kind == .load)))
  if r.kind = .load ∧ r.peer = none ∧ l.fmt = 0 ∧ fmt ≠ 0 ∧ l.off = 0 then s1.setReq id (r.decoded l.lane (decodePieces r m fmt))
  else if scaled && fmt == 1 then s1.placeScale id i r m l1 comp level
  else s1.setPiece id i l1

/-- An access that a migration makes wait takes its place in the order of arrival (R169). -/
def State.holdPiece (s : State) (id i : Nat) (l : LaneAcc) : State :=
  if l.hold.isSome then s else { s.setPiece id i { l with hold := some s.tickets } with tickets := s.tickets + 1 }

/-- TRANSLATE_ACCESS (R27): the access is sent on, faulted, held for a fill or a migration, or forwarded (R168). -/
def execTranslateAccess (s : State) : Out :=
  match s.ev with
  | .req id i =>
    match s.req id with
    | none => .next s
    | some r => match r.lanes[i]? with
      | none => .next s
      | some l =>
        if l.stage ≠ 0 then .next s
        else
          let va := l.ia.toNat % 2 ^ 57
          let page := va / 4096 * 4096
          if s.migrating r.ctx (va / 4096) then .next (s.holdPiece id i l)
          else match s.translate r.ctx va r.acc with
          | (t, .ok f e c lv _) => .next (t.placePiece id i r l f e c lv)
          | (t, .fault c g a) => .next ((t.failPiece id i c a g r l page).cleanLog r.core)
          | (t, .fill pa e _) =>
            if r.kind = .pref then .next (t.setPiece id i { l with stage := 2 })
            else (match t.startFill r.ctx va r.acc pa e with
              | (u, some c) => .next (u.failPiece id i c r.acc 0 r l page)
              | (u, none) => .next (u.setPiece id i { l with stage := 5 }))
          | (t, .fwd e) =>
            if r.kind = .lblk ∨ r.kind = .pref then .next (t.setPiece id i { l with stage := 2 })
            else if 4 ≤ l.fwds ∨ r.kind = .stg then .next (t.failPiece id i 0x10 r.acc 0 r l page)
            else match t.fwdAper r.core r.ctx e (r.peer.isNone && decide (r.core < 128)) with
              | none => .next ((t.setPiece id i { l with stage := 4, cause := 0x05 }).cleanLog r.core)
              | some w => .next ((t.watchPiece r l).setPiece id i { l with path := 3, peer := w, stage := 1, fwds := l.fwds + 1, seen := true })
  | _ => .next s

/-- Pieces that wait for a page's fill, or for its migration, are translated again. -/
def State.wakePage (s : State) (ctx vpn : Nat) : State :=
  { s with reqs := s.reqs.map (fun r =>
      if r.2.ctx = ctx then (r.1, { r.2 with lanes := r.2.lanes.map (fun l =>
        if l.stage = 5 ∧ (l.ia.toNat % 2 ^ 57 / 4096 = vpn ∨ l.sva.any (fun a => a / 4096 == vpn)) then { l with stage := 0 } else l) })
      else r) }

/-- The entries of a group at one destination context. -/
def LandEntry.of (e : LandEntry) (dev octx g dctx : Nat) : Bool := e.odev == dev && e.octx == octx && e.group == g && e.dctx == dctx

/-- A landing entry of a page whose fill ends is translated again where a prepare of its group waited for it (R159). -/
def State.fillEnds (s : State) (ctx vpn : Nat) : State :=
  let asked (e : LandEntry) : Bool := s.agenda.any (fun p => p.op == .prepareAnswerSend &&
    (match p.arg with | .dest q => e.of q.dev q.peerCtx q.tag q.ctx | _ => false))
  { s with landing := s.landing.map (fun e => if e.dctx = ctx ∧ e.va / 4096 = vpn ∧ asked e = true then { e with stale := true } else e) }

/-- FILL_COMPLETE (R37 steps 2 to 5): the frame is zeroed; the prepared entry takes it, its other bits kept (log entry 44), or the
frame is kept as the slice's spare and the walk is made again. The next fill that waits at the slice runs. -/
def execFillComplete (s : State) : Out :=
  match s.ev with
  | .page ctx vpn =>
    match s.fills.find? (fun f => f.ctx == ctx && f.vpn == vpn) with
    | none => .next s
    | some f =>
      let sl := tslice ctx (4096 * vpn)
      let s0 := ({ s with fills := s.fills.erase f } : State)
      let s1 := s0.zeroFrame f.frame
      let e := f.pte.toNat
      let s2 := if s1.rd f.pteAddr 8 = e then
          let ne := setBits e 53 10 (f.frame / 4096) ||| (if f.store then 0xC1 else 0x41)
          (s1.writeEntry f.pteAddr ne).observe 2 sl 5 1
        else { s1 with spare := mset s1.spare (4096 * sl + ctx) f.frame }
      let (s3, ps) := State.nextFill sl s2.fillq ((s2.fillEnds ctx vpn).wakePage ctx vpn)
      .next ((ps.filter (fun p => s3.fillBad.any (fun x => x.1 == p.1 && x.2.1 == p.2))).foldl (fun t p => t.wakePage p.1 p.2) s3)
  | _ => .next s

/-! ### Performance -/

/-- Where a piece of a peer's crew is written: the target interface checks the generation (R54, R75). -/
def LaneAcc.isPeer (l : LaneAcc) (r : Req) : Bool := (l.path == 1 || l.path == 2 || l.path == 8) && l.core != r.core && r.peer.isNone

/-- The event of a join-unit operation, by its kind (R353: 0 PATSET, 1 PORTCFG, 2 QCREATE, 3 QDESTROY) and OP field. -/
def joinRow (z op : Nat) : Instr :=
  match z with
  | 0 => if op = 0 then .patternClaim else if op = 2 then .patternRelease else .patternRewrite
  | 1 => if op = 0 then .portCreate else if op = 2 then .portDestroy else .portModify
  | 2 => .queueCreate
  | _ => .queueDestroy

/-- A pending event of a port or queue for a uniform request or a port store (R284, R362). -/
def State.toUnit (s : State) (id i : Nat) (r : Req) (l : LaneAcc) : State :=
  let s1 := s.setPiece id i { l with stage := 6 }
  let h := l.pa % 2 ^ 32
  match r.kind with
  | .qpush => s1.later .queuePush (.req id i)
  | .qpop => s1.later .queuePopRequest (.req id i)
  | .qtry => s1.later .queueTryRequest (.req id i)
  | .join => s1.later (joinRow r.z ((r.words.getD 0 0).toNat / 2 ^ 62)) (.req id i)
  | _ =>
    let w := if r.kind = .send then r.words.getD 0 0 else BitVec.ofNat 64 l.data
    s1.later .messageArrival (.msg { handle := h, data := w, ctx := r.ctx,
                                     source := if 64 ≤ r.slot then 5 else if r.kind = .send then 0 else 1,
                                     dev := s.devId, core := r.core, entry := i, req := id })

/-- Note what the gang has written since its last MREADY (R136); an MREADY that waits for the request covers it. -/
def State.noteUnready (s : State) (id : Nat) (r : Req) (l : LaneAcc) : State :=
  match s.gang? r.core r.slot with
  | some g =>
    let own := l.path == 1 || (l.path == 2 && l.core == r.core && l.cslot == g.cslot)
    if !((s.core r.core).mill.readies id).isEmpty then s
    else if own ∧ r.writes then s.setGang r.core r.slot { g with unready := addRange g.unready 0 l.pa l.size }
    else if l.path = 8 ∧ r.kind = .accst ∧ l.core = r.core then
      s.setGang r.core r.slot { g with unready := addRange g.unready 2 l.pa 1 }
    else s
  | none => s

/-- A block is made (R61), and its lines asked for in fill-now mode; it waits where there is no room (R62). Its rank takes the hint
of its base line's page, where that page is present (R144, log entry 13). -/
def State.performLblk (s : State) (id : Nat) (r : Req) (l : LaneAcc) : State :=
  let n := r.dest % 64 + 1
  let va := l.ia.toNat % 2 ^ 57
  let (s0, hint) := match s.translate r.ctx va 0 with
    | (t, .ok _ _ c _ _) => (t, bitsOf c 55 54)
    | (t, _) => (t, 0)
  match s0.enterBlock r.core r.ctx (va / 128) n (retention hint (r.pol.toNat % 8)) true with
  | none => s
  | some t =>
    let lines := if r.dest / 64 % 2 = 1 then [] else (List.range n).map (fun j =>
      ({ lane := j + 1, ia := BitVec.ofNat 64 (128 * (va / 128 + j)), size := 128, stage := 0 } : LaneAcc))
    t.setReq id { r with lanes := { l with stage := 2 } :: lines }

/-- A piece that its budget makes wait takes its place in the order of arrival (R447); its line counts once as held, for the crew that
asked (PMC14) and for the cluster (R449, R451). -/
def State.queueArb (s : State) (id i : Nat) (r : Req) (l : LaneAcc) : State :=
  if l.arb.isSome then s
  else
    let t := ({ s.setPiece id i { l with arb := some s.tickets } with tickets := s.tickets + 1 } : State)
    if r.lanes.any (fun m => m.arb.isSome && m.ia.toNat / 128 == l.ia.toNat / 128) then t
    else (t.pmcAdd r.core (s.gang r.core (s.issuer r)).cslot 14 1).observe 3 (r.core / 8) 2 1

/-- BLKWB and BLKDROP (R63): the dirty lines of the block that holds the address are written back, as far as the cluster's budget lasts
(R447); with the last of them the operation is done. -/
def State.performBlk (s : State) (id : Nat) (r : Req) (l : LaneAcc) : State :=
  let line := l.ia.toNat % 2 ^ 57 / 128
  let t : State := match (s.core r.core).block? r.ctx line with
    | none => s
    | some b => b.dirty.foldl (fun t d => if t.budgetOk r.core then t.cleanLine r.core r.ctx d.1 else t) s
  match (t.core r.core).block? r.ctx line with
  | none => t.setPiece id 0 { l with stage := 2 }
  | some b =>
    if !b.dirty.isEmpty then t.queueArb id 0 r l
    else if r.kind = .blkdrop then (t.setPiece id 0 { l with stage := 2 }).releaseBlock r.core b
    else t.setPiece id 0 { l with stage := 2 }

/-! ### The landing (R154 to R157) -/

/-- The record of a landing entry in HBM (R155, R427). -/
def State.landRecord (s : State) (i : Nat) : Nat := s.dfld 0x58 55 26 * 2 ^ 26 + 256 * i

/-- The lowest landing entry that is free. -/
def State.landFree (s : State) : Nat :=
  ((List.range (s.landing.length + 1)).find? (fun i => !s.landing.any (fun e => e.idx == i))).getD 0

/-- Bytes enter a landing record and are marked valid. -/
def State.landWrite (s : State) (i : Nat) (bs : List (Nat × Byte)) : State :=
  let a := s.landRecord i
  bs.foldl (fun t b =>
    let m := a + 128 + b.1 / 8
    (t.wr (a + b.1) 1 b.2.toNat).wr m 1 (t.rd m 1 ||| 2 ^ (b.1 % 8))) s

/-- The groups that destination state is of, each once: a group may land in several contexts (R156, R420). -/
def landGroups (ds : List DestGroup) : List (Nat × Nat × Nat) := (ds.map (fun d => (d.odev, d.octx, d.group))).eraseDups

/-- A lane write enters the landing, or is refused with the cause returned (R156). -/
def State.landLane (s : State) (r : Req) (l : LaneAcc) : State × Nat :=
  match r.peer with
  | none => (s, 0)
  | some (dev, octx, _) =>
    let va := l.ia.toNat % 2 ^ 57
    let line := va / 128 * 128
    let mine (e : LandEntry) : Bool := e.odev == dev && e.octx == octx && e.group == r.group && e.dctx == r.ctx
    let here (e : LandEntry) : Bool := mine e && e.va == line
    let known := s.dests.any (fun d => d.odev == dev && d.octx == octx && d.group == r.group && d.dctx == r.ctx)
    let kinds := landGroups s.dests
    if !s.landing.any here ∧ 262144 ≤ s.landing.length then (s, 0x31)
    else if !known ∧ !kinds.contains (dev, octx, r.group) ∧ 256 ≤ kinds.length then (s, 0x32)
    else
      let bs := ((List.range l.size).filter (fun i => l.cmp.testBit i)).map (fun i =>
        (va % 128 + i, BitVec.ofNat 8 (l.data / 256 ^ i)))
      let s1 : State := match s.landing.find? here with
        | some e => s.landWrite e.idx bs
        | none =>
          let i := s.landFree
          let e : LandEntry := { idx := i, odev := dev, octx := octx, group := r.group, dctx := r.ctx, va := line, pa := l.pa / 128 }
          ({ s.wrBytes (s.landRecord i) (List.replicate 256 0) with landing := s.landing ++ [e] } : State).landWrite i bs
      let dests := if known then s1.dests.map (fun d =>
          if d.odev = dev ∧ d.octx = octx ∧ d.group = r.group ∧ d.dctx = r.ctx then { d with received := d.received + 1 } else d)
        else s1.dests ++ [{ odev := dev, octx := octx, group := r.group, dctx := r.ctx, received := 1 }]
      ({ s1 with dests := dests }, 0)

/-- The piece takes effect at its place. -/
def State.performPiece (s : State) (id i : Nat) (r : Req) (l : LaneAcc) : State :=
  match r.kind with
  | .lblk => if l.lane = 0 then s.performLblk id r l else s.setPiece id i { l with stage := 2 }
  | .blkwb | .blkdrop => s.performBlk id r l
  | .pref =>
    -- the line is at hand, or goes to the L2 alone (R276); no data is consumed
    let s1 := if r.dest = 1 || s.homeServed r.core r.ctx l then
        ((s.l2Use (l.pa / 128) (retention l.evl2 (r.pol.toNat % 8)) (l.evl2 == 3) false true).yields (l.pa / 128)).grantOf r l
      else s.setCore r.core ((s.core r.core).touch r.ctx (l.ia.toNat % 2 ^ 57 / 128) (retention l.evl1 (r.pol.toNat % 8)) s.clock)
    s1.setPiece id i { l with stage := 2 }
  | .stg =>
    let (t, cause) := s.landLane r l
    t.setPiece id i { l with stage := if cause = 0 then 2 else 4, cause := cause }
  | _ =>
    match l.path with
    | 0 | 6 =>
      let (t, m) := s.performMem r l
      (if r.writes then t.voids r.agent l.pa l.size else t).setPiece id i m
    | 1 | 2 =>
      if r.kind = .load ∧ l.fmt = 0 ∧ l.off = 0 ∧ (s.core l.core).accepts l.alloc l.pa ∧ gtFmt ((s.core l.core).tagAt l.alloc l.pa) ≠ 0 then
        (s.setReq id (r.decoded l.lane (s.decodeScratch r l))).power l.core 2 (((s.decodeScratch r l).map (fun m => m.alloc.gen * 65536 + m.pa / 8)).eraseDups).length
      else let (t, m) := s.performScratch id r l; (t.setPiece id i m).noteUnready id r l
    | 3 => s.sendLine id i r l
    | 4 => if l.peer = 0 then s.toUnit id i r l else s.sendPiece id i r l (if r.kind = .qpush then 1 else 0)
    | 8 => let (t, m) := s.performAcc r l; (t.setPiece id i m).noteUnready id r l
    | _ => s.setPiece id i { l with stage := 2 }

/-- A read that finds its line held takes its place in the order of arrival (R160, R161). -/
def State.heldRead (s : State) (r : Req) (l : LaneAcc) : Bool :=
  l.stage == 1 && (l.path == 0 || l.path == 6) && (!r.writes || r.atomic) && r.kind != .stg && r.kind != .lblk && r.kind != .blkwb &&
    r.kind != .blkdrop && (s.lineHeld (l.pa / 128) || (l.sva.isSome && l.scale.isNone && s.lineHeld (l.spa / 128)))

/-- A translated piece that a memory-side arbiter counts (R447): remote ones, and those a line in the core does not serve. -/
def State.atArbiter (s : State) (r : Req) (l : LaneAcc) : Bool :=
  l.stage == 1 && r.peer.isNone && !(r.kind == .lblk && l.lane == 0) &&
    (if r.kind == .stg then true else if r.kind == .blkwb || r.kind == .blkdrop then ((s.core r.core).block? r.ctx (l.ia.toNat % 2 ^ 57 / 128)).any (fun b => !b.dirty.isEmpty) else
     l.path == 3 || l.path == 5 || ((l.path == 0 || l.path == 6) && !r.lineGranted l &&
      (r.copying || r.atomic || l.nc || (r.kind == .pref && r.dest == 1) || s.lineNeed r.core r.ctx l r.writes != 0)))

/-- A piece that waits at its arbiter, its cluster's budget being spent. -/
def State.heldPiece (s : State) (r : Req) (l : LaneAcc) : Bool := s.atArbiter r l && !s.budgetOk r.core

/-- Earlier request `id` waits for nothing but its turn, and a store of piece `l` made early does not touch what it accesses: what it
comes after the store comes after too; each of its pieces is translated, apart from the store's bytes, on a line that no prepared group
holds, and reads nothing that another early store keeps from it. -/
def State.atHand (s : State) (r : Req) (l : LaneAcc) (id : Nat) : Bool :=
  match s.req id with
  | none => true
  | some q => q.deps.all (fun d => s.settled d || r.deps.contains d) &&
      q.lanes.all (fun m => m.stage == 2 || m.stage == 4 ||
        (m.stage == 1 && m.path == 0 && !s.lineHeld (m.pa / 128) && !rangesMeet m.pa m.size l.pa l.size &&
          ((q.writes && !q.atomic) || !s.unseen q.agent m.pa m.size)))

/-- An earlier load has faulted and is to be performed at its replay: later loads are performed after it (R47). -/
def State.faultedLoad (s : State) (id : Nat) : Bool :=
  (s.req id).any (fun q => inLoadQ q.opc && q.lanes.any (fun m => m.frec.isSome && m.stage != 2 && m.stage != 4))

/-- A load or store of HBM may be performed early: every earlier request still waited for orders it only within some scope; before
a store, each of those waits for its turn alone. -/
def State.mayEarly (s : State) (r : Req) (l : LaneAcc) : Bool :=
  (l.path == 0 || l.path == 6) && r.peer.isNone && decide (r.slot < 64) && !r.atomic &&
    ([.load, .rawLoad, .loadS, .ldx].contains r.kind || ([.store, .rawStore, .stx].contains r.kind && r.deps.all (s.atHand r l))) &&
    r.deps.length == r.scopes.length && decide (s.within r l < 7) && (r.writes || !r.deps.any s.faultedLoad)

/-- A piece is performed ahead of its turn: what it reads or writes is fixed now (R126). -/
def State.performEarly (s : State) (id i : Nat) (r : Req) (l : LaneAcc) : State :=
  let t := s.performPiece id i r l
  match (t.req id).bind (fun q => q.lanes[i]?) with
  | some m => t.setPiece id i m.ahead
  | none => t

/-- The crew of a core that holds the n-th of the tiles or weight slots its crews are allotted, in order of crew slot, and its place there. -/
def allotted (f : Crew → Nat) : Map Crew → Nat → Option (Nat × Nat)
  | [], _ => none
  | (cs, w) :: ws, n => if n < f w then some (cs, n) else allotted f ws (n - f w)

/-- A word of a structure of Table 18-12 is found bad by an access of it: an HBM or L2 word by its address, a word of a core's array by
core and index (R440). What cannot be corrected is poisoned (R79, log entry 39). -/
def State.spoilWord (s : State) (k loc : Nat) : State :=
  let c := loc % 128
  let i := bitsOf loc 39 8
  match k with
  | 0 | 1 => if inHbm (loc / 8 * 8) 8 then s.poisonRange (loc / 8 * 8) 8 else s
  | 4 => s.setCore c { s.core c with scrPoison := (i % 65536) :: (s.core c).scrPoison.filter (· != i % 65536) }
  | 5 => (match allotted Crew.wslots (s.core c).crews (i / 128) with
    | some (cs, n) => s.setCrew c cs { s.crew c cs with wPoison := n :: (s.crew c cs).wPoison.filter (· != n) }
    | none => s)
  | 7 => (match allotted Crew.tiles (s.core c).crews (i / 256) with
    | some (cs, n) => s.setCrew c cs { s.crew c cs with accPoison := (256 * n + i % 256) :: (s.crew c cs).accPoison.filter (· != 256 * n + i % 256) }
    | none => s)
  | 2 =>
    let ls := (s.core c).blocks.flatMap (·.lines)
    (match ls[i / 16]? with
     | some l => if l.st = 0 then s else s.poisonRange (128 * l.pl + 8 * (i % 16)) 8
     | none => s)
  | _ => s

/-- An access finds an error in a structure (R81, R440): one it corrects and writes back, or one it cannot. -/
def State.errorMet (s : State) (k loc : Nat) : State :=
  if 12 ≤ k then s
  else if Config.upset s.free % 2 = 0 then (s.rasCorrected k loc).bump
  else ((s.spoilWord k loc).rasUncorrected k loc).bump

/-- MEMORY_ACCESS_PERFORM (R110); or an access meets an error of the structure it reaches (R81, R440). -/
def execMemoryAccessPerform (s : State) : Out :=
  match s.ev with
  | .req id i =>
    match s.req id with
    | none => .next s
    | some r => match r.lanes[i]? with
      | none => .next s
      | some l =>
        if l.stage ≠ 1 ∨ l.isPeer r then .next s
        else if s.heldRead r l then .next (s.holdPiece id i (if l.early then l.again else l))
        else if l.early then .next ((s.setPiece id i { l with stage := 2, early := false }).cleanLog r.core)
        else if s.heldPiece r l then .next (s.queueArb id i r l)
        else if !s.inTurn r l then .next (s.performEarly id i r l)
        else .next ((s.performPiece id i r l).cleanLog r.core)
  | .host k loc => .next (s.errorMet k loc)
  | _ => .next s

/-- PEER_WRITE_ARRIVAL (R54, R75): a write, or another access, of a stand peer's crew is performed or discarded by generation. -/
def execPeerWriteArrival (s : State) : Out :=
  match s.ev with
  | .req id i =>
    match s.req id with
    | none => .next s
    | some r => match r.lanes[i]? with
      | none => .next s
      | some l => if l.stage ≠ 1 ∨ !l.isPeer r then .next s else .next (s.performPiece id i r l)
  | _ => .next s

/-! ### Service for peers (R148) -/

/-- What a piece served for a peer returns: its cause, its bytes, and the attribute and scale byte of its page (R101). -/
def LaneAcc.returned (l : LaneAcc) : LaneAcc :=
  { lane := l.lane, off := l.off, size := l.size, cause := l.cause, out := l.out, undef := l.undef, attr := l.attr, cmp := l.cmp }

/-- REMOTE_REQUEST_ARRIVAL (R148): the request is acknowledged at once and served under the peer context's tables; a context
not live refuses it with cause 0x17 (R24). -/
def execRemoteRequestArrival (s : State) : Out :=
  match s.ev with
  | .packet p =>
    let s1 := s.send { kind := 1, dev := p.dev, ctx := p.peerCtx, tag := p.tag }
    if !(s.ctx p.ctx).live then
      .next (s1.send { kind := 2, dev := p.dev, ctx := p.peerCtx, peerCtx := p.ctx, tag := p.tag, a := 0x17 })
    else
      let opc := p.a % 2 ^ 8
      -- accesses that the page's migration made wait are performed in their order of arrival (R169)
      let before := if p.b = 1 then (s1.reqs.filter (fun q => q.2.held && q.2.peer.any (·.1 == p.dev) && q.2.ctx == p.ctx &&
        q.2.lanes.any (fun l => l.ia.toNat / 4096 == p.va / 4096))).map Prod.fst else []
      .next (s1.addReq { held := p.b == 1, deps := before, kind := opcKind opc, core := 0, ctx := p.ctx, opc := opc, z := p.a / 2 ^ 8 % 2 ^ 8,
                         pol := BitVec.ofNat 8 (p.a / 2 ^ 16), group := p.a / 2 ^ 24 % 2 ^ 16, born := s.clock, words := p.words,
                         lanes := p.lanes.map (fun l => { l.carried with fwds := p.fwd }), peer := some (p.dev, p.peerCtx, p.tag) })
  | _ => .next s

/-- No timeout runs any more for a piece sent to a peer. -/
def State.dropRspto (s : State) (id i : Nat) : State :=
  { s with agenda := s.agenda.filter (fun p => !(p.op == .rsptoExpiry && p.arg == .req id i)) }

/-- REMOTE_ACK_ARRIVAL (R148). -/
def execRemoteAckArrival (s : State) : Out :=
  match s.ev with
  | .packet p => .next (s.dropRspto (p.tag / 1024) (p.tag % 1024))
  | _ => .next s

/-- A piece waits for the answer to the request that piece i names. -/
def LaneAcc.awaits (m l : LaneAcc) (i : Nat) : Bool := m.stage == 6 && m.sent == i && m.peer == l.peer && m.path == l.path

/-- Every piece of the request to a peer that piece i names ends with a cause. -/
def State.failSent (s : State) (id i cause : Nat) : State :=
  match s.req id with
  | some r => match r.lanes[i]? with
    | some l => s.setReq id { r with lanes := r.lanes.map (fun m => if m.awaits l i then { m with stage := 4, cause := cause } else m) }
    | none => s
  | none => s

/-- RSPTO_EXPIRY (R148): the peer is treated as absent. -/
def execRsptoExpiry (s : State) : Out :=
  match s.ev with
  | .req id i => .next (s.failSent id i 0x17)
  | _ => .next s

/-- A lane's elements from the bytes a peer has returned, once the attribute of its first byte is known (R101, R267). An element
that lies elsewhere is accessed at its own place; a K4 element on a page of another format has no scale byte: a free value. -/
def State.remoteElems (s : State) (r : Req) (l : LaneAcc) : List LaneAcc :=
  let fmt := l.attr
  (List.range r.group).map (fun i =>
    let e := elemPiece l (l.ia.toNat % 2 ^ 57) fmt i
    let nib := (elemAddr fmt (l.ia.toNat % 2 ^ 57) i).2
    let from_ (m : LaneAcc) : Nat := if m.attr = 4 ∧ m.size = 1 then m.ia.toNat / 2 * 2 else m.ia.toNat
    let size (m : LaneAcc) : Nat := if m.attr = 4 ∧ m.size = 1 then 2 else m.size
    match (r.of l.lane).find? (fun m => m.fmt == 0 && m.path == 3 && (m.stage == 2 || m.stage == 4) &&
        decide (from_ m ≤ e.ia.toNat) && decide (e.ia.toNat + e.size ≤ from_ m + size m)) with
    | some m =>
      let sc := if m.attr = 1 then m.cmp else (Config.freeByte s.free (32 * l.lane + i)).toNat
      { e with stage := m.stage, cause := m.cause, undef := m.undef, out := decodeElem fmt (m.out / 256 ^ (e.ia.toNat - from_ m)) nib sc }
    | none => if l.fwds = 0 then { e with stage := 1 } else { e with path := 0, peer := 0, fwds := 0, seen := false })

/-- A lane of a load whose first byte lies at a peer, on a page with a format, is decoded once its pieces there are answered. -/
def State.decodeRemote (s : State) (r : Req) (lane : Nat) : Req :=
  match (r.of lane).find? (fun l => l.off == 0 && l.fmt == 0 && l.path == 3 && l.stage == 2 && l.attr != 0) with
  | some l => if (r.of lane).any (fun m => m.stage == 6) then r else r.decoded lane (s.remoteElems r l)
  | none => r

/-- A piece takes a peer's answer. A lone byte of a BF16 page comes with its element, and is taken alone where another page's
attribute governs its lane. -/
def LaneAcc.answered (l : LaneAcc) (r : Req) (x : LaneAcc) : LaneAcc :=
  if x.cause ≠ 0 ∧ x.cause ≠ 0x20 then { l with stage := 4, cause := x.cause }
  else
    let lone := r.kind == .load && r.peer.isNone && l.size == 1 && x.attr == 4 && l.fmt != 4 &&
      !(l.fmt == 0 && r.lanes.any (fun m => m.lane == l.lane && m.off == 0 && m.ia.toNat / 4096 == l.ia.toNat / 4096))
    let v := if lone then x.out / 256 ^ (l.ia.toNat % 2) % 256 else x.out
    let out := if l.fmt = 0 ∨ r.peer.isSome then v
      else decodeElem l.fmt v (l.off % 2) (if x.attr = 1 then x.cmp else 0)
    { l with stage := 2, out := out, cause := x.cause, undef := x.undef, attr := x.attr, cmp := if r.kind == .cas then l.cmp else x.cmp }

/-- A peer's response to the request that piece i names, or to a message of piece i. -/
def State.answerPiece (s : State) (p : Packet) : State :=
  let id := p.tag / 1024
  let i := p.tag % 1024
  let s1 := s.dropRspto id i
  match s1.req id with
  | none => s1
  | some r => match r.lanes[i]? with
    | none => s1
    | some l =>
      if l.stage ≠ 6 ∨ l.sent ≠ i then s1
      else if p.kind = 4 then
        (if p.a ≠ 0 ∧ p.a ≠ 0x20 then s1.setPiece id i { l with stage := 4, cause := p.a } else s1.setPiece id i { l with stage := 2, cause := p.a })
      else if p.a ≠ 0 then s1.failSent id i p.a
      else
        let js := (List.range r.lanes.length).filter (fun j => (r.lanes[j]?).any (fun m => m.awaits l i))
        let free (m x : LaneAcc) : LaneAcc :=
          if m.fmt = 1 ∧ x.attr ≠ 1 then { x with attr := 1, cmp := (Config.freeByte s.free (32 * m.lane + m.off)).toNat } else x
        let r1 := (js.zip p.lanes).foldl (fun q x => match q.lanes[x.1]? with
          | some m => q.setLane x.1 (m.answered r (free m x.2))
          | none => q) r
        let r2 := if r.kind = .load ∧ r.peer = none then r1.laneNos.foldl (fun q n => s.decodeRemote q n) r1 else r1
        s1.setReq id r2

/-! ### Completion -/

/-- A LIMG writes the gang it was issued for: the lines read, over what the image held (R355, R403). -/
def State.loadImage (s : State) (r : Req) : State :=
  match s.gang? r.core r.dest with
  | none => s
  | some g =>
    let old := g.image r.z (fun _ => false)
    let bs := (List.range old.length).map (fun i =>
      match r.lanes.find? (fun l => l.off == i / 128 * 128) with
      | some l => if l.stage ≠ 2 then old.getD i 0 else if l.undef then Config.freeByte s.free i else BitVec.ofNat 8 (l.out / 256 ^ (i % 128))
      | none => old.getD i 0)
    let now := g.restored && (s.crew r.core g.cslot).phase == .restoring
    (s.setGang r.core r.dest (g.loadImage r.z bs now)).bump

/-- MSTAT's result (Table 10-11). -/
def State.mstatWord (s : State) (c slot : Nat) : W64 :=
  let k := s.core c
  let m := k.mill
  let cs := (s.gang c slot).cslot
  let held := (List.range 8).foldl (fun a n => if (mget {} k.chutes n).holder = some cs then a + 2 ^ n else a) 0
  BitVec.ofNat 64 ((if m.owner = some slot then 2 ^ 63 else 0) + m.closed % 2 ^ 16 * 2 ^ 40 + m.doneBatch % 2 ^ 16 * 2 ^ 24 +
    m.queue.length % 2 ^ 12 * 2 ^ 12 + held)

/-- A group's outcome record (Table 5-6). -/
def Group.record (g : Group) : W64 :=
  BitVec.ofNat 64 (g.status % 4 * 2 ^ 62 + (if g.failed then 2 ^ 61 else 0) + (if g.lost then 2 ^ 60 else 0) + g.cause % 256 * 2 ^ 52 +
    g.dcause % 256 * 2 ^ 44 + g.dev % 1024 * 2 ^ 34 + g.dests.length % 128 * 2 ^ 27)

/-- A group fails with its first cause; the destination is named where there is one (R153, R154, R162). -/
def State.failGroup (s : State) (key cause dev : Nat) : State :=
  let g := mget {} s.groups key
  if g.failed || !g.opened then s
  else
    let own := cause == 0x31 || cause == 0x32 || cause == 0x37
    { s with groups := mset s.groups key { g with
        failed := true, cause := if own then cause else 0x35, dcause := if own then 0 else cause, dev := dev } }

/-- The destination device of an STG lane; of one whose window gives none, the record's DEV is not stated. -/
def State.laneDev (s : State) (l : LaneAcc) : Nat :=
  if l.stage = 4 ∧ l.ia = 0 then (Config.freeW64 s.free 5).toNat % 1024 else if l.peer = 0 then s.devId else aperDev l.peer

/-- A completed STG fails its group by its first lane in error; one that came too late (cause 0x3B) does not affect the exchange
in progress (R153, R154, R291). -/
def State.stgEnded (s : State) (r : Req) : State :=
  match r.lanes.find? (fun l => l.stage == 4) with
  | some l => if r.peer.isNone && r.cause != 0x3B then s.failGroup (groupKey r.ctx r.z) l.cause (s.laneDev l) else s
  | none => s

/-- The piece that a scale byte was read or written for takes the answer; a cause that a record would take up is 0x14 (R34). -/
def State.scaleDone (s : State) (r : Req) : State :=
  let id := (r.words.getD 0 0).toNat
  let i := (r.words.getD 1 0).toNat
  match s.req id, r.lanes.head? with
  | some q, some m => match q.lanes[i]? with
    | some l =>
      if l.stage ≠ 8 then s
      else if m.stage = 4 then
        s.failPiece id i (if escalated m.cause && m.cause != 0x20 then 0x14 else m.cause) (if q.opc = 0x44 then 1 else 0) 0 q l
          (m.ia.toNat % 2 ^ 57 / 4096 * 4096)
      else s.setPiece id i { l with stage := 1, scale := some (m.out % 256, m.undef) }
    | none => s
  | _, _ => s

/-- A request leaves its gang: destination, flag, queues (R131, R217); an empty batch is the last completed (R314). -/
def State.complete (s : State) (id : Nat) (r0 : Req) : State :=
  let r := if r0.kind = .mstat then { r0 with words := [s.mstatWord r0.core r0.slot] }
    else if r0.kind = .gquery then { r0 with words := [(mget {} s.groups (groupKey r0.ctx r0.z)).record] }
    else r0
  let s0 := if r.kind = .limg ∧ r.lanes.any (fun l => l.stage == 2) then s.loadImage r
    else if r.kind = .stg then s.stgEnded r
    else if r.kind = .mrel then (match r.words with
      | w :: _ => s.setCore r.core { s.core r.core with mill := { (s.core r.core).mill with doneBatch := w.toNat } }
      | [] => s)
    else s
  let s1 := s0.delReq id
  match r.peer with
  | some (d, x, tag) =>
    s1.send { kind := if r.kind = .stg then 6 else 2, dev := d, ctx := x, peerCtx := r.ctx, tag := tag, lanes := r.lanes.map LaneAcc.returned }
  | none =>
    if r.slot = scaleSlot then s1.scaleDone r
    else if r.slot = peekSlot then s1.peeked r
    else if r.slot = pcieSlot then s1.pcieReturn r
    else match s1.gang? r.core r.slot with
    | none => s1
    | some g => (s1.setGang r.core r.slot (((g.deliver r s.free).dequeue id).flagDec r.flag r.firstCause)).bump

/-- MEMORY_OP_COMPLETE (R131): the response returns, the destination is written and the flag decremented; a peer's response to
one piece is taken in. -/
def execMemoryOpComplete (s : State) : Out :=
  match s.ev with
  | .req id _ =>
    match s.req id with
    | some r => .next ((s.complete id r).cleanLog r.core)
    | none => .next s
  | .packet p => .next (s.answerPiece p)
  | _ => .next s

/-! ### Fault records, the log and replay -/

/-- FAULT_RECORD_WRITE (R43, R428): the record goes to the ring's TAIL, TAIL advances, and IRQT N is sent. -/
def execFaultRecordWrite (s : State) : Out :=
  match s.ev with
  | .fault ring seq _ =>
    match s.recs.find? (fun r => r.ring == ring && r.seq == seq) with
    | none => .next s
    | some r =>
      let frb := (s.dreg (0x100 + 16 * ring)).toNat
      let fri := (s.dreg (0x108 + 16 * ring)).toNat
      let tail := fri / 2 ^ 32
      let a := bitsOf frb 55 12 * 4096 + 64 * (tail % 2 ^ (frb / 2 ^ 60 + 6))
      let bs := bytesLE 4 r.seq ++ bytesLE 2 (r.ctx + (if r.cause = 0x16 then 2 ^ 15 else 0)) ++ bytesLE 1 r.cause ++
        bytesLE 1 r.access ++ bytesLE 8 r.ia ++ bytesLE 8 r.gpa ++ bytesLE 2 r.core ++ bytesLE 6 0 ++ bytesLE 8 r.time ++
        bytesLE 24 0
      let s1 := (s.unitStore a bs).setDreg (0x108 + 16 * ring) (BitVec.ofNat 64 ((tail + 1) % 2 ^ 32 * 2 ^ 32 + fri % 2 ^ 32))
      let s2 : State := { s1 with recs := s1.recs.map (fun x => if x = r then { x with written := true } else x) }
      .next (s2.irq ring)
  | _ => .next s

/-- FAULT_RING_HEAD_WRITE (R428). -/
def execFaultRingHeadWrite (s : State) : Out :=
  match s.ev with
  | .reg off val size =>
    if size = 8 then .next (s.setDreg off (BitVec.ofNat 64 ((s.dreg off).toNat / 2 ^ 32 * 2 ^ 32 + val.toNat % 2 ^ 32))) else .next s
  | _ => .next s

/-- Later loads performed ahead of a load that has become FAULTED are performed again after its replay (R47). -/
def State.againAfter (s : State) (id : Nat) : State :=
  { s with reqs := s.reqs.map (fun q =>
      if q.2.writes || !q.2.deps.contains id then q
      else (q.1, { q.2 with lanes := q.2.lanes.map (fun l => if l.early then l.again else l) })) }

/-- FAULT_RETURN_TO_LOG (R42, R45): the faulted lanes of one record become a FAULTED entry, waiting while the log is full; a
replaying entry of the same request takes them back. -/
def execFaultReturnToLog (s : State) : Out :=
  match s.ev with
  | .req id i =>
    match s.req id with
    | none => .next s
    | some r => match r.lanes[i]? with
      | none => .next s
      | some l =>
        let mine (m : LaneAcc) : Bool := m.stage == 3 && m.frec == l.frec
        let mask := maskOf ((r.lanes.filter mine).map (·.lane))
        let k := s.core r.core
        let old := (k.log.find? (fun e => e.2.req == id && e.2.state == 3 && (e.2.mask &&& mask) == mask)).map Prod.fst
        match (match old with | some e => some e | none => freeSlot 256 k.log) with
        | none => .next s
        | some e =>
          let ent : LogEntry := { state := 1, slot := r.slot, flag := r.flag, req := id, mask := mask, cause := l.cause, record := l.frec }
          let r1 := { r with lanes := r.lanes.map (fun m => if mine m then { m with stage := 7 } else m) }
          let s1 := (s.setCore r.core { k with log := mset k.log e ent }).setReq id r1
          let s1 := if inLoadQ r.opc then s1.againAfter id else s1
          .next (s1.pmcAdd r.core (s.gang r.core r.slot).cslot 12 1)
  | _ => .next s

/-- Pieces are made again (R46). A lane of a decoding load whose first element has not been performed decodes under the attribute it
finds then (R292). -/
def Req.again (r : Req) (f : LaneAcc → Bool) : Req :=
  let ls := r.lanes.filter f
  let r1 := { r with lanes := r.lanes.map (fun m => if f m then { m with stage := if m.path = 4 then 1 else 0, cause := 0 } else m) }
  ls.foldl (fun q m =>
    if r.kind = .load ∧ m.fmt ≠ 0 ∧ !(r.lanes.any (fun x => x.lane == m.lane && x.off == 0 && x.fmt != 0 && x.fmt != 14 && x.stage == 2)) then
      q.recoded m.lane m.frec else q) r1

/-- REPLAY (R46): a READY entry reissues its lanes unchanged. -/
def execReplay (s : State) : Out :=
  match s.ev with
  | .entry c e =>
    let k := s.core c
    match mget? k.log e with
    | none => .next s
    | some x =>
      if x.state ≠ 2 ∨ x.held = true then .next s
      else match s.req x.req with
        | none => .next (s.setCore c { k with log := mdel k.log e })
        | some r =>
          .next ((s.setCore c { k with log := mset k.log e { x with state := 3, cause := 0 } }).setReq x.req (r.again (fun m => m.stage == 7 && x.part m)))
  | _ => .next s

/-- The open record a ring and sequence number name (R44): sequence number 0 names none. -/
def State.openRec (s : State) (ring seq : Nat) : Option FaultRec :=
  if seq = 0 then none else s.recs.find? (fun r => r.ring == ring && r.seq == seq && r.answer.isNone)

/-- Close a record with its answer (kept for parked entries, R413). -/
def State.closeRec (s : State) (r : FaultRec) (act cause : Nat) : State :=
  { s with recs := s.recs.map (fun x => if x = r then { x with answer := some (act, cause) } else x) }

/-- The record and cause that a write of FRESOLVE with the given ACT names (Table 1-18). -/
def fresolveOf (e : Event) (act : Nat) : Option (Nat × Nat × Nat) :=
  match e with
  | .reg off v size =>
    if off = 0x30 ∧ size = 8 ∧ v.toNat / 2 ^ 62 = act then some (bitsOf v.toNat 35 32, v.toNat % 2 ^ 32, bitsOf v.toNat 55 48) else none
  | _ => none

/-- FRESOLVE_RETRY (R44): every log, skidder, queue and launch access bound to the record is to be made again. -/
def execFresolveRetry (s : State) : Out :=
  match fresolveOf s.ev 0 with
  | some (ring, seq, _) =>
    match s.openRec ring seq with
    | none => .next s
    | some r =>
      let b : Option (Nat × Nat) := some (ring, seq)
      let ws := s.awaiting ring seq
      let cores := s.cores.map (fun x => (x.1, { x.2 with
        log := x.2.log.map (fun e => if e.2.state = 1 ∧ e.2.record = b then (e.1, { e.2 with state := 2 }) else e)
        skid := x.2.skid.map (fun e => if e.2.state = 3 ∧ e.2.record = b then (e.1, { e.2 with state := 1, cause := 0, record := none }) else e)
        engstop := if x.2.engstop.record = b then { x.2.engstop with record := none } else x.2.engstop }))
      let reqs := s.reqs.map (fun q => (q.1, q.2.again (fun l => l.stage == 3 && l.frec == b)))
      let join := s.join.map (fun u => (u.1, { u.2 with queues := u.2.queues.map (fun q =>
        if q.2.faulted = b then (q.1, { q.2 with faulted := none }) else q) }))
      let launches := s.launches.map (fun l => if l.faulted = b then { l with faulted := none } else l)
      let s2 : State := { s with cores := cores, reqs := reqs, join := join, launches := launches }
      .next ((s2.closeRec r 0 0).answered ws)
  | none => .next s

end Sys2Proof.Machine
end

