-- ==== Sys2Proof/Machine/Gangs.lean ====
section
/-! DEFINITION. Gangs: barriers (R342 to R345, R133), their checker (R456), and the end of gangs and crews (R182, R187 to R192). -/

namespace Sys2Proof.Machine
open Sys2Proof

/-- The gangs of a crew that have not ended. -/
def Core.live (k : Core) (cs : Nat) : List (Nat × Gang) := k.gangs.filter (fun g => g.2.cslot == cs && !g.2.ended)

/-! ### The barrier checker (R456) -/

/-- The active masks and stack depths of a gang, as SLMASK and SLDEPTH give them. -/
def Gang.slmask (g : Gang) : Nat := (List.range g.nsl).foldl (fun a k => a + (g.slice k).mask.toNat * 16 ^ k) 0
def Gang.sldepth (g : Gang) : Nat := (List.range g.nsl).foldl (fun a k => a + (g.slice k).depth * 16 ^ k) 0

/-- A checker record, where the checker is on and its ring has room. -/
def State.checkRecord (s : State) (c slot kind bar : Nat) (pc : W64) : State :=
  let ctl := s.dreg 0x3900
  if !ctl.getLsbD 63 then s
  else
    let idx := (s.dreg 0x3908).toNat
    let tail := idx / 2 ^ 32
    let size := 2 ^ (bitsOf ctl.toNat 59 56 + 6)
    if (tail + 2 ^ 32 - idx % 2 ^ 32) % 2 ^ 32 = size then s.setDreg 0x3910 (BitVec.ofNat 64 (satInc 32 (s.dreg 0x3910).toNat))
    else
      let g := s.gang c slot
      let bs := bytesLE 1 kind ++ bytesLE 1 bar ++ bytesLE 1 g.cgang ++ bytesLE 1 c ++ bytesLE 2 (s.ctxOf c slot) ++ bytesLE 2 0 ++
        bytesLE 8 (pcBits pc).toNat ++ bytesLE 4 g.slmask ++ bytesLE 4 g.sldepth ++ bytesLE 8 s.clock
      (s.unitStore (bitsOf ctl.toNat 55 12 * 4096 + 32 * (tail % size)) bs).setDreg 0x3908
        (BitVec.ofNat 64 ((tail + 1) % 2 ^ 32 * 2 ^ 32 + idx % 2 ^ 32))

/-- Records of an arrival by the issuing part: kind 1 where it lacks an unended slice, kind 2 where it is diverged. -/
def State.checkArrival (s : State) (bar : Nat) : State :=
  let g := s.me
  let lacks := (List.range g.nsl).any (fun k => !(g.slice k).ended && !s.cur.slices.contains k)
  let split := s.cur.slices.any (fun k => (g.slice k).mask != 0xF || (g.slice k).depth != 0)
  let s1 := if lacks then s.checkRecord s.cur.core s.cur.slot 1 bar s.cur.pc else s
  if split then s1.checkRecord s.cur.core s.cur.slot 2 bar s.cur.pc else s1

/-! ### Crew barriers (R342 to R344) -/

/-- The ids a gang's later accesses, and an arrival's release, are ordered after (R133). -/
def Gang.covered (g : Gang) : List Nat := (g.loadQ ++ g.storeQ ++ g.barQ).eraseDups

/-- A phase that completes is noted in every part of the crew that waits on the barrier (16: the stand barrier). -/
def State.noteMet (s : State) (c cs n : Nat) : State :=
  let k := s.core c
  let upd (w : WaitC) : WaitC :=
    match w with
    | .bar m cl mt => if m = n then .bar m cl true else .bar m cl mt
    | .sbar cl mt => if n = 16 then .sbar cl true else .sbar cl mt
    | w => w
  s.setCore c { k with gangs := k.gangs.map (fun g =>
    if g.2.cslot = cs then (g.1, { g.2 with parts := g.2.parts.map (fun p => (p.1, { p.2 with wait := upd p.2.wait })) }) else g) }

/-- The ids of a completed phase join those its waits acquire (R133). -/
def Crew.foldIds (w : Crew) (n : Nat) : Crew :=
  { w with
    barDone := mset w.barDone n (mget [] w.barDone n ++ mget [] w.barIds n).eraseDups
    barIds := mdel w.barIds n }

/-- complete() of R344 where enough gangs have arrived. -/
def State.barCheck (s : State) (c cs n : Nat) : State :=
  let w := s.crew c cs
  let b := (mget 0 w.bst n).toNat
  let l := ((s.core c).live cs).length
  let need := if bitsOf b 60 56 = 0 then l else min (bitsOf b 60 56) l
  if b.testBit 63 ∧ l ≠ 0 ∧ need ≤ popNat 16 (bitsOf b 31 16) then
    let nb := setBits (setBits (setBits b 15 0 (b % 65536 ||| bitsOf b 31 16)) 31 16 0) 62 62 (1 - bitsOf b 62 62)
    let w1 : Crew := { w with bst := mset w.bst n (BitVec.ofNat 64 nb) }
    (s.setCrew c cs (w1.foldIds n)).noteMet c cs n
  else s

/-- arrive(g) of R344 by the issuing gang. -/
def State.arrive (s : State) (n : Nat) : State :=
  let g := s.me
  let c := s.cur.core
  let w := s.myCrew
  let b := (mget 0 w.bst n).toNat
  let s1 := s.checkArrival n
  if b.testBit (16 + g.cgang) then s1.barCheck c g.cslot n
  else
    let nb := setBits (setBits b (16 + g.cgang) (16 + g.cgang) 1) g.cgang g.cgang 0
    let w1 := s1.crew c g.cslot
    let w2 : Crew := { w1 with
      bst := mset w1.bst n (BitVec.ofNat 64 nb)
      barIds := mset w1.barIds n (mget [] w1.barIds n ++ g.covered).eraseDups }
    (s1.setCrew c g.cslot w2).barCheck c g.cslot n

/-- wait(g) of R344: what the part waits for, and the crew's word, from a barrier word. -/
def waitState (b cg : Nat) : Bool × Bool × Nat :=
  if b.testBit (16 + cg) then (true, false, b)
  else if b.testBit cg then (false, true, setBits b cg cg 0)
  else (false, false, b)

/-- The part's wait is set; its slices stay at the bundle until it ends. -/
def State.setWait (s : State) (w : WaitC) : State :=
  let g := s.me
  let s1 := s.setMe (g.setPart s.cur.lead { g.part s.cur.lead with wait := w })
  { s1 with cur := { s1.cur with next := s1.cur.slices.foldl (fun m k => mset m k s1.cur.pc) s1.cur.next } }

/-- wait(g) by a part of the gang in a slot (R344). -/
def State.barWait (s : State) (c slot n : Nat) : State × WaitC :=
  let g := s.gang c slot
  let w := s.crew c g.cslot
  let (cl, mt, b) := waitState (mget 0 w.bst n).toNat g.cgang
  (s.setCrew c g.cslot { w with bst := mset w.bst n (BitVec.ofNat 64 b) }, .bar n cl mt)

/-! ### The stand barrier (R345) -/

/-- The crews of a crew's stand, with their positions; a crew outside a stand lot is a stand of one. -/
def State.standCrews (s : State) (c cs : Nat) : List (Nat × Nat × Nat) :=
  let w := s.crew c cs
  if w.standN = 0 then [(w.spos, c, cs)]
  else (List.range 8).filterMap (fun p => (s.standPeer c cs p).map (fun x => (p, x.1, x.2)))

/-- A crew's bit of the phase in progress, with the accesses it covers. -/
def Crew.carr (w : Crew) (pos : Nat) (ids : List Nat) : Crew :=
  { w with
    sbst := BitVec.ofNat 64 (setBits w.sbst.toNat (48 + pos) (48 + pos) 1)
    barIds := mset w.barIds 16 (mget [] w.barIds 16 ++ ids).eraseDups }

/-- A stand phase completes at a crew when CARR holds every position whose crew has not ended; arrivals of the next phase that have
come already count in it. -/
def State.sbarCheck (s : State) (c cs : Nat) : State :=
  let w := s.crew c cs
  let b := w.sbst.toNat
  if (s.standCrews c cs).all (fun p => b.testBit (48 + p.1)) then
    let nb := setBits (setBits (setBits (setBits b 15 0 (b % 65536 ||| bitsOf b 31 16)) 31 16 0) 55 48 0) 62 62 (1 - bitsOf b 62 62)
    let w1 := ({ w with sbst := BitVec.ofNat 64 nb, sbarSent := false, carrNext := [] } : Crew).foldIds 16
    (s.setCrew c cs (w.carrNext.foldl (fun x p => x.carr p.1 p.2) w1)).noteMet c cs 16
  else s

/-- A crew's bit reaches a crew of its stand, with the accesses it covers; one of the next phase waits for it. -/
def State.carrArrive (s : State) (c cs pos : Nat) (ph : Bool) (ids : List Nat) : State :=
  let w := s.crew c cs
  if w.sbst.getLsbD 62 = ph then (s.setCrew c cs (w.carr pos ids)).sbarCheck c cs
  else s.setCrew c cs { w with carrNext := w.carrNext ++ [(pos, ids)] }

/-- The crew arrives once every gang of it that has not ended has. -/
def State.sbarSend (s : State) (c cs : Nat) : State :=
  let w := s.crew c cs
  let live := (s.core c).live cs
  if w.sbarSent ∨ live.isEmpty ∨ !live.all (fun g => w.sbst.getLsbD (16 + g.2.cgang)) then s
  else
    let ids := mget [] w.barIds 16
    let s1 := s.setCrew c cs { w with sbarSent := true }
    let s2 := (s1.standCrews c cs).foldl (fun t p =>
      if p.2.1 = c ∧ p.2.2 = cs then t else t.later .sbarCarrArrival (.carr p.2.1 p.2.2 w.stand w.spos (w.sbst.getLsbD 62) ids)) s1
    s2.carrArrive c cs w.spos (w.sbst.getLsbD 62) ids

/-- A gang's arrival at its stand barrier. -/
def State.sbarArrive (s : State) : State :=
  let g := s.me
  let c := s.cur.core
  let b := s.myCrew.sbst.toNat
  let s1 := s.checkArrival 16
  if b.testBit (16 + g.cgang) then s1.sbarSend c g.cslot
  else
    let w := s1.crew c g.cslot
    let nb := setBits (setBits b (16 + g.cgang) (16 + g.cgang) 1) g.cgang g.cgang 0
    let w1 : Crew := { w with
      sbst := BitVec.ofNat 64 nb
      barIds := mset w.barIds 16 (mget [] w.barIds 16 ++ g.covered).eraseDups }
    (s1.setCrew c g.cslot w1).sbarSend c g.cslot

/-- wait(g) at the stand barrier. -/
def State.sbarWait (s : State) (c slot : Nat) : State × WaitC :=
  let g := s.gang c slot
  let w := s.crew c g.cslot
  let (cl, mt, b) := waitState w.sbst.toNat g.cgang
  (s.setCrew c g.cslot { w with sbst := BitVec.ofNat 64 b }, .sbar cl mt)

/-- SBAR_CARR_ARRIVAL (R345): nothing where the crew it was sent to has ended. -/
def execSbarCarrArrival (s : State) : Out :=
  match s.ev with
  | .carr c cs stand pos ph ids =>
    (match mget? (s.core c).crews cs with
     | some w => if w.standN ≠ 0 ∧ w.stand = stand then .next (s.carrArrive c cs pos ph ids) else .next s
     | none => .next s)
  | _ => .next s

/-! ### The end of a gang (R182, R187, R188) -/

/-- A gang leaves the mill: its ownership or its places in the queue (R188). The place that commands of its restored crew wait in (R416)
passes to the gang of the first of them. -/
def Mill.leave (m : Mill) (slot : Nat) : Mill :=
  let m1 : Mill := { m with
    owner := if m.owner = some slot then none else m.owner
    waiters := m.waiters.filter (fun w => w.1 != slot) }
  match (m.resume.find? (fun x => x.slot == slot)).bind (fun x => x.cmds.head?.map (·.slot)) with
  | none => { m1 with resume := m.resume.filter (fun x => x.slot != slot) }
  | some n =>
    { m1 with
      resume := m.resume.map (fun x => if x.slot = slot then { x with slot := n, own := false } else x)
      waiters := if n = slot ∨ !m1.waiters.any (fun w => w.1 == n)
        then m.waiters.map (fun w => if w.1 = slot then (n, []) else w) else m1.waiters }

/-- Barriers of a crew on which a part waits in a phase the gang has not arrived in (R456 kind 3). -/
def State.missing (s : State) (c slot : Nat) : List Nat :=
  let g := s.gang c slot
  let w := s.crew c g.cslot
  let others := ((s.core c).live g.cslot).filter (fun x => x.1 != slot)
  let waits (n : Nat) : Bool := others.any (fun x => x.2.parts.any (fun p => match p.2.wait with
    | .bar m _ mt => m == n && !mt
    | .sbar _ mt => n == 16 && !mt
    | _ => false))
  (List.range 17).filter (fun n =>
    waits n && !(if n = 16 then w.sbst.getLsbD (16 + g.cgang) else (mget 0 w.bst n).getLsbD (16 + g.cgang)))

/-- A gang ends: its crew's barriers no longer count it, and it leaves the mill. The flags of a MACQ it still queues with are
decremented without a cause (DESIGN CHOICE, log entry 44: R188 only removes the gang from the queue). -/
def State.endGang (s : State) (c slot : Nat) (pc : W64) : State :=
  let g := s.gang c slot
  let s0 := (s.missing c slot).foldl (fun t n => t.checkRecord c slot 3 n pc) s
  let s1 := s0.setGang c slot { g with ended := true, parts := [] }
  let k := s1.core c
  let fs := (k.mill.waiters.filter (fun w => w.1 == slot)).flatMap Prod.snd
  let s2 := fs.foldl (fun t f => t.dec c slot f 0) (s1.setCore c { k with mill := k.mill.leave slot })
  let s3 := (List.range 16).foldl (fun t n => t.barCheck c g.cslot n) s2
  s3.sbarSend c g.cslot

/-! ### Release (R189 to R192) -/

/-- An allocation's granules become RETIRING (R53). -/
def Core.retire (k : Core) (a : Alloc) : Core :=
  { k with gtag := k.gtag.map (fun t =>
      if gtState t.2 = 1 ∧ a.grans.contains t.1 then (t.1, BitVec.ofNat 32 (t.2.toNat % 2 ^ 30 + 2 * 2 ^ 30)) else t) }

/-- One member of a lot has ended (R192): after the last, the completion message goes to its port. -/
def State.memberEnded (s : State) (lot : Nat) (errored : Bool) : State :=
  match mget? s.lots lot with
  | none => s
  | some l =>
    let l1 := { l with left := l.left - 1, errored := l.errored || errored }
    if l1.left ≠ 0 then { s with lots := mset s.lots lot l1 }
    else
      let s1 : State := { s with lots := mdel s.lots lot }
      s1.later .messageArrival (.msg { handle := l1.cport, data := completionWord l1.errored l1.ctx l1.lotid, source := 4,
                                       ctx := l1.ctx, dev := s1.devId })

/-- A crew ends (R190, R191): its scratchpad retires, its tiles, slots, barriers and chutes are freed, and its stand goes on
without it; the stand, or the crew alone, is one member of its lot. -/
def State.endCrew (s : State) (c cs : Nat) : State :=
  let w := s.crew c cs
  let peers := (s.standCrews c cs).filter (fun p => !(p.2.1 == c && p.2.2 == cs))
  let k := (s.core c).retire w.alloc
  let chutes := k.chutes.map (fun x => if x.2.holder = some cs then (x.1, ({} : Chute)) else x)
  let s1 := s.setCore c { k with crews := mdel k.crews cs, chutes := chutes }
  let s2 := peers.foldl (fun t p => t.sbarCheck p.2.1 p.2.2) s1
  if w.lot = 0 then s2
  else if peers.isEmpty then s2.memberEnded w.lot w.errored
  else match mget? s2.lots w.lot with
    | some l => { s2 with lots := mset s2.lots w.lot { l with errored := l.errored || w.errored } }
    | none => s2

/-- A core's copy of a context's windows lapses with the context's last gang (R20). -/
def Core.lapse (k : Core) : Core :=
  { k with copies := k.copies.filter (fun x => k.gangs.any (fun g => (mget {} k.crews g.2.cslot).ctx == x.1)) }

/-- A gang's slot and registers are released; a set error bit marks the crew; the last release ends the crew. -/
def State.releaseGang (s : State) (c slot : Nat) : State :=
  let g := s.gang c slot
  let w := s.crew c g.cslot
  let err := g.flags.any (fun f => f.2.err)
  let rel := w.released ||| 2 ^ g.cgang
  let k := s.core c
  let m : Mill := { k.mill with uses := k.mill.uses.filter (fun u => u.slot != slot), owners := k.mill.owners.filter (· != slot) }
  let k1 : Core := { k with gangs := mdel k.gangs slot, mill := m }
  let s1 := (s.setCore c k1.lapse).setCrew c g.cslot { w with released := rel, errored := w.errored || err }
  if popNat 16 rel = w.ngangs then s1.endCrew c g.cslot else s1

/-- GANG_RELEASE (R189): an ended gang all of whose flags are zero. -/
def execGangRelease (s : State) : Out :=
  match s.ev with
  | .gang c slot =>
    match s.gang? c slot with
    | some g => if g.ended && g.flags.all (fun f => f.2.count == 0) then .next (s.releaseGang c slot) else .next s
    | none => .next s
  | _ => .next s

end Sys2Proof.Machine
end

