-- ==== Sys2Proof/Machine/Operands.lean ====
section
/-! DEFINITION. Operands: every operand form read at issue (R207, R208, R214, R215, R220, R231, R232, R237, R264, R266), and
the writing of a result under R211 with its latch entry (R214). -/

namespace Sys2Proof.Machine
open Sys2Proof.Num

/-- The float constants (Table 7-9). -/
def floatConst (sel : Nat) : Nat :=
  [0x3F000000, 0x3F800000, 0x40000000, 0x40800000, 0xBF000000, 0xBF800000, 0xC0000000, 0xC0800000,
   0x3E800000, 0x7F800000, 0xFF800000, 0x7F7FFFFF, 0x7FC00000, 0x3FB8AA3B, 0x3F317218].getD (sel - 0xF0) 0

/-- The integer constants, as integers (Table 7-7). -/
def intConst (sel : Nat) : Int := if sel < 0xE0 then (sel - 0xC0 : Nat) else -((sel - 0xDF : Nat) : Int)

/-- A special read in a lane, as 32 bits (Table 7-8). -/
def State.special (s : State) (sel l : Nat) : Nat :=
  match sel with
  | 0xB0 => l
  | 0xB1 => l % 4
  | 0xB2 => l / 4
  | 0xB3 => s.me.nsl
  | 0xB4 => 0
  | 0xB5 => 0xFFFFFFFF
  | 0xB6 => s.clock % 2 ^ 32
  | 0xB7 => s.clock / 2 ^ 32 % 2 ^ 32
  | 0xB8 => s.me.cgang
  | _ => s.cur.core

/-- An undefined 32-bit operand: the value a position of the bundle reads. -/
def State.undef32 (s : State) (pos l : Nat) : W32 := Config.freeW32 s.free (64 * pos + l)

/-- Latch k of the lane's slice: valid from its ready clock, in the lanes performed (R214); undefined where another part's slice has moved
it (R184). -/
def State.latchLane (s : State) (k pos l : Nat) : W32 :=
  match (s.me.slice (l / 4)).latches[k]? with
  | some x =>
    if x.ready ≤ s.clock ∧ x.mask.getLsbD l ∧ !s.unmerged .lv (l / 4) ∧ !s.cur.bad then laneGet x.vals l else s.undef32 pos l
  | none => if s.unmerged .lv (l / 4) ∨ s.cur.bad then s.undef32 pos l else 0

/-- lx1 of a lane, 0 or 1; undefined while a write of that lane is in flight (R215), or where another part has written it (R184). -/
def State.lx1Lane (s : State) (pos l : Nat) : W32 :=
  if s.me.carryOpen s.clock l ∨ s.unmerged .lx1 (l / 4) ∨ s.cur.bad then s.undef32 pos l else if s.me.lx1.getLsbD l then 1 else 0

/-- A vector register in a lane at issue (R184, R211). -/
def State.vregLane (s : State) (n pos l : Nat) : W32 :=
  if s.me.busy s.clock (.v n) ∨ s.unmerged (.v n) (l / 4) ∨ s.cur.bad then s.undef32 pos l else laneGet (s.me.vreg n) l

/-- A scalar register at issue (R184, R211). -/
def State.sregNow (s : State) (n pos : Nat) : W64 :=
  if s.me.busy s.clock (.s n) ∨ s.unmerged (.s n) 0 ∨ s.cur.bad then Config.freeW64 s.free (64 * pos) else s.me.sreg n

/-- A source selector read in a lane, as 32 bits; `pos` is the operand's position in the bundle (R207, R208). -/
def State.srcLane (s : State) (sel : BitVec 8) (pos l : Nat) : W32 :=
  let x := sel.toNat
  if x < 0x80 then s.vregLane x pos l
  else if x < 0xA0 then (s.sregNow (x - 0x80) pos).setWidth 32
  else if x < 0xA4 then s.latchLane (x - 0xA0) pos l
  else if x = 0xA4 then s.lx1Lane pos l
  else if x < 0xC0 then BitVec.ofNat 32 (s.special x l)
  else if x < 0xF0 then BitVec.ofInt 32 (intConst x)
  else BitVec.ofNat 32 (floatConst x)

/-- A source of a scalar form, on 64 bits: scalar register, sign-extended integer constant, uniform special (R208, R232). -/
def State.srcScalar (s : State) (sel : BitVec 8) (pos : Nat) : W64 :=
  let x := sel.toNat
  if x < 0x80 then 0
  else if x < 0xA0 then s.sregNow (x - 0x80) pos
  else if x = 0xB5 then BitVec.allOnes 64
  else if x < 0xC0 then BitVec.ofNat 64 (s.special x 0)
  else if x < 0xF0 then BitVec.ofInt 64 (intConst x)
  else 0

/-- Source a of a V-slot operation in a lane. -/
def State.aLane (s : State) (o : VOp) (l : Nat) : Nat := (s.srcLane o.a 0 l).toNat
/-- Source b: the V76 immediate where B names it (R221). -/
def State.bLane (s : State) (o : VOp) (l : Nat) : Nat :=
  if o.immB then o.imm.toNat else (s.srcLane o.b 1 l).toNat
/-- Source c: field C in V76, the destination in V36 (R235). -/
def State.cLane (s : State) (o : VOp) (l : Nat) : Nat :=
  (s.srcLane (if o.long then o.c else o.d) 2 l).toNat
/-- The scalar form's sources (R232). -/
def State.aScalar (s : State) (o : VOp) : Nat := (s.srcScalar o.a 0).toNat
def State.bScalar (s : State) (o : VOp) : Nat :=
  if o.immB then sext64 o.imm.toNat 32 else (s.srcScalar o.b 1).toNat
def State.cScalar (s : State) (o : VOp) : Nat := (s.srcScalar (if o.long then o.c else o.d) 2).toNat

/-- A 16-bit-pair operand: a float constant is rounded to the format, in both halves (R208, R247). -/
def pairConst (f : Fmt) (sel : BitVec 8) (imm : Bool) (x : Nat) : Nat :=
  if selFloat sel && !imm then
    let h := round f false 0 0 (decode f32 x)
    h + 65536 * h
  else x

/-- A 64-bit source of IADD64 in a lane (R237). -/
def State.src64Lane (s : State) (sel : BitVec 8) (pos l : Nat) : Nat :=
  let x := sel.toNat
  if x < 0x80 then (s.vregLane x pos l).toNat + 2 ^ 32 * (s.vregLane (x + 1) (pos + 4) l).toNat
  else if x < 0xA0 then (s.sregNow (x - 0x80) pos).toNat
  else if x = 0xB5 then 2 ^ 64 - 1
  else if 0xC0 ≤ x ∧ x < 0xF0 then wrapInt (intConst x) 64
  else (s.srcLane sel pos l).toNat

/-- The offset of a lane (R264): sign-extended 32 bits, or a scalar register's 64; ONES gives 64 ones. -/
def State.ofsLane (s : State) (sel : BitVec 8) (l : Nat) : Nat :=
  let x := sel.toNat
  if 0x80 ≤ x ∧ x < 0xA0 then (s.sregNow (x - 0x80) 9).toNat
  else if x = 0xB5 then 2 ^ 64 - 1
  else sext64 (s.srcLane sel 9 l).toNat 32

/-- A scalar offset (R264). -/
def State.ofsScalar (s : State) (sel : BitVec 8) : Nat := s.ofsLane sel 0

/-- Store data of a group in a lane, `bytes` bytes (R266, R269). -/
def State.dataLane (s : State) (sel : BitVec 8) (g l : Nat) : Nat :=
  let x := sel.toNat
  if x < 0x80 then
    (List.range g).foldl (fun a i => a + 2 ^ (32 * i) * (s.vregLane (x + i) (10 + i) l).toNat) 0
  else if x < 0xA0 then (s.sregNow (x - 0x80) 10).toNat
  else if 0xC0 ≤ x ∧ x < 0xF0 then wrapInt (intConst x) 64
  else (s.srcLane sel 10 l).toNat

/-! ### Results -/

/-- The latch entry the bundle leaves in the slices of its part (R214). -/
def State.latch (s : State) (lat : Nat) (mask : BitVec 32) (vals : Lanes) : State :=
  { s with cur := { s.cur with latch := some ⟨s.clock + lat, mask, vals⟩ } }

/-- A vector result in the participating lanes, with latency `lat`, and its latch entry; 0xFF writes the latches only. -/
def State.putV (s : State) (d : BitVec 8) (lat : Nat) (lanes : List Nat) (f : Nat → Nat) : State :=
  let vals := lanesOf (fun l => BitVec.ofNat 32 (f l))
  let s1 := s.latch lat (maskOf lanes) vals
  if selV d then s1.setMe (s1.me.write ⟨s.clock + lat, s.clock, .v d.toNat, maskOf lanes, vals, 0⟩) else s1

/-- A scalar result, with its latch entry: bits [31:0] in every lane (R214). -/
def State.putS (s : State) (d : BitVec 8) (lat : Nat) (x : Nat) : State :=
  let s1 := s.latch lat (BitVec.allOnes 32) (lanesOf (fun _ => BitVec.ofNat 32 x))
  s1.setMe (s1.me.write ⟨s.clock + lat, s.clock, .s (d.toNat - 0x80), 0, [], BitVec.ofNat 64 x⟩)

/-- A predicate result in some lanes; its latch entry is undefined in every lane (R214). -/
def State.putP (s : State) (d : BitVec 8) (lat : Nat) (lanes : List Nat) (f : Nat → Bool) : State :=
  let s1 := s.latch lat 0 []
  let bits := maskOf (lanes.filter f)
  s1.setMe (s1.me.write ⟨s.clock + lat, s.clock, .p d.toNat, maskOf lanes, [], bits.setWidth 64⟩)

/-- The draws of a lane under RS, and the states the generators are left in (R96): `n` draws in each lane. -/
def drawAt (rng : Lanes) (l k : Nat) : Nat := rngDraw ((List.range (k + 1)).foldl (fun x _ => rngStep x) (laneGet rng l))

/-- The generators after `n` draws in each of the lanes. -/
def rngAfter (rng : Lanes) (lanes : List Nat) (n : Nat) : Lanes :=
  lanesOf (fun l => if lanes.contains l then (List.range n).foldl (fun x _ => rngStep x) (laneGet rng l) else laneGet rng l)

/-- The generators the bundle leaves: only RS takes draws (R96, R234). -/
def State.drew (s : State) (mode : Nat) (lanes : List Nat) (n : Nat) : State :=
  if mode = 4 then { s with cur := { s.cur with rng := some (rngAfter s.me.rng lanes n) } } else s

end Sys2Proof.Machine
end

