-- ==== Sys2Proof/Machine/Fetch.lean ====
section
/-! DEFINITION. Fetch: the fetch path of bundles and jump tables (R6, R14, R337, R399), and a wait entered again after ERET
(R404). -/

namespace Sys2Proof.Machine
open Sys2Proof

/-- What the fetch path answers: the place of the bytes; to wait for a fill under way, a migration or a held line; a fill to
start; a fault with the page, access kind and guest address of its record. -/
inductive Fetched
  | ok (pa : Nat)
  | wait
  | fill (pteAddr e : Nat)
  | fault (cause : Nat) (page : Option (Nat × Nat × Nat))
  deriving DecidableEq, Repr

/-- Look up `n` bytes at an address for execution (R14, R27): no window is seen; poison faults without a record (R399). -/
def State.fetchLook (s : State) (ctx a n : Nat) : State × Fetched :=
  let va := a % 2 ^ 57
  if !canonical a then (s, .fault 0x06 none)
  else if s.migrating ctx (va / 4096) || s.filling ctx (va / 4096) then (s, .wait)
  else match s.translate ctx va 3 with
    | (t, .ok f _ _ _ _) =>
      let pa := 4096 * f + va % 4096
      if s.lineHeld (pa / 128) then (s, .wait)
      else if t.poisoned pa n then (t, .fault 0x20 none)
      else (t, .ok pa)
    | (t, .fault c g acc) => (t, .fault c (if escalated c then some (va / 4096 * 4096, acc, g) else none))
    | (t, .fill pa e _) => (t, .fill pa e)
    | (t, .fwd _) => (t, .fault 0x10 (some (va / 4096 * 4096, 3, 0)))

/-- The record of a fetch fault and the INFO of its trap (Table 14-1). -/
def State.fetchRecord (s : State) (c ctx cause : Nat) (page : Option (Nat × Nat × Nat)) : State × Nat :=
  match page with
  | none => (s, 0)
  | some (p, acc, g) =>
    let (t, r) := s.recordFault ctx p cause acc g c
    (t, r.1 * 2 ^ 32 + r.2)

/-- The trap of a fetch fault. -/
def fetchTrap (cause info : Nat) (page : Option (Nat × Nat × Nat)) : Trap :=
  { tcause := 0x6B, slot := 4, dcause := cause, info := info, page := page }

/-! ### Jump tables (R337) -/

/-- The index a lane reads. -/
def State.jmptIndex (s : State) (x : BitVec 8) (l : Nat) : Nat := (s.srcLane x 20 l).toNat

/-- The participating lanes of the bundle's JMPT. -/
def State.jmptLanes (s : State) (g : BitVec 4) : List Nat := s.activeLanes.filter (s.guardLane g)

/-- The address of entry i. -/
def State.tableAddr (s : State) (tofs : BitVec 16) (i : Nat) : Nat :=
  (s.cur.pc + BitVec.ofInt 64 (16 * tofs.toInt)).toNat + 4 * i

/-- The entries the bundle reads, where every index is below n. -/
def State.tableReads (s : State) (g : BitVec 4) (x : BitVec 8) (tofs : BitVec 16) (n : BitVec 8) : List Nat :=
  let is := ((s.jmptLanes g).map (s.jmptIndex x)).eraseDups
  if is.any (fun i => decide (n.toNat < i)) then [] else is.map (s.tableAddr tofs)

/-- The table entries of a bundle that holds JMPT. -/
def State.bundleTable (s : State) (b : Bundle) : List Nat :=
  match decodeBundle b with
  | .ok k => k.slots.flatMap (fun p => match p.2 with
    | .op (.jmpt g x tofs n) => s.tableReads g x tofs n
    | _ => [])
  | .error _ => []

/-! ### Waits entered again (R404) -/

/-- A part's C-slot wait is over: its slices go on at the next bundle, no earlier than clock `at_`. -/
def Gang.endWait (g : Gang) (lead at_ : Nat) : Gang :=
  let p := g.part lead
  let g1 := (g.partSlices lead).foldl (fun g k =>
    let x := g.slice k
    g.setSlice k { x with pc := x.pc + 16, rgw := false }) g
  g1.setPart lead { p with wait := .none, macq := false, next := max p.next at_, fetched := none, fetchFault := none }

/-- The part is inside the C-slot wait of its bundle again; the other slots do not act. -/
def State.reenter (s : State) (c slot lead : Nat) (b : Bundle) : State :=
  let set (t : State) (w : WaitC) : State :=
    let g := t.gang c slot
    t.setGang c slot (g.setPart lead { g.part lead with wait := w })
  let op : Option Instr :=
    match decodeBundle b with
    | .ok k => k.slots.findSome? (fun p => match p.1, p.2 with | .c, .op i => some i | _, _ => none)
    | .error _ => none
  match op with
  | some (.waitf ne f) => set s (.flag f.toNat (ne == 1))
  | some (.barw n) | some (.baraw n) => let (t, w) := s.barWait c slot n.toNat; set t w
  | some .sbarW | some .sbarAw => let (t, w) := s.sbarWait c slot; set t w
  | some .regang => set s (.regang s.clock)
  | _ => s.setGang c slot ((s.gang c slot).endWait lead (s.clock + 1))

/-- The line of a part's bundle comes: the bundle is at hand, a fill starts, or the fetch has faulted. -/
def State.fetchPart (s : State) (c slot lead : Nat) : State :=
  let g := s.gang c slot
  let ctx := s.ctxOf c slot
  let pc := (g.slice lead).pc
  let fail (t : State) (cause : Nat) (page : Option (Nat × Nat × Nat)) : State :=
    let (u, info) := t.fetchRecord c ctx cause page
    let h := u.gang c slot
    u.setGang c slot (h.setPart lead { h.part lead with fetchFault := some (cause, info) })
  match s.fetchLook ctx pc.toNat 16 with
  | (_, .wait) => s
  | (t, .ok pa) =>
    let b : Bundle := BitVec.ofNat 128 (t.rd pa 16)
    let h := t.gang c slot
    let p := h.part lead
    let u := (t.setGang c slot (h.setPart lead { p with fetched := some (pc, b) })).migTouch ctx (pc.toNat % 2 ^ 57 / 4096) none
    if p.wait = .resume then u.reenter c slot lead b else u
  | (t, .fill pa e) => match t.startFill ctx (pc.toNat % 2 ^ 57) 3 pa e with
    | (u, none) => u
    | (u, some cause) => fail u cause (if escalated cause then some (pc.toNat % 2 ^ 57 / 4096 * 4096, 3, 0) else none)
  | (t, .fault cause page) => fail t cause page

/-- A fill starts for the first page of a bundle's jump table that needs one. -/
def State.fetchTable (s : State) (c slot lead : Nat) (addrs : List Nat) : State :=
  let ctx := s.ctxOf c slot
  match addrs.find? (fun a => match (s.fetchLook ctx a 4).2 with | .fill _ _ => true | _ => false) with
  | none => s
  | some a => match s.fetchLook ctx a 4 with
    | (t, .fill pa e) => match t.startFill ctx (a % 2 ^ 57) 3 pa e with
      | (u, none) => u
      | (u, some cause) =>
        let (v, info) := u.fetchRecord c ctx cause (if escalated cause then some (a % 2 ^ 57 / 4096 * 4096, 3, 0) else none)
        let h := v.gang c slot
        v.setGang c slot (h.setPart lead { h.part lead with fetchFault := some (cause, info) })
    | _ => s

/-- The bundle of a part, when the line that holds it has come (R6). -/
def Gang.bundle? (g : Gang) (lead : Nat) : Option Bundle :=
  match (g.part lead).fetched with
  | some (pc, b) => if pc = (g.slice lead).pc then some b else none
  | none => none

/-- The state with the part's bundle under issue. -/
def State.openBundle (s : State) (c slot lead gap : Nat) : State :=
  let g := s.gang c slot
  { s with cur := { core := c, slot := slot, lead := lead, slices := g.partSlices lead, pc := (g.slice lead).pc, gap := gap, bad := g.bad,
                    pmc := (s.crew c g.cslot).pmc } }

/-- The table entries the part's bundle would read. -/
def State.partTable (s : State) (c slot lead : Nat) : List Nat :=
  match (s.gang c slot).bundle? lead with
  | some b => (s.openBundle c slot lead 0).bundleTable b
  | none => []

/-- The line the part waits for can come now: its bundle's, or one of its jump table that needs a fill. -/
def State.fetchDue (s : State) (c slot lead : Nat) : Bool :=
  let g := s.gang c slot
  let p := g.part lead
  let ctx := s.ctxOf c slot
  if g.frozen || p.fetchFault.isSome || !(p.wait == .none || p.wait == .resume) then false
  else match g.bundle? lead with
    | none => (s.fetchLook ctx (g.slice lead).pc.toNat 16).2 != .wait
    | some _ => (s.partTable c slot lead).any (fun a => match (s.fetchLook ctx a 4).2 with | .fill _ _ => true | _ => false)

/-- BUNDLE_FETCH_RETURN (R6). -/
def execBundleFetchReturn (s : State) : Out :=
  match s.ev with
  | .part c slot lead =>
    if !s.fetchDue c slot lead then .next s
    else match (s.gang c slot).bundle? lead with
      | none => .next (s.fetchPart c slot lead)
      | some _ => .next (s.fetchTable c slot lead (s.partTable c slot lead))
  | _ => .next s

end Sys2Proof.Machine
end

