-- ==== Sys2Proof/Machine/Flags.lean ====
section
/-! DEFINITION. Flags: the carry latch lx1 (R215), the precise conditions the bits and REGS decide and the flag-overflow
condition (R217, R218, R329), and what the end of a wait observes (R132, R331). -/

namespace Sys2Proof.Machine

/-- lx1 takes a carry or borrow in the participating lanes, valid 4 clocks later (R215). -/
def State.putCarry (s : State) (lanes : List Nat) (f : Nat → Bool) : State :=
  s.setMe (s.me.write
    ⟨s.clock + 4, s.clock, .lx1, maskOf lanes, [], (maskOf (lanes.filter f)).setWidth 64⟩)

/-- Class 1: an illegal encoding, or a register at or beyond REGS (R218, Table 7-12). -/
def illegalTrap (k : Slot) (i : Instr) (s : State) : Option Trap :=
  if opLegal i s.me.regs then none else some (illegal k)

/-- Class 2: a privileged instruction issued by another gang (R328). -/
def privTrap (s : State) : Option Trap :=
  if s.isSuper then none else some { tcause := 0x62, slot := 3 }

/-- Class 3: an issue that would bring a count to 64 (R217, R329). -/
def overflowTrap (k : Slot) (f : Nat) (s : State) : Option Trap :=
  if (s.me.flag f).count ≥ 63 then some { tcause := 0x64, slot := slotNum k } else none

/-- The first trap of two checks. -/
def orTrap (a b : Option Trap) : Option Trap :=
  match a with
  | some t => some t
  | none => b

/-- Act where no precise condition holds, else take the trap. -/
def guarded (t : Option Trap) (s s' : State) : Out :=
  match t with
  | some t => .next (s.takeTrap t)
  | none => .next s'

/-- The part observes a flag at zero (R132). -/
def State.observeFlag (s : State) (f : Nat) : State := s.observeAt s.cur.core s.cur.slot f

end Sys2Proof.Machine
end

