-- ==== Sys2Proof/Machine/CBranch.lean ====
section
/-! DEFINITION. CBranch: branches, calls, divergence and the end of lanes (R178 to R182, R332, R335 to R340). -/

namespace Sys2Proof.Machine
open Sys2Proof

/-- A C-slot operation: the precise conditions in order, else its effect (R218, R356). -/
def cRun (i : Instr) (own : State → Option Trap) (eff : State → State) (s : State) : Out :=
  guarded (orTrap (illegalTrap .c i s) (own s)) s (eff s)

/-- No condition of the instruction's own. -/
def noCond (_ : State) : Option Trap := none

/-! ### Slices and their stacks (R178, Table 11-9) -/

/-- A stack entry: mask in `[63:60]`, address in `[56:4]`. -/
def rstk (pc : W64) (mask : BitVec 4) : W64 := BitVec.ofNat 64 (mask.toNat * 2 ^ 60) ||| pcBits pc

/-- The canonical address of bits `[56:4]` (R14). -/
def pcOf (w : W64) : W64 := if w.getLsbD 56 then pcBits w ||| 0xFE00000000000000 else pcBits w

/-- The mask of a stack entry. -/
def rstkMask (w : W64) : BitVec 4 := BitVec.ofNat 4 (w.toNat / 2 ^ 60)

def Slice.push (x : Slice) (pc : W64) (mask : BitVec 4) : Slice :=
  { x with stack := mset x.stack x.depth (rstk pc mask), depth := x.depth + 1 }

def Slice.top (x : Slice) : W64 := mget 0 x.stack (x.depth - 1)

/-- A position that leaves the stack is cleared (R351). -/
def Slice.pop (x : Slice) : Slice := { x with stack := mdel x.stack (x.depth - 1), depth := x.depth - 1 }

/-- The lanes of slice k among a list of lanes. -/
def sliceBits (lanes : List Nat) (k : Nat) : BitVec 4 :=
  lanes.foldl (fun m l => if l / 4 = k then m ||| (1#4 <<< (l % 4)) else m) 0

/-- The slice goes to an address after the bundle. -/
def State.setNext (s : State) (k : Nat) (pc : W64) : State := { s with cur := { s.cur with next := mset s.cur.next k pc } }

/-- The issuing gang's slice k replaced. -/
def State.setSlice (s : State) (k : Nat) (x : Slice) : State := s.setMe (s.me.setSlice k x)

/-- The bundle redirects the part where a slice that goes on does not go to P + 16 (R209). -/
def State.markRedirect (s : State) : State :=
  let off := s.cur.slices.any (fun k => !(s.me.slice k).ended && mget (s.cur.pc + 16) s.cur.next k != s.cur.pc + 16)
  { s with cur := { s.cur with redirect := off } }

/-- The target of a branch: P + 16 × sext(target, 24) (R205). -/
def State.target (s : State) (tgt : BitVec 24) : W64 := s.cur.pc + BitVec.ofInt 64 (16 * tgt.toInt)

/-- The divergence-stack overflow trap, naming the slices short of entries (R179, Table 14-1). -/
def stackTrap (short : List Nat) : Option Trap :=
  if short.isEmpty then none
  else some { tcause := 0x67, slot := 3, info := short.foldl (fun a k => a + 2 ^ k) 0 }

/-- Slices of the part that would diverge with a full stack. -/
def State.branchShort (s : State) (lanes : List Nat) : List Nat :=
  s.cur.slices.filter (fun k =>
    let x := s.me.slice k
    let t := sliceBits lanes k
    t != x.mask && t != 0 && x.depth == 8)

/-- The branch of R178 in the lanes whose condition holds. -/
def State.branchLanes (s : State) (lanes : List Nat) (tgt : W64) : State :=
  (s.cur.slices.foldl (fun t k =>
    let x := t.me.slice k
    let take := sliceBits lanes k
    if take = x.mask then t.setNext k tgt
    else if take = 0 then t.setNext k (t.cur.pc + 16)
    else (t.setSlice k { x.push (t.cur.pc + 16) (x.mask &&& ~~~take) with mask := take }).setNext k tgt) s).markRedirect

/-- The whole part goes to an address. -/
def State.branchAll (s : State) (tgt : W64) : State := (s.cur.slices.foldl (fun t k => t.setNext k tgt) s).markRedirect

/-- The active lanes where a guard holds. -/
def State.cLanes (s : State) (g : BitVec 4) : List Nat := s.activeLanes.filter (s.guardLane g)

/-! ### Flag branches (R332) -/

/-- BRF.Z: it branches, and observes the flag, at count zero. -/
def execBrfZ (f : BitVec 5) (tgt : BitVec 24) (s : State) : Out :=
  cRun (.brfZ f tgt) noCond (fun s =>
    if (s.me.flag f.toNat).count = 0 then (s.branchAll (s.target tgt)).observeFlag f.toNat else s) s

/-- BRF.NZ: it falls through, and observes the flag, at count zero. -/
def execBrfNz (f : BitVec 5) (tgt : BitVec 24) (s : State) : Out :=
  cRun (.brfNz f tgt) noCond (fun s =>
    if (s.me.flag f.toNat).count = 0 then s.observeFlag f.toNat else s.branchAll (s.target tgt)) s

/-- BRF.ERR. -/
def execBrfErr (f : BitVec 5) (tgt : BitVec 24) (s : State) : Out :=
  cRun (.brfErr f tgt) noCond (fun s => if (s.me.flag f.toNat).err then s.branchAll (s.target tgt) else s) s

/-! ### Branches and calls -/

/-- BRA (R335). -/
def execBra (g : BitVec 4) (tgt : BitVec 24) (s : State) : Out :=
  cRun (.bra g tgt) (fun s => stackTrap (s.branchShort (s.cLanes g))) (fun s => s.branchLanes (s.cLanes g) (s.target tgt)) s

/-- The lanes where BRAP's guard and condition hold (R336). -/
def State.brapLanes (s : State) (g : BitVec 4) (neg : BitVec 1) (q : BitVec 3) : List Nat :=
  (s.cLanes g).filter (fun l => Bool.xor (s.predLane q.toNat l) (neg == 1))

/-- BRAP (R336). -/
def execBrap (g : BitVec 4) (neg : BitVec 1) (q : BitVec 3) (tgt : BitVec 24) (s : State) : Out :=
  cRun (.brap g neg q tgt) (fun s => stackTrap (s.branchShort (s.brapLanes g neg q)))
    (fun s => s.branchLanes (s.brapLanes g neg q) (s.target tgt)) s

/-- CALL (R338): sL takes P + 16 where some lane branches. -/
def execCall (g : BitVec 4) (l : BitVec 5) (tgt : BitVec 24) (s : State) : Out :=
  cRun (.call g l tgt) (fun s => stackTrap (s.branchShort (s.cLanes g))) (fun s =>
    let s1 := s.branchLanes (s.cLanes g) (s.target tgt)
    if (s.cLanes g).isEmpty then s1
    else s1.setMe (s1.me.write ⟨s.clock + 4, s.clock, .s l.toNat, 0, [], s.cur.pc + 16⟩)) s

/-- RET (R339). -/
def execRet (n : BitVec 5) (s : State) : Out :=
  cRun (.ret n)
    (fun s => if (s.sregNow n.toNat 20).toNat % 16 ≠ 0 then some { tcause := 0x63, slot := 3 } else none)
    (fun s => s.branchAll (s.sregNow n.toNat 20)) s

/-! ### Jump tables (R180, R337) -/

/-- The words of table entries, or the first fault of the read: the state after the translations, and the entries. -/
def State.readTable (s : State) (ctx : Nat) : List Nat → State × Except (Nat × Option (Nat × Nat × Nat)) (List (Nat × Nat))
  | [] => (s, .ok [])
  | a :: r =>
    match s.fetchLook ctx a 4 with
    | (t, .ok pa) => match (t.migTouch ctx (a % 2 ^ 57 / 4096) none).readTable ctx r with
      | (u, .ok es) => (u, .ok ((a, t.rd pa 4) :: es))
      | (u, .error e) => (u, .error e)
    | (t, .fault cause page) => (t, .error (cause, page))
    | (t, _) => (t, .error (0, none))

/-- A slice's groups of active lanes: target, least index, lanes; in ascending order of least index. -/
def insertGroup (g : W64 × Nat × BitVec 4) : List (W64 × Nat × BitVec 4) → List (W64 × Nat × BitVec 4)
  | [] => [g]
  | h :: t => if g.2.1 < h.2.1 then g :: h :: t else h :: insertGroup g t

/-- The groups of a slice whose lanes go to the given targets under the given indices. -/
def State.groupsOf (s : State) (k : Nat) (dest : Nat → W64 × Nat) : List (W64 × Nat × BitVec 4) :=
  let lanes := s.activeLanes.filter (fun l => l / 4 == k)
  let tgts := (lanes.map (fun l => (dest l).1)).eraseDups
  tgts.foldl (fun acc t =>
    let ls := lanes.filter (fun l => (dest l).1 == t)
    let i := ls.foldl (fun m l => min m (dest l).2) (2 ^ 32)
    insertGroup (t, i, sliceBits ls k) acc) []

/-- JMPT (R337): the checks in the order of the rule, then the groups of R180. -/
def execJmpt (g : BitVec 4) (x : BitVec 8) (tofs : BitVec 16) (n : BitVec 8) (s : State) : Out :=
  let lanes := s.jmptLanes g
  let idx := s.jmptIndex x
  let bad := lanes.filter (fun l => decide (n.toNat < idx l))
  match orTrap (illegalTrap .c (.jmpt g x tofs n) s)
      (if bad.isEmpty then none else some { tcause := 0x66, slot := 3, info := (maskOf bad).toNat }) with
  | some t => .next (s.takeTrap t)
  | none =>
    let ctx := s.myCrew.ctx
    match s.readTable ctx (s.tableReads g x tofs n) with
    | (t, .error (0, _)) => .next (t.branchAll s.cur.pc)
    | (t, .error (cause, page)) =>
      let (u, info) := t.fetchRecord s.cur.core ctx cause page
      .next (u.takeTrap (fetchTrap cause info page))
    | (t, .ok es) =>
      if es.any (fun e => decide (2 ^ 24 ≤ e.2)) then .next (t.takeTrap (illegal .c))
      else
        let entry (i : Nat) : Nat := ((es.find? (fun e => e.1 == s.tableAddr tofs i)).map Prod.snd).getD 0
        let dest (l : Nat) : W64 × Nat :=
          if lanes.contains l then (s.cur.pc + BitVec.ofInt 64 (16 * sextInt (entry (idx l)) 24), idx l)
          else (s.cur.pc + 16, n.toNat + 1)
        let short := s.cur.slices.filter (fun k => decide (8 < (s.me.slice k).depth + ((s.groupsOf k dest).length - 1)))
        match stackTrap short with
        | some tr => .next (t.takeTrap tr)
        | none =>
          let u := s.cur.slices.foldl (fun u k =>
            match s.groupsOf k dest with
            | [] => u.setNext k (s.cur.pc + 16)
            | h :: rest =>
              let y := rest.reverse.foldl (fun (y : Slice) q => y.push q.1 q.2.2) (u.me.slice k)
              (u.setSlice k { y with mask := h.2.2 }).setNext k h.1) t
          .next { u.markRedirect with cur := { u.markRedirect.cur with jmpt := true } }

/-! ### Reconvergence and exit -/

/-- RECONV of one slice at address P (R181). -/
def Slice.reconv (p : W64) : Nat → Slice → Slice × W64
  | 0, x => (x, p + 16)
  | fuel + 1, x =>
    if x.depth = 0 then (x, p + 16)
    else
      let t := x.top
      if pcBits t = pcBits p then Slice.reconv p fuel { x.pop with mask := x.mask ||| rstkMask t }
      else ({ x with stack := mset x.stack (x.depth - 1) (rstk p x.mask), mask := rstkMask t }, pcOf t)

/-- RECONV (R181). -/
def execReconv (s : State) : Out :=
  cRun .reconv noCond (fun s =>
    (s.cur.slices.foldl (fun t k =>
      let (y, pc) := (t.me.slice k).reconv s.cur.pc 9
      (t.setSlice k y).setNext k pc) s).markRedirect) s

/-- EXIT of one slice in some of its lanes (R182): the slice after it, and where it goes on. -/
def Slice.exit (x : Slice) (out : BitVec 4) (p : W64) : Slice × W64 :=
  let left := x.mask &&& ~~~out
  if out = 0 ∨ left ≠ 0 then ({ x with mask := left }, p + 16)
  else if x.depth = 0 then ({ x with mask := left, ended := true }, p + 16)
  else ({ x.pop with mask := rstkMask x.top }, pcOf x.top)

/-- The slices of the part after EXIT in the lanes of a guard. -/
def State.exitSlices (s : State) (g : BitVec 4) : State :=
  (s.cur.slices.foldl (fun t k =>
    let (y, pc) := (t.me.slice k).exit (sliceBits (s.cLanes g) k) s.cur.pc
    (t.setSlice k y).setNext k pc) s).markRedirect

/-- Every slice of the gang has ended. -/
def Gang.allEnded (g : Gang) : Bool := (List.range g.nsl).all (fun k => (g.slice k).ended)

/-- EXIT (R182): a gang ends with its last slice; the supervisor's last slice may not end (R405). -/
def execExit (g : BitVec 4) (s : State) : Out :=
  cRun (.exit g)
    (fun s => if s.isSuper && (s.exitSlices g).me.allEnded then some (illegal .c) else none)
    (fun s =>
      let t := s.exitSlices g
      if t.me.allEnded then t.endGang s.cur.core s.cur.slot s.cur.pc else t) s

end Sys2Proof.Machine
end

