-- ==== Sys2Proof/Machine/CWait.lean ====
section
/-! DEFINITION. CWait: waits on flags, barriers, timers and other slices (R185, R331, R341 to R345), the test of a wait at the
end of each clock (R186, R209, R457), software traps (R346) and the return from a trap (R347, R404). -/

namespace Sys2Proof.Machine
open Sys2Proof

/-! ### Waits -/

/-- WAITF (R331): the part waits; the wait is tested from the end of this clock on. -/
def execWaitf (ne : BitVec 1) (f : BitVec 5) (s : State) : Out :=
  cRun (.waitf ne f) noCond (fun s => s.setWait (.flag f.toNat (ne == 1))) s

/-- A timer: the slices go on at P + 16 once its time has come. -/
def State.setTimer (s : State) (until_ : Nat) (y : Bool) : State :=
  let g := s.me
  let s1 := s.setMe (g.setPart s.cur.lead { g.part s.cur.lead with wait := .timer until_ y })
  s1.later .waitTimerExpiry (.part s.cur.core s.cur.slot s.cur.lead)

/-- YIELD (R341). -/
def execYield (n : BitVec 8) (s : State) : Out :=
  cRun (.yield n) noCond (fun s => s.setTimer (s.clock + 4 * (n.toNat + 1)) true) s

/-- SLEEP (R341). -/
def execSleep (n : BitVec 8) (s : State) : Out :=
  cRun (.sleep n) noCond (fun s => s.setTimer (s.clock + 256 * (n.toNat + 1)) false) s

/-- WAIT_TIMER_EXPIRY (R341): the part is a candidate again, its AGE zero after YIELD; a MACQ beside it ends with it if its gang
owns the mill (R457). -/
def execWaitTimerExpiry (s : State) : Out :=
  match s.ev with
  | .part c slot lead =>
    match s.gang? c slot with
    | none => .next s
    | some g =>
      let p := g.part lead
      match p.wait with
      | .timer u y =>
        if u ≤ s.clock then
          .next (s.setGang c slot (g.setPart lead { p with
            wait := .none
            macq := p.macq && (s.core c).mill.owner != some slot
            next := max p.next u
            age := if y then 0 else p.age }))
        else .next s
      | _ => .next s
  | _ => .next s

/-! ### REGANG (R185) -/

/-- The slices of the gang that have not ended. -/
def Gang.liveSlices (g : Gang) : List Nat := (List.range g.nsl).filter (fun k => !(g.slice k).ended)

/-- Every unended slice outside the part waits at a REGANG. -/
def Gang.othersAtRegang (g : Gang) (lead : Nat) : Bool :=
  g.liveSlices.all (fun k => (g.slice k).lead == lead ||
    (match (g.part (g.slice k).lead).wait with | .regang _ => true | _ => false))

/-- The waiting slices stand at one address. -/
def Gang.sameAddress (g : Gang) : Bool :=
  match g.liveSlices with
  | [] => true
  | k :: r => r.all (fun j => (g.slice j).pc == (g.slice k).pc)

/-- The regang-mismatch trap. -/
def mismatch : Trap := { tcause := 0x69, slot := 3 }

/-- REGANG: a part that holds every unended slice goes on at once; the last arrival at a second address is refused. -/
def execRegang (s : State) : Out :=
  cRun .regang
    (fun s => if s.me.othersAtRegang s.cur.lead && !s.me.sameAddress then some mismatch else none)
    (fun s =>
      if s.me.liveSlices.all (fun k => s.cur.slices.contains k) then s.setMe (s.me.noteMerge s.cur.slices)
      else
        let g := s.cur.slices.foldl (fun g k => g.setSlice k { g.slice k with rgw := true }) s.me
        (s.setMe g).setWait (.regang s.clock)) s

/-- The clocks from which every fixed-latency result in flight in a gang stands: registers and latches (R211, R214). -/
def Gang.fixedClocks (g : Gang) : List Nat := g.pend.map (·.due) ++ g.slices.flatMap (fun x => x.latches.map (·.ready))

/-- The clocks at which the gang's system-register writes in flight take effect (R348). -/
def State.sysClocks (s : State) (c slot : Nat) : List Nat :=
  s.agenda.filterMap (fun p => match p.arg with
    | .sysw c' x _ _ => if c' = c ∧ (x = slot ∨ (s.gang c slot).super) then some p.due else none
    | _ => none)

/-- The waiting slices form one part of the largest AGE (R396), which issues once every part's gap has elapsed and every
fixed-latency result is written, those of `extra` clocks among them. -/
def Gang.merge (g : Gang) (now : Nat) (extra : List Nat) : Gang :=
  match g.liveSlices with
  | [] => g
  | lead :: _ =>
    let at_ := (g.parts.map (fun p => p.2.next) ++ g.fixedClocks ++ extra).foldl max (now + 1)
    let g1 := g.liveSlices.foldl (fun g k =>
      let x := g.slice k
      g.setSlice k { x with pc := x.pc + 16, rgw := false, lead := lead }) g
    { g1.noteMerge g.liveSlices with parts := [(lead, { next := at_, age := (g.parts.map (fun p => p.2.age)).foldl max 0 })] }

/-! ### Barriers (R343 to R345) -/

/-- BARSET (R343). -/
def execBarset (c : BitVec 5) (b : BitVec 4) (s : State) : Out :=
  cRun (.barset c b)
    (fun s => if bitsOf (mget 0 s.myCrew.bst b.toNat).toNat 31 16 ≠ 0 then some (illegal .c) else none)
    (fun s =>
      let w := s.myCrew
      let x := setBits (setBits (mget 0 w.bst b.toNat).toNat 63 63 1) 60 56 c.toNat
      s.setMyCrew { w with bst := mset w.bst b.toNat (BitVec.ofNat 64 x) }) s

/-- A barrier that is not set refuses its operations (R343). -/
def unsetTrap (b : BitVec 4) (s : State) : Option Trap :=
  if (mget 0 s.myCrew.bst b.toNat).getLsbD 63 then none else some (illegal .c)

/-- The issuing part waits on a crew barrier. -/
def State.waitBar (s : State) (n : Nat) : State :=
  let (t, w) := s.barWait s.cur.core s.cur.slot n
  t.setWait w

/-- The issuing part waits on the stand barrier. -/
def State.waitSbar (s : State) : State :=
  let (t, w) := s.sbarWait s.cur.core s.cur.slot
  t.setWait w

/-- BARA (R344). -/
def execBara (b : BitVec 4) (s : State) : Out := cRun (.bara b) (unsetTrap b) (fun s => s.arrive b.toNat) s
/-- BARW (R344). -/
def execBarw (b : BitVec 4) (s : State) : Out := cRun (.barw b) (unsetTrap b) (fun s => s.waitBar b.toNat) s
/-- BARAW (R344). -/
def execBaraw (b : BitVec 4) (s : State) : Out :=
  cRun (.baraw b) (unsetTrap b) (fun s => (s.arrive b.toNat).waitBar b.toNat) s
/-- SBAR.A (R345). -/
def execSbarA (s : State) : Out := cRun .sbarA noCond (fun s => s.sbarArrive) s
/-- SBAR.W (R345). -/
def execSbarW (s : State) : Out := cRun .sbarW noCond (fun s => s.waitSbar) s
/-- SBAR.AW (R345). -/
def execSbarAw (s : State) : Out := cRun .sbarAw noCond (fun s => s.sbarArrive.waitSbar) s

/-! ### The test of a wait (R186, R331, R457) -/

/-- What a test of a part's C-slot wait finds. -/
inductive Tested
  | holds
  | waits
  | trap (t : Trap)
  deriving DecidableEq, Repr

/-- Test the C-slot wait of a part of the gang in a slot. -/
def State.testWait (s : State) (c slot : Nat) (w : WaitC) : Tested :=
  let g := s.gang c slot
  match w with
  | .none => .holds
  | .flag f ne =>
    let x := g.flag f
    if x.count = 0 then
      if x.err && !ne then .trap { tcause := 0x6C, slot := 3, dcause := x.cause, flag := f } else .holds
    else match s.faultOn c slot f with
      | some (cause, info) => .trap { tcause := 0x6D, slot := 3, dcause := cause, flag := f, info := info }
      | none => .waits
  | .bar _ _ met => if met then .holds else .waits
  | .sbar _ met => if met then .holds else .waits
  | .timer _ _ => .waits
  | .regang _ => .waits
  | .resume => .waits

/-- What the end of a wait does beside letting the part go on: a flag is observed (R132), a barrier's DONE bit is cleared
(R344) and its arrivals' accesses are acquired (R133). -/
def State.leaveWait (s : State) (c slot : Nat) (w : WaitC) : State :=
  let g := s.gang c slot
  let cr := s.crew c g.cslot
  let acquire (t : State) (n : Nat) : State :=
    t.setGang c slot ((t.gang c slot).hold (mget [] (t.crew c g.cslot).barDone n) (if n = 16 then 3 else 2))
  match w with
  | .flag f _ => s.observeAt c slot f
  | .bar n cl _ =>
    let b := (mget 0 cr.bst n).toNat
    acquire (if cl then s.setCrew c g.cslot { cr with bst := mset cr.bst n (BitVec.ofNat 64 (setBits b g.cgang g.cgang 0)) } else s) n
  | .sbar cl _ =>
    let b := cr.sbst.toNat
    acquire (if cl then s.setCrew c g.cslot { cr with sbst := BitVec.ofNat 64 (setBits b g.cgang g.cgang 0) } else s) 16
  | _ => s

/-- Test the waits of one part at the end of a clock: all must hold together (R457). A wait that ERET has entered again is tested from
the clock after it (R404); one of a gang whose stand is not yet unparked is not tested (R416). -/
def State.testPart (s : State) (c slot lead : Nat) : State :=
  let g := s.gang c slot
  let p := g.part lead
  if g.frozen || (s.crew c g.cslot).phase == .unparked || (p.wait == .none && !p.macq) || decide (s.clock < p.tests) then s
  else match s.testWait c slot p.wait with
    | .trap t => s.takeTrapAt c slot t (g.slice lead).pc
    | .waits => s
    | .holds =>
      if p.macq && (s.core c).mill.owner != some slot then s
      else
        let t := s.leaveWait c slot p.wait
        let h := t.gang c slot
        if p.wait.inside then t.setGang c slot (h.endWait lead (s.clock + 1))
        else t.setGang c slot (h.setPart lead { h.part lead with macq := false, next := max p.next (s.clock + 1) })

/-- REGANG at the end of a clock (R185): the gang's slices merge, or the part that began to wait last takes the mismatch trap. A MACQ
beside a REGANG holds back the merge alone (R457). -/
def State.testRegang (s : State) (c slot : Nat) : State :=
  let g := s.gang c slot
  let at_ (p : Part) : Option Nat := match p.wait with | .regang n => some n | _ => none
  if g.frozen || (s.crew c g.cslot).phase == .unparked || g.parts.isEmpty || g.parts.any (fun p => (at_ p.2).isNone || decide (s.clock < p.2.tests)) then s
  else if g.sameAddress then
    (if g.parts.any (fun p => p.2.macq && (s.core c).mill.owner != some slot) then s
     else s.setGang c slot (g.merge s.clock (s.sysClocks c slot)))
  else
    let last := g.parts.foldl (fun (b : Nat × Nat) p => if b.2 ≤ (at_ p.2).getD 0 then (p.1, (at_ p.2).getD 0) else b) (0, 0)
    s.takeTrapAt c slot mismatch (g.slice last.1).pc

/-- Every wait of every gang of every core is tested. -/
def State.testWaits (s : State) : State :=
  s.cores.foldl (fun t x => x.2.gangs.foldl (fun t g =>
    (g.2.parts.foldl (fun t p => t.testPart x.1 g.1 p.1) t).testRegang x.1 g.1) t) s

/-! ### Software traps (R346) -/

/-- The gang freezes after the bundle, with P + 16 as its next bundle. -/
def State.softTrap (s : State) (tcause n : Nat) : State :=
  let g := s.me
  let p := g.part s.cur.lead
  let s1 := s.setMe (g.setPart s.cur.lead { p with
    next := max p.next (s.clock + s.cur.gap + 1), fetched := none, bankPaid := false, bankd := 0 })
  s1.takeTrapAt s.cur.core s.cur.slot { tcause := tcause, slot := 3, info := n } (s.cur.pc + 16)

/-- TRAP. -/
def execTrap (n : BitVec 8) (s : State) : Out := cRun (.trap n) noCond (fun s => s.softTrap 0x70 n.toNat) s
/-- BKPT. -/
def execBkpt (n : BitVec 8) (s : State) : Out := cRun (.bkpt n) noCond (fun s => s.softTrap 0x71 n.toNat) s
/-- SYSC. -/
def execSysc (n : BitVec 24) (s : State) : Out := cRun (.sysc n) noCond (fun s => s.softTrap 0x72 n.toNat) s

/-! ### ERET (R347, R404, R414) -/

/-- ERET of an empty slot, of a gang that is not frozen, of the supervisor, or of a gang whose crew is quiesced, parked or not
yet unparked, is refused. -/
def eretTrap (slot : Nat) (s : State) : Option Trap :=
  let c := s.cur.core
  match s.gang? c slot with
  | some g =>
    if g.super ∨ !g.frozen ∨ !((s.crew c g.cslot).phase == .running || (s.crew c g.cslot).phase == .unparked) then some (illegal .c)
    else none
  | none => some (illegal .c)

/-- Entries re-entered by unpark run on once their gang resumes (R416). -/
def Core.unhold (k : Core) (slot : Nat) : Core :=
  { k with
    log := k.log.map (fun e => if e.2.slot = slot then (e.1, { e.2 with held := false }) else e)
    skid := k.skid.map (fun e => if e.2.slot = slot ∧ e.2.held then
      (e.1, { e.2 with held := false, state := if e.2.state = 2 then 1 else e.2.state }) else e) }

/-- THE RETURN FROM A TRAP: the frozen gang in a slot resumes; one all of whose slices have ended ends (R182). A trap whose frame is not
yet written sends its notice here (R406). -/
def State.eret (s : State) (c slot : Nat) : State :=
  let g0 := s.gang c slot
  let s0 := if g0.frameOpen then s.tellTrap c slot g0.frame else s
  let s1 := s0.setGang c slot (g0.eret s.clock)
  let s2 := s1.setCore c ((s1.core c).unhold slot)
  let g := s2.gang c slot
  if g.parts.isEmpty then s2.endGang c slot (g.slice 0).pc else s2

/-- ERET. -/
def execEret (slot : BitVec 6) (s : State) : Out :=
  cRun (.eret slot) (fun s => orTrap (privTrap s) (eretTrap slot.toNat s)) (fun s => s.eret s.cur.core slot.toNat) s

end Sys2Proof.Machine
end

