-- ==== Sys2Proof/Machine/SysRegs.lean ====
section
/-! DEFINITION. SysRegs: the system registers of Table 11-8: which gang an access reaches (R349), what a read returns (R350) and
what a write does when it takes effect (R348, R351, R96, R334, R55). -/

namespace Sys2Proof.Machine
open Sys2Proof

/-! ### Which gang (R348, R349) -/

/-- The gang slot an access reaches: the selected one for the supervisor with SELGANG.V set, else its own. -/
def State.selected (s : State) : Nat :=
  let w := (s.core s.cur.core).selgang
  if s.isSuper && w.getLsbD 63 then w.toNat % 64 else s.cur.slot

/-- The selected gang is frozen; a crew-scope write needs every gang of its crew frozen (R349). -/
def State.selectable (s : State) (wholeCrew : Bool) : Bool :=
  let k := s.core s.cur.core
  let w := k.selgang
  if !(s.isSuper && w.getLsbD 63) then true
  else match mget? k.gangs (w.toNat % 64) with
    | none => false
    | some g => g.frozen && (!wholeCrew || (k.live g.cslot).all (fun x => x.2.frozen))

/-- The scope of a register (Table 11-8). -/
def sysScopeOf (reg : Nat) : Option SysScope := (sysRow reg).map (fun r => r.scope)

/-- A register of gang, crew or context scope is reached through SELGANG. -/
def perGang (r : SysRow) : Bool := r.scope == .gang || r.scope == .crew || r.scope == .context

/-- The trap of an access whose selected gang does not permit it. -/
def State.selTrap (s : State) (r : SysRow) (wr : Bool) : Option Trap :=
  if !perGang r || s.selectable (wr && r.scope == .crew) then none else some (illegal .c)

/-- Class 2: a register granted to the supervisor alone (R348). -/
def State.sysPriv (s : State) (ok : Bool) : Option Trap := if ok || s.isSuper then none else some { tcause := 0x62, slot := 3 }

/-! ### Reads (R350) -/

/-- ENGSTOP as a read gives it (Table 14-8). -/
def Engstop.word (e : Engstop) : W64 :=
  BitVec.ofNat 64 ((if e.busy then 2 ^ 59 else 0) + e.res % 16 * 16 + (if e.cstop then 2 else 0) + (if e.mstop then 1 else 0))

/-- CPROG (Table 10-4); a free entry reads 0. -/
def Skid.cprog (e : Skid) : W64 := BitVec.ofNat 64 (e.state % 4 * 2 ^ 62 + e.cause % 256 * 2 ^ 48 + e.done % 2 ^ 48)

/-- MPROG (Table 10-12). -/
def Mill.mprog (m : Mill) : W64 :=
  let st := if m.state = 2 then 2 else if m.queue.isEmpty then 0 else 1
  BitVec.ofNat 64 (st * 2 ^ 62 + m.group % 256 * 2 ^ 32 + m.tile % 256 * 2 ^ 24 + m.queue.length % 4096 * 2 ^ 12)

/-- The writable bits of winN.A, winN.B and apN (Tables 1-1, 1-2, 1-6). -/
def winAMask : W64 := 0xFFFFFFFFFFFFFE00
def winBMask : W64 := 0xFDFFFFFFFFFFF000
def aperMask : W64 := 0x800FFFFFC0000000

/-- The word of the copy that a window or aperture register names (R350). -/
def copyWord (reg : Nat) : Nat := if reg < 0x480 then reg - 0x460 else 64 + (reg - 0x480)
def copyMask (reg : Nat) : W64 := if 0x480 ≤ reg then aperMask else if reg % 2 = 0 then winAMask else winBMask

/-- lx1 of a gang as MFS reads it (R201, R215): undefined in the lanes of a write in flight, and of the issuing gang in those another
part has written (R184). -/
def State.readCarry (s : State) (slot : Nat) (g : Gang) : W64 :=
  BitVec.ofNat 64 ((List.range 32).foldl (fun a l =>
    if (if g.carryOpen s.clock l || (decide (slot = s.cur.slot) && (s.unmerged .lx1 (l / 4) || s.cur.bad)) then Config.freeBit s.free (0x2100 + l) else g.lx1.getLsbD l) then a + 2 ^ l else a) 0)

/-- A predicate of a gang as MFS reads it: undefined in flight, and of the issuing gang in the lanes another part has written (R184,
R211). -/
def State.readPred (s : State) (slot n : Nat) (g : Gang) : W64 :=
  if g.busy s.clock (.p n) then Config.freeW64 s.free (0x60 + n)
  else if slot = s.cur.slot ∧ (List.range 8).any (s.unmerged (.p n)) then
    BitVec.ofNat 64 ((List.range 32).foldl (fun a l => if s.predLane n l then a + 2 ^ l else a) 0)
  else (g.preg n).setWidth 64

/-- SLPCs (Table 11-9). -/
def Slice.slpc (x : Slice) : W64 := (if x.ended then 0x8000000000000000 else 0) ||| (if x.rgw then 0x4000000000000000 else 0) ||| pcBits x.pc

/-- The part of slice k, for SLPART. -/
def Gang.slpart (g : Gang) : Nat := (List.range g.nsl).foldl (fun a k => a + (g.slice k).lead % 8 * 16 ^ k) 0

/-- A register of the gang in a slot of a core, as MFS reads it; a descriptor that an LDC is still to write is undefined (R213). The
registers of a slice the gang does not have read 0 (DESIGN CHOICE, log entry 44). -/
def State.readGangReg (s : State) (c slot reg : Nat) : W64 :=
  let g := s.gang c slot
  if reg < 0x20 then BitVec.ofNat 64 ((g.flag reg).word (s.faultOn c slot reg).isSome)
  else if reg = 0x20 then BitVec.ofNat 64 ((List.range 32).foldl (fun a n => if (g.flag n).err then a + 2 ^ n else a) 0)
  else if reg = 0x21 then s.readCarry slot g
  else if reg < 0x30 then (g.mpreg (reg - 0x28)).setWidth 64
  else if reg = 0x30 then 0
  else if reg < 0x60 then (laneGet g.rng (reg - 0x40)).setWidth 64
  else if reg < 0x67 then s.readPred slot (reg - 0x60) g
  else if reg = 0x70 then BitVec.ofNat 64 g.slmask
  else if reg = 0x71 then BitVec.ofNat 64 g.sldepth
  else if reg = 0x72 then BitVec.ofNat 64 g.slpart
  else if reg < 0x80 then (g.slice (reg - 0x78)).slpc
  else if reg < 0xC0 then mget 0 (g.slice ((reg - 0x80) / 8)).stack ((reg - 0x80) % 8)
  else if 0x500 ≤ reg ∧ reg < 0x540 then
    (if g.busy s.clock (.d ((reg - 0x500) / 4)) then Config.freeW64 s.free reg else mget 0 g.desc (reg - 0x500))
  else 0

/-- A register of a crew. -/
def State.readCrewReg (s : State) (c cs reg : Nat) (pmc : Map W64) : W64 :=
  let w := s.crew c cs
  let k := s.core c
  if reg < 0xD0 then mget 0 w.bst (reg - 0xC0)
  else if reg = 0xD0 then w.sbst
  else if reg < 0x180 then
    (match w.granules[reg - 0x100]? with | some p => (k.tag p).setWidth 64 | none => 0)
  else if reg < 0x380 then (if reg - 0x180 < w.wslots then (mget 0 w.wstag (reg - 0x180)).setWidth 64 else 0)
  else if reg < 0x610 then mget 0 pmc (reg - 0x600)
  else 0

/-- The value MFS returns. -/
def State.readSys (s : State) (reg : Nat) : W64 :=
  let c := s.cur.core
  let k := s.core c
  let slot := s.selected
  let cs := (s.gang c slot).cslot
  match sysScopeOf reg with
  | some .gang => s.readGangReg c slot reg
  | some .crew => s.readCrewReg c cs reg (if slot = s.cur.slot then s.cur.pmc else (s.crew c cs).pmc)
  | some .context =>
    if reg = 0x382 then BitVec.ofNat 64 (s.ctxOf c slot % 4096)
    else (s.copy c (s.ctxOf c slot)).word s.clock (copyWord reg)
  | some .device => BitVec.ofNat 64 s.devId
  | some .core =>
    if reg = 0x380 then BitVec.ofNat 64 k.scrstale
    else if reg = 0x383 then BitVec.ofNat 64 s.clock
    else if reg = 0x384 then k.selgang
    else if reg = 0x385 then k.mill.mprog
    else if reg = 0x386 then k.engstop.word
    else ((mget? k.skid (reg - 0x400)).map Skid.cprog).getD 0
  | none => 0

/-! ### Writes -/

/-- A tag R55 forbids: FMT 5 to 7, K4 and GEOM apart, or SGRAN beyond the allocation. -/
def gtagBad (v : W64) (n : Nat) : Bool :=
  let fmt := bitsOf v.toNat 17 15
  decide (5 ≤ fmt) || ((fmt == 1) != v.getLsbD 14) || (fmt == 1 && decide (n ≤ bitsOf v.toNat 13 7))

/-- The value or the register is refused (R348; class 4 of Table 7-12). -/
def State.writeTrap (s : State) (reg : Nat) (v : W64) : Option Trap :=
  let w := s.crew s.cur.core (s.gang s.cur.core s.selected).cslot
  let bad :=
    if 0x28 ≤ reg ∧ reg < 0x30 then !policyOk (v.setWidth 8)
    else if reg = 0x71 then (List.range 8).any (fun k => decide (8 < v.toNat / 16 ^ k % 16))
    else if 0x100 ≤ reg ∧ reg < 0x180 then decide (w.granules.length ≤ reg - 0x100) || gtagBad v w.granules.length
    else false
  if bad then some (illegal .c) else none

/-- A write of FSTn, SLPCs or another gang register without an event of its own, as it takes effect. One that names a slice the gang does
not have is dropped (DESIGN CHOICE, log entry 44). -/
def Gang.writeReg (g : Gang) (reg : Nat) (v : W64) : Gang :=
  if reg < 0x20 then
    let f := g.flag reg
    { g with flags := mset g.flags reg { f with err := v.getLsbD 7, cause := bitsOf v.toNat 15 8 } }
  else if reg = 0x21 then { g with lx1 := v.setWidth 32 }
  else if reg < 0x30 then (if reg = 0x28 then g else { g with mp := mset g.mp (reg - 0x28) (v.setWidth 8) })
  else if reg < 0x60 then
    { g with rng := lanesOf (fun l => if l = reg - 0x40 then (if v.setWidth 32 = (0 : W32) then 1 else v.setWidth 32) else laneGet g.rng l) }
  else if reg < 0x67 then { g with p := mset g.p (reg - 0x60) (v.setWidth 32) }
  else if reg = 0x70 then
    { g with slices := g.slices.mapIdx (fun k x => { x with mask := BitVec.ofNat 4 (v.toNat / 16 ^ k) }) }
  else if reg = 0x72 then
    { g with slices := g.slices.mapIdx (fun k x => { x with lead := v.toNat / 16 ^ k % 8 }) }
  else if reg < 0x80 then
    let k := reg - 0x78
    let x := g.slice k
    let pc := pcOf v
    let g1 := if pc = x.pc then g else g.setPart x.lead { g.part x.lead with wait := .none }
    if k < g.nsl then g1.setSlice k { x with pc := pc, ended := v.getLsbD 63, rgw := v.getLsbD 62 } else g
  else if reg < 0xC0 then
    let k := (reg - 0x80) / 8
    let x := g.slice k
    if k < g.nsl then g.setSlice k { x with stack := mset x.stack ((reg - 0x80) % 8) (v &&& 0xF1FFFFFFFFFFFFF0) } else g
  else if 0x500 ≤ reg ∧ reg < 0x540 then { g with desc := mset g.desc (reg - 0x500) v }
  else g

/-- A write of BSTn, SBST or a counter. -/
def Crew.writeReg (w : Crew) (reg : Nat) (v : W64) : Crew :=
  if reg < 0xD0 then { w with bst := mset w.bst (reg - 0xC0) (v &&& 0xDF000000FFFFFFFF) }
  else if reg = 0xD0 then { w with sbst := v &&& 0x40FF0000FFFFFFFF }
  else if 0x600 ≤ reg ∧ reg < 0x610 then { w with pmc := mset w.pmc (reg - 0x600) v }
  else w

/-- A system-register write without an event of its own takes effect on the gang in a slot. -/
def State.landSys (s : State) (c slot reg : Nat) (v : W64) : State :=
  match sysScopeOf reg with
  | some .gang => match s.gang? c slot with
    | some g => s.setGang c slot (g.writeReg reg v)
    | none => s
  | some .crew =>
    let cs := (s.gang c slot).cslot
    if (s.gang? c slot).isSome then s.setCrew c cs ((s.crew c cs).writeReg reg v) else s
  | some .core => if reg = 0x384 then s.setCore c { s.core c with selgang := v &&& 0x800000000000003F } else s
  | _ => s

/-- The events of their own that a system-register write brings about (ENGSTOP: its command, or with CMD 0 its stop bits, R422). -/
def sysEvents (reg : Nat) (v : W64) : List Instr :=
  if reg = 0x20 then [.ferrClear]
  else if reg = 0x30 then [.rngseedWrite]
  else if reg = 0x71 then [.sldepthWrite]
  else if 0x100 ≤ reg ∧ reg < 0x180 then [.gtagWrite]
  else if reg = 0x385 then [.mprogWrite]
  else if 0x400 ≤ reg ∧ reg < 0x460 then [.cprogWrite]
  else if reg = 0x386 then
    (match v.toNat / 2 ^ 60 with
     | 0 => [.engstopCstop, .engstopMstop]
     | 1 => [.engstopQuiesce]
     | 2 => [.engstopPark]
     | 3 => [.engstopUnpark]
     | 4 => [.engstopRelease]
     | 5 => [.engstopEnd]
     | 6 => [.engstopRestoreRequest]
     | _ => [])
  else []

/-- RNGSEED_WRITE (R96). -/
def execRngseedWrite (s : State) : Out :=
  match s.ev with
  | .sysw c slot _ v =>
    match s.gang? c slot with
    | some g => .next (s.setGang c slot { g with rng := lanesOf (Num.rngSeed (v.setWidth 32)) })
    | none => .next s
  | _ => .next s

/-- FERR_CLEAR (R334). -/
def execFerrClear (s : State) : Out :=
  match s.ev with
  | .sysw c slot _ v =>
    match s.gang? c slot with
    | some g => .next (s.setGang c slot { g with flags := g.flags.map (fun f =>
        if v.getLsbD f.1 then (f.1, { f.2 with err := false, cause := 0 }) else f) })
    | none => .next s
  | _ => .next s

/-- SLDEPTH_WRITE (R351): positions that leave the stack are cleared. -/
def execSldepthWrite (s : State) : Out :=
  match s.ev with
  | .sysw c slot _ v =>
    match s.gang? c slot with
    | some g => .next (s.setGang c slot { g with slices := g.slices.mapIdx (fun k x =>
        let d := v.toNat / 16 ^ k % 16
        { x with depth := d, stack := x.stack.filter (fun e => !(decide (d ≤ e.1) && decide (e.1 < x.depth))) }) })
    | none => .next s
  | _ => .next s

/-- GTAG_WRITE (R55): STATE and GEN stay. -/
def execGtagWrite (s : State) : Out :=
  match s.ev with
  | .sysw c slot reg v =>
    let k := s.core c
    match (s.crew c (s.gang c slot).cslot).granules[reg - 0x100]? with
    | some p =>
      let t := (k.tag p).toNat
      .next (s.setCore c { k with gtag := mset k.gtag p (BitVec.ofNat 32 (t / 2 ^ 18 * 2 ^ 18 + bitsOf v.toNat 17 4 * 16)) })
    | none => .next s
  | _ => .next s

end Sys2Proof.Machine
end

