-- ==== Sys2Proof/Machine/CSys.lean ====
section
/-! DEFINITION. CSys: MFS and MTS, policies and windows, join-unit operations and register images (R348 to R355), and the landing
of fixed-latency writes (R211, R212). -/

namespace Sys2Proof.Machine
open Sys2Proof

/-- MFS (R348): the value read at issue, 4 clocks later in sd. -/
def execMfs (sd : BitVec 5) (reg : BitVec 16) (s : State) : Out :=
  cRun (.mfs sd reg)
    (fun s => match sysRow reg.toNat with
      | some r => orTrap (s.sysPriv r.gangR) (s.selTrap r false)
      | none => none)
    (fun s => (s.setMe (s.me.write ⟨s.clock + 4, s.clock, .s sd.toNat, 0, [], s.readSys reg.toNat⟩)).bump) s

/-- The effect of MTS, from 4 clocks after its issue: a window or aperture of the core's copy, an event of its own, or a plain
write. -/
def State.writeSys (s : State) (reg : Nat) (v : W64) : State :=
  let c := s.cur.core
  let slot := s.selected
  if sysScopeOf reg = some .context then
    let ctx := s.ctxOf c slot
    let k := s.core c
    s.setCore c { k with copies := mset k.copies ctx ((s.copy c ctx).write s.clock (s.clock + 4) (copyWord reg) (v &&& copyMask reg)) }
  else
    match sysEvents reg v with
    | [] => s.setMe (s.me.write ⟨s.clock + 4, s.clock, .sys slot reg, 0, [], v⟩)
    | ops =>
      let items := ops.map (fun op => ({ op := op, arg := .sysw c slot reg v, due := s.clock + 4 } : Pending))
      { s with agenda := s.agenda ++ items }

/-- MTS (R348). -/
def execMts (sa : BitVec 5) (reg : BitVec 16) (s : State) : Out :=
  cRun (.mts sa reg)
    (fun s => match sysRow reg.toNat with
      | some r => orTrap (s.sysPriv r.gangW) (orTrap (s.selTrap r true) (s.writeTrap reg.toNat (s.sregNow sa.toNat 20)))
      | none => none)
    (fun s => (s.writeSys reg.toNat (s.sregNow sa.toNat 20)).bump) s

/-- MPSET (R352, R118). -/
def execMpset (n : BitVec 3) (v : BitVec 8) (s : State) : Out :=
  cRun (.mpset n v) noCond (fun s => s.setMe (s.me.write ⟨s.clock + 4, s.clock, .mp n.toNat, 0, [], v.setWidth 64⟩)) s

/-- WINSET (R352, R19): both halves of a window in one step. -/
def execWinset (a : BitVec 5) (n : BitVec 4) (s : State) : Out :=
  cRun (.winset a n)
    (fun s => orTrap (privTrap s) (if s.selectable false then none else some (illegal .c)))
    (fun s =>
      let c := s.cur.core
      let ctx := s.ctxOf c s.selected
      let k := s.core c
      let due := s.clock + 4
      let w1 := (s.copy c ctx).write s.clock due (2 * n.toNat) (s.sregNow a.toNat 20 &&& winAMask)
      let w2 := w1.write s.clock due (2 * n.toNat + 1) (s.sregNow (a.toNat + 1) 21 &&& winBMask)
      (s.setCore c { k with copies := mset k.copies ctx w2 }).bump) s

/-! ### Join-unit operations (R353) -/

/-- A record of `n` scalar registers from S, with the handle of H, on its way to a join unit: a store-queue access with policy
0x23. -/
def State.joinReq (s : State) (z n : Nat) (sr h f : BitVec 5) : State :=
  s.issueReq { kind := .join, flag := f.toNat, pol := 0x23, dest := h.toNat, opc := 0x42, z := z,
               words := (List.range n).map (fun i => s.sregNow (sr.toNat + i) (10 + i)) ++ [s.sregNow h.toNat 20 &&& 0xFFFFFFFF],
               lanes := [{ lane := 0, path := 4, size := 8, stage := 1 }] }

/-- A join-unit operation that counts on its flag. -/
def cJoin (i : Instr) (z n : Nat) (sr h f : BitVec 5) (s : State) : Out :=
  cRun i (overflowTrap .c f.toNat) (fun s => (s.joinReq z n sr h f).bump) s

/-- PATSET. -/
def execPatset (sr h f : BitVec 5) (s : State) : Out := cJoin (.patset sr h f) 0 4 sr h f s

/-- PORTCFG: s(H) takes the port's handle. -/
def execPortcfg (sr h f : BitVec 5) (s : State) : Out :=
  cRun (.portcfg sr h f) (overflowTrap .c f.toNat) (fun s =>
    let t := s.joinReq 1 2 sr h f
    (t.setMe (t.me.mark (.s h.toNat) f.toNat s.clock)).bump) s

/-- QCREATE: s(H) takes the queue's handle. -/
def execQcreate (sr h f : BitVec 5) (s : State) : Out :=
  cRun (.qcreate sr h f) (overflowTrap .c f.toNat) (fun s =>
    let t := s.joinReq 2 4 sr h f
    (t.setMe (t.me.mark (.s h.toNat) f.toNat s.clock)).bump) s

/-- QDESTROY. -/
def execQdestroy (sr h f : BitVec 5) (s : State) : Out := cJoin (.qdestroy sr h f) 3 0 sr h f s

/-! ### Register images (R355) -/

/-- The lines of an image: through the supervisor's windows, PATH 0 alone. -/
def State.imagePieces (s : State) (a n : Nat) (wr : Bool) (bs : List Byte) : List LaneAcc :=
  let looks := (List.range (n / 128)).map (fun i => (i, s.look s.cur.core s.myCrew.ctx ((a + 128 * i) % 2 ^ 64) wr))
  match looks.find? (fun p => p.2.cause != 0 || p.2.path != 0) with
  | some p => [{ lane := 0, ia := p.2.ia, path := p.2.path, size := n, stage := 4, cause := if p.2.cause = 0 then 0x02 else p.2.cause }]
  | none => looks.map (fun p =>
      { lane := 0, off := 128 * p.1, ia := p.2.ia, size := 128, data := ofBytesLE ((bs.drop (128 * p.1)).take 128), stage := 0 })

/-- Class 4 of LIMG and SIMG: the selected gang, then the address. -/
def imageTrap (a : BitVec 5) (s : State) : Option Trap :=
  if !s.selectable false then some (illegal .c)
  else if (s.sregNow a.toNat 20).toNat % 128 ≠ 0 then some { tcause := 0x63, slot := 3 }
  else none

/-- SIMG: the image as the selected gang holds it at issue. -/
def execSimg (a : BitVec 5) (kind : BitVec 3) (f : BitVec 5) (s : State) : Out :=
  cRun (.simg a kind f) (fun s => orTrap (privTrap s) (orTrap (overflowTrap .c f.toNat s) (imageTrap a s))) (fun s =>
    let c := s.cur.core
    let slot := s.selected
    let bs := (s.gang c slot).image kind.toNat (fun n => (s.faultOn c slot n).isSome)
    (s.issueReq { kind := .simg, flag := f.toNat, pol := 0x23, dest := slot, opc := 0x41, z := kind.toNat,
                  lanes := s.imagePieces (s.sregNow a.toNat 20).toNat bs.length true bs }).bump) s

/-- LIMG: the image is written to the selected gang on completion. -/
def execLimg (a : BitVec 5) (kind : BitVec 3) (f : BitVec 5) (s : State) : Out :=
  cRun (.limg a kind f) (fun s => orTrap (privTrap s) (orTrap (overflowTrap .c f.toNat s) (imageTrap a s))) (fun s =>
    let slot := s.selected
    let n := imageSize kind.toNat (s.gang s.cur.core slot).regs
    (s.issueReq { kind := .limg, flag := f.toNat, pol := 0x23, dest := slot, opc := 0x40, z := kind.toNat,
                  lanes := s.imagePieces (s.sregNow a.toNat 20).toNat n false [] }).bump) s

/-! ### Fixed-latency writes (R211) -/

/-- The write of a gang that completes first: least due clock, then issue order. DESIGN CHOICE (log entry 42): of two slots of one bundle
that write one register at one clock, which R212 does not order, the later slot's value stays. -/
def Gang.firstPend (g : Gang) : Option Pend :=
  g.pend.foldl (fun b p => match b with
    | none => some p
    | some q => if p.due < q.due then some p else some q) none

/-- FIXED_LATENCY_WRITEBACK (R211, R212): the gang's first due write reaches its register. -/
def execFixedLatencyWriteback (s : State) : Out :=
  match s.ev with
  | .gang c slot =>
    match s.gang? c slot with
    | none => .next s
    | some g => match g.firstPend with
      | none => .next s
      | some p =>
        if s.clock < p.due then .next s
        else
          let s1 := s.setGang c slot ({ g with pend := g.pend.erase p }.land p)
          match p.dest with
          | .sys t reg => .next (s1.landSys c t reg p.word)
          | _ => .next s1
  | _ => .next s

end Sys2Proof.Machine
end

