-- ==== Sys2Proof/Machine/MSlot.lean ====
section
/-! DEFINITION. MSlot: the shapes the M-slot meanings share: lanes and addresses (R263, R264), the precise checks (R265, R293),
requests of lanes and uniform requests. -/

namespace Sys2Proof.Machine
open Sys2Proof

/-- The M guard in a lane (Table 7-4). -/
def State.mGuard (s : State) (gm : BitVec 2) (l : Nat) : Bool :=
  match gm.toNat with
  | 0 => true
  | 1 => s.predLane 0 l
  | 2 => !s.predLane 0 l
  | _ => s.predLane 1 l

/-- The participating lanes of an M-slot operation (R263). -/
def State.mLanes (s : State) (o : MOp) : List Nat := s.activeLanes.filter (s.mGuard o.gm)

/-- Base register of an address. -/
def State.baseReg (s : State) (o : MOp) : Nat := (s.sregNow o.base.toNat 8).toNat

/-- The formed address of a lane, its offset scaled (R264, R270). -/
def State.addr (s : State) (o : MOp) (scale l : Nat) : Nat := (s.baseReg o + s.ofsLane o.ofs l * scale) % 2 ^ 64

/-- The formed address of a uniform operation. -/
def State.addr1 (s : State) (o : MOp) : Nat := (s.baseReg o + s.ofsScalar o.ofs) % 2 ^ 64

/-- The value of the operation's policy register at issue (R117). -/
def State.policy (s : State) (o : MOp) : BitVec 8 := s.me.mpreg o.pol.toNat

/-- Lanes whose address is not a multiple of the width raise the alignment trap (R265). -/
def alignTrap (s : State) (o : MOp) (w : Nat) (ls : List Nat) : Option Trap :=
  let bad := ls.filter (fun l => decide (s.addr o 1 l % w ≠ 0))
  if bad.isEmpty then none else some { tcause := 0x63, slot := 1, info := (maskOf bad).toNat }

/-- An M-slot operation: the precise conditions in order, else it counts and has its effect (R218, R293). -/
def mRun (i : Instr) (o : MOp) (own : State → Option Trap) (eff : State → State) (s : State) : Out :=
  guarded (orTrap (illegalTrap .m i s) (orTrap (overflowTrap .m o.flag.toNat s) (own s))) s (eff (s.pmc 3 1))

/-- No condition of the instruction's own. -/
def noTrap (_ : State) : Option Trap := none

/-- The paths of an access to memory (R17, R147): global, scratchpads, peer, read-only. -/
def memPaths : List Nat := [0, 1, 2, 3, 6]

/-- The pieces of the lanes of an access of `n` bytes. -/
def State.laneReqs (s : State) (o : MOp) (ls : List Nat) (n scale z : Nat) (wr : Bool) (data : Nat → Nat) (paths : List Nat) :
    List LaneAcc :=
  ls.flatMap (fun l => s.lanePieces s.cur.core s.me.cslot s.myCrew.ctx (s.addr o scale l) n wr z l (data l) paths)

/-- A request of an M-slot operation. -/
def State.mReq (s : State) (o : MOp) (opc : Nat) (k : ReqKind) (lanes : List LaneAcc) : Req :=
  { kind := k, flag := o.flag.toNat, pol := s.policy o, dest := o.data.toNat, group := mGroup opc, opc := opc, z := o.z.toNat,
    lanes := lanes }

/-- Note a group of vector destinations (R213), written in some lanes. -/
def State.markV (s : State) (d g f : Nat) (ls : List Nat) : State :=
  (List.range g).foldl (fun t i => t.setMe (t.me.mark (.v (d + i)) f s.clock (maskOf ls))) s
/-- Note a scalar destination. -/
def State.markS (s : State) (n f : Nat) : State := s.setMe (s.me.mark (.s n) f s.clock)

/-- A vector load: LD (`raw` false) and LDRAW, `w` bytes a lane (R267, R270). -/
def mLoad (i : Instr) (o : MOp) (opc w : Nat) (raw : Bool) (s : State) : Out :=
  mRun i o noTrap (fun s =>
    let lanes := s.laneReqs o (s.mLanes o) w (if raw then w else 1) o.z.toNat false (fun _ => 0) memPaths
    (s.issueReq (s.mReq o opc (if raw then .rawLoad else .load) lanes)).markV o.data.toNat (mGroup opc) o.flag.toNat (s.mLanes o)) s

/-- A scalar load of `w` bytes (R268). -/
def mLoadS (i : Instr) (o : MOp) (opc w : Nat) (s : State) : Out :=
  mRun i o noTrap (fun s =>
    let lanes := s.lanePieces s.cur.core s.me.cslot s.myCrew.ctx (s.addr1 o) w false o.z.toNat 0 0 memPaths
    (s.issueReq (s.mReq o opc .loadS lanes)).markS (o.data.toNat - 0x80) o.flag.toNat) s

/-- A vector store: ST and STRAW of `w` bytes a lane (R269, R270); the 8-byte forms may go to a port (R362). -/
def mStore (i : Instr) (o : MOp) (opc w scale : Nat) (s : State) : Out :=
  mRun i o noTrap (fun s =>
    let paths := if w = 8 then 4 :: memPaths else memPaths
    let lanes := s.laneReqs o (s.mLanes o) w scale o.z.toNat true (s.dataLane o.data (mGroup opc)) paths
    s.issueReq (s.mReq o opc (if opc < 0x14 then .store else .rawStore) lanes)) s

/-- ATOM of `w` bytes (R277): the operand's register group takes the value found. -/
def mAtom (i : Instr) (o : MOp) (opc w : Nat) (s : State) : Out :=
  mRun i o (fun s => alignTrap s o w (s.mLanes o)) (fun s =>
    let lanes := s.laneReqs o (s.mLanes o) w 1 0 true (s.dataLane o.data (mGroup opc)) memPaths
    (s.issueReq (s.mReq o opc .atom lanes)).markV o.data.toNat (mGroup opc) o.flag.toNat (s.mLanes o)) s

/-- REDM of `w` bytes (R278). -/
def mRedm (i : Instr) (o : MOp) (opc w : Nat) (s : State) : Out :=
  mRun i o (fun s => alignTrap s o w (s.mLanes o)) (fun s =>
    let lanes := s.laneReqs o (s.mLanes o) w 1 0 true (s.dataLane o.data (mGroup opc)) memPaths
    s.issueReq (s.mReq o opc .redm lanes)) s

/-- ATOMCAS of `w` bytes (R279): the even participating lanes act, each with its odd neighbour's compare value. -/
def mCas (i : Instr) (o : MOp) (opc w : Nat) (s : State) : Out :=
  let ev (s : State) := (s.mLanes o).filter (fun l => l % 2 == 0)
  mRun i o (fun s => alignTrap s o w (ev s)) (fun s =>
    let lanes := s.laneReqs o (ev s) w 1 0 true (s.dataLane o.data (mGroup opc)) memPaths
    let lanes := lanes.map (fun l => { l with cmp := s.dataLane o.data (mGroup opc) (l.lane + 1) })
    (s.issueReq (s.mReq o opc .cas lanes)).markV o.data.toNat (mGroup opc) o.flag.toNat ((ev s).flatMap (fun l => [l, l + 1]))) s

/-! ### Accumulator elements (R280) -/

/-- The element a lane names: tile times 256 plus index. -/
def State.accElem (s : State) (o : MOp) (l : Nat) : Nat :=
  (s.baseReg o % 2048) * 256 + s.ofsLane o.ofs l % 2 ^ 32

/-- The crew whose tiles an operation with PEER = 0 reaches (R411), and whose allocation it is checked against. -/
def State.accOwn (s : State) (o : MOp) : Nat :=
  if (s.baseReg o).testBit 15 then s.me.cslot else s.ownSlot s.cur.core s.me.cslot

/-- Class 4 of ACCST and ACCLD: a tile at or beyond the allocation; ACCLD of a peer. -/
def accTrap (o : MOp) (ld : Bool) (s : State) : Option Trap :=
  if (ld && (s.baseReg o).testBit 15) || (s.mLanes o).any (fun l => decide ((s.crew s.cur.core (s.accOwn o)).tiles ≤ s.accElem o l / 256))
  then some (illegal .m) else none

/-- The pieces of ACCST and ACCLD; an absent peer is cause 0x07. -/
def State.accPieces (s : State) (o : MOp) (data : Nat → Nat) : List LaneAcc :=
  let b := s.baseReg o
  let tgt := if b.testBit 15 then s.standPeer s.cur.core s.me.cslot (b / 4096 % 8) else some (s.cur.core, s.accOwn o)
  (s.mLanes o).map (fun l =>
    match tgt with
    | none => { lane := l, path := 8, size := 4, stage := 4, cause := 0x07 }
    | some (c, k) =>
      { lane := l, path := 8, core := c, cslot := k, stand := (s.crew c k).stand, size := 4, data := data l % 2 ^ 32, stage := 1,
        pa := s.accElem o l })

/-- ACCST. -/
def mAccst (i : Instr) (o : MOp) (opc : Nat) (s : State) : Out :=
  mRun i o (accTrap o false) (fun s => s.issueReq (s.mReq o opc .accst (s.accPieces o (s.dataLane o.data 1)))) s

/-! ### One address of a port or queue (R284) -/

/-- The piece of SEND, QPUSH, QPOP and QTRY: a PATH 4 address whose W[56:32] is 0; `home` requires the local device. -/
def State.portPiece (s : State) (o : MOp) (wr home : Bool) : List LaneAcc :=
  let v := s.look s.cur.core s.myCrew.ctx (s.addr1 o) wr
  let bad (c : Nat) : List LaneAcc := [{ lane := 0, ia := v.ia, path := v.path, stage := 4, cause := c }]
  if v.cause ≠ 0 then bad v.cause
  else if v.path ≠ 4 ∨ 2 ^ 32 ≤ v.ofs ∨ (home = true ∧ v.peer ≠ 0) then bad 0x02
  else [{ lane := 0, ia := v.ia, path := 4, peer := v.peer, size := 8, stage := 1, pa := v.ofs }]

/-- Scalar registers from n as carried words. -/
def State.regWords (s : State) (n k : Nat) : List W64 := (List.range k).map (fun i => s.sregNow ((n + i) % 32) (10 + i))

/-! ### Group-tagged stores (R151, R290, R291) -/

/-- The core's copy of a group's state: 0 not open, 1 open, 2 exchange in progress. It is the origin table's, but for what the
core's own GOPEN, GCOMMIT or GABORT has set until the table takes it (R325). -/
def State.groupCopy (s : State) (c ctx g : Nat) : Nat :=
  match mget? (s.core c).groups (groupKey ctx g) with
  | some v => v
  | none =>
    let x := mget {} s.groups (groupKey ctx g)
    if x.opened then (if x.phase = 0 then 1 else 2) else 0
/-- The group an STG names. -/
def State.stgGroup (s : State) (o : MOp) : Nat := s.baseReg o / 2 ^ 54 % 1024
/-- The address of an STG lane. -/
def State.stgAddr (s : State) (o : MOp) (l : Nat) : Nat := (s.baseReg o % 2 ^ 54 + s.ofsLane o.ofs l) % 2 ^ 64

/-- The piece of an STG lane (R151). -/
def State.stgPiece (s : State) (o : MOp) (w data l : Nat) : LaneAcc :=
  let a := s.stgAddr o l
  let ctx := s.myCrew.ctx
  let bad (c : Nat) : LaneAcc := { lane := l, path := 5, size := w, stage := 4, cause := c }
  if !canonical a ∨ a % 2 ^ 57 / 2 ^ 54 ≠ 0 then bad 0x06
  else
    let v := if s.split ctx then s.lookSplit s.cur.core ctx (5 * 2 ^ 54 + a % 2 ^ 54) true else s.look s.cur.core ctx a true
    if v.cause ≠ 0 then bad v.cause
    else if v.path ≠ 5 then bad 0x02
    else { lane := l, ia := v.ia, path := 5, peer := v.peer, size := w, data := data % 256 ^ w, stage := 1 }

/-- Class 4 of STG: misaligned lanes, or a group that is not open. -/
def stgTrap (o : MOp) (w : Nat) (s : State) : Option Trap :=
  let bad := (s.mLanes o).filter (fun l => decide (s.stgAddr o l % w ≠ 0))
  if s.groupCopy s.cur.core s.myCrew.ctx (s.stgGroup o) ≠ 1 then some (illegal .m)
  else if bad.isEmpty then none else some { tcause := 0x63, slot := 1, info := (maskOf bad).toNat }

/-- STG of `w` bytes (R290); on a group already failed it sends nothing (R291). -/
def mStg (i : Instr) (o : MOp) (opc w : Nat) (s : State) : Out :=
  mRun i o (stgTrap o w) (fun s =>
    let ctx := s.myCrew.ctx
    let g := s.stgGroup o
    let x := mget {} s.groups (groupKey ctx g)
    let failed := x.opened && x.failed
    let lanes := if failed then [] else (s.mLanes o).map (fun l => s.stgPiece o w (s.dataLane o.data (mGroup opc) l) l)
    s.issueReq { s.mReq o opc .stg lanes with z := g }) s

end Sys2Proof.Machine
end

