-- ==== Sys2Proof/Machine/Skidder.lean ====
section
/-! DEFINITION. Skidder: how a copy advances (R298 to R302, R305 to R310, R101, R102): the piece it moves next, its read and its
write, the tags it carries, and its completion. -/

namespace Sys2Proof.Machine
open Sys2Proof

/-! ### Sides -/

/-- The side lies in a scratchpad. -/
def Side.scratch (d : Side) : Bool := d.path == 1 || d.path == 2

/-- Address of a place at a distance from the side's first byte: the offset in a scratchpad, else the virtual address. -/
def Side.at (d : Side) (k : Int) : Nat := wrapInt (((if d.scratch then d.ofs else d.va) : Nat) + k) 57

/-- Two sides name bytes of one space, so that equal addresses are one byte. -/
def Side.sameSpace (a b : Side) : Bool :=
  if a.scratch || b.scratch then a.scratch && b.scratch && a.core == b.core && a.cslot == b.cslot && a.alloc == b.alloc
  else a.tag == b.tag

/-! ### Chute entries (Table 10-10) -/

/-- Bytes of a data row, and rows in a unit, of an entry's format (R308): 0 BF16, 1 F16, 2 E4M3, 3 E5M2, 4 K4. -/
def rowBytes (df : Nat) : Nat := if df ≤ 1 then 32 else if df = 4 then 8 else 16
def unitRows (df : Nat) : Nat := 128 / rowBytes df

/-- Companion code of an entry's format: F16 is RAW (R308). -/
def chuteAttr (df : Nat) : Nat := match df with | 0 => 4 | 1 => 0 | 2 => 2 | 3 => 3 | _ => 1

/-- The first row of the units left: of a K4 entry whose data unit has gone, the rows' scale bytes remain. -/
def ChuteEntry.row0 (e : ChuteEntry) : Nat := if e.df = 4 then 0 else e.first * unitRows e.df

/-- Only the scale bytes of a K4 entry are left. -/
def ChuteEntry.scaleOnly (e : ChuteEntry) : Bool := e.df == 4 && e.first == 1

/-- Byte `col` of row `i`, and whether it is poisoned. -/
def ChuteEntry.byte (e : ChuteEntry) (i col : Nat) : Byte × Bool :=
  let u := i / unitRows e.df - e.first
  let b := i % unitRows e.df * rowBytes e.df + col
  ((e.units.getD u []).getD b 0, (e.bad.getD u []).contains b)

/-- The scale byte of row i of a K4 entry, and whether it is poisoned. -/
def ChuteEntry.scaleByte (e : ChuteEntry) (i : Nat) : Nat × Bool :=
  let u := 1 - e.first
  (((e.units.getD u []).getD i 0).toNat, (e.bad.getD u []).contains i)

/-! ### The piece a copy moves next -/

/-- Units of an operation (R298). -/
def Skid.units (e : Skid) : Nat :=
  match e.kind with
  | .cpy | .fill | .multicast => e.bytes
  | .rows | .gather => e.rows
  | .chute => e.entries.length
  | .wbld => e.rows

/-- The chute entry in hand. -/
def Skid.entry (e : Skid) : ChuteEntry := e.entries.getD e.done {}

/-- Bytes of a slot read by WBLD, and between slots in the source (Table 10-6). -/
def Skid.slotBytes (e : Skid) : Nat := if e.slotAttr = 1 then 512 else 1024

/-- Bytes of the unit in hand. -/
def Skid.unitBytes (e : Skid) : Nat :=
  match e.kind with
  | .cpy | .fill | .multicast => 1
  | .rows | .gather => e.bytes
  | .chute => (16 - e.entry.row0) * rowBytes e.entry.df
  | .wbld => e.slotBytes

/-- Its units are bytes. -/
def Skid.byBytes (e : Skid) : Bool := e.kind == .cpy || e.kind == .fill || e.kind == .multicast

/-- The piece in hand is the first of its range or row. -/
def Skid.opens (e : Skid) : Bool := e.sub == 0 && (e.done == 0 || !e.byBytes)

/-- Nothing is left to move. -/
def Skid.finished (e : Skid) : Bool := e.failed || decide (e.units ≤ e.done) || e.unitBytes == 0

/-- The operation reads a memory side. -/
def Skid.reads (e : Skid) : Bool := !(e.kind == .fill || e.kind == .chute)

/-- Row of the chute entry in hand, and byte within it. -/
def Skid.rowCol (e : Skid) : Nat × Nat :=
  (e.entry.row0 + e.sub / rowBytes e.entry.df, e.sub % rowBytes e.entry.df)

/-- Distances of the next byte in destination and source, and of the start of the range or row it belongs to; bytes of the
range or row; bytes of it left. -/
def Skid.place (e : Skid) : Int × Int × Int × Int × Nat × Nat :=
  let d : Int := e.done
  let b : Int := e.sub
  match e.kind with
  | .cpy | .fill | .multicast => (d, d, 0, 0, e.bytes, e.bytes - e.done)
  | .rows => (d * e.dpitch + b, d * e.spitch + b, d * e.dpitch, d * e.spitch, e.bytes, e.bytes - e.sub)
  | .gather =>
    let k : Int := (e.index.getD 0 : Nat)
    (d * e.dpitch + b, k * e.spitch + b, d * e.dpitch, k * e.spitch, e.bytes, e.bytes - e.sub)
  | .chute =>
    let (i, col) := e.rowCol
    let r : Int := d * e.dpitch + (i : Int) * e.spitch
    (r + (col : Int), 0, r, 0, rowBytes e.entry.df, rowBytes e.entry.df - col)
  | .wbld => (d * 1024 + b, d * (e.slotBytes : Int) + b, d * 1024, d * (e.slotBytes : Int), e.slotBytes, e.slotBytes - e.sub)

/-- Bytes of the next piece: to the next 8-byte boundary of the destination, within a page of the source; in memory one naturally
aligned write, so that a fault leaves none of it performed (R299). -/
def Skid.size (e : Skid) : Nat :=
  let (dk, sk, _, _, _, left) := e.place
  let n0 := min left (8 - (if e.kind = .wbld then e.sub else e.dst.at dk) % 8)
  let n := if e.kind = .wbld ∨ e.kind = .multicast ∨ e.dst.scratch = true then n0
    else (((pieces n0 (e.dst.at dk) 0 n0).head?).map Prod.snd).getD n0
  if e.reads then min n (4096 - e.src.at sk % 4096) else n

/-- The part of the range or row that lies on the page of a place does not begin and end on 8-byte boundaries (R300). -/
def offBlocks (d : Side) (k run : Int) (len : Nat) : Bool :=
  let back := (k - run).toNat
  let lo := d.at run
  let here := d.at k
  let start := if here % 4096 < back then 0 else lo % 8
  let rest := len - back
  let stop := if 4096 ≤ here % 4096 + rest then 0 else (here + rest) % 8
  start != 0 || stop != 0

/-! ### Reading -/

/-- Change a skidder entry. -/
def State.setSkid (s : State) (c e : Nat) (k : Skid) : State :=
  s.setCore c { s.core c with skid := mset (s.core c).skid e k }

/-- The crew slot of the gang an entry acts for. -/
def State.skidCrew (s : State) (c : Nat) (k : Skid) : Nat := (s.gang c k.slot).cslot

/-- An entry stops for good with a cause. -/
def Skid.fail (k : Skid) (cause : Nat) : Skid := { k with err := if k.err = 0 then cause else k.err, failed := true, aux := none }

/-- The first error of an operation that goes on. -/
def Skid.note1 (k : Skid) (cause : Nat) : Skid := { k with err := if k.err = 0 then cause else k.err }

/-- The number of `n` bytes in a scratchpad at a distance, their poison, the tag and the scale byte of the first; free values where
the crew and its granule are gone. -/
def State.sideRead (s : State) (d : Side) (k : Int) (n : Nat) : Nat × Bool × Nat × Nat :=
  let m := s.core d.core
  let p (i : Nat) : Nat := swizzle d.z (d.at (k + (i : Int)))
  if !m.accepts d.alloc (p 0) then
    (ofBytesLE ((List.range n).map (fun i => Config.freeByte s.free i)), false, 0, 0)
  else
    let t := m.tagAt d.alloc (p 0)
    let sofs := gtSgran t * 4096 + gtSslot t * 512 + p 0 % 4096 / 8
    let k4 := gtFmt t == 1
    (ofBytesLE ((List.range n).map (fun i => BitVec.ofNat 8 (m.srd d.alloc (p i) 1))),
      (List.range n).any (fun i => m.spoison d.alloc (p i) 1) || (k4 && m.spoison d.alloc sofs 1), gtFmt t,
      if k4 then m.srd d.alloc sofs 1 else 0)

/-- The attribute of a place of a side as the device knows it without an access: none at a peer, or where translation answers no
frame. -/
def State.peekAttr (s : State) (ctx : Nat) (d : Side) (k : Int) : Option Nat :=
  if d.scratch then some (gtFmt ((s.core d.core).tagAt d.alloc (d.at k)))
  else if d.path = 3 then none
  else match (s.translate ctx (d.at k) 0).2 with
    | .ok _ _ c _ _ => some (bitsOf c 63 61)
    | _ => none

/-- The number at a place of an index array, where it is at hand without an access. -/
def State.peekIndex (s : State) (ctx : Nat) (d : Side) (k : Int) : Option Nat :=
  if d.scratch then some (s.sideRead d k 4).1
  else if d.path = 3 then none
  else match (s.translate ctx (d.at k) 0).2 with
    | .ok f _ _ _ _ => some (s.rd (4096 * f + d.at k % 4096) 4)
    | _ => none

/-- A request of an entry for a memory side; `words`: the words of a line written whole that are poisoned (R79). -/
def State.skidReq (s : State) (c e : Nat) (k : Skid) (wr : Bool) (z : Nat) (lanes : List LaneAcc) (words : List Nat) : State :=
  let r : Req := { kind := if wr then .rawStore else .rawLoad, core := c, slot := 64 + e, ctx := s.ctxOf c k.slot, pol := k.pol,
                   opc := if wr then 0x44 else 0x43, z := z, lanes := lanes, words := words.map (BitVec.ofNat 64), born := s.clock }
  (s.addReq r).setSkid c e { k with aux := some s.nextId }

/-- The pieces of `n` bytes of a memory side. -/
def Side.lanes (d : Side) (k : Int) (n data : Nat) : List LaneAcc :=
  (pieces n (d.at k) 0 n).map (fun p =>
    { lane := 0, off := p.1, ia := BitVec.ofNat 64 (d.tag * 2 ^ 57 + d.at (k + (p.1 : Int)) % 2 ^ 57), path := d.path, peer := d.peer,
      size := p.2, data := data / 256 ^ p.1 % 256 ^ p.2, stage := if d.path = 3 then 1 else 0 })

/-- Ask for `n` bytes of a side: a scratchpad answers at once. -/
def State.skidRead (s : State) (c e : Nat) (k : Skid) (d : Side) (ofs : Int) (n : Nat) (got : Skid → Nat × Bool × Nat × Nat → Skid) :
    State :=
  if d.scratch then ((s.setSkid c e (got k (s.sideRead d ofs n))).power d.core 2 ((n + 7) / 8)).bump
  else s.skidReq c e k false (if k.opens then 8 else 0) (d.lanes ofs n 0) []

/-- The index of a gathered row is at hand. -/
def Skid.gotIndex (k : Skid) (x : Nat × Bool × Nat × Nat) : Skid :=
  let k1 := { k with index := some x.1, seen := x.1 :: k.seen, phase := 1, aux := none, probed := 0 }
  if x.2.1 then k1.note1 0x20 else k1

/-- A side does not hold its first `n` bytes: the window's cause, or the allocation's (R297). -/
def Side.short (d : Side) (n : Nat) : Option Nat :=
  if d.hi < (n : Int) - 1 then some 0x01
  else if d.scratch && decide (4096 * d.alloc.grans.length < d.ofs + n) then some 0x04
  else none

/-- The attribute of a WBLD's source is known: what conflicts with the qualifiers, or does not hold the slots, stops it (R297, R309). -/
def Skid.gotAttr (k : Skid) (attr : Nat) : Skid :=
  let k1 := { k with slotAttr := attr, attrKnown := true }
  if attr ≠ 0 ∧ (k.rf ≠ 0 ∨ k.sparse = true) then k1.fail 0x52
  else match k.src.short (k1.slotBytes * k.rows) with
    | some c => k1.fail c
    | none => k1

/-- The attribute of the source's first byte is at hand (R309). -/
def Skid.gotProbe (k : Skid) (x : Nat × Bool × Nat × Nat) : Skid := { k with phase := 1, aux := none }.gotAttr x.2.2.1

/-- The bytes of a piece are at hand, with their attribute: a K4 range off its blocks stops the operation (R300). The attribute of
the first byte of a WBLD governs all its slots (log entry 22). -/
def Skid.gotData (k : Skid) (x : Nat × Bool × Nat × Nat) : Skid :=
  let (dk, sk, dr, sr, len, _) := k.place
  let k1 := { k with buf := x.1, poison := x.2.1, attr := x.2.2.1, scale := x.2.2.2, phase := 2, aux := none }
  if k.kind = .wbld then
    let k2 := if k.attrKnown then k1 else k1.gotAttr x.2.2.1
    if k2.failed then k2
    else if x.2.2.1 = 1 ∧ k.src.at k2.place.2.1 % 8 ≠ 0 then k2.fail 0x50
    else k2
  else if x.2.2.1 = 1 ∧ (offBlocks k.src sk sr len || offBlocks k.dst dk dr len || k.src.at sk % 8 != k.dst.at dk % 8) then
    k1.fail 0x50
  else k1

/-! ### Writing -/

/-- The source rows of a gathering copy as far as they are known: those read, and those whose index is at hand; none for one that is
not. -/
def State.gathered (s : State) (c : Nat) (k : Skid) : List (Option Nat) :=
  k.seen.map some ++ ((List.range k.rows).filter (k.done < ·)).map (fun (r : Nat) => s.peekIndex (s.ctxOf c k.slot) k.idx (4 * (r : Int)))

/-- A byte of the destination is also a byte of the source (R298). A row of a gathering copy whose index is not known may lie anywhere
in its window. -/
def State.overlaps (s : State) (c : Nat) (k : Skid) (dst : Side) (dk : Int) : Bool :=
  k.reads && dst.sameSpace k.src && k.kind != .wbld &&
    (let a : Int := if dst.scratch then swizzle k.src.z (swizzle dst.z (dst.at dk)) else dst.at dk
     let b : Int := k.src.at 0
     let row (o : Int) : Bool := decide (o ≤ a) && decide (a < o + k.bytes)
     match k.kind with
     | .rows => (List.range k.rows).any (fun (r : Nat) => row (b + (r : Int) * k.spitch))
     | .gather => (s.gathered c k).any (fun i => match i with
       | some i => row (b + (i : Int) * k.spitch)
       | none => decide (b + k.src.lo ≤ a) && decide (a ≤ b + k.src.hi))
     | _ => row b)

/-- The bytes a piece writes to a side: those of the pattern by address (R303), of the chute entry, or those read, undefined where
source and destination overlap. -/
def State.pieceData (s : State) (c : Nat) (k : Skid) (dst : Side) (dk : Int) (n : Nat) : List Byte :=
  (List.range n).map (fun (i : Nat) =>
    match k.kind with
    | .fill => BitVec.ofNat 8 (k.pattern.toNat / 256 ^ (dst.at (dk + (i : Int)) % 8))
    | .chute => let (r, col) := k.rowCol; (k.entry.byte r (col + i)).1
    | _ => if s.overlaps c k dst (dk + (i : Int)) then Config.freeByte s.free i else BitVec.ofNat 8 (k.buf / 256 ^ i))

/-- Attribute, scale byte and poison of the piece in hand. -/
def Skid.pieceAttr (k : Skid) (n : Nat) : Nat × Nat × Bool :=
  match k.kind with
  | .fill => (0, 0, false)
  | .chute =>
    let (r, col) := k.rowCol
    let (sc, sb) := k.entry.scaleByte r
    let k4 := k.entry.df == 4
    (chuteAttr k.entry.df, if k4 then sc else 0,
      (!k.entry.scaleOnly && (List.range n).any (fun i => (k.entry.byte r (col + i)).2)) || (k4 && sb))
  | _ => (k.attr, k.scale, k.poison)

/-- The highest offset written so far in a granule of a target. -/
def Skid.highOf (k : Skid) (c cs g : Nat) : Option Nat :=
  (k.high.find? (fun h => h.1 == c && h.2.1 == cs && h.2.2.1 == g)).map (·.2.2.2)

/-- Bytes go to a scratchpad (R54, R56, R300): the data, the scale byte of a K4 block, and the granule's tag where no higher
byte has been written. A granule that is gone discards them; a peer's counts it. -/
def State.scratchPut (s : State) (c e : Nat) (t : Nat × Nat × Alloc) (d : Side) (dk : Int) (bs : List Byte) (attr scale : Nat)
    (bad scaleOnly : Bool) : State :=
  let (tc, tk, al) := t
  let k := mget {} (s.core c).skid e
  let m := s.core tc
  let o := d.at dk
  let p := swizzle d.z o
  if !m.accepts al p then (if tc = c then s else s.setCore tc m.stale)
  else
    let g := o / 4096
    let sofs := k.sgran * 4096 + k.sslot * 512 + p % 4096 / 8
    let s1 := if scaleOnly then s else s.scratchWrite tc tk al p bs bad 0
    let s2 := if attr = 1 then s1.scratchWrite tc tk al sofs [BitVec.ofNat 8 scale] bad 0 else s1
    let top := (k.highOf tc tk g).all (fun h => h ≤ o) && !scaleOnly && k.kind != .fill
    let old := (s2.core tc).tagAt al p
    let new := gtSet old attr k.sgran k.sslot
    let s3 := if top then
        let u := if new = old then s2 else (s2.setCore tc ((s2.core tc).setTagAt al p attr k.sgran k.sslot)).spoil tc tk 3 (p / 4096) 1 0
        u.setSkid c e { mget {} (u.core c).skid e with
          high := (tc, tk, g, o) :: k.high.filter (fun h => !(h.1 == tc && h.2.1 == tk && h.2.2.1 == g)) }
      else s2
    if tc = c ∧ tk = s3.skidCrew c k then
      let h := s3.gang c k.slot
      s3.setGang c k.slot { h with copied :=
        (if top && new != old then [(k.flag, 3, p / 4096, 1)] else []) ++ (if attr = 1 then [(k.flag, 0, sofs, 1)] else []) ++ (if scaleOnly then [] else [(k.flag, 0, p, bs.length)]) ++ h.copied }
    else s3

/-- Bytes go to a weight slot (R309); the tag is written with the last of them. -/
def State.slotPut (s : State) (c e : Nat) (k : Skid) (bs : List Byte) (scale : Nat) : State :=
  let cs := s.skidCrew c k
  let w := s.crew c cs
  let n := k.wslot + k.done
  let w1 := Mem.put w.wbuf (1024 * n + k.sub) bs
  let w2 := if k.slotAttr = 1 then Mem.put w1 (1024 * n + 512 + k.sub / 8) [BitVec.ofNat 8 scale] else w1
  let full := k.slotBytes ≤ k.sub + bs.length
  let bad := k.slotBad || k.poison
  let fmt := if k.rf ≠ 0 then k.rf else k.slotAttr
  let tag := fmt * 8192 + (if k.sparse then 4096 else 0) + (if fmt = 1 ∨ k.sparse = true then 2048 else 0)
  let cw : Crew := { w with
    wbuf := w2
    wstag := if full then mset w.wstag n (BitVec.ofNat 16 tag) else w.wstag
    wPoison := if full then (if bad then n :: w.wPoison.filter (· != n) else w.wPoison.filter (· != n)) else w.wPoison }
  let s1 := ((s.setCrew c cs cw).spoil c cs 1 n 1 0).power c 2 1
  let s2 := s1.setSkid c e { k with slotBad := !full && bad }
  let h := s2.gang c k.slot
  if full then s2.setGang c k.slot { h with copied := (k.flag, 1, n, 1) :: h.copied } else s2

/-- The piece is moved: the next one is in hand; a chute entry's last byte, or a row's, ends its unit. -/
def State.skidMoved (s : State) (c e n : Nat) : State :=
  let k := mget {} (s.core c).skid e
  let k1 := { k with phase := if k.kind == CopyKind.gather && decide (k.unitBytes ≤ k.sub + n) then 0 else 1, aux := none,
                     index := if k.unitBytes ≤ k.sub + n then none else k.index }
  let k2 :=
    if k.byBytes then { k1 with done := k.done + n }
    else if k.unitBytes ≤ k.sub + n then { k1 with done := k.done + 1, sub := 0 }
    else { k1 with sub := k.sub + n }
  ((s.setSkid c e k2).pmcAdd c (s.skidCrew c k) 10 n).observe 1 c 10 (if k.opens || decide (k.dst.at k.place.1 % 128 = 0) then 1 else 0)

/-- The scratchpads an operation writes: core, crew slot, allocation. -/
def Skid.puts (k : Skid) : List (Nat × Nat × Alloc) :=
  if k.kind = .multicast then k.targets else if k.dst.scratch then [(k.dst.core, k.dst.cslot, k.dst.alloc)] else []

/-- SGRAN lies outside an allocation the operation writes (R300). -/
def Skid.badGran (k : Skid) : Bool := k.puts.any (fun t => decide (t.2.2.grans.length ≤ k.sgran))

/-- Distances at which the source of an operation, as far as it is known, begins or enters a page. -/
def State.srcSpots (s : State) (c : Nat) (k : Skid) : List Int :=
  let row (o : Int) : List Int := (List.range (k.bytes / 4096 + 2)).filterMap (fun j =>
    let x : Int := if j = 0 then 0 else ((4096 * j - k.src.at o % 4096 : Nat) : Int)
    if x < k.bytes then some (o + x) else none)
  match k.kind with
  | .cpy | .multicast => row 0
  | .rows => (List.range k.rows).flatMap (fun (r : Nat) => row ((r : Int) * k.spitch))
  | .gather => (s.gathered c k).filterMap (·.map (fun i => (i : Int) * k.spitch)) |>.flatMap row
  | _ => []

/-- K4 data is to be moved to a scratchpad with an SGRAN outside the allocation: nothing is moved (R300), as far as attributes are known
without an access. -/
def State.badScale (s : State) (c : Nat) (k : Skid) : Bool :=
  k.badGran && (k.entries.any (·.df == 4) || (s.srcSpots c k).any (fun x => s.peekAttr (s.ctxOf c k.slot) k.src x == some 1))

/-- Places of the source are to be asked for their attributes before anything is moved: the next one (R300). -/
def State.spotToProbe (s : State) (c : Nat) (k : Skid) : Option (Nat × Int) :=
  if !k.badGran then none
  else
    let xs := s.srcSpots c k
    ((List.range xs.length).zip xs).find? (fun x => decide (k.probed ≤ x.1) && (s.peekAttr (s.ctxOf c k.slot) k.src x.2).isNone)

/-- The attribute of such a place is at hand: K4 data there stops the operation (R300). -/
def Skid.gotSpot (k : Skid) (x : Nat × Bool × Nat × Nat) : Skid :=
  let k1 := { k with probed := k.probed + 1, phase := if k.kind == .gather then 0 else 1, aux := none }
  if x.2.2.1 = 1 then k1.fail 0x04 else k1

/-- What stands together of the destination's line once the piece in hand is written (R79). -/
def Skid.runNext (k : Skid) : Nat × Nat × List Nat :=
  let a := k.dst.at k.place.1
  let n := k.size
  let bad := if (k.pieceAttr n).2.2 then [a % 128 / 8] else []
  if a % 128 = 0 then (a + n, n, bad) else if k.run.1 = a ∧ k.run.2.1 = a % 128 then (a + n, k.run.2.1 + n, (bad ++ k.run.2.2).eraseDups) else (a + n, 0, [])

/-- The write of the piece in hand (R300). The last piece of a line written whole in memory clears what poison it had (R79). -/
def State.skidWrite (s : State) (c e : Nat) (k : Skid) : State :=
  let (dk, _, dr, _, len, _) := k.place
  let n := k.size
  let (attr, scale, bad) := k.pieceAttr n
  let only := k.kind == .chute && k.entry.scaleOnly
  let k1 := if bad then k.note1 0x20 else k
  if k.kind = .wbld then ((s.slotPut c e k1 (s.pieceData c k k.dst dk n) scale).skidMoved c e n).bump
  else
    let off := offBlocks k.dst dk dr len
    if k.kind = .multicast ∨ k.dst.scratch = true then
      if attr = 1 ∧ (off || k.dst.at dk % 8 != 0) then s.setSkid c e (k1.fail 0x50)
      else if attr = 1 ∧ k.badGran then s.setSkid c e (k1.fail 0x04)
      else
        let s1 := s.setSkid c e k1
        let put (t : Nat × Nat × Alloc) : Side := { k.dst with core := t.1, cslot := t.2.1, alloc := t.2.2 }
        ((k.puts.foldl (fun t x => t.scratchPut c e x k.dst dk (s.pieceData c k (put x) dk n) attr scale bad only) s1).skidMoved c e n).bump
    else if attr = 1 ∧ k.kind = .chute ∧ off = true then s.setSkid c e (k1.fail 0x50)
    else
      let z := (if attr = 1 then 1 else 0) + (if only then 2 else 0) + (if off then 4 else 0) +
        (if k.opens then 8 else 0) + (if !only && k.runNext.2.1 == 128 then 16 else 0)
      let lanes := (k.dst.lanes dk n (ofBytesLE (s.pieceData c k k.dst dk n))).map (fun l => { l with cmp := scale, undef := bad })
      (s.skidReq c e k1 true z lanes k.runNext.2.2).bump

/-! ### One advance -/

/-- What a request of an entry has come to: a fault with its record, a cause that ends the operation, or the value. -/
def Req.outcome (r : Req) : Option (Nat × Option (Nat × Nat)) :=
  match r.lanes.find? (fun l => l.stage == 3) with
  | some l => some (l.cause, l.frec)
  | none => (r.lanes.find? (fun l => l.stage == 4 && l.cause != 0x53)).map (fun l => (l.cause, none))

/-- The request of an entry has faulted, has failed, or has been served throughout. -/
def Req.answered (r : Req) : Bool := r.outcome.isSome || r.performed

/-- An entry becomes FAULTED, bound to a record (R299). -/
def State.skidFault (s : State) (c e : Nat) (k : Skid) (cause : Nat) (rec : Nat × Nat) : State :=
  (s.setSkid c e { k with state := 3, cause := cause, record := some rec, aux := none, phase := if k.kind == .gather && k.index.isNone then 0 else 1 }).pmcAdd
    c (s.skidCrew c k) 12 1

/-- The answer to an entry's request. -/
def State.skidAnswer (s : State) (c e : Nat) (k : Skid) (id : Nat) (r : Req) : State :=
  let s1 := s.delReq id
  match r.outcome with
  | some (cause, some rec) => s1.skidFault c e k cause rec
  | some (cause, none) => s1.setSkid c e (k.fail cause)
  | none =>
    let bad := r.lanes.any (·.undef)
    let head := r.lanes.head?.getD { lane := 0 }
    let x := (r.raw 0, bad, head.attr, head.cmp)
    if k.phase = 0 then s1.setSkid c e (k.gotIndex x)
    else if k.phase = 1 then s1.setSkid c e (k.gotData x)
    else if k.phase = 4 then s1.setSkid c e (k.gotProbe x)
    else if k.phase = 5 then s1.setSkid c e (k.gotSpot x)
    else
      let t := (s1.setSkid c e { k with run := k.runNext }).skidMoved c e k.size
      -- K4 data on a page of another format is written without its scale bytes, and the operation stops (R299, Table 10-3)
      if r.lanes.any (fun l => l.cause == 0x53) then t.setSkid c e ((mget {} (t.core c).skid e).fail 0x53) else t

/-- An entry advances: its request is answered, or the next piece is begun. A gathered row outside the source window, or
in it and beyond the allocation, stops the copy (R297, R306). -/
def State.skidStep (s : State) (c e : Nat) : State :=
  let k := mget {} (s.core c).skid e
  match k.aux with
  | some id => match s.req id with
    | some r => if r.answered then s.skidAnswer c e k id r else s
    | none => s.setSkid c e { k with aux := none }
  | none =>
    let (_, sk, _, sr, _, _) := k.place
    if k.done = 0 ∧ k.sub = 0 ∧ k.phase ≠ 2 ∧ k.kind ≠ .wbld ∧ k.kind ≠ .fill ∧ s.badScale c k then s.setSkid c e (k.fail 0x04)
    else if k.done = 0 ∧ k.sub = 0 ∧ k.phase ≠ 2 ∧ k.kind ≠ .wbld ∧ (s.spotToProbe c k).isSome then
      (match s.spotToProbe c k with
       | some (j, o) => s.skidRead c e { k with phase := 5, probed := j } k.src o 1 Skid.gotSpot
       | none => s)
    else if k.kind = .wbld ∧ !k.attrKnown ∧ (k.done ≠ 0 ∨ k.sub ≠ 0) then s.skidRead c e { k with phase := 4 } k.src 0 1 Skid.gotProbe
    else if k.kind = .gather ∧ k.index.isNone then
      s.skidRead c e { k with phase := 0 } k.idx (4 * (k.done : Int)) 4 Skid.gotIndex
    else if k.kind = .gather ∧ (sr < k.src.lo ∨ k.src.hi < sr + (k.bytes : Int) - 1) then s.setSkid c e (k.fail 0x01)
    else if k.kind = .gather ∧ k.src.scratch ∧ (4096 * k.src.alloc.grans.length : Nat) < (k.src.ofs : Int) + sr + (k.bytes : Int) then
      s.setSkid c e (k.fail 0x04)
    else if k.reads ∧ k.phase ≠ 2 then s.skidRead c e { k with phase := 1 } k.src sk k.size Skid.gotData
    else s.skidWrite c e k

/-- The bytes that the next piece of an entry reads or writes, as pieces of accesses (R115). -/
def Skid.touching (k : Skid) : List LaneAcc :=
  let (dk, sk, _, _, _, _) := k.place
  let on (d : Side) (o : Int) (n : Nat) : List LaneAcc :=
    if d.scratch then (List.range n).map (fun (i : Nat) => { lane := 0, path := d.path, core := d.core, cslot := d.cslot, alloc := d.alloc,
                                                             size := 1, pa := swizzle d.z (d.at (o + i)), fmt := 14 })
    else d.lanes o n 0
  let put (t : Nat × Nat × Alloc) : Side := { k.dst with core := t.1, cslot := t.2.1, alloc := t.2.2 }
  let scale (t : Nat × Nat × Alloc) : LaneAcc :=
    { lane := 0, path := 1, core := t.1, cslot := t.2.1, alloc := t.2.2, size := 1, fmt := 14,
      pa := k.sgran * 4096 + k.sslot * 512 + swizzle k.dst.z (k.dst.at dk) % 4096 / 8 }
  if k.kind = .gather ∧ k.index.isNone then on k.idx (4 * (k.done : Int)) 4
  else if k.reads ∧ k.phase ≠ 2 then on k.src sk k.size
  else if k.kind = .wbld then []
  else if k.kind = .multicast ∨ k.dst.scratch = true then
    k.puts.flatMap (fun t => on (put t) dk k.size ++ (if k.attr = 1 ∨ k.entry.df = 4 then [scale t] else []))
  else on k.dst dk k.size

/-- No access that a MARK puts before the next piece touches a location of it (R115). -/
def State.unmarked (s : State) (c : Nat) (k : Skid) : Bool :=
  k.marked.all (fun id => s.settled id || (match s.req id with
    | none => true
    | some q =>
      let side := if k.phase = 2 then k.dst else k.src
      let coded := if k.phase = 2 then k.attr == 1 || k.entry.df == 4 else (s.peekAttr (s.ctxOf c k.slot) side k.place.2.1).all (· == 1)
      let r : Req := { kind := if coded then .load else .rawLoad, ctx := s.ctxOf c k.slot }
      !k.touching.any (fun l => q.lanes.any (fun m => !(m.stage == 2 || m.stage == 4) && s.share q r m l))))

/-- An entry can advance: it runs, nothing holds it, and what it is ordered after is done; or its request is answered, which a
stop awaits (R302). -/
def State.skidDue (s : State) (c e : Nat) : Bool :=
  match mget? (s.core c).skid e with
  | none => false
  | some k =>
    !k.finished && (match k.aux with
      | some id => (k.state == 1 || k.state == 2) && (s.req id).all Req.answered
      | none => k.state == 1 && !k.held && (s.crew c (s.skidCrew c k)).phase == .running && k.deps.all s.settled && s.unmarked c k &&
          decide (k.born < s.clock))

/-- SKIDDER_UNIT_DONE (R298, R299). -/
def execSkidderUnitDone (s : State) : Out :=
  match s.ev with
  | .entry c e => if s.skidDue c e then .next (s.skidStep c e) else .next s
  | _ => .next s

/-! ### Completion (R298, R301) -/

/-- The operation of an entry completes on its flag, and the entry is free. -/
def State.skidEnd (s : State) (c e : Nat) (k : Skid) : State :=
  let s1 := s.setCore c { s.core c with skid := mdel (s.core c).skid e, skidFreed := mset (s.core c).skidFreed e s.clock }
  s1.dec c k.slot k.flag k.err

/-- An entry that has nothing left to move can complete: it has no message to send, or its message has been answered. -/
def State.skidEnding (s : State) (c e : Nat) : Bool :=
  match mget? (s.core c).skid e with
  | none => false
  | some k =>
    k.state == 1 && !k.held && k.finished && decide (k.born < s.clock) &&
      (match k.aux with
       | some id => (s.req id).all Req.answered
       | none => true)

/-- The completion message of an entry (R301). -/
def State.skidNote (s : State) (c e : Nat) (k : Skid) (m : Nat × W64 × W64) : State :=
  let r : Req := { kind := .send, core := c, slot := 64 + e, ctx := s.ctxOf c k.slot, pol := k.pol, opc := 0x45, words := [m.2.2],
                   lanes := [{ lane := 0, ia := BitVec.ofNat 64 m.1, path := 4, peer := m.2.1, size := 8, stage := 1, pa := m.1 }],
                   born := s.clock }
  (s.addReq r).setSkid c e { k with aux := some s.nextId, phase := 3 }

/-- SKIDDER_COMPLETE (R301): after the last unit the message is sent; the flag is decremented once it is accepted or refused. -/
def execSkidderComplete (s : State) : Out :=
  match s.ev with
  | .entry c e =>
    if !s.skidEnding c e then .next s
    else
      let k := mget {} (s.core c).skid e
      match k.aux with
      | some id =>
        let cause := if k.phase = 3 then ((s.req id).bind Req.outcome).map (·.1) |>.getD 0 else 0
        .next ((s.delReq id).skidEnd c e (k.note1 cause))
      | none => match k.note with
        | some m => if k.err = 0 then .next (s.skidNote c e k m) else .next (s.skidEnd c e k)
        | none => .next (s.skidEnd c e k)
  | _ => .next s

end Sys2Proof.Machine
end

