-- ==== Sys2Proof/Machine/VSlot.lean ====
section
/-! DEFINITION. VSlot: the shapes the V-slot meanings share: the precise checks, a lane-by-lane result, a scalar form, a
predicate result (R231 to R235), and the event counts of an issue (R444, R449). -/

namespace Sys2Proof.Machine
open Sys2Proof.Num

/-- Count a V-slot operation and its participating lanes (Table 19-8, N0 of R444). -/
def State.countV (s : State) (lanes : List Nat) : State :=
  ((s.pmc 1 1).pmc 2 lanes.length).power s.cur.core 0 lanes.length

/-- A V-slot operation: an illegal encoding traps; otherwise it counts and has its effect. -/
def vRun (i : Instr) (o : VOp) (eff : State → State) (s : State) : Out :=
  guarded (illegalTrap .v i s) s (eff (s.countV (s.vLanes o)))

/-- The effect of an integer operation `f w a b c` of width w: scalar form on 64 bits with latency 4, or each participating
lane on 32 bits with latency `lat` (R232, R236, Table 7-10). -/
def vIntEff (o : VOp) (lat : Nat) (f : Nat → Nat → Nat → Nat → Nat) (s : State) : State :=
  if selS o.d then s.putS o.d 4 (f 64 (s.aScalar o) (s.bScalar o) (s.cScalar o))
  else s.putV o.d lat (s.vLanes o) (fun l => f 32 (s.aLane o l) (s.bLane o l) (s.cLane o l))

/-- An integer operation. -/
def vInt (i : Instr) (o : VOp) (lat : Nat) (f : Nat → Nat → Nat → Nat → Nat) (s : State) : Out :=
  vRun i o (vIntEff o lat f) s

/-- IADD and ISUB: the vector form sets lx1 too (R215). -/
def vCarryEff (o : VOp) (f : Nat → Nat → Nat → Nat) (c : Nat → Nat → Bool) (s : State) : State :=
  if selS o.d then s.putS o.d 4 (f 64 (s.aScalar o) (s.bScalar o))
  else (s.putV o.d 4 (s.vLanes o) (fun l => f 32 (s.aLane o l) (s.bLane o l))).putCarry (s.vLanes o)
    (fun l => c (s.aLane o l) (s.bLane o l))

/-- Every lane of the gang (R240: a scalar compare writes them all). -/
def allLanes (s : State) : List Nat := List.range (4 * s.me.nsl)

/-- A compare `f w a b` writes a predicate: in scalar form once, in every lane of the gang (R232, R240). -/
def vCmpEff (o : VOp) (f : Nat → Nat → Nat → Bool) (s : State) : State :=
  if o.icmpScalar then
    let r := f 64 (s.aScalar o) (s.bScalar o)
    s.putP o.d 4 (allLanes s) (fun _ => r)
  else s.putP o.d 4 (s.vLanes o) (fun l => f 32 (s.aLane o l) (s.bLane o l))

/-- An integer compare. -/
def vCmp (i : Instr) (o : VOp) (f : Nat → Nat → Nat → Bool) (s : State) : Out := vRun i o (vCmpEff o f) s

/-- The draws of a lane: draw k under RS, 0 where no draw is taken (R96). -/
def State.draw (s : State) (l k : Nat) : Nat := drawAt s.me.rng l k

/-- A float operation `f draws a b c` of latency `lat` that rounds `n` values in each lane (R234, R242 to R248). -/
def vFloatEff (o : VOp) (lat n : Nat) (f : (Nat → Nat) → Nat → Nat → Nat → Nat) (s : State) : State :=
  (s.putV o.d lat (s.vLanes o) (fun l => f (s.draw l) (s.aLane o l) (s.bLane o l) (s.cLane o l))).drew
    o.mode (s.vLanes o) n

/-- A float operation. -/
def vFloat (i : Instr) (o : VOp) (lat n : Nat) (f : (Nat → Nat) → Nat → Nat → Nat → Nat) (s : State) : Out :=
  vRun i o (vFloatEff o lat n f) s

/-- A float compare writes a predicate with latency 6 in the participating lanes (R244). -/
def vFcmp (i : Instr) (o : VOp) (f : Nat → Nat → Bool) (s : State) : Out :=
  vRun i o (fun s => s.putP o.d 6 (s.vLanes o) (fun l => f (s.aLane o l) (s.bLane o l))) s

/-- A paired operation in format `fmt`: float constants become the format's value in both halves (R247). -/
def vPairEff (o : VOp) (fmt : Fmt) (n : Nat) (f : (Nat → Nat) → Nat → Nat → Nat → Nat) (s : State) : State :=
  vFloatEff o 6 n (fun r a b c =>
    f r (pairConst fmt o.a false a) (pairConst fmt o.b o.immB b)
      (pairConst fmt (if o.long then o.c else o.d) false c)) s

/-- A paired operation. -/
def vPair (i : Instr) (o : VOp) (fmt : Fmt) (n : Nat) (f : (Nat → Nat) → Nat → Nat → Nat → Nat) (s : State) : Out :=
  vRun i o (vPairEff o fmt n f) s

/-- Predicate logic `f pa pb`, latency 4 (R259). -/
def vPred (i : Instr) (o : VOp) (f : Bool → Bool → Bool) (s : State) : Out :=
  vRun i o (fun s => s.putP o.d 4 (s.vLanes o)
    (fun l => f (s.predLane (o.a.toNat % 8) l) (s.predLane (o.b.toNat % 8) l))) s

/-- A shuffle of kind k, latency 8 (R255): the source lane is read as the register stands at issue. -/
def vShfl (i : Instr) (o : VOp) (k : Nat) (s : State) : Out :=
  vRun i o (fun s => s.putV o.d 8 (s.vLanes o) (fun l =>
    let src := Alu.shflLane k l (s.bLane o l)
    s.aLane o (if src < 4 * s.me.nsl then src else l))) s

/-- A reduction over the participating lanes whose result goes to each of them, latency 8 (R257). -/
def vRed (i : Instr) (o : VOp) (f : Nat → Nat → Nat) (s : State) : Out :=
  vRun i o (fun s =>
    let xs := (s.vLanes o).map (s.aLane o)
    let r := match xs with | [] => 0 | x :: xs => xs.foldl f x
    s.putV o.d 8 (s.vLanes o) (fun _ => r)) s

end Sys2Proof.Machine
end

