-- ==== Sys2Proof/Machine/VCross.lean ====
section
/-! DEFINITION. VCross: the meanings of the cross-lane operations, predicate logic, CHPOP and the empty slots (R254 to R261,
R206). -/

namespace Sys2Proof.Machine
open Sys2Proof Sys2Proof.Num

/-- SHFL.IDX (R255). -/
def execShflIdx (o : VOp) (s : State) : Out := vShfl (.shflIdx o) o 0 s
/-- SHFL.UP (R255). -/
def execShflUp (o : VOp) (s : State) : Out := vShfl (.shflUp o) o 1 s
/-- SHFL.DOWN (R255). -/
def execShflDown (o : VOp) (s : State) : Out := vShfl (.shflDown o) o 2 s
/-- SHFL.XOR (R255). -/
def execShflXor (o : VOp) (s : State) : Out := vShfl (.shflXor o) o 3 s

/-- The lanes of P where predicate a holds (R256). -/
def State.ballot (s : State) (o : VOp) : List Nat := (s.vLanes o).filter (s.predLane (o.a.toNat % 8))

/-- VOTE.ALL (R256). -/
def execVoteAll (o : VOp) (s : State) : Out :=
  vRun (.voteAll o) o (fun s => s.putP o.d 8 (s.vLanes o) (fun _ => s.ballot o == s.vLanes o)) s
/-- VOTE.ANY (R256). -/
def execVoteAny (o : VOp) (s : State) : Out :=
  vRun (.voteAny o) o (fun s => s.putP o.d 8 (s.vLanes o) (fun _ => !(s.ballot o).isEmpty)) s
/-- VOTE.BAL (R256). -/
def execVoteBal (o : VOp) (s : State) : Out :=
  vRun (.voteBal o) o (fun s => s.putV o.d 8 (s.vLanes o) (fun _ => (maskOf (s.ballot o)).toNat)) s

/-- PAND (R259). -/
def execPand (o : VOp) (s : State) : Out := vPred (.pand o) o (fun a b => a && b) s
/-- POR (R259). -/
def execPor (o : VOp) (s : State) : Out := vPred (.por o) o (fun a b => a || b) s
/-- PXOR (R259). -/
def execPxor (o : VOp) (s : State) : Out := vPred (.pxor o) o (fun a b => xor a b) s
/-- PNOT (R259). -/
def execPnot (o : VOp) (s : State) : Out := vPred (.pnot o) o (fun a _ => !a) s

/-- MOVS (R258): a as read in the lane b names, 0 where the gang has no such lane. -/
def execMovs (o : VOp) (s : State) : Out :=
  vRun (.movs o) o (fun s =>
    let n := s.bScalar o % 32
    s.putS o.d 8 (if n < 4 * s.me.nsl then s.aLane o n else 0)) s

/-! ### Chutes (R260, R261, R321, R322) -/

/-- The next unit of a chute: the head entry must be ready. The unit, its poisoned bytes, and the chute without it; an entry is
freed with its last unit. -/
def Chute.pop (c : Chute) : Option (List Byte × List Nat × Chute) :=
  match c.entries with
  | [] => none
  | e :: es =>
    match e.ready, e.units with
    | true, u :: us =>
      some (u, e.bad.headD [],
        { c with entries := if us.isEmpty then es else { e with units := us, bad := e.bad.tail, first := e.first + 1 } :: es })
    | _, _ => none

/-- Chute `n` of the issuing core. -/
def State.chute (s : State) (n : Nat) : Chute := mget {} (s.core s.cur.core).chutes n
/-- A chute that is empty, with no drain into it pending, is free (R321). -/
def Chute.settle (c : Chute) : Chute := if c.entries.isEmpty && c.drains == 0 then { c with holder := none } else c

/-- The issuing core with a chute written. -/
def State.setChute (s : State) (n : Nat) (c : Chute) : State :=
  s.setCore s.cur.core { s.core s.cur.core with chutes := mset (s.core s.cur.core).chutes n c.settle }

/-- A poisoned byte lies among the four of word l. -/
def wordBad (bad : List Nat) (l : Nat) : Bool := bad.any (fun b => b / 4 == l)

/-- A chute the issuing crew does not hold (R260). Table 7-12 puts it in one class with the underflow; that it comes first is DEDUCED
(log entry 23). -/
def chuteTrap (k : Slot) (n : Nat) (s : State) : Option Trap :=
  if (s.chute n).holder = some s.me.cslot then none else some (illegal k)

/-- Class 4: a removal that finds no unit available (R260, R262). -/
def underflowTrap (k : Slot) (n : Nat) (s : State) : Option Trap :=
  if (s.chute n).pop.isSome then none else some { tcause := 0x68, slot := slotNum k }

/-- The word of a unit at a byte offset. -/
def unitWord (u : List Byte) (l : Nat) : Nat := ofBytesLE ((u.drop (4 * l)).take 4)

/-- CHPOP (R260): exactly one unit leaves the chute; the participating lanes take its words. -/
def execChpop (o : VOp) (s : State) : Out :=
  let n := o.a.toNat % 8
  guarded (orTrap (illegalTrap .v (.chpop o) s) (orTrap (chuteTrap .v n s) (underflowTrap .v n s))) s
    (match (s.chute n).pop with
     | none => s
     | some (u, bad, c) =>
       let s1 := (s.countV (s.vLanes o)).setChute n c
       let s2 := s1.putV o.d 8 (s1.vLanes o) (fun l =>
         if wordBad bad l then (Config.freeW32 s.free (512 + l)).toNat else unitWord u l)
       s2.bump)

/-! ### Reductions (R257) -/

/-- The rounded sum of two values in the lane `l` whose generator rounds (R96, R108), threading the generators. -/
def redAdd (mode : Nat) (g : Lanes) (l a b : Nat) : Nat × Lanes :=
  if mode = 4 then (fadd f32 mode (drawAt g l 0) a b, rngAfter g [l] 1) else (fadd f32 mode 0 a b, g)

/-- LRED.ADD.F32 (R108). -/
def execLredAddF32 (o : VOp) (s : State) : Out :=
  vRun (.lredAddF32 o) o (fun s =>
    let xs := (List.range 32).map (fun l => if (s.vLanes o).contains l then some (l, s.aLane o l) else none)
    let (v, g) := Alu.tree (redAdd o.mode) s.me.rng xs
    let s1 := s.putV o.d 8 (s.vLanes o) (fun _ => v)
    if o.mode = 4 then { s1 with cur := { s1.cur with rng := some g } } else s1) s
/-- LRED.ADD.N32. -/
def execLredAddN32 (o : VOp) (s : State) : Out := vRed (.lredAddN32 o) o (fun a b => (a + b) % 2 ^ 32) s
/-- LRED.MIN.F32. -/
def execLredMinF32 (o : VOp) (s : State) : Out := vRed (.lredMinF32 o) o (fmin f32) s
/-- LRED.MAX.F32. -/
def execLredMaxF32 (o : VOp) (s : State) : Out := vRed (.lredMaxF32 o) o (fmax f32) s
/-- LRED.MIN.S32. -/
def execLredMinS32 (o : VOp) (s : State) : Out := vRed (.lredMinS32 o) o (Alu.iminS 32) s
/-- LRED.MAX.S32. -/
def execLredMaxS32 (o : VOp) (s : State) : Out := vRed (.lredMaxS32 o) o (Alu.imaxS 32) s
/-- LRED.MIN.N32. -/
def execLredMinN32 (o : VOp) (s : State) : Out := vRed (.lredMinN32 o) o Alu.iminN s
/-- LRED.MAX.N32. -/
def execLredMaxN32 (o : VOp) (s : State) : Out := vRed (.lredMaxN32 o) o Alu.imaxN s
/-- LRED.AND. -/
def execLredAnd (o : VOp) (s : State) : Out := vRed (.lredAnd o) o (fun a b => a &&& b) s
/-- LRED.OR. -/
def execLredOr (o : VOp) (s : State) : Out := vRed (.lredOr o) o (fun a b => a ||| b) s
/-- LRED.XOR. -/
def execLredXor (o : VOp) (s : State) : Out := vRed (.lredXor o) o (fun a b => a ^^^ b) s

/-! ### Empty slots (R206) -/

/-- NOP in a slot: no effect. -/
def execNopSlot (_ : NopSlot) (s : State) : Out := .next s
/-- NOP.X32: a template's unused X slot has no effect. -/
def execNopX32 (s : State) : Out := .next s

end Sys2Proof.Machine
end

