-- ==== Sys2Proof/Machine/XCopy.lean ====
section
/-! DEFINITION. XCopy: the skidder operations at issue (R294 to R297, R301, R303 to R309). -/

namespace Sys2Proof.Machine
open Sys2Proof

/-- An X-slot operation: the precise conditions in order, else it counts and has its effect (R218, R294, R327). -/
def xRun (i : Instr) (f : BitVec 5) (own : State → Option Trap) (eff : State → State) (s : State) : Out :=
  guarded (orTrap (illegalTrap .x i s) (orTrap (overflowTrap .x f.toNat s) (own s))) s (eff (s.pmc 4 1)).bump

/-- A condition of the operation's own. -/
def illegalIf (b : Bool) : Option Trap := if b then some (illegal .x) else none

/-- A scalar register at issue. -/
def State.xReg (s : State) (r : BitVec 5) (pos : Nat) : Nat := (s.sregNow r.toNat (30 + pos)).toNat

/-! ### Sides (R297) -/

/-- The least and greatest distance from an address that its window covers; in split-path mode, that its path's part of the
address space covers. -/
def State.windowReach (s : State) (c ctx a : Nat) (v : Look) : Int × Int :=
  if s.split ctx then
    let n : Int := if v.path = 2 then 2 ^ 51 else if v.path = 3 then 2 ^ 48 else 2 ^ 54
    (-(v.va : Int), n - 1 - (v.va : Int))
  else
    let va := a % 2 ^ 57
    match s.window c ctx (va / 4096) with
    | none => (0, 0)
    | some n =>
      let lo : Int := (4096 * bitsOf (s.ctxWord c ctx (2 * n)) 56 12 : Nat)
      let hi : Int := (4096 * bitsOf (s.ctxWord c ctx (2 * n + 1)) 56 12 + 4095 : Nat)
      (lo - (va : Int), hi - (va : Int))

/-- A side from the address of its first byte, reaching from `lo` to `hi` about it, or the cause of its failure (Table 10-2). -/
def State.side (s : State) (a : Nat) (lo hi : Int) (dst : Bool) (z : Nat) : Except Nat Side :=
  let c := s.cur.core
  let k := s.me.cslot
  let ctx := s.myCrew.ctx
  let v := s.look c ctx a dst
  if v.cause ≠ 0 then .error v.cause
  else if !((if dst then [0, 1, 2, 3] else [0, 1, 2, 3, 6]).contains v.path) then .error 0x02
  else
    let (wl, wh) := s.windowReach c ctx a v
    if lo < wl ∨ wh < hi then .error 0x01
    else if v.path = 1 ∨ v.path = 2 then
      match (if v.path = 1 then some (c, s.ownSlot c k) else s.standPeer c k v.pos) with
      | none => .error 0x07
      | some (tc, tk) =>
        let w := s.crew tc tk
        if (v.ofs : Int) + lo < 0 ∨ (4096 * w.granules.length : Nat) ≤ (v.ofs : Int) + hi then .error 0x04
        else .ok { path := v.path, tag := v.tag, va := v.va, ofs := v.ofs, core := tc, cslot := tk, alloc := w.alloc, z := z, lo := wl, hi := wh }
    else .ok { path := v.path, tag := v.tag, va := v.va, ofs := v.ofs, peer := v.peer, lo := wl, hi := wh }

/-- The least and greatest of the distances 0 and x, with a row of n bytes at each. -/
def span (rows : Nat) (pitch : Int) (n : Nat) : Int × Int :=
  let x := ((rows - 1 : Nat) : Int) * pitch
  (min 0 x, max 0 x + (n : Int) - 1)

/-- The completion message of a long copy (R301): where it goes and what it says. -/
def State.copyNote (s : State) (nt : BitVec 1) (sm : BitVec 5) : Except Nat (Option (Nat × W64 × W64)) :=
  if nt = 0 then .ok none
  else
    let v := s.look s.cur.core s.myCrew.ctx (s.xReg sm 8) true
    if v.cause ≠ 0 then .error v.cause
    else if v.path ≠ 4 ∨ 2 ^ 32 ≤ v.ofs then .error 0x02
    else .ok (some (v.ofs, v.peer, BitVec.ofNat 64 (s.xReg (sm + 1) 9)))

/-! ### Entering the skidder (R296) -/

/-- The entry an operation of a gang takes: its reserved one, else the lowest shared one that is free. -/
def Core.skidFree (k : Core) (slot : Nat) : Option Nat :=
  if (mget? k.skid slot).isNone then some slot else (List.range 96).find? (fun e => decide (64 ≤ e) && (mget? k.skid e).isNone)

/-- An operation enters the skidder and counts on its flag; it is ordered after what a fence or a barrier puts
before it, and its elements after the accesses a MARK covers where they touch a common location (R115, R135). -/
def State.enterSkid (s : State) (k : Skid) : State :=
  let g := s.me
  match (s.core s.cur.core).skidFree s.cur.slot with
  | none => s
  | some e =>
    let k1 := { k with slot := s.cur.slot, born := s.clock, deps := g.heldQ, marked := (g.markQ.flatMap (·.2)).eraseDups,
                       phase := if k.kind == CopyKind.gather then 0 else 1 }
    (s.setMe (g.flagInc k.flag)).setSkid s.cur.core e k1

/-- A side resolved, or no side where nothing is to be moved; the first failing side or message gives the cause. -/
def State.copyWith (s : State) (k : Skid) (any : Bool) (src : Option (Except Nat Side)) (dst : Option (Except Nat Side))
    (idx : Option (Except Nat Side)) (note : Except Nat (Option (Nat × W64 × W64))) : State :=
  let get (d : Option (Except Nat Side)) : Except Nat Side := if any then d.getD (.ok {}) else .ok {}
  match get src, get dst, get idx, note with
  | .error c, _, _, _ => s.enterSkid ({ k with err := 0 : Skid }.fail c)
  | _, .error c, _, _ => s.enterSkid ({ k with err := 0 : Skid }.fail c)
  | _, _, .error c, _ => s.enterSkid ({ k with err := 0 : Skid }.fail c)
  | _, _, _, .error c => s.enterSkid ({ k with err := 0 : Skid }.fail c)
  | .ok a, .ok b, .ok i, .ok m => s.enterSkid { k with src := a, dst := b, idx := i, note := m }

/-- BYTES, SGRAN and SSLOT of a count; ROWS and RB of a geometry (Table 10-1). -/
def countBytes (w : Nat) : Nat := w % 2 ^ 32
def geoRows (w : Nat) : Nat := w % 2 ^ 16
def geoBytes (w : Nat) : Nat := bitsOf w 31 16

/-- The fields every entry takes. -/
def State.newSkid (s : State) (kind : CopyKind) (f : BitVec 5) (pol : BitVec 3) (bytes rows sc : Nat) : Skid :=
  { kind := kind, flag := f.toNat, pol := s.me.mpreg pol.toNat, bytes := bytes, rows := rows, sgran := bitsOf sc 38 32,
    sslot := bitsOf sc 41 39 }

/-- CPY (R303). -/
def execCpy (f : BitVec 5) (pol : BitVec 3) (sd ss sn : BitVec 5) (z : BitVec 3) (s : State) : Out :=
  xRun (.cpy f pol sd ss sn z) f (fun _ => none) (fun s =>
    let c := s.xReg sn 2
    let n := countBytes c
    let hi : Int := (n : Int) - 1
    s.copyWith (s.newSkid .cpy f pol n 1 c) (n != 0) (some (s.side (s.xReg ss 1) 0 hi false z.toNat))
      (some (s.side (s.xReg sd 0) 0 hi true z.toNat)) none (.ok none)) s

/-- CPYFILL (R303). -/
def execCpyfill (f : BitVec 5) (pol : BitVec 3) (sd sv sn : BitVec 5) (z : BitVec 3) (s : State) : Out :=
  xRun (.cpyfill f pol sd sv sn z) f (fun _ => none) (fun s =>
    let c := s.xReg sn 2
    let n := countBytes c
    s.copyWith { s.newSkid .fill f pol n 1 c with pattern := BitVec.ofNat 64 (s.xReg sv 1) } (n != 0) none
      (some (s.side (s.xReg sd 0) 0 ((n : Int) - 1) true z.toNat)) none (.ok none)) s

/-- CPYT (R305). -/
def execCpyt (o : CpytOp) (s : State) : Out :=
  xRun (.cpyt o) o.f (fun _ => none) (fun s =>
    let g := s.xReg o.sg 2
    let p := s.xReg o.sp 3
    let rows := geoRows g
    let rb := geoBytes g
    let sp := sextInt p 32
    let dp := sextInt (p / 2 ^ 32) 32
    let (sl, sh) := span rows sp rb
    let (dl, dh) := span rows dp rb
    s.copyWith { s.newSkid .rows o.f o.pol rb rows g with spitch := sp, dpitch := dp } (rows != 0 && rb != 0)
      (some (s.side (s.xReg o.ss 1) sl sh false o.zs.toNat)) (some (s.side (s.xReg o.sd 0) dl dh true o.zd.toNat)) none
      (s.copyNote o.nt o.sm)) s

/-- CPYG (R306). -/
def execCpyg (o : CpygOp) (s : State) : Out :=
  xRun (.cpyg o) o.f (fun _ => none) (fun s =>
    let g := s.xReg o.sg 2
    let p := s.xReg o.sp 3
    let rows := geoRows g
    let rb := geoBytes g
    let sp := sextInt p 32
    let dp := sextInt (p / 2 ^ 32) 32
    let (dl, dh) := span rows dp rb
    s.copyWith { s.newSkid .gather o.f o.pol rb rows g with spitch := sp, dpitch := dp } (rows != 0 && rb != 0)
      (some (s.side (s.xReg o.ss 1) 0 0 false o.zs.toNat)) (some (s.side (s.xReg o.sd 0) dl dh true o.zd.toNat))
      (some (s.side (s.xReg o.si 4) 0 (4 * (rows : Int) - 1) false 0)) (s.copyNote o.nt o.sm)) s

/-- The targets of CPYMC in ascending position: those that pass, and the first failing cause (R307). -/
def State.mcTargets (s : State) (mask ofs n : Nat) : List (Nat × Nat × Alloc) × Nat :=
  (bitList 8 mask).foldl (fun (a : List (Nat × Nat × Alloc) × Nat) p =>
    match s.standPeer s.cur.core s.me.cslot p with
    | none => (a.1, if a.2 = 0 then 0x07 else a.2)
    | some (c, k) =>
      if 4096 * (s.crew c k).granules.length < ofs + n then (a.1, if a.2 = 0 then 0x04 else a.2)
      else (a.1 ++ [(c, k, (s.crew c k).alloc)], a.2)) ([], 0)

/-- CPYMC (R307). -/
def execCpymc (o : CpymcOp) (s : State) : Out :=
  xRun (.cpymc o) o.f (fun _ => none) (fun s =>
    let c := s.xReg o.sn 2
    let n := countBytes c
    let ofs := s.xReg o.sd 0 % 2 ^ 19
    let (ts, cause) := s.mcTargets o.mask.toNat ofs n
    let moves := n != 0 && o.mask != 0
    let k := { s.newSkid .multicast o.f o.pol (if ts.isEmpty then 0 else n) 1 c with targets := ts, err := if moves then cause else 0 }
    s.copyWith k moves (some (s.side (s.xReg o.ss 1) 0 ((n : Int) - 1) false o.zs.toNat))
      (some (.ok { path := 1, ofs := ofs, z := o.zd.toNat })) none (s.copyNote o.nt o.sm)) s

/-- The chute has n entries available, its head's remainder included (R308). -/
def Chute.has (c : Chute) (n : Nat) : Bool := n ≤ c.entries.length && (c.entries.take n).all (·.ready)

/-- CPYCH (R308): the entries leave the chute at issue. -/
def execCpych (o : CpychOp) (s : State) : Out :=
  let ch := o.ch.toNat
  let n := o.n.toNat + 1
  xRun (.cpych o) o.f (fun s => orTrap (chuteTrap .x ch s)
      (if (s.chute ch).has n then none else some { tcause := 0x68, slot := 2 })) (fun s =>
    let c := s.chute ch
    let es := c.entries.take n
    let s1 := s.setChute ch { c with entries := c.entries.drop n }
    let p := s1.xReg o.sp 3
    let rp := sextInt p 32
    let st := sextInt (p / 2 ^ 32) 32
    let at_ (e i : Nat) : Int := (e : Int) * st + (i : Int) * rp
    let places := (List.range es.length).flatMap (fun e =>
      let x := es.getD e {}
      ((List.range 16).filter (x.row0 ≤ ·)).map (fun i => (at_ e i, at_ e i + (rowBytes x.df : Int) - 1)))
    let lo := places.foldl (fun a q => min a q.1) 0
    let hi := places.foldl (fun a q => max a q.2) 0
    let k : Skid := { kind := .chute, flag := o.f.toNat, pol := s1.me.mpreg o.pol.toNat, rows := n, spitch := rp, dpitch := st,
                      sgran := o.sgran.toNat, sslot := o.sslot.toNat, entries := es }
    s1.copyWith k true none (some (s1.side (s1.xReg o.sd 0) lo hi true o.zd.toNat)) none (s1.copyNote o.nt o.sm)) s

/-- WBLD (R309). -/
def execWbld (o : WbldOp) (s : State) : Out :=
  let n := o.n.toNat + 1
  xRun (.wbld o) o.f (fun s => illegalIf (decide (s.myCrew.wslots < o.w.toNat + n))) (fun s =>
    let k : Skid := { kind := .wbld, flag := o.f.toNat, pol := s.me.mpreg o.pol.toNat, rows := n, wslot := o.w.toNat, rf := o.rf.toNat,
                      sparse := o.sparse == 1 }
    let src (b : Nat) := s.side (s.xReg o.ss 0) 0 ((b * n : Nat) - 1) false o.zs.toNat
    -- a source whose attribute the device does not know yet is held to the least it can reach (Table 10-6)
    let known : Option Nat := match src 512 with
      | .ok d => s.peekAttr s.myCrew.ctx d 0
      | .error _ => none
    s.copyWith k true (some (src (if known.all (· == 1) then 512 else 1024))) none none (s.copyNote o.nt o.sm)) s

/-! ### CPROG (R302) -/

/-- CPROG_WRITE (R302): by the state of the entry; a written STATE of 0 or 3 is no state. -/
def execCprogWrite (s : State) : Out :=
  match s.ev with
  | .sysw c _ reg v =>
    let e := reg - 0x400
    match mget? (s.core c).skid e with
    | none => .next s
    | some k =>
      let st := v.toNat / 2 ^ 62
      let done := v.toNat % 2 ^ 48
      let at_ (k : Skid) : Skid := if done = k.done then k else
        { k with done := done, sub := 0, index := none, aux := none, phase := if k.kind == CopyKind.gather then 0 else 1 }
      let s := if done = k.done ∨ k.state = 1 then s else (match k.aux with | some id => s.delReq id | none => s)
      match k.state with
      | 1 => if st = 2 then .next (s.setSkid c e { k with state := 2 }) else .next s
      | 2 => .next (s.setSkid c e (if st = 1 then { at_ k with state := 1 } else at_ k))
      | _ => .next (s.setSkid c e (at_ k))
  | _ => .next s

end Sys2Proof.Machine
end

