-- ==== Sys2Proof/Machine/Groups.lean ====
section
/-! DEFINITION. Groups: commit groups: the instructions of the X slot (R325, R326), the origin's table and exchange (R153, R158,
R163, R164), and the destination's answers, publication and losses (R155 to R161, R164). -/

namespace Sys2Proof.Machine
open Sys2Proof

/-! ### Issue (R325, R326) -/

/-- The issuing core's copy of a group changes at issue. -/
def State.setCopy (s : State) (g v : Nat) : State :=
  let c := s.cur.core
  let k := s.core c
  s.setCore c { k with groups := mset k.groups (groupKey s.myCrew.ctx g) v }

/-- A request to the origin table. -/
def State.groupReq (s : State) (k : ReqKind) (op : Instr) (f : BitVec 5) (g dest : Nat) (deps : List Nat) : State :=
  let id := s.nextId
  let ctx := s.myCrew.ctx
  let r : Req := { kind := k, core := s.cur.core, slot := s.cur.slot, ctx := ctx, flag := f.toNat, z := g, dest := dest, deps := deps, born := s.clock }
  ((s.addReq r).inc f.toNat).later op (.group ctx g id)

/-- GOPEN: refused where the core's copy shows the group open or in exchange. -/
def execGopen (f : BitVec 5) (g : BitVec 10) (s : State) : Out :=
  xRun (.gopen f g) f (fun s => illegalIf (s.groupCopy s.cur.core s.myCrew.ctx g.toNat != 0)) (fun s =>
    (s.setCopy g.toNat 1).groupReq .gopen .gopenAtTable f g.toNat 0 []) s

/-- GCOMMIT and GABORT: the group is not open from here on; every earlier access of the gang is waited for (R158). -/
def groupEnd (i : Instr) (f : BitVec 5) (g : BitVec 10) (abort : Nat) (s : State) : Out :=
  xRun i f (fun s => illegalIf (s.groupCopy s.cur.core s.myCrew.ctx g.toNat != 1)) (fun s =>
    let deps := (s.me.loadQ ++ s.me.storeQ ++ s.me.barQ).eraseDups
    (s.setCopy g.toNat 2).groupReq .gend .gcommitAtTable f g.toNat abort deps) s

/-- GCOMMIT. -/
def execGcommit (f : BitVec 5) (g : BitVec 10) (s : State) : Out := groupEnd (.gcommit f g) f g 0 s
/-- GABORT. -/
def execGabort (f : BitVec 5) (g : BitVec 10) (s : State) : Out := groupEnd (.gabort f g) f g 1 s

/-- GQUERY: sd takes the outcome record as it stands when the query is served. -/
def execGquery (f : BitVec 5) (g : BitVec 10) (sd : BitVec 5) (s : State) : Out :=
  xRun (.gquery f g sd) f (fun _ => none) (fun s =>
    let r : Req := { kind := .gquery, core := s.cur.core, slot := s.cur.slot, ctx := s.myCrew.ctx, flag := f.toNat, z := g.toNat,
                     dest := sd.toNat, born := s.clock }
    let s1 := (s.addReq r).inc f.toNat
    s1.setMe (s1.me.mark (.s sd.toNat) f.toNat s.clock)) s

/-! ### The origin table -/

def State.group (s : State) (key : Nat) : Group := mget {} s.groups key
def State.setGroup (s : State) (key : Nat) (g : Group) : State := { s with groups := mset s.groups key g }

/-- The core's copy follows the table again, unless a later instruction of the core has set it meanwhile (R325): 1 by GOPEN, 2 by
GCOMMIT and GABORT. -/
def State.dropCopy (s : State) (c key v : Nat) : State :=
  let k := s.core c
  if mget? k.groups key = some v then s.setCore c { k with groups := mdel k.groups key } else s

/-- A request of a group completes with a cause. -/
def State.endGroupReq (s : State) (id cause : Nat) : State :=
  match s.req id with
  | some r => s.complete id { r with cause := cause }
  | none => s

/-- GOPEN_AT_TABLE (R326). -/
def execGopenAtTable (s : State) : Out :=
  match s.ev with
  | .group ctx g id =>
    let key := groupKey ctx g
    let s1 := match s.req id with | some r => s.dropCopy r.core key 1 | none => s
    if (s.group key).opened then .next (s1.endGroupReq id 0x3A)
    else if 256 ≤ (s.groups.filter (fun x => x.2.opened)).length then .next (s1.endGroupReq id 0x39)
    else .next ((s1.setGroup key { opened := true }).endGroupReq id 0)
  | _ => .next s

/-- The destination of an STG lane: device and context (R151). -/
def State.stgDest (s : State) (ctx : Nat) (l : LaneAcc) : Nat × Nat := if l.peer = 0 then (s.devId, ctx) else (aperDev l.peer, aperCtx l.peer)

/-- One lane is counted for its destination; none where it is a 65th destination or the count is full (R153). -/
def Group.count (g : Group) (d : Nat × Nat) : Option Group :=
  match g.dests.find? (fun x => x.1 == d.1 && x.2.1 == d.2) with
  | some x =>
    if x.2.2.1 ≥ 16777215 then none
    else some { g with dests := g.dests.map (fun y => if y.1 = d.1 ∧ y.2.1 = d.2 then (y.1, y.2.1, y.2.2.1 + 1, y.2.2.2) else y) }
  | none => if 64 ≤ g.dests.length then none else some { g with dests := g.dests ++ [(d.1, d.2, 1, false, false)] }

/-- The bytes of a lane that no higher-numbered lane of the STG writes (R59). -/
def stgMask (r : Req) (l : LaneAcc) : Nat :=
  (List.range l.size).foldl (fun a i =>
    let x := l.ia.toNat % 2 ^ 57 + i
    if r.lanes.any (fun m => decide (l.lane < m.lane) && m.stage != 4 && m.peer == l.peer && decide (m.ia.toNat % 2 ^ 57 ≤ x) &&
      decide (x < m.ia.toNat % 2 ^ 57 + m.size)) then a else a + 2 ^ i) 0

/-- A lane of an STG at the table: counted, or not admitted. It goes with the first lane of its line to its destination (R148). -/
def State.stgLane (s : State) (id i : Nat) (r : Req) (l : LaneAcc) : State :=
  let key := groupKey r.ctx r.z
  let d := s.stgDest r.ctx l
  match (s.group key).count d with
  | none => (s.failGroup key 0x37 d.1).setPiece id i { l with stage := 4, cause := 0x37 }
  | some g =>
    let lead := ((List.range i).find? (fun j => (r.lanes[j]?).any (fun m =>
      m.stage == 6 && m.sent == j && m.peer == l.peer && m.ia.toNat / 128 == l.ia.toNat / 128))).getD i
    (s.setGroup key g).setPiece id i { l with stage := 6, sent := lead }

/-- The request for a line of a destination goes out. -/
def State.stgSend (s : State) (id i : Nat) (r : Req) (l : LaneAcc) : State :=
  let d := s.stgDest r.ctx l
  let mates := r.lanes.filter (fun m => m.awaits l i)
  let p : Packet := { kind := 5, dev := d.1, ctx := d.2, peerCtx := r.ctx, tag := pieceTag id i, va := l.ia.toNat % 2 ^ 57, a := r.z,
                      lanes := mates.map (fun m => { m.carried with cmp := stgMask r m }) }
  ((s.send p).grant r.core).rsptoRuns id i

/-- An STG has been at the table, in time or too late (R153). -/
def Req.atTable (r : Req) : Bool := !r.words.isEmpty

/-- STG_AT_TABLE (R153, R291). -/
def execStgAtTable (s : State) : Out :=
  match s.ev with
  | .req id _ =>
    match s.req id with
    | none => .next s
    | some r =>
      let g := s.group (groupKey r.ctx r.z)
      -- its lines wait for their cluster's budget (R447)
      if !s.budgetOk r.core then
        .next ((List.range r.lanes.length).foldl (fun t i => match t.req id with
          | some q => (match q.lanes[i]? with | some l => if t.atArbiter q l then t.queueArb id i q l else t | none => t)
          | none => t) s)
      else if !g.opened || g.phase != 0 then
        .next (s.setReq id { r with cause := 0x3B, words := [1],
                                    lanes := r.lanes.map (fun l => if l.stage = 1 then { l with stage := 4, cause := 0x3B } else l) })
      else
        let t := (List.range r.lanes.length).foldl (fun t i =>
          match t.req id with
          | some q => match q.lanes[i]? with
            | some l => if l.stage = 1 then t.stgLane id i q l else t
            | none => t
          | none => t) (s.setReq id { r with words := [0] })
        match t.req id with
        | some q => .next ((List.range q.lanes.length).foldl (fun t i => match q.lanes[i]? with
            | some l => if l.stage = 6 ∧ l.sent = i then t.stgSend id i q l else t
            | none => t) t)
        | none => .next t
  | _ => .next s

/-- An STG of the group that the table has counted is not yet complete. -/
def State.stgsOpen (s : State) (ctx g : Nat) : Bool :=
  s.reqs.any (fun r => r.2.kind == .stg && r.2.peer.isNone && r.2.ctx == ctx && r.2.z == g && r.2.atTable)

/-- Send a packet of the exchange to each destination. -/
def State.toDests (s : State) (ctx g : Nat) (x : Group) (kind : Nat) : State :=
  x.dests.foldl (fun t d => t.send { kind := kind, dev := d.1, ctx := d.2.1, peerCtx := ctx, tag := g, b := d.2.2.1 }) s

/-- The outcome is recorded and the flag of GCOMMIT or GABORT decremented (R158 step 6). -/
def State.groupDone (s : State) (key : Nat) (x : Group) (commit : Bool) : State :=
  let y : Group := { x with
    status := if commit then 2 else 3
    phase := 5
    opened := false
    cause := if commit then 0 else if x.voluntary && !x.failed then 0x30 else x.cause
    dcause := if commit then 0 else x.dcause
    dev := if commit && !x.lost then 0 else x.dev }
  (s.setGroup key y).endGroupReq x.req (if commit then 0 else if x.voluntary then 0x30 else x.cause)

/-- GCOMMIT_AT_TABLE (R158, R326): the exchange starts, or the group has already been ended; one that touched no destination
completes at once. -/
def execGcommitAtTable (s : State) : Out :=
  match s.ev with
  | .group ctx g id =>
    let key := groupKey ctx g
    match s.req id with
    | none => .next s
    | some r =>
      let s1 := s.dropCopy r.core key 2
      let x := s.group key
      if !x.opened || x.phase != 0 then .next (s1.endGroupReq id 0x3B)
      else if x.dests.isEmpty then .next (s1.groupDone key { x with req := id, voluntary := r.dest == 1 } (r.dest != 1))
      else .next ((s1.setGroup key { x with status := 1, phase := 1, req := id, voluntary := r.dest == 1, waits := r.deps }).later .commitPrepareSend
        (.group ctx g id))
  | _ => .next s

/-- The origin sends abort to every destination. -/
def State.abortAll (s : State) (ctx g : Nat) (x : Group) : State :=
  let y : Group := { x with phase := 4, dests := x.dests.map (fun d => (d.1, d.2.1, d.2.2.1, d.2.2.2.1, false)) }
  (s.setGroup (groupKey ctx g) y).toDests ctx g y 10

/-- A destination has acknowledged, or is no longer waited for (R158 step 6, R164). -/
def State.groupAcked (s : State) (key dev : Nat) (dctx : Option Nat) (lost : Bool) : State :=
  let x := s.group key
  if x.phase ≠ 3 ∧ x.phase ≠ 4 then s
  else
    let mine (d : Nat × Nat × Nat × Bool × Bool) : Bool := d.1 == dev && dctx.all (· == d.2.1)
    let waited := x.dests.any (fun d => mine d && !d.2.2.2.2)
    let y : Group := { x with
      dests := x.dests.map (fun d => if mine d then (d.1, d.2.1, d.2.2.1, d.2.2.2.1, true) else d)
      lost := x.lost || (lost && waited && x.phase == 3) }
    if y.dests.all (fun d => d.2.2.2.2) then s.groupDone key y (y.phase == 3) else s.setGroup key y

/-- The abort of a group, some of whose destinations have been lost and are not waited for (R164). -/
def State.abortLost (s : State) (ctx g : Nat) (x : Group) : State :=
  x.gone.foldl (fun t d => t.groupAcked (groupKey ctx g) d none true) (s.abortAll ctx g x)

/-- What the prepare waits for is complete (R158 step 1). -/
def State.prepareDue (s : State) (ctx g : Nat) : Bool :=
  let x := s.group (groupKey ctx g)
  x.phase == 1 && x.waits.all (fun id => (s.req id).isNone) && !s.stgsOpen ctx g

/-- COMMIT_PREPARE_SEND (R158 step 2), or the abort of a failed group and of GABORT. -/
def execCommitPrepareSend (s : State) : Out :=
  match s.ev with
  | .group ctx g id =>
    let key := groupKey ctx g
    let x := s.group key
    if x.phase ≠ 1 ∨ x.req ≠ id then .next s
    else if x.voluntary || x.failed then .next (s.abortLost ctx g x)
    else match x.dests.find? (fun d => x.gone.contains d.1) with
    | some d => .next (s.abortLost ctx g { x with cause := 0x36, dcause := 0, dev := d.1 })
    | none =>
      let s1 := (s.setGroup key { x with phase := 2, sent := s.clock }).toDests ctx g x 7
      .next { s1 with agenda := s1.agenda ++ [{ op := .preptoExpiry, arg := .group ctx g id, due := s.clock + s.prepto }] }
  | _ => .next s

/-- ANSWER_ARRIVAL (R158 steps 3 and 4): the first refusal aborts; the last ready answer commits. -/
def execAnswerArrival (s : State) : Out :=
  match s.ev with
  | .packet p =>
    let key := groupKey p.ctx p.tag
    let x := s.group key
    if x.phase ≠ 2 then .next s
    else if p.a ≠ 0 then .next (s.abortAll p.ctx p.tag { x with cause := p.a, dcause := p.b, dev := p.dev })
    else
      let y : Group := { x with dests := x.dests.map (fun d => if d.1 = p.dev ∧ d.2.1 = p.peerCtx then (d.1, d.2.1, d.2.2.1, true, false) else d) }
      if y.dests.all (fun d => d.2.2.2.1) then .next ((s.setGroup key { y with phase := 3 }).toDests p.ctx p.tag y 9)
      else .next (s.setGroup key y)
  | _ => .next s

/-- PREPTO_EXPIRY (R158 step 4): cause 0x36 names the first destination that has not answered. -/
def execPreptoExpiry (s : State) : Out :=
  match s.ev with
  | .group ctx g id =>
    let x := s.group (groupKey ctx g)
    if x.phase ≠ 2 ∨ x.req ≠ id then .next s
    else
      let d := (x.dests.find? (fun d => !d.2.2.2.1)).map (·.1)
      .next (s.abortAll ctx g { x with cause := 0x36, dcause := 0, dev := d.getD 0 })
  | _ => .next s

/-- GROUP_ACK_ARRIVAL. -/
def execGroupAckArrival (s : State) : Out :=
  match s.ev with
  | .packet p => .next (s.groupAcked (groupKey p.ctx p.tag) p.dev (some p.peerCtx) false)
  | _ => .next s

/-! ### The destination -/

/-- STG_LANE_ARRIVAL (R148, R154): acknowledged, then served under the destination context's tables; a context not live
refuses it (R24). -/
def execStgLaneArrival (s : State) : Out :=
  match s.ev with
  | .packet p =>
    let s1 := s.send { kind := 1, dev := p.dev, ctx := p.peerCtx, tag := p.tag }
    if !(s.ctx p.ctx).live then
      .next (s1.send { kind := 6, dev := p.dev, ctx := p.peerCtx, peerCtx := p.ctx, tag := p.tag, a := 0x17 })
    else
      .next (s1.addReq { kind := .stg, ctx := p.ctx, group := p.a, lanes := p.lanes.map LaneAcc.carried, born := s.clock, peer := some (p.dev, p.peerCtx, p.tag) })
  | _ => .next s

/-- The destination state of a group at one destination context. -/
def DestGroup.of (d : DestGroup) (dev octx g dctx : Nat) : Bool := d.odev == dev && d.octx == octx && d.group == g && d.dctx == dctx

/-- Its entries leave the landing and its state is freed. -/
def State.freeDest (s : State) (dev octx g dctx : Nat) : State :=
  { s with landing := s.landing.filter (fun e => !e.of dev octx g dctx), dests := s.dests.filter (fun d => !d.of dev octx g dctx) }

/-- The valid bytes of a landing record, with their offsets in the line (R155). -/
def State.landBytes (s : State) (i : Nat) : List (Nat × Byte) :=
  let a := s.landRecord i
  ((List.range 128).filter (fun k => (s.rd (a + 128 + k / 8) 1).testBit (k % 8))).map (fun k => (k, Mem.read s.mem (a + k)))

/-- The valid bytes of an entry enter its line at the home slice; a whole line loses its poison (R79). -/
def State.publishLine (s : State) (e : LandEntry) : State :=
  let bs := s.landBytes e.idx
  let t := s.l2Use e.pa 0 false true true
  let u := if bs.length = 128 then t.wrOver (128 * e.pa) (bs.map (·.2))
    else bs.foldl (fun t b => t.wrBytes (128 * e.pa + b.1) [b.2]) (t.atSlice (128 * e.pa))
  u.voids (if e.odev = s.devId then .unit else .peer) (128 * e.pa) 128

/-- Publication (R140, R161): every valid byte enters memory at one instant. -/
def State.publish (s : State) (dev octx g dctx : Nat) : State :=
  ((s.landing.filter (·.of dev octx g dctx)).foldl (fun t e => t.publishLine e) s).freeDest dev octx g dctx

/-- PREPARE_ARRIVAL (R159): the check is made once no fill of an entry's page is in progress. -/
def execPrepareArrival (s : State) : Out :=
  match s.ev with
  | .packet p => .next (s.later .prepareAnswerSend (.dest p))
  | _ => .next s

/-- A fill is in progress for a page of one of the group's entries. -/
def State.prepareWaits (s : State) (p : Packet) : Bool :=
  s.landing.any (fun e => e.of p.dev p.peerCtx p.tag p.ctx && s.filling e.dctx (e.va / 4096))

/-- Translate an entry again whose mapping has been removed (Table 5-4): its new line, a cause, or a fill to wait for. -/
def State.retryEntry (s : State) (e : LandEntry) : State × Except (Option Nat) Nat :=
  match s.translate e.dctx e.va 1 with
  | (t, .ok f _ _ _ _) => (t, .ok ((4096 * f + e.va % 4096) / 128))
  | (t, .fault c _ _) => (t, .error (some c))
  | (t, .fwd _) => (t, .error (some 0x10))
  | (t, .fill pa x _) => match t.startFill e.dctx e.va 1 pa x with
    | (u, none) => (u, .error none)
    | (u, some c) => (u, .error (some c))

/-- Every stale entry of a group is translated again, up to the first that faults or waits. -/
def State.retryEntries : List LandEntry → State → State × Option (Option Nat)
  | [], s => (s, none)
  | e :: es, s =>
    match s.retryEntry e with
    | (t, .ok pa) => State.retryEntries es { t with landing := t.landing.map (fun x => if x = e then { x with pa := pa, stale := false } else x) }
    | (t, .error c) => (t, some c)

/-- PREPARE_ANSWER_SEND (R159, R160): the checks of Table 5-4 in order; a group that passes is prepared: the copies of its
lines are recalled and the lines held. -/
def execPrepareAnswerSend (s : State) : Out :=
  match s.ev with
  | .dest p =>
    let ans (t : State) (cause dcause : Nat) : Out :=
      .next (t.send { kind := 8, dev := p.dev, ctx := p.peerCtx, peerCtx := p.ctx, tag := p.tag, a := cause, b := dcause })
    let mine := s.dests.find? (·.of p.dev p.peerCtx p.tag p.ctx)
    if !(s.ctx p.ctx).live || s.dying p.ctx then ans s 0x38 0
    else if (mine.map (·.received)).getD 0 ≠ p.b then ans s 0x33 0
    else
      match State.retryEntries (s.landing.filter (fun e => e.of p.dev p.peerCtx p.tag p.ctx && e.stale)) s with
      | (t, some none) => .next (t.later .prepareAnswerSend (.dest p))
      | (t, some (some c)) => ans t 0x34 c
      | (t, none) =>
        let t1 := (t.landing.filter (·.of p.dev p.peerCtx p.tag p.ctx)).foldl (fun t e => t.recallAll e.pa) t
        ans { t1 with dests := t1.dests.map (fun d =>
          if d.of p.dev p.peerCtx p.tag p.ctx then { d with prepared := true } else d) } 0 0
  | _ => .next s

/-- The acknowledgement of a destination. -/
def State.ackGroup (s : State) (dev octx g dctx : Nat) : State :=
  s.send { kind := 11, dev := dev, ctx := octx, peerCtx := dctx, tag := g }

/-- COMMIT_ARRIVAL (R161). -/
def execCommitArrival (s : State) : Out :=
  match s.ev with
  | .packet p => .next ((s.publish p.dev p.peerCtx p.tag p.ctx).ackGroup p.dev p.peerCtx p.tag p.ctx)
  | _ => .next s

/-- ABORT_ARRIVAL (R161). -/
def execAbortArrival (s : State) : Out :=
  match s.ev with
  | .packet p => .next ((s.freeDest p.dev p.peerCtx p.tag p.ctx).ackGroup p.dev p.peerCtx p.tag p.ctx)
  | _ => .next s

/-- The prepared destination state a GRESOLVE names (Table 5-7). -/
def State.resolved (s : State) (w : W64) : List DestGroup :=
  s.dests.filter (fun d => d.prepared && d.odev == bitsOf w.toNat 43 34 && d.octx == bitsOf w.toNat 33 22 && d.group == bitsOf w.toNat 21 12)

/-- GRESOLVE_COMMIT (R164). -/
def execGresolveCommit (s : State) : Out :=
  match s.ev with
  | .reg _ w size =>
    if size ≠ 8 then .next s
    else .next ((s.resolved w).foldl (fun t d => (t.publish d.odev d.octx d.group d.dctx).ackGroup d.odev d.octx d.group d.dctx) s)
  | _ => .next s

/-- GRESOLVE_ABORT (R164). -/
def execGresolveAbort (s : State) : Out :=
  match s.ev with
  | .reg _ w size =>
    if size ≠ 8 then .next s
    else .next ((s.resolved w).foldl (fun t d => (t.freeDest d.odev d.octx d.group d.dctx).ackGroup d.odev d.octx d.group d.dctx) s)
  | _ => .next s

/-! ### Losses (R148, R164) -/

/-- Requests that a lost peer holds complete with cause 0x17 (R148). -/
def State.dropPeer (s : State) (dev : Nat) : State :=
  { s with reqs := s.reqs.map (fun r => (r.1, { r.2 with lanes := r.2.lanes.map (fun l =>
      if l.stage = 6 ∧ l.peer ≠ 0 ∧ aperDev l.peer = dev then { l with stage := 4, cause := 0x17 } else l) })) }

/-- PEER_LOST_REPORT (R148, R164): before the decision a lost destination counts as not answering, also one
lost while the group is still open; after it, it is not waited for. -/
def execPeerLostReport (s : State) : Out :=
  match s.ev with
  | .host dev _ =>
    .next (s.groups.foldl (fun t x =>
      let y := t.group x.1
      if !y.dests.any (fun d => d.1 == dev) then t
      else if y.phase ≤ 1 then (if y.opened then t.setGroup x.1 { y with gone := (dev :: y.gone).eraseDups } else t)
      else if y.phase = 2 then
        (t.abortAll (x.1 / 1024) (x.1 % 1024) { y with cause := 0x36, dcause := 0, dev := dev }).groupAcked x.1 dev none true
      else t.groupAcked x.1 dev none true) (s.dropPeer dev))
  | _ => .next s

/-- ORIGIN_LOST_REPORT (R164): the lost origin's groups that are not prepared are discarded. -/
def execOriginLostReport (s : State) : Out :=
  match s.ev with
  | .host dev _ =>
    .next ((s.dests.filter (fun d => d.odev == dev && !d.prepared)).foldl (fun t d => t.freeDest d.odev d.octx d.group d.dctx) s)
  | _ => .next s

end Sys2Proof.Machine
end

