-- ==== Sys2Proof/Machine/MLoad.lean ====
section
/-! DEFINITION. MLoad: the meanings of the loads (R267, R268, R270 to R273). -/

namespace Sys2Proof.Machine
open Sys2Proof

/-- LD.B8 (R267). -/
def execLdB8 (o : MOp) (s : State) : Out := mLoad (.ldB8 o) o 0x01 1 false s
/-- LD.B8.SX (R267). -/
def execLdB8Sx (o : MOp) (s : State) : Out := mLoad (.ldB8Sx o) o 0x02 1 false s
/-- LD.B16 (R267). -/
def execLdB16 (o : MOp) (s : State) : Out := mLoad (.ldB16 o) o 0x03 2 false s
/-- LD.B16.SX (R267). -/
def execLdB16Sx (o : MOp) (s : State) : Out := mLoad (.ldB16Sx o) o 0x04 2 false s
/-- LD.B32 (R267). -/
def execLdB32 (o : MOp) (s : State) : Out := mLoad (.ldB32 o) o 0x05 4 false s
/-- LD.B64 (R267). -/
def execLdB64 (o : MOp) (s : State) : Out := mLoad (.ldB64 o) o 0x06 8 false s
/-- LD.B128 (R267). -/
def execLdB128 (o : MOp) (s : State) : Out := mLoad (.ldB128 o) o 0x07 16 false s
/-- LD.B32.S (R268). -/
def execLdB32S (o : MOp) (s : State) : Out := mLoadS (.ldB32S o) o 0x08 4 s
/-- LD.B64.S (R268). -/
def execLdB64S (o : MOp) (s : State) : Out := mLoadS (.ldB64S o) o 0x09 8 s
/-- LDRAW.B8 (R270). -/
def execLdrawB8 (o : MOp) (s : State) : Out := mLoad (.ldrawB8 o) o 0x10 1 true s
/-- LDRAW.B16 (R270). -/
def execLdrawB16 (o : MOp) (s : State) : Out := mLoad (.ldrawB16 o) o 0x11 2 true s
/-- LDRAW.B32 (R270). -/
def execLdrawB32 (o : MOp) (s : State) : Out := mLoad (.ldrawB32 o) o 0x12 4 true s
/-- LDRAW.B64 (R270). -/
def execLdrawB64 (o : MOp) (s : State) : Out := mLoad (.ldrawB64 o) o 0x13 8 true s

/-! ### Descriptors (R271 to R273) -/

/-- Word w of descriptor n at issue; undefined while an LDC into it is pending (R272). -/
def State.descWord (s : State) (n w : Nat) : Nat :=
  if s.me.busy s.clock (.d n) then (Config.freeW64 s.free (800 + w)).toNat else (mget 0 s.me.desc (4 * n + w)).toNat

/-- A descriptor's fields (Table 9-2). -/
structure Desc where
  mode : Nat
  width : Nat
  sx : Bool
  rsv : Nat
  count : Nat
  stride1 : Int
  stride0 : Int
  extent : Nat
  base : Nat
  deriving DecidableEq, Repr

/-- The descriptor an LDX or STX reads. -/
def State.desc (s : State) (n : Nat) : Desc :=
  let w2 := s.descWord n 2
  let w3 := s.descWord n 3
  { mode := w3 / 2 ^ 61, width := w3 / 2 ^ 59 % 4, sx := w3.testBit 58, rsv := bitsOf w3 57 32, count := w3 % 2 ^ 32,
    stride1 := sextInt (w2 / 2 ^ 32) 32, stride0 := sextInt w2 32, extent := s.descWord n 1, base := s.descWord n 0 }

/-- The signed distance of a lane's element from BASE, and whether it is in bounds (R273). -/
def Desc.elem (d : Desc) (off : Nat) : Int × Bool :=
  let x0 : Nat := off % 2 ^ 16
  let y : Nat := off / 2 ^ 16 % 2 ^ 16
  let x : Nat := if d.mode = 2 ∧ 0 < d.count then min x0 (d.count - 1) else x0
  let k : Int := x * d.stride0 + y * d.stride1
  (k, decide (x < d.count) && decide (0 ≤ k) && decide (k + (2 ^ d.width : Nat) ≤ d.extent))

/-- Class 4 of LDX and STX: reserved fields, 8 bytes of neither an even pair below REGS nor a scalar register (R266), then bounds
under MODE 3. -/
def descTrap (o : MOp) (s : State) : Option Trap :=
  let d := s.desc o.base.toNat
  let odd := d.width = 3 ∧ !selS o.data ∧ (!selV o.data ∨ o.data.toNat % 2 = 1 ∨ s.me.regs ≤ o.data.toNat + 1)
  let bad := (s.mLanes o).filter (fun l => !(d.elem (s.ofsLane o.ofs l)).2)
  if 4 ≤ d.mode ∨ d.rsv ≠ 0 ∨ odd then some (illegal .m)
  else if d.mode = 3 ∧ !bad.isEmpty then some { tcause := 0x6A, slot := 1, info := (maskOf bad).toNat }
  else none

/-- The pieces of LDX and STX: an out-of-bounds lane under MODE 1 or 2 has no access (R273). -/
def State.descPieces (s : State) (o : MOp) (wr : Bool) (data : Nat → Nat) : List LaneAcc :=
  let d := s.desc o.base.toNat
  let n := 2 ^ d.width
  (s.mLanes o).flatMap (fun l =>
    let (k, inb) := d.elem (s.ofsLane o.ofs l)
    if !inb && decide (d.mode ≠ 0) then [{ lane := l, path := 9, size := n, stage := 2 }]
    else s.lanePieces s.cur.core s.me.cslot s.myCrew.ctx (wrapInt (d.base + k) 64) n wr o.z.toNat l (data l) memPaths)

/-- LDX (R273). The request keeps the width's group and the sign extension. -/
def execLdx (o : MOp) (s : State) : Out :=
  mRun (.ldx o) o (descTrap o) (fun s =>
    let d := s.desc o.base.toNat
    let g := if d.width = 3 then 2 else 1
    let r := { s.mReq o 0x18 .ldx (s.descPieces o false (fun _ => 0)) with
               group := g, z := (if d.sx then 8 else 0) + d.width }
    ((s.issueReq r).markV o.data.toNat g o.flag.toNat (s.mLanes o)).bump) s

/-- LDC (R272): 32 bytes into a descriptor. -/
def execLdc (o : MOp) (s : State) : Out :=
  mRun (.ldc o) o (fun s => if s.addr1 o % 32 ≠ 0 then some { tcause := 0x63, slot := 1 } else none) (fun s =>
    let lanes := s.lanePieces s.cur.core s.me.cslot s.myCrew.ctx (s.addr1 o) 32 false 0 0 0 memPaths
    let s1 := s.issueReq (s.mReq o 0x1A .ldc lanes)
    s1.setMe (s1.me.mark (.d o.data.toNat) o.flag.toNat s.clock)) s

end Sys2Proof.Machine
end

