-- ==== Sys2Proof/Machine/MOrder.lean ====
section
/-! DEFINITION. MOrder: the meanings of stash control and prefetch (R274 to R276), MARK and FENCE (R115, R116, R128, R129,
R283), and messages and queues (R284 to R287). -/

namespace Sys2Proof.Machine
open Sys2Proof

/-! ### Stash control and prefetch -/

/-- The piece of LBLK, BLKWB and BLKDROP: on PATH 0 it is to be served; a non-canonical address or a failed window check
completes in error; no window, or another path whatever its checks, completes at once without error (R274, R275, R147). -/
def State.blockPiece (s : State) (o : MOp) : List LaneAcc :=
  let a := s.addr1 o
  let ctx := s.myCrew.ctx
  let v := s.look s.cur.core ctx a false
  let path := if s.split ctx then a % 2 ^ 57 / 2 ^ 54 else (s.window s.cur.core ctx (a % 2 ^ 57 / 4096)).elim 0 (fun n => bitsOf (s.ctxWord s.cur.core ctx (2 * n)) 62 60)
  if v.cause = 0x01 ∨ (canonical a = true ∧ path ≠ 0) then []
  else if v.cause ≠ 0 then [{ lane := 0, ia := v.ia, stage := 4, cause := v.cause }]
  else if v.path ≠ 0 then []
  else [{ lane := 0, ia := v.ia, size := 128, stage := 1 }]

/-- A uniform stash operation. -/
def mBlock (i : Instr) (o : MOp) (opc : Nat) (k : ReqKind) (s : State) : Out :=
  mRun i o noTrap (fun s => s.issueReq (s.mReq o opc k (s.blockPiece o))) s

/-- LBLK (R274). -/
def execLblk (o : MOp) (s : State) : Out := mBlock (.lblk o) o 0x1C .lblk s
/-- BLKWB (R275). -/
def execBlkwb (o : MOp) (s : State) : Out := mBlock (.blkwb o) o 0x1D .blkwb s
/-- BLKDROP (R275). -/
def execBlkdrop (o : MOp) (s : State) : Out := mBlock (.blkdrop o) o 0x1E .blkdrop s

/-- PREF (R276): the lanes on PATH 0 and PATH 6; the others are dropped. -/
def execPref (o : MOp) (s : State) : Out :=
  mRun (.pref o) o noTrap (fun s =>
    let lanes := (s.mLanes o).filterMap (fun l =>
      let v := s.look s.cur.core s.myCrew.ctx (s.addr o 1 l) false
      if v.cause = 0 ∧ (v.path = 0 ∨ v.path = 6) then
        some { lane := l, ia := v.ia, path := v.path, size := 1, stage := 0 }
      else none)
    s.issueReq (s.mReq o 0x1F .pref lanes)) s

/-! ### MARK and FENCE -/

/-- A request without accesses that waits for earlier ones. -/
def State.coverReq (s : State) (o : MOp) (opc : Nat) (k : ReqKind) (deps : List Nat) : Req :=
  { s.mReq o opc k [] with
    core := s.cur.core
    slot := s.cur.slot
    ctx := s.myCrew.ctx
    deps := deps
    born := s.clock }

/-- MARK (R115, R116): it covers the gang's accesses in progress; later accesses that may share a location with one of them
wait for it, and its flag waits for them all. -/
def execMark (o : MOp) (s : State) : Out :=
  mRun (.mark o) o noTrap (fun s =>
    let g := s.me
    let all := (g.loadQ ++ g.storeQ).eraseDups
    let r := s.coverReq o 0x30 .mark all
    let g1 := if all.isEmpty then g else { g with markQ := g.markQ ++ [(s.nextId, all)] }
    (s.addReq r).setMe (g1.flagInc o.flag.toNat)) s

/-- FENCE (R128, R129): every later access, and the flag, waits for every access in progress and for the writes the gang has
observed through barriers (R133). -/
def execFence (o : MOp) (s : State) : Out :=
  mRun (.fence o) o noTrap (fun s =>
    let g := s.me
    let all := (g.loadQ ++ g.storeQ ++ g.barQ).eraseDups
    let r := s.coverReq o 0x31 .fence all
    let g1 := g.hold all (max 1 o.z.toNat)
    (s.addReq r).setMe (g1.flagInc o.flag.toNat)) s

/-! ### Messages and queues -/

/-- SEND (R285). -/
def execSend (o : MOp) (s : State) : Out :=
  mRun (.send o) o noTrap (fun s =>
    s.issueReq { s.mReq o 0x32 .send (s.portPiece o true false) with words := s.regWords (o.data.toNat - 0x80) 1 }) s

/-- QPUSH (R286). -/
def execQpush (o : MOp) (s : State) : Out :=
  mRun (.qpush o) o noTrap (fun s =>
    s.issueReq { s.mReq o 0x33 .qpush (s.portPiece o true false) with words := s.regWords (o.data.toNat - 0x80) 8 }) s

/-- Note the eight scalar registers of a record (R213, R287). -/
def State.markRec (s : State) (n f : Nat) : State := (List.range 8).foldl (fun t i => t.markS (n + i) f) s

/-- QPOP (R287). -/
def execQpop (o : MOp) (s : State) : Out :=
  mRun (.qpop o) o noTrap (fun s =>
    (s.issueReq (s.mReq o 0x34 .qpop (s.portPiece o false true))).markRec (o.data.toNat - 0x80) o.flag.toNat) s

/-- QTRY (R287): DATA[7:5] names the predicate, DATA[4:3] the record group. -/
def execQtry (o : MOp) (s : State) : Out :=
  mRun (.qtry o) o noTrap (fun s =>
    let s1 := (s.issueReq (s.mReq o 0x35 .qtry (s.portPiece o false true))).markRec (o.data.toNat % 32) o.flag.toNat
    s1.setMe (s1.me.mark (.p (o.data.toNat / 32)) o.flag.toNat s.clock)) s

end Sys2Proof.Machine
end

