-- ==== Sys2Proof/Machine/MStore.lean ====
section
/-! DEFINITION. MStore: the meanings of the stores, atomics and reductions (R269, R270, R273, R277 to R282, R290). -/

namespace Sys2Proof.Machine
open Sys2Proof

/-- ST.B8 (R269). -/
def execStB8 (o : MOp) (s : State) : Out := mStore (.stB8 o) o 0x0A 1 1 s
/-- ST.B16 (R269). -/
def execStB16 (o : MOp) (s : State) : Out := mStore (.stB16 o) o 0x0B 2 1 s
/-- ST.B32 (R269). -/
def execStB32 (o : MOp) (s : State) : Out := mStore (.stB32 o) o 0x0C 4 1 s
/-- ST.B64 (R269, R362). -/
def execStB64 (o : MOp) (s : State) : Out := mStore (.stB64 o) o 0x0D 8 1 s
/-- ST.B128 (R269). -/
def execStB128 (o : MOp) (s : State) : Out := mStore (.stB128 o) o 0x0E 16 1 s
/-- STRAW.B8 (R270). -/
def execStrawB8 (o : MOp) (s : State) : Out := mStore (.strawB8 o) o 0x14 1 1 s
/-- STRAW.B16 (R270). -/
def execStrawB16 (o : MOp) (s : State) : Out := mStore (.strawB16 o) o 0x15 2 2 s
/-- STRAW.B32 (R270). -/
def execStrawB32 (o : MOp) (s : State) : Out := mStore (.strawB32 o) o 0x16 4 4 s
/-- STRAW.B64 (R270, R362). -/
def execStrawB64 (o : MOp) (s : State) : Out := mStore (.strawB64 o) o 0x17 8 8 s

/-- STX (R273). -/
def execStx (o : MOp) (s : State) : Out :=
  mRun (.stx o) o (descTrap o) (fun s =>
    let d := s.desc o.base.toNat
    let g := if d.width = 3 then 2 else 1
    (s.issueReq (s.mReq o 0x19 .stx (s.descPieces o true (s.dataLane o.data g)))).bump) s

/-- ATOM.N32 (R277). -/
def execAtomN32 (o : MOp) (s : State) : Out := mAtom (.atomN32 o) o 0x20 4 s
/-- ATOM.S32 (R277). -/
def execAtomS32 (o : MOp) (s : State) : Out := mAtom (.atomS32 o) o 0x21 4 s
/-- ATOM.N64 (R277). -/
def execAtomN64 (o : MOp) (s : State) : Out := mAtom (.atomN64 o) o 0x22 8 s
/-- ATOM.F32 (R277). -/
def execAtomF32 (o : MOp) (s : State) : Out := mAtom (.atomF32 o) o 0x23 4 s
/-- REDM.N32 (R278). -/
def execRedmN32 (o : MOp) (s : State) : Out := mRedm (.redmN32 o) o 0x24 4 s
/-- REDM.S32 (R278). -/
def execRedmS32 (o : MOp) (s : State) : Out := mRedm (.redmS32 o) o 0x25 4 s
/-- REDM.N64 (R278). -/
def execRedmN64 (o : MOp) (s : State) : Out := mRedm (.redmN64 o) o 0x26 8 s
/-- REDM.F32 (R278). -/
def execRedmF32 (o : MOp) (s : State) : Out := mRedm (.redmF32 o) o 0x27 4 s
/-- ATOMCAS.B32 (R279). -/
def execAtomcasB32 (o : MOp) (s : State) : Out := mCas (.atomcasB32 o) o 0x28 4 s
/-- ATOMCAS.B64 (R279). -/
def execAtomcasB64 (o : MOp) (s : State) : Out := mCas (.atomcasB64 o) o 0x29 8 s

/-- ACCST.ADD (R281). -/
def execAccstAdd (o : MOp) (s : State) : Out := mAccst (.accstAdd o) o 0x2C s
/-- ACCST.OVW (R281). -/
def execAccstOvw (o : MOp) (s : State) : Out := mAccst (.accstOvw o) o 0x2D s
/-- ACCLD (R281). -/
def execAccld (o : MOp) (s : State) : Out :=
  mRun (.accld o) o (accTrap o true) (fun s =>
    (s.issueReq (s.mReq o 0x2E .accld (s.accPieces o (fun _ => 0)))).markV o.data.toNat 1 o.flag.toNat (s.mLanes o)) s

/-- STCH (R282): exactly one unit leaves the chute; the participating lanes store its words. -/
def execStch (o : MOp) (s : State) : Out :=
  let n := o.data.toNat % 8
  mRun (.stch o) o (fun s => orTrap (chuteTrap .m n s) (underflowTrap .m n s)) (fun s =>
    match (s.chute n).pop with
    | none => s
    | some (u, bad, c) =>
      let lanes := s.laneReqs o (s.mLanes o) 4 1 o.z.toNat true (unitWord u) memPaths
      (s.setChute n c).issueReq (s.mReq o 0x2F .stch (lanes.map (fun l => { l with undef := wordBad bad l.lane })))) s

/-- STG.B32 (R290). -/
def execStgB32 (o : MOp) (s : State) : Out := mStg (.stgB32 o) o 0x36 4 s
/-- STG.B64 (R290). -/
def execStgB64 (o : MOp) (s : State) : Out := mStg (.stgB64 o) o 0x37 8 s

end Sys2Proof.Machine
end

