-- ==== Sys2Proof/Machine/Mill.lean ====
section
/-! DEFINITION. Mill: the commands at issue (R311 to R323) and their execution in queue order, step by step (R105, R106, R137,
R316 to R324). -/

namespace Sys2Proof

/-! ### Shapes (Table 10-8) -/

def MmaOp.m (o : MmaOp) : Nat := 16 * 2 ^ o.ms.toNat
def MmaOp.ncols (o : MmaOp) : Nat := 16 * 2 ^ o.ns.toNat
def MmaOp.k (o : MmaOp) : Nat := 16 * (o.ks.toNat + 1)
/-- Tiles of D. -/
def MmaOp.tiles (o : MmaOp) : Nat := o.m / 16 * (o.ncols / 16)
/-- Slots of a panel along K. -/
def MmaOp.panel (o : MmaOp) (ks : Nat) : Nat := (o.k + ks - 1) / ks

end Sys2Proof

namespace Sys2Proof.Machine
open Sys2Proof Sys2Proof.Num

/-! ### Formats: 0 F16, 1 K4, 2 E4M3, 3 E5M2, 4 BF16 -/

/-- The format a RAW operand is named to have (Table 10-8). -/
def rawFmt (f : Nat) : Nat := if f = 1 then 4 else f

/-- Width of an element in bits. -/
def millBits (f : Nat) : Nat := if f = 1 then 4 else if f = 2 ∨ f = 3 then 8 else 16

/-- Kslot (Table 10-7). -/
def kslot (f : Nat) (sp : Bool) : Nat := if f = 0 ∨ f = 4 then 32 else if f = 1 ∧ sp = true then 128 else 64

/-- An FP8 format. -/
def isFp8 (f : Nat) : Bool := f == 2 || f == 3

/-- Table 10-9: Kclk and the K permitted for a pair, as (Kclk, least K and step); none for a pair not listed. -/
def millPair (fa fb : Nat) (sp : Bool) : Option (Nat × Nat) :=
  if !sp && (fa == 0 && fb == 0 || fa == 4 && fb == 4) then some (16, 16)
  else if isFp8 fa && isFp8 fb then some (if sp then (64, 64) else (32, 32))
  else if fa = 1 ∧ fb = 1 then some (if sp then (128, 128) else (64, 64))
  else if !sp && (isFp8 fa && fb == 1 || fa == 1 && isFp8 fb) then some (32, 64)
  else none

/-- The value of a stored element of a format under a scale byte. -/
def millValue (f x scale : Nat) : XR :=
  match f with
  | 0 => decode f16 x
  | 1 => k4Value scale x
  | 2 => decode e4m3 x
  | 3 => decode e5m2 x
  | _ => decode bf16 x

/-! ### Operands -/

/-- Element i of the row at offset `row` of the crew's scratchpad, of format f, swizzled by z (R316): its value, its poison,
and the tag format of its granule. -/
def Core.millA (k : Core) (al : Alloc) (row z f i : Nat) : XR × Bool × Nat :=
  let w := millBits f
  let p := swizzle z (row + i * w / 8)
  let t := k.tagAt al p
  let n := (w + 7) / 8
  let x := k.srd al p n
  let sofs := gtSgran t * 4096 + gtSslot t * 512 + p % 4096 / 8
  if f = 1 then (k4Value (k.srd al sofs 1) (x / 16 ^ (i % 2) % 16), k.spoison al p 1 || k.spoison al sofs 1, gtFmt t)
  else (millValue f x 0, k.spoison al p n, gtFmt t)

/-- Byte b of a weight slot. -/
def Crew.wbyte (w : Crew) (slot b : Nat) : Nat := (Mem.read w.wbuf (1024 * slot + b)).toNat

/-- Value v of a column of a slot (Table 10-7): element of a dense slot, kept value of a sparse one; `blk` is its K4 block. -/
def Crew.millB (w : Crew) (f : Nat) (sp : Bool) (slot col v blk : Nat) : XR :=
  match f with
  | 1 =>
    let sc := w.wbyte slot (if sp then 768 + 8 * col + blk else 512 + 4 * col + blk)
    k4Value sc (w.wbyte slot (32 * col + v / 2) / 16 ^ (v % 2) % 16)
  | 2 | 3 => millValue f (w.wbyte slot ((if sp then 32 else 64) * col + v)) 0
  | _ => millValue f (w.wbyte slot (64 * col + 2 * v) + 256 * w.wbyte slot (64 * col + 2 * v + 1)) 0

/-- The terms of a column in a group of 16 K indices, as (index within the group, value): all 16 of a dense slot; of a sparse
one the kept values, at the indices its metadata give (R310). -/
def Crew.bGroup (w : Crew) (f : Nat) (sp : Bool) (slot col g : Nat) : List (Nat × XR) :=
  if !sp then (List.range 16).map (fun q => (q, w.millB f false slot col (16 * g + q) g))
  else (List.range 4).flatMap (fun q =>
    let gg := 4 * g + q
    let nib := w.wbyte slot (512 + (if f = 1 then 16 else 8) * col + gg / 2) / 16 ^ (gg % 2) % 16
    [(4 * q + nib % 4, w.millB f true slot col (2 * gg) g), (4 * q + nib / 4, w.millB f true slot col (2 * gg + 1) g)])

/-! ### One step of an MMA (R105, R318) -/

/-- The group's sum is added to an accumulator element with one rounding (R105, R106). -/
def macGroup (acc : Nat) (a : Nat → XR) (b : List (Nat × XR)) : Nat :=
  round f32 false 0 0 ((decode f32 acc).add 0 (groupSum (b.map (fun t => (a t.1).mul t.2))))

/-- Step (tile c of D in order, group g) of an MMA or MMAS. An element is undefined where an operand lies under another tag
(R317); one with a poisoned operand is poisoned (Table 2-9). DESIGN CHOICE (log entry 46): an element that was poisoned before counts as
such an operand of its own sum, and the batch takes cause 0x20. -/
def State.mmaStep (s : State) (c cs : Nat) (q : MillCmd) (o : MmaOp) (sp : Bool) (tile g : Nat) : State × Nat :=
  let w := s.crew c cs
  let k := s.core c
  let nt := o.ncols / 16
  let t := o.t.toNat + tile
  let ks := kslot q.fb sp
  let slot := o.w.toNat + tile % nt * o.panel ks + 16 * g / ks
  let rows := (List.range 16).map (fun i => (List.range 16).map (fun x =>
    k.millA w.alloc (q.ofs + (tile / nt * 16 + i) * q.pitch) o.z.toNat q.fa (16 * g + x)))
  let bad := (w.wPoison.contains slot)
  let strange := (mget 0 w.wstag slot).toNat != q.tb
  let elem (i j : Nat) : W32 × Bool :=
    let e := 256 * t + 16 * i + j
    let row := rows.getD i []
    let p := bad || row.any (·.2.1) || w.accPoison.contains e
    if strange || row.any (fun x => x.2.2 != q.ta) then (Config.freeW32 s.free e, p)
    else (BitVec.ofNat 32 (macGroup (mget 0 w.acc e).toNat (fun x => (row.getD x (.nan, false, 0)).1)
      (w.bGroup q.fb sp slot j (16 * g % ks / 16))), p)
  let es := (List.range 256).map (fun n => (256 * t + n, elem (n / 16) (n % 16)))
  let poisoned := (es.filter (fun x => x.2.2)).map Prod.fst
  let w1 : Crew := { w with
    acc := es.foldl (fun m x => mset m x.1 x.2.1) w.acc
    accPoison := w.accPoison ++ poisoned.filter (fun e => !w.accPoison.contains e) }
  let macs := if isFp8 q.fa || isFp8 q.fb then 8 else if q.fa = 1 then 4 else 16
  let s1 := ((s.setCrew c cs w1).power c 1 macs).power c 2 (4 * (millBits q.fa + millBits q.fb))
  (s1.bump, if poisoned.isEmpty then 0 else 0x20)

/-! ### Tile commands -/

/-- MLDT (R320). -/
def State.mldt (s : State) (c cs : Nat) (q : MillCmd) (o : MldtOp) : State × Nat :=
  let w := s.crew c cs
  let k := s.core c
  let wd := if o.sf = 0 then 4 else 2
  let es := (List.range (256 * (o.n.toNat + 1))).map (fun x =>
    let p := swizzle o.z.toNat (q.ofs + (x / 16) * q.pitch + x % 16 * wd)
    let raw := k.srd w.alloc p wd
    let v := if o.sf = 0 then raw else round f32 false 0 0 (decode (if o.sf = 1 then f16 else bf16) raw)
    let e := 256 * o.t.toNat + x
    (e, if o.add = 1 then fadd f32 0 0 (mget 0 w.acc e).toNat v else v,
      k.spoison w.alloc p wd || (o.add == 1 && w.accPoison.contains e)))
  let bad := (es.filter (fun x => x.2.2)).map Prod.fst
  let w1 : Crew := { w with
    acc := es.foldl (fun m x => mset m x.1 (BitVec.ofNat 32 x.2.1)) w.acc
    accPoison := w.accPoison.filter (fun e => !es.any (fun x => x.1 == e)) ++ bad }
  ((s.setCrew c cs w1).power c 2 (es.length * wd / 8), if bad.isEmpty then 0 else 0x20)

/-- Tiles become +0 (R319, R322). -/
def State.zeroTiles (s : State) (c cs t n : Nat) : State :=
  let w := s.crew c cs
  s.setCrew c cs { w with
    acc := (List.range (256 * n)).foldl (fun m x => mset m (256 * t + x) 0) w.acc
    accPoison := w.accPoison.filter (fun e => e < 256 * t || 256 * (t + n) ≤ e) }

/-- The entry a tile drains into (R322, Table 10-10): `x i j` is an element, `p i j` its poison. -/
def drainEntry (o : MdrainOp) (x : Nat → Nat → Nat) (p : Nat → Nat → Bool) : ChuteEntry :=
  let df := o.df.toNat
  let mode := o.mode.toNat
  let at_ (k : Nat) : Nat × Nat := (k / 16, k % 16)
  match df with
  | 4 =>
    let sc (i : Nat) : Nat := k4Scale o.kt.toNat o.emin.toNat
      (((List.range 16).map (fun j => decode f32 (x i j))).filter (fun v => !v.isNan && !v.isInf))
    let code (i j : Nat) : Nat := k4Encode mode 0 (sc i) (decode f32 (x i j))
    let bad (i : Nat) : Bool := (List.range 16).any (p i)
    { df := 4, ready := true,
      units := [(List.range 128).map (fun b => BitVec.ofNat 8 (code (b / 8) (b % 8 * 2) + 16 * code (b / 8) (b % 8 * 2 + 1))),
                (List.range 128).map (fun b => if b < 16 then BitVec.ofNat 8 (sc b) else 0)],
      bad := [(List.range 128).filter (fun b => bad (b / 8)), (List.range 16).filter bad] }
  | _ =>
    let f := if df = 0 then bf16 else if df = 1 then f16 else if df = 2 then e4m3 else e5m2
    let wd := if df ≤ 1 then 2 else 1
    let per := 128 / wd
    let val (k : Nat) : Nat := let (i, j) := at_ k; round f (decide (2 ≤ df) && o.inf == 0) mode 0 (decode f32 (x i j))
    let isBad (k : Nat) : Bool := let (i, j) := at_ k; p i j
    { df := df, ready := true,
      units := (List.range (256 / per)).map (fun u => (List.range per).flatMap (fun k => bytesLE wd (val (per * u + k)))),
      bad := (List.range (256 / per)).map (fun u => (List.range 128).filter (fun b => isBad (per * u + b / wd))) }

/-- MDRAIN (R321, R322): a tile that finds the chute full is discarded; a chute the crew no longer holds takes nothing. -/
def State.mdrain (s : State) (c cs : Nat) (o : MdrainOp) : State × Nat :=
  let n := o.ch.toNat
  let ch := mget {} (s.core c).chutes n
  if ch.holder ≠ some cs then (s, 0)
  else
    let (s1, cause) := (List.range (o.n.toNat + 1)).foldl (fun (a : State × Nat) i =>
      let w := a.1.crew c cs
      let k := a.1.core c
      let h := mget {} k.chutes n
      let t := o.t.toNat + i
      let e := drainEntry o (fun r j => (mget 0 w.acc (256 * t + 16 * r + j)).toNat) (fun r j => w.accPoison.contains (256 * t + 16 * r + j))
      let bad := e.bad.any (fun b => !b.isEmpty)
      if 16 ≤ h.entries.length then (a.1, if a.2 = 0 then 0x51 else a.2)
      else
        let u := a.1.setCore c { k with chutes := mset k.chutes n { h with entries := h.entries ++ [e] } }
        (if o.zero = 1 then u.zeroTiles c cs t 1 else u, if a.2 = 0 ∧ bad = true then 0x20 else a.2)) (s, 0)
    let k := s1.core c
    let h := mget {} k.chutes n
    (s1.setCore c { k with chutes := mset k.chutes n ({ h with drains := h.drains - 1 } : Chute).settle }, cause)

/-! ### The head command (R137, R311, R314, R318) -/

/-- Steps of a command: K groups of each tile for MMA and MMAS, one for the others. -/
def MillCmd.groups (q : MillCmd) : Nat := match q.op with | .mma o | .mmas o => o.k / 16 | _ => 1
def MillCmd.steps (q : MillCmd) : Nat := match q.op with | .mma o | .mmas o => o.tiles | _ => 1

/-- Clocks that begin with K group g of a tile of an MMA or MMAS: one for each Kclk elements of K (R318), counted as it is performed
(R450). -/
def MillCmd.stepClocks (q : MillCmd) (g : Nat) : Nat :=
  let kc (sp : Bool) : Nat := match millPair q.fa q.fb sp with | some (kc, _) => if 16 * g % kc = 0 then 1 else 0 | none => 0
  match q.op with
  | .mma _ => kc false
  | .mmas _ => kc true
  | _ => 0

/-- What the head command does in its next step, and its cause. A multiply does nothing in a step that it does not have (R324); the
other commands have one step, and perform it whatever MPROG holds. -/
def State.millStep (s : State) (c cs : Nat) (q : MillCmd) (tile g : Nat) : State × Nat :=
  let none_ : Bool := decide (q.steps ≤ tile) || decide (q.groups ≤ g)
  match q.op with
  | .mma o => if none_ then (s, 0) else s.mmaStep c cs q o false tile g
  | .mmas o => if none_ then (s, 0) else s.mmaStep c cs q o true tile g
  | .mzero _ t n => (s.zeroTiles c cs t.toNat (n.toNat + 1), 0)
  | .mldt o => s.mldt c cs q o
  | .mdrain o => s.mdrain c cs o
  | _ => (s, 0)

/-- The tiles a command names. -/
def MillCmd.tiles (q : MillCmd) : List Nat :=
  let run (t n : Nat) : List Nat := (List.range n).map (t + ·)
  match q.op with
  | .mma o | .mmas o => run o.t.toNat o.tiles
  | .mzero _ t n => run t.toNat (n.toNat + 1)
  | .mldt o => run o.t.toNat (o.n.toNat + 1)
  | .mdrain o => run o.t.toNat (o.n.toNat + 1)
  | _ => []

/-- Tiles whose contents a command replaces. -/
def MillCmd.replaces (q : MillCmd) : List Nat :=
  let run (t n : Nat) : List Nat := (List.range n).map (t + ·)
  match q.op with
  | .mzero _ t n => run t.toNat (n.toNat + 1)
  | .mldt o => if o.add = 1 then [] else run o.t.toNat (o.n.toNat + 1)
  | .mdrain o => if o.zero = 1 then run o.t.toNat (o.n.toNat + 1) else []
  | _ => []

/-- Commands leave the queue at this clock (R209, R311). -/
def Mill.leaves (m : Mill) (now n : Nat) : Mill := { m with left := (now, if m.left.1 = now then m.left.2 + n else n) }

/-- The command completes: the elements whose operands changed under it, or all of its tiles after a changed step, are undefined
(R136, R138, R324); its flag is decremented, and its cause joins its batch's; MFENCE closes the batch (R314). -/
def State.millRetire (s : State) (c cs : Nat) (q : MillCmd) (cause : Nat) : State :=
  let m := (s.core c).mill
  let use := m.uses.find? (fun u => u.id == q.id)
  let lost := if m.spoiled then tileElems q.tiles else (use.map (fun u => u.spoilt.eraseDups)).getD []
  let s1 := s.freeElems c cs lost
  let k := s1.core c
  let done (u : MillUse) : Bool := u.id != q.id && !k.mill.queue.any (fun x => x.id == u.id) && s.inSlot c cs u.slot
  let fence := match q.op with | .mfence _ => true | _ => false
  let m1 : Mill := { k.mill with
    queue := k.mill.queue.filter (fun x => x.id != q.id)
    uses := k.mill.uses.map (fun u => if done u then { u with gone := u.gone ++ q.replaces } else u)
    group := 0
    tile := 0
    spoiled := false
    doneBatch := if fence then q.ofs else k.mill.doneBatch
    batchCause := if fence then 0 else if k.mill.batchCause = 0 then cause else k.mill.batchCause }
  (s1.setCore c { k with mill := m1.leaves s.clock 1 }).dec c q.slot q.flag (if fence then m.batchCause else cause)

/-- The command that takes effect next: the first that is not an MREADY. -/
def Mill.head (m : Mill) : Option MillCmd := m.queue.find? (fun q => match q.op with | .mready _ => false | _ => true)

/-- Commands leave the queue unperformed: MPROG begins anew where the head is among them. -/
def Mill.drop (m : Mill) (gone : MillCmd → Bool) : Mill :=
  let m1 := { m with queue := m.queue.filter (fun q => !gone q) }
  if m.head.any gone then { m1 with group := 0, tile := 0, spoiled := false } else m1

/-- The mill can take its next step: it is not stopped, and the head command waits for no MREADY (R313, R324). -/
def State.millDue (s : State) (c : Nat) : Bool :=
  let m := (s.core c).mill
  match m.head with
  | some q => m.state != 2 && decide (q.born < s.clock) && !m.queue.any (fun x => q.deps.contains x.id)
  | none => false

/-- MILL_COMMAND_DONE (R311): the head command takes its next step, the last of which completes it. -/
def execMillCommandDone (s : State) : Out :=
  match s.ev with
  | .core c =>
    match s.millDue c, (s.core c).mill.head with
    | true, some q =>
      let cs := (s.gang c q.slot).cslot
      let m := (s.core c).mill
      let (s0, x) := s.millStep c cs q m.tile m.group
      let s1 := (s0.pmcAdd c cs 9 (q.stepClocks m.group)).observe 1 c 9 (q.stepClocks m.group)
      let cause := if q.cause = 0 then x else q.cause
      let last := decide (q.groups ≤ m.group + 1)
      if last && decide (q.steps ≤ m.tile + 1) then .next (s1.millRetire c cs q cause)
      else
        let k := s1.core c
        let m1 : Mill := { k.mill with
          queue := k.mill.queue.map (fun y => if y.id = q.id then { y with cause := cause } else y)
          group := if last then 0 else m.group + 1
          tile := if last then m.tile + 1 else m.tile }
        .next (s1.setCore c { k with mill := m1 })
    | _, _ => .next s
  | _ => .next s

/-- An MREADY can complete (R313): the writes it orders are performed, and the earlier MREADYs of its gang have completed. -/
def State.mreadyDue (s : State) (c id : Nat) : Bool :=
  let m := (s.core c).mill
  m.queue.any (fun q => q.id == id && (match q.op with | .mready _ => true | _ => false) && q.deps.all s.settled &&
    !m.queue.any (fun x => q.deps.contains x.id) && decide (q.born < s.clock))

/-- MREADY_DONE (R313). -/
def execMreadyDone (s : State) : Out :=
  match s.ev with
  | .entry c id =>
    if !s.mreadyDue c id then .next s
    else
      let k := s.core c
      match k.mill.queue.find? (fun q => q.id == id) with
      | none => .next s
      | some q =>
        let m := { k.mill with queue := k.mill.queue.filter (fun x => x.id != id) }.leaves s.clock 1
        .next ((s.setCore c { k with mill := m }).dec c q.slot q.flag 0)
  | _ => .next s

/-! ### Ownership (R188, R311, R312) -/

/-- The gang that takes the mill: the first of its queue, once no command of an earlier owner is left (R311). -/
def Mill.grantee (m : Mill) : Option (Nat × List Nat) :=
  if m.owner.isNone ∧ m.queue.all (fun q => !m.owners.contains q.slot) then m.waiters.head? else none

/-- The mill after a grant, which begins a batch; a restored crew's commands enter with it, and resume from its MPROG (R416). -/
def Mill.granted (m : Mill) (w : Nat × List Nat) : Mill :=
  let m1 : Mill := { m with
    owner := some w.1
    waiters := m.waiters.filter (fun x => x.1 != w.1)
    owners := w.1 :: m.owners.filter (· != w.1)
    batchCause := 0
    issued := 0 }
  match m.resume.find? (fun x => x.slot == w.1) with
  | none => m1
  | some x =>
    { m1 with
      owner := if x.own || !w.2.isEmpty then some w.1 else none
      owners := (m1.owners ++ x.cmds.map (·.slot)).eraseDups
      batchCause := x.cause
      issued := x.issued
      queue := m1.queue ++ x.cmds
      group := x.group
      tile := x.tile
      resume := m1.resume.filter (fun y => y.slot != w.1) }

/-- MILL_GRANT (R188): the flags of the gang's MACQs are decremented; a new batch begins. -/
def execMillGrant (s : State) : Out :=
  match s.ev with
  | .core c =>
    let k := s.core c
    match k.mill.grantee with
    | none => .next s
    | some w => .next (w.2.foldl (fun t f => t.dec c w.1 f 0) (s.setCore c { k with mill := k.mill.granted w }))
  | _ => .next s

/-! ### Issue -/

/-- The issuing core's mill. -/
def State.mill (s : State) : Mill := (s.core s.cur.core).mill
def State.setMill (s : State) (m : Mill) : State := s.setCore s.cur.core { s.core s.cur.core with mill := m }

/-- A mill command by a gang that does not own the mill (R311). -/
def ownTrap (s : State) : Option Trap := illegalIf (s.mill.owner != some s.cur.slot)

/-- A command enters the queue behind its gang's MREADYs and counts on its flag (R311, R313, R314). -/
def State.enqueueMill (s : State) (q : MillCmd) : State :=
  let ready := (s.mill.queue.filter (fun x => x.slot == s.cur.slot && (match x.op with | .mready _ => true | _ => false))).map (·.id)
  let q1 : MillCmd := { q with slot := s.cur.slot, id := s.nextId, born := s.clock, deps := q.deps ++ ready }
  let mine := if s.mill.owner = some s.cur.slot then 1 else 0
  let s1 : State := { s.setMill { s.mill with queue := s.mill.queue ++ [q1], issued := s.mill.issued + mine } with nextId := s.nextId + 1 }
  s1.inc q.flag

/-- The locations a command reads and writes are noted; the elements whose operands were written since the last MREADY, or whose
tags a copy not yet observed has changed, are undefined (R136, R317). -/
def State.noteUse (s : State) (reads : List MillRead) (tiles : List Nat) (readsTiles : Bool) : State :=
  let g := s.me
  let u : MillUse := { slot := s.cur.slot, id := s.nextId, reads := reads, tiles := tiles }
  let es := (g.unready ++ g.copied.map (·.2)).flatMap (fun x =>
    if x.1 = 2 then (if readsTiles then ((List.range x.2.2).map (x.2.1 + ·)).filter (fun e => tiles.contains (e / 256)) else [])
    else u.met x.1 x.2.1 x.2.2)
  s.setMill { s.mill with uses := s.mill.uses ++ [{ u with spoilt := es.eraseDups }] }

/-- A request without accesses that completes at the clock after issue. -/
def State.plainReq (s : State) (k : ReqKind) (f : BitVec 5) (dest : Nat) : State :=
  (s.addReq { kind := k, core := s.cur.core, slot := s.cur.slot, ctx := s.myCrew.ctx, flag := f.toNat, dest := dest, born := s.clock }).inc f.toNat

/-- MACQ (R312): the part waits until its gang owns the mill; the owner's completes at the clock after issue. -/
def execMacq (f : BitVec 5) (s : State) : Out :=
  xRun (.macq f) f (fun _ => none) (fun s =>
    let m := s.mill
    if m.owner = some s.cur.slot then s.plainReq .mrel f 0 else
    let ws := if m.waiters.any (fun w => w.1 == s.cur.slot)
      then m.waiters.map (fun w => if w.1 = s.cur.slot then (w.1, w.2 ++ [f.toNat]) else w)
      else m.waiters ++ [(s.cur.slot, [f.toNat])]
    let s1 := (s.setMill { m with waiters := ws }).inc f.toNat
    let g := s1.me
    s1.setMe (g.setPart s.cur.lead { g.part s.cur.lead with macq := true })) s

/-- MREL (R312). -/
def execMrel (f : BitVec 5) (s : State) : Out :=
  xRun (.mrel f) f (fun _ => none) (fun s =>
    let m := s.mill
    let s1 := if m.owner = some s.cur.slot then s.setMill { m with owner := none } else s
    s1.plainReq .mrel f 0) s

/-- The kinds of access MREADY orders (R136). -/
def ReqKind.readied : ReqKind → Bool
  | .store | .rawStore | .stx | .stch | .atom | .redm | .cas | .accst => true
  | _ => false

/-- MREADY (R313). -/
def execMready (f : BitVec 5) (s : State) : Out :=
  xRun (.mready f) f (fun _ => none) (fun s =>
    let g := s.me
    let deps := (g.loadQ ++ g.storeQ).eraseDups.filter (fun id => (s.req id).any (fun r => r.kind.readied))
    let s1 := s.setMe { g with unready := [] }
    s1.enqueueMill { op := .mready f, flag := f.toNat, deps := deps }) s

/-- MFENCE (R314): the batch takes the next number; its commands are observed through this flag (R138). An empty batch completes at
the clock after issue. -/
def execMfence (f : BitVec 5) (s : State) : Out :=
  xRun (.mfence f) f ownTrap (fun s =>
    let m := s.mill
    let n := (m.closed + 1) % 2 ^ 16
    let s1 := s.setMill { m with
      closed := n
      issued := 0
      uses := m.uses.map (fun u => if u.slot = s.cur.slot ∧ u.flag = none then { u with flag := some f.toNat } else u) }
    if m.issued = 0 then (s1.addReq { kind := .mrel, core := s.cur.core, slot := s.cur.slot, ctx := s.myCrew.ctx, flag := f.toNat,
                                      words := [BitVec.ofNat 64 n], born := s.clock }).inc f.toNat
    else
      let s2 := s1.enqueueMill { op := .mfence f, flag := f.toNat, ofs := n }
      s2.setMill { s2.mill with issued := 0 }) s

/-- Tiles t to t + n − 1 lie within the crew's allocation (R73). -/
def tileTrap (t n : Nat) (s : State) : Option Trap := illegalIf (decide (s.myCrew.tiles < t + n))

/-- MZERO (R319). -/
def execMzero (f : BitVec 5) (t : BitVec 11) (n : BitVec 7) (s : State) : Out :=
  xRun (.mzero f t n) f (fun s => orTrap (ownTrap s) (tileTrap t.toNat (n.toNat + 1) s)) (fun s =>
    (s.noteUse [] ((List.range (n.toNat + 1)).map (t.toNat + ·)) false).enqueueMill { op := .mzero f t n, flag := f.toNat }) s

/-- OFS and PITCH of a mill operand (Table 10-1). -/
def millOfs (w : Nat) : Nat := w % 2 ^ 19
def millPitch (w : Nat) : Nat := bitsOf w 47 32

/-- Bytes of the crew's scratchpad. -/
def State.scratchSize (s : State) : Nat := 4096 * s.myCrew.granules.length

/-- The scratchpad bytes of a row of `n` bytes as ranges (first, count, bytes before it): one, or its 16-byte chunks where a swizzle
moves them (R59). -/
def rowRanges (z ofs n : Nat) : List (Nat × Nat × Nat) :=
  if z = 0 then [(ofs, n, 0)] else (List.range ((n + 15) / 16)).map (fun i => (swizzle z (ofs + 16 * i), 16, 16 * i))

/-- What an MMA reads (R316): each row of A, with its scale bytes, for the elements of its row of D; each panel of slots, for those of
its 16 columns. -/
def mmaReads (o : MmaOp) (sp : Bool) (fa fb ofs pitch : Nat) (tag : Nat → BitVec 32) : List MillRead :=
  let nt := o.ncols / 16
  let n := o.k * millBits fa / 8
  let p := o.panel (kslot fb sp)
  let rows := (List.range o.m).flatMap (fun m =>
    let a := ofs + m * pitch
    let row (lo len : Nat) (tagged : Bool) : MillRead :=
      { kind := 0, lo := lo, n := len, tag := tagged, base := 256 * (o.t.toNat + m / 16 * nt) + m % 16 * 16, step := 256, count := nt, run := 16 }
    (rowRanges o.z.toNat a n).map (fun r => row r.1 r.2.1 true) ++
      (if fa = 1 then (List.range (n / 8)).map (fun b =>
        let q := swizzle o.z.toNat (a + 8 * b)
        row (gtSgran (tag q) * 4096 + gtSslot (tag q) * 512 + q % 4096 / 8) 1 false) else []))
  rows ++ (List.range nt).map (fun j =>
    { kind := 1, lo := o.w.toNat + j * p, n := p, base := 256 * (o.t.toNat + j), step := 256 * nt, count := o.m / 16, run := 256 })

/-- What an MLDT reads (R320): every element from its own bytes. -/
def mldtReads (o : MldtOp) (ofs pitch : Nat) : List MillRead :=
  let wd := if o.sf = 0 then 4 else 2
  (List.range (16 * (o.n.toNat + 1))).flatMap (fun m => (rowRanges o.z.toNat (ofs + m * pitch) (16 * wd)).map (fun r =>
    { kind := 0, lo := r.1, n := r.2.1, base := 256 * o.t.toNat + 16 * m + r.2.2 / wd, run := r.2.1 / wd, unit := wd }))

/-- The formats an MMA finds at issue (R317): of A and B, the tags they were read from. -/
def State.mmaFmts (s : State) (o : MmaOp) : Nat × Nat × Nat × Nat :=
  let w := s.myCrew
  let ta := gtFmt ((s.core s.cur.core).tagAt w.alloc (swizzle o.z.toNat (millOfs (s.xReg o.sa 0))))
  let tb := (mget 0 w.wstag o.w.toNat).toNat
  let fb := tb / 8192
  (if ta = 0 then rawFmt o.af.toNat else ta, if fb = 0 then rawFmt o.wf.toNat else fb, ta, tb)

/-- Class 4 of MMA and MMAS (R315 to R317). -/
def mmaTrap (o : MmaOp) (sp : Bool) (s : State) : Option Trap :=
  let x := s.xReg o.sa 0
  let (fa, fb, _, _) := s.mmaFmts o
  let slots := (List.range (o.ncols / 16 * o.panel (kslot fb sp))).map (o.w.toNat + ·)
  let comb : Option Trap := some { tcause := 0x65, slot := 2 }
  if s.mill.owner ≠ some s.cur.slot then some (illegal .x)
  else if o.ms = 3 then comb
  else if s.scratchSize < millOfs x + (o.m - 1) * millPitch x + o.k * millBits fa / 8 ∨ s.myCrew.tiles < o.t.toNat + o.tiles ∨
      s.myCrew.wslots < o.w.toNat + o.ncols / 16 * o.panel (kslot fb sp) then some (illegal .x)
  else if millOfs x % 16 ≠ 0 ∨ millPitch x % 16 ≠ 0 then some { tcause := 0x63, slot := 2 }
  else match millPair fa fb sp with
    | none => comb
    | some (_, step) => if o.k % step ≠ 0 ∨ slots.any (fun n => (mget 0 s.myCrew.wstag n).getLsbD 12 != sp) then comb else none

/-- MMA and MMAS at issue. -/
def mmaIssue (i : Instr) (o : MmaOp) (sp : Bool) (s : State) : Out :=
  xRun i o.f (mmaTrap o sp) (fun s =>
    let x := s.xReg o.sa 0
    let ofs := millOfs x
    let pitch := millPitch x
    let (fa, fb, ta, tb) := s.mmaFmts o
    let k := s.core s.cur.core
    let al := s.myCrew.alloc
    (s.noteUse (mmaReads o sp fa fb ofs pitch (k.tagAt al)) ((List.range o.tiles).map (o.t.toNat + ·)) true).enqueueMill
      { op := i, flag := o.f.toNat, fa := fa, fb := fb, ta := ta, tb := tb, ofs := ofs, pitch := pitch }) s

/-- MMA (R315). -/
def execMma (o : MmaOp) (s : State) : Out := mmaIssue (.mma o) o false s
/-- MMAS (R315). -/
def execMmas (o : MmaOp) (s : State) : Out := mmaIssue (.mmas o) o true s

/-- Class 4 of MLDT. -/
def mldtTrap (o : MldtOp) (s : State) : Option Trap :=
  let x := s.xReg o.sa 0
  let n := o.n.toNat + 1
  if s.mill.owner ≠ some s.cur.slot ∨ s.myCrew.tiles < o.t.toNat + n ∨
      s.scratchSize < millOfs x + (16 * n - 1) * millPitch x + 16 * (if o.sf = 0 then 4 else 2) then some (illegal .x)
  else if millOfs x % 16 ≠ 0 ∨ millPitch x % 16 ≠ 0 then some { tcause := 0x63, slot := 2 }
  else none

/-- MLDT (R320). -/
def execMldt (o : MldtOp) (s : State) : Out :=
  xRun (.mldt o) o.f (mldtTrap o) (fun s =>
    let x := s.xReg o.sa 0
    let n := o.n.toNat + 1
    (s.noteUse (mldtReads o (millOfs x) (millPitch x)) ((List.range n).map (o.t.toNat + ·)) (o.add == 1)).enqueueMill
      { op := .mldt o, flag := o.f.toNat, ofs := millOfs x, pitch := millPitch x }) s

/-- MDRAIN (R321, R322): the crew holds the chute from here on. -/
def execMdrain (o : MdrainOp) (s : State) : Out :=
  let n := o.ch.toNat
  xRun (.mdrain o) o.f (fun s =>
      let h := (s.chute n).holder
      orTrap (ownTrap s) (orTrap (tileTrap o.t.toNat (o.n.toNat + 1) s) (illegalIf (h != none && h != some s.me.cslot)))) (fun s =>
    let h := s.chute n
    let s1 := s.setChute n { h with holder := some s.me.cslot, drains := h.drains + 1 }
    let s2 := if o.zero = 1 then s1.noteUse [] ((List.range (o.n.toNat + 1)).map (o.t.toNat + ·)) false else s1
    s2.enqueueMill { op := .mdrain o, flag := o.f.toNat }) s

/-- MSTAT (R323). -/
def execMstat (f sd : BitVec 5) (s : State) : Out :=
  xRun (.mstat f sd) f (fun _ => none) (fun s =>
    let s1 := s.plainReq .mstat f sd.toNat
    s1.setMe (s1.me.mark (.s sd.toNat) f.toNat s.clock)) s

/-! ### MPROG (R324) -/

/-- A crew that is being stopped, or has been, keeps the mill stopped while it owns it or has commands in it (R410). -/
def State.millHeld (s : State) (c : Nat) : Bool :=
  let m := (s.core c).mill
  (s.core c).crews.any (fun w => (w.2.phase == .quiescing || w.2.phase == .drained) &&
    (m.owner.any (s.inSlot c w.1) || m.queue.any (fun q => s.inSlot c w.1 q.slot)))

/-- The mill goes on, unless MSTOP, MPROG or a stopped crew holds it. -/
def State.millGo (s : State) (c : Nat) : State :=
  if (s.core c).mill.held || s.millHeld c then s
  else s.setCore c { s.core c with mill := { (s.core c).mill with state := 0 } }

/-- MSTOP, or MPROG's STATE: the mill stops at its next step boundary, or resumes from MPROG (R324, R409). -/
def State.millStop (s : State) (c : Nat) (stop : Bool) : State :=
  let m := (s.core c).mill
  if stop then s.setCore c { s.core c with mill := { m with state := 2, held := true } }
  else (s.setCore c { s.core c with mill := { m with held := false } }).millGo c

/-- MPROG_WRITE. A step other than the recorded one leaves the elements of the head command's tiles undefined at once, and again when it
completes; with no command queued GROUP and TILE name no step. -/
def execMprogWrite (s : State) : Out :=
  match s.ev with
  | .sysw c _ _ v =>
    let k := s.core c
    let m := k.mill
    let st := v.toNat / 2 ^ 62
    let g := bitsOf v.toNat 39 32
    let t := bitsOf v.toNat 31 24
    if m.state ≠ 2 then .next (if st = 2 then s.millStop c true else s)
    else
      let s1 := match m.head with
        | none => s
        | some q =>
          if g = m.group ∧ t = m.tile then s
          else (s.setCore c { k with mill := { m with group := g, tile := t, spoiled := true } }).freeElems c
            (s.gang c q.slot).cslot (tileElems q.tiles)
      .next (if st = 1 then s1.millStop c false else s1)
  | _ => .next s

end Sys2Proof.Machine
end

