-- ==== Sys2Proof/Machine/VFloat.lean ====
section
/-! DEFINITION. VFloat: the meanings of the F32, paired 16-bit, dot-product and conversion operations of the V slot (R242 to
R253). -/

namespace Sys2Proof.Machine
open Sys2Proof Sys2Proof.Num

/-- FADD (R242). -/
def execFadd (o : VOp) (s : State) : Out := vFloat (.fadd o) o 6 1 (fun r a b _ => fadd f32 o.mode (r 0) a b) s
/-- FSUB (R242). -/
def execFsub (o : VOp) (s : State) : Out := vFloat (.fsub o) o 6 1 (fun r a b _ => fsub f32 o.mode (r 0) a b) s
/-- FMUL (R242). -/
def execFmul (o : VOp) (s : State) : Out := vFloat (.fmul o) o 6 1 (fun r a b _ => fmul f32 o.mode (r 0) a b) s
/-- FFMA (R242): one rounding. -/
def execFfma (o : VOp) (s : State) : Out := vFloat (.ffma o) o 6 1 (fun r a b c => ffma f32 o.mode (r 0) a b c) s
/-- FMIN (R243). -/
def execFmin (o : VOp) (s : State) : Out := vFloat (.fmin o) o 6 0 (fun _ a b _ => fmin f32 a b) s
/-- FMAX (R243). -/
def execFmax (o : VOp) (s : State) : Out := vFloat (.fmax o) o 6 0 (fun _ a b _ => fmax f32 a b) s
/-- FRCP (R245). -/
def execFrcp (o : VOp) (s : State) : Out := vFloat (.frcp o) o 14 1 (fun r a _ _ => frcp o.mode (r 0) a) s
/-- FRSQ (R246). -/
def execFrsq (o : VOp) (s : State) : Out := vFloat (.frsq o) o 14 0 (fun _ a _ _ => frsq a) s
/-- FSQRT (R245). -/
def execFsqrt (o : VOp) (s : State) : Out := vFloat (.fsqrt o) o 14 1 (fun r a _ _ => fsqrt o.mode (r 0) a) s
/-- FEXP2 (R246). -/
def execFexp2 (o : VOp) (s : State) : Out := vFloat (.fexp2 o) o 14 0 (fun _ a _ _ => fexp2 a) s
/-- FLOG2 (R246). -/
def execFlog2 (o : VOp) (s : State) : Out := vFloat (.flog2 o) o 14 0 (fun _ a _ _ => flog2 a) s
/-- FSIN (R246). -/
def execFsin (o : VOp) (s : State) : Out := vFloat (.fsin o) o 14 0 (fun _ a _ _ => fsin a) s
/-- FCOS (R246). -/
def execFcos (o : VOp) (s : State) : Out := vFloat (.fcos o) o 14 0 (fun _ a _ _ => fcos a) s

/-- FCMP.EQ (R244). -/
def execFcmpEq (o : VOp) (s : State) : Out := vFcmp (.fcmpEq o) o Alu.feq s
/-- FCMP.NE (R244): either is NaN, or they differ. -/
def execFcmpNe (o : VOp) (s : State) : Out := vFcmp (.fcmpNe o) o (fun a b => !Alu.feq a b) s
/-- FCMP.LT (R244). -/
def execFcmpLt (o : VOp) (s : State) : Out := vFcmp (.fcmpLt o) o Alu.flt s
/-- FCMP.LE (R244). -/
def execFcmpLe (o : VOp) (s : State) : Out := vFcmp (.fcmpLe o) o Alu.fle s
/-- FCMP.GT (R244). -/
def execFcmpGt (o : VOp) (s : State) : Out := vFcmp (.fcmpGt o) o (fun a b => Alu.flt b a) s
/-- FCMP.GE (R244). -/
def execFcmpGe (o : VOp) (s : State) : Out := vFcmp (.fcmpGe o) o (fun a b => Alu.fle b a) s
/-- FCMP.NUM (R244). -/
def execFcmpNum (o : VOp) (s : State) : Out := vFcmp (.fcmpNum o) o (fun a b => !Alu.fnan a b) s
/-- FCMP.NAN (R244). -/
def execFcmpNan (o : VOp) (s : State) : Out := vFcmp (.fcmpNan o) o Alu.fnan s

/-- HADD2.F16 (R247). -/
def execHadd2F16 (o : VOp) (s : State) : Out :=
  vPair (.hadd2F16 o) o f16 2 (fun r a b _ => Alu.pair2r (fadd f16 o.mode) (r 0) (r 1) a b) s
/-- HMUL2.F16 (R247). -/
def execHmul2F16 (o : VOp) (s : State) : Out :=
  vPair (.hmul2F16 o) o f16 2 (fun r a b _ => Alu.pair2r (fmul f16 o.mode) (r 0) (r 1) a b) s
/-- HFMA2.F16 (R247). -/
def execHfma2F16 (o : VOp) (s : State) : Out :=
  vPair (.hfma2F16 o) o f16 2 (fun r a b c => Alu.pair3r (ffma f16 o.mode) (r 0) (r 1) a b c) s
/-- HMIN2.F16 (R247). -/
def execHmin2F16 (o : VOp) (s : State) : Out :=
  vPair (.hmin2F16 o) o f16 0 (fun _ a b _ => Alu.pair2 (fmin f16) a b) s
/-- HMAX2.F16 (R247). -/
def execHmax2F16 (o : VOp) (s : State) : Out :=
  vPair (.hmax2F16 o) o f16 0 (fun _ a b _ => Alu.pair2 (fmax f16) a b) s
/-- HADD2.BF16 (R247). -/
def execHadd2Bf16 (o : VOp) (s : State) : Out :=
  vPair (.hadd2Bf16 o) o bf16 2 (fun r a b _ => Alu.pair2r (fadd bf16 o.mode) (r 0) (r 1) a b) s
/-- HMUL2.BF16 (R247). -/
def execHmul2Bf16 (o : VOp) (s : State) : Out :=
  vPair (.hmul2Bf16 o) o bf16 2 (fun r a b _ => Alu.pair2r (fmul bf16 o.mode) (r 0) (r 1) a b) s
/-- HFMA2.BF16 (R247). -/
def execHfma2Bf16 (o : VOp) (s : State) : Out :=
  vPair (.hfma2Bf16 o) o bf16 2 (fun r a b c => Alu.pair3r (ffma bf16 o.mode) (r 0) (r 1) a b c) s
/-- HMIN2.BF16 (R247). -/
def execHmin2Bf16 (o : VOp) (s : State) : Out :=
  vPair (.hmin2Bf16 o) o bf16 0 (fun _ a b _ => Alu.pair2 (fmin bf16) a b) s
/-- HMAX2.BF16 (R247). -/
def execHmax2Bf16 (o : VOp) (s : State) : Out :=
  vPair (.hmax2Bf16 o) o bf16 0 (fun _ a b _ => Alu.pair2 (fmax bf16) a b) s

/-- FDOT4.E4M3.E4M3 (R248). -/
def execFdot4E4m3E4m3 (o : VOp) (s : State) : Out :=
  vFloat (.fdot4E4m3E4m3 o) o 6 1 (fun r a b c => Alu.fdot4 e4m3 e4m3 o.mode (r 0) a b c) s
/-- FDOT4.E4M3.E5M2 (R248). -/
def execFdot4E4m3E5m2 (o : VOp) (s : State) : Out :=
  vFloat (.fdot4E4m3E5m2 o) o 6 1 (fun r a b c => Alu.fdot4 e4m3 e5m2 o.mode (r 0) a b c) s
/-- FDOT4.E5M2.E4M3 (R248). -/
def execFdot4E5m2E4m3 (o : VOp) (s : State) : Out :=
  vFloat (.fdot4E5m2E4m3 o) o 6 1 (fun r a b c => Alu.fdot4 e5m2 e4m3 o.mode (r 0) a b c) s
/-- FDOT4.E5M2.E5M2 (R248). -/
def execFdot4E5m2E5m2 (o : VOp) (s : State) : Out :=
  vFloat (.fdot4E5m2E5m2 o) o 6 1 (fun r a b c => Alu.fdot4 e5m2 e5m2 o.mode (r 0) a b c) s

/-- CVT.td.ts (R249): B holds the types. -/
def execCvt (o : VOp) (s : State) : Out :=
  let td := o.b.toNat / 16
  let ts := o.b.toNat % 16
  vFloat (.cvt o) o 6 1 (fun r a _ _ => cvt td ts o.mode o.sat o.inf (r 0) a) s

/-- PACK.td.ts (R251): element i comes from register n + i of the group. -/
def execPack (o : VOp) (s : State) : Out :=
  vRun (.pack o) o (fun s =>
    let td := o.b.toNat / 16
    let ts := o.b.toNat % 16
    let w := tyWidth td
    let k := 32 / w
    let el (l i : Nat) := cvt td ts o.mode o.sat o.inf (s.draw l i) (s.vregLane (o.a.toNat + i) (20 + i) l).toNat % 2 ^ w
    (s.putV o.d 6 (s.vLanes o) (fun l => (List.range k).foldl (fun x i => x + el l i * 2 ^ (w * i)) 0)).drew
      o.mode (s.vLanes o) k) s

/-- The value K4ENC puts in lane `l` (R252): the codes of the block in its first two lanes, the scale byte in the third. -/
def k4encLane (o : VOp) (s : State) (l : Nat) : Nat :=
  let blk := (List.range 16).map (fun i => 16 * (l / 16) + i)
  let ps := (s.vLanes o).filter (fun k => k / 16 == l / 16)
  let b := s.bLane o (ps.head?.getD l)
  let vals := (ps.map (fun k => decode f32 (s.aLane o k))).filter (fun x => !x.isNan && !x.isInf)
  let sc := k4Scale (b / 64 % 4) (b % 64) vals
  let code (k : Nat) := if ps.contains k then k4Encode o.mode (s.draw k 0) sc (decode f32 (s.aLane o k)) else 0
  match l % 16 with
  | 0 => (List.range 8).foldl (fun x i => x + code (blk.getD i 0) * 16 ^ i) 0
  | 1 => (List.range 8).foldl (fun x i => x + code (blk.getD (8 + i) 0) * 16 ^ i) 0
  | 2 => sc
  | _ => 0

/-- K4ENC (R252). -/
def execK4enc (o : VOp) (s : State) : Out :=
  vRun (.k4enc o) o (fun s => (s.putV o.d 6 (s.vLanes o) (k4encLane o s)).drew o.mode (s.vLanes o) 1) s

/-- K4DEC (R253). -/
def execK4dec (o : VOp) (s : State) : Out := vFloat (.k4dec o) o 6 0 (fun _ a b _ => Alu.k4dec a b) s

end Sys2Proof.Machine
end

