-- ==== Sys2Proof/Machine/VInt.lean ====
section
/-! DEFINITION. VInt: the meanings of the integer, logic, shift, bit-field, compare and select operations of the V slot (R236 to
R241). -/

namespace Sys2Proof.Machine
open Sys2Proof

/-- IADD (R236): the sum, and the carry into lx1. -/
def execIadd (o : VOp) (s : State) : Out := vRun (.iadd o) o (vCarryEff o Alu.iadd (Alu.iaddCarry 32)) s
/-- ISUB (R236): the difference, and the borrow into lx1. -/
def execIsub (o : VOp) (s : State) : Out := vRun (.isub o) o (vCarryEff o Alu.isub Alu.isubBorrow) s
/-- IMUL (R236). -/
def execImul (o : VOp) (s : State) : Out := vInt (.imul o) o 6 (fun w a b _ => Alu.imul w a b) s
/-- IMULH.S32 (R236). -/
def execImulhS32 (o : VOp) (s : State) : Out := vInt (.imulhS32 o) o 6 (fun w a b _ => Alu.imulhS w a b) s
/-- IMULH.N32 (R236). -/
def execImulhN32 (o : VOp) (s : State) : Out := vInt (.imulhN32 o) o 6 (fun w a b _ => Alu.imulhN w a b) s
/-- IMAD (R235, R236). -/
def execImad (o : VOp) (s : State) : Out := vInt (.imad o) o 6 Alu.imad s
/-- IMIN.S32 (R236). -/
def execIminS32 (o : VOp) (s : State) : Out := vInt (.iminS32 o) o 4 (fun w a b _ => Alu.iminS w a b) s
/-- IMIN.N32 (R236). -/
def execIminN32 (o : VOp) (s : State) : Out := vInt (.iminN32 o) o 4 (fun _ a b _ => Alu.iminN a b) s
/-- IMAX.S32 (R236). -/
def execImaxS32 (o : VOp) (s : State) : Out := vInt (.imaxS32 o) o 4 (fun w a b _ => Alu.imaxS w a b) s
/-- IMAX.N32 (R236). -/
def execImaxN32 (o : VOp) (s : State) : Out := vInt (.imaxN32 o) o 4 (fun _ a b _ => Alu.imaxN a b) s
/-- IABS (R236). -/
def execIabs (o : VOp) (s : State) : Out := vInt (.iabs o) o 4 (fun w a _ _ => Alu.iabs w a) s
/-- INEG (R236). -/
def execIneg (o : VOp) (s : State) : Out := vInt (.ineg o) o 4 (fun w a _ _ => Alu.ineg w a) s
/-- IADD64 (R237): the pair takes the 64-bit sum, lx1 the carry, the latch the low word. -/
def execIadd64 (o : VOp) (s : State) : Out :=
  vRun (.iadd64 o) o (fun s =>
    let ls := s.vLanes o
    let a (l : Nat) := s.src64Lane o.a 0 l
    let b (l : Nat) := if o.immB then sext64 o.imm.toNat 32 else s.src64Lane o.b 1 l
    let sum (l : Nat) := (a l + b l) % 2 ^ 64
    let s1 := (s.putV o.d 4 ls (fun l => sum l % 2 ^ 32)).putCarry ls (fun l => decide (2 ^ 64 ≤ a l + b l))
    if selV o.d then
      s1.setMe (s1.me.write ⟨s.clock + 4, s.clock, .v (o.d.toNat + 1), maskOf ls,
        lanesOf (fun l => BitVec.ofNat 32 (sum l / 2 ^ 32)), 0⟩)
    else s1) s
/-- MOV (R236). -/
def execMov (o : VOp) (s : State) : Out := vInt (.mov o) o 4 (fun _ a _ _ => a) s
/-- MOVI (R236): the immediate, sign-extended in the scalar form. -/
def execMovi (o : VOp) (s : State) : Out := vInt (.movi o) o 4 (fun _ _ b _ => b) s
/-- AND (R236). -/
def execAnd (o : VOp) (s : State) : Out := vInt (.and o) o 4 (fun _ a b _ => a &&& b) s
/-- OR (R236). -/
def execOr (o : VOp) (s : State) : Out := vInt (.or o) o 4 (fun _ a b _ => a ||| b) s
/-- XOR (R236). -/
def execXor (o : VOp) (s : State) : Out := vInt (.xor o) o 4 (fun _ a b _ => a ^^^ b) s
/-- ANDN (R236). -/
def execAndn (o : VOp) (s : State) : Out := vInt (.andn o) o 4 (fun w a b _ => Alu.andn w a b) s
/-- SHL (R236). -/
def execShl (o : VOp) (s : State) : Out := vInt (.shl o) o 4 (fun w a b _ => Alu.shl w a b) s
/-- SHR (R236). -/
def execShr (o : VOp) (s : State) : Out := vInt (.shr o) o 4 (fun w a b _ => Alu.shr w a b) s
/-- SAR (R236). -/
def execSar (o : VOp) (s : State) : Out := vInt (.sar o) o 4 (fun w a b _ => Alu.sar w a b) s
/-- SHF.L (R239). -/
def execShfL (o : VOp) (s : State) : Out := vInt (.shfL o) o 4 Alu.shfL s
/-- SHF.R (R239). -/
def execShfR (o : VOp) (s : State) : Out := vInt (.shfR o) o 4 Alu.shfR s
/-- POPC (R236). -/
def execPopc (o : VOp) (s : State) : Out := vInt (.popc o) o 4 (fun w a _ _ => Alu.popc w a) s
/-- CLZ (R236). -/
def execClz (o : VOp) (s : State) : Out := vInt (.clz o) o 4 (fun w a _ _ => Alu.clz w a) s
/-- BREV (R236). -/
def execBrev (o : VOp) (s : State) : Out := vInt (.brev o) o 4 (fun w a _ _ => Alu.brev w a) s
/-- BFX.S32 (R238). -/
def execBfxS32 (o : VOp) (s : State) : Out := vInt (.bfxS32 o) o 4 (fun w a b _ => Alu.bfxS w a b) s
/-- BFX.N32 (R238). -/
def execBfxN32 (o : VOp) (s : State) : Out := vInt (.bfxN32 o) o 4 (fun w a b _ => Alu.bfxN w a b) s
/-- BFI (R238). -/
def execBfi (o : VOp) (s : State) : Out := vInt (.bfi o) o 4 Alu.bfi s
/-- The lane whose guard a scalar SEL reads: the lowest active lane of the part, else the lowest lane of its lowest slice
(R241). -/
def selGuardLane (s : State) : Nat := (s.activeLanes.head?).getD (4 * s.cur.lead)
/-- SEL (R241): a where the guard holds, else b, in every active lane; never guarded. -/
def execSel (o : VOp) (s : State) : Out :=
  guarded (illegalTrap .v (.sel o) s) s
    (let s := s.countV s.activeLanes
     if selS o.d then s.putS o.d 4 (if s.guardLane o.g (selGuardLane s) then s.aScalar o else s.bScalar o)
     else s.putV o.d 4 s.activeLanes (fun l => if s.guardLane o.g l then s.aLane o l else s.bLane o l))
/-- ICMP.EQ (R240). -/
def execIcmpEq (o : VOp) (s : State) : Out := vCmp (.icmpEq o) o (fun _ a b => Alu.icmpEq a b) s
/-- ICMP.NE (R240). -/
def execIcmpNe (o : VOp) (s : State) : Out := vCmp (.icmpNe o) o (fun _ a b => Alu.icmpNe a b) s
/-- ICMP.LT.S32 (R240). -/
def execIcmpLtS32 (o : VOp) (s : State) : Out := vCmp (.icmpLtS32 o) o (fun w a b => Alu.icmpLtS w a b) s
/-- ICMP.LE.S32 (R240). -/
def execIcmpLeS32 (o : VOp) (s : State) : Out := vCmp (.icmpLeS32 o) o (fun w a b => Alu.icmpLeS w a b) s
/-- ICMP.GT.S32 (R240). -/
def execIcmpGtS32 (o : VOp) (s : State) : Out := vCmp (.icmpGtS32 o) o (fun w a b => Alu.icmpLtS w b a) s
/-- ICMP.GE.S32 (R240). -/
def execIcmpGeS32 (o : VOp) (s : State) : Out := vCmp (.icmpGeS32 o) o (fun w a b => Alu.icmpLeS w b a) s
/-- ICMP.LT.N32 (R240). -/
def execIcmpLtN32 (o : VOp) (s : State) : Out := vCmp (.icmpLtN32 o) o (fun _ a b => Alu.icmpLtN a b) s
/-- ICMP.LE.N32 (R240). -/
def execIcmpLeN32 (o : VOp) (s : State) : Out := vCmp (.icmpLeN32 o) o (fun _ a b => Alu.icmpLeN a b) s
/-- ICMP.GT.N32 (R240). -/
def execIcmpGtN32 (o : VOp) (s : State) : Out := vCmp (.icmpGtN32 o) o (fun _ a b => Alu.icmpLtN b a) s
/-- ICMP.GE.N32 (R240). -/
def execIcmpGeN32 (o : VOp) (s : State) : Out := vCmp (.icmpGeN32 o) o (fun _ a b => Alu.icmpLeN b a) s

end Sys2Proof.Machine
end

