-- ==== Sys2Proof/Machine/Slots.lean ====
section
/-! DEFINITION. Slots: the meaning of one slot of the bundle being issued, for the operations a slot can hold. -/

namespace Sys2Proof.Machine
open Sys2Proof

/-- The meaning of a slot's operation; an event is in no slot. -/
def slotExec (i : Instr) (s : State) : Out :=
  match i with
  | .nopX32 => execNopX32 s
  | .nopSlot k => execNopSlot k s
  | .iadd o => execIadd o s
  | .isub o => execIsub o s
  | .imul o => execImul o s
  | .imulhS32 o => execImulhS32 o s
  | .imulhN32 o => execImulhN32 o s
  | .imad o => execImad o s
  | .iminS32 o => execIminS32 o s
  | .iminN32 o => execIminN32 o s
  | .imaxS32 o => execImaxS32 o s
  | .imaxN32 o => execImaxN32 o s
  | .iabs o => execIabs o s
  | .ineg o => execIneg o s
  | .iadd64 o => execIadd64 o s
  | .mov o => execMov o s
  | .movi o => execMovi o s
  | .and o => execAnd o s
  | .or o => execOr o s
  | .xor o => execXor o s
  | .andn o => execAndn o s
  | .shl o => execShl o s
  | .shr o => execShr o s
  | .sar o => execSar o s
  | .shfL o => execShfL o s
  | .shfR o => execShfR o s
  | .popc o => execPopc o s
  | .clz o => execClz o s
  | .brev o => execBrev o s
  | .bfxS32 o => execBfxS32 o s
  | .bfxN32 o => execBfxN32 o s
  | .bfi o => execBfi o s
  | .sel o => execSel o s
  | .icmpEq o => execIcmpEq o s
  | .icmpNe o => execIcmpNe o s
  | .icmpLtS32 o => execIcmpLtS32 o s
  | .icmpLeS32 o => execIcmpLeS32 o s
  | .icmpGtS32 o => execIcmpGtS32 o s
  | .icmpGeS32 o => execIcmpGeS32 o s
  | .icmpLtN32 o => execIcmpLtN32 o s
  | .icmpLeN32 o => execIcmpLeN32 o s
  | .icmpGtN32 o => execIcmpGtN32 o s
  | .icmpGeN32 o => execIcmpGeN32 o s
  | .fadd o => execFadd o s
  | .fsub o => execFsub o s
  | .fmul o => execFmul o s
  | .ffma o => execFfma o s
  | .fmin o => execFmin o s
  | .fmax o => execFmax o s
  | .frcp o => execFrcp o s
  | .frsq o => execFrsq o s
  | .fsqrt o => execFsqrt o s
  | .fexp2 o => execFexp2 o s
  | .flog2 o => execFlog2 o s
  | .fsin o => execFsin o s
  | .fcos o => execFcos o s
  | .fcmpEq o => execFcmpEq o s
  | .fcmpNe o => execFcmpNe o s
  | .fcmpLt o => execFcmpLt o s
  | .fcmpLe o => execFcmpLe o s
  | .fcmpGt o => execFcmpGt o s
  | .fcmpGe o => execFcmpGe o s
  | .fcmpNum o => execFcmpNum o s
  | .fcmpNan o => execFcmpNan o s
  | .hadd2F16 o => execHadd2F16 o s
  | .hmul2F16 o => execHmul2F16 o s
  | .hfma2F16 o => execHfma2F16 o s
  | .hmin2F16 o => execHmin2F16 o s
  | .hmax2F16 o => execHmax2F16 o s
  | .hadd2Bf16 o => execHadd2Bf16 o s
  | .hmul2Bf16 o => execHmul2Bf16 o s
  | .hfma2Bf16 o => execHfma2Bf16 o s
  | .hmin2Bf16 o => execHmin2Bf16 o s
  | .hmax2Bf16 o => execHmax2Bf16 o s
  | .fdot4E4m3E4m3 o => execFdot4E4m3E4m3 o s
  | .fdot4E4m3E5m2 o => execFdot4E4m3E5m2 o s
  | .fdot4E5m2E4m3 o => execFdot4E5m2E4m3 o s
  | .fdot4E5m2E5m2 o => execFdot4E5m2E5m2 o s
  | .cvt o => execCvt o s
  | .pack o => execPack o s
  | .k4enc o => execK4enc o s
  | .k4dec o => execK4dec o s
  | .shflIdx o => execShflIdx o s
  | .shflUp o => execShflUp o s
  | .shflDown o => execShflDown o s
  | .shflXor o => execShflXor o s
  | .voteAll o => execVoteAll o s
  | .voteAny o => execVoteAny o s
  | .voteBal o => execVoteBal o s
  | .pand o => execPand o s
  | .por o => execPor o s
  | .pxor o => execPxor o s
  | .pnot o => execPnot o s
  | .movs o => execMovs o s
  | .chpop o => execChpop o s
  | .lredAddF32 o => execLredAddF32 o s
  | .lredAddN32 o => execLredAddN32 o s
  | .lredMinF32 o => execLredMinF32 o s
  | .lredMaxF32 o => execLredMaxF32 o s
  | .lredMinS32 o => execLredMinS32 o s
  | .lredMaxS32 o => execLredMaxS32 o s
  | .lredMinN32 o => execLredMinN32 o s
  | .lredMaxN32 o => execLredMaxN32 o s
  | .lredAnd o => execLredAnd o s
  | .lredOr o => execLredOr o s
  | .lredXor o => execLredXor o s
  | .ldB8 o => execLdB8 o s
  | .ldB8Sx o => execLdB8Sx o s
  | .ldB16 o => execLdB16 o s
  | .ldB16Sx o => execLdB16Sx o s
  | .ldB32 o => execLdB32 o s
  | .ldB64 o => execLdB64 o s
  | .ldB128 o => execLdB128 o s
  | .ldB32S o => execLdB32S o s
  | .ldB64S o => execLdB64S o s
  | .stB8 o => execStB8 o s
  | .stB16 o => execStB16 o s
  | .stB32 o => execStB32 o s
  | .stB64 o => execStB64 o s
  | .stB128 o => execStB128 o s
  | .ldrawB8 o => execLdrawB8 o s
  | .ldrawB16 o => execLdrawB16 o s
  | .ldrawB32 o => execLdrawB32 o s
  | .ldrawB64 o => execLdrawB64 o s
  | .strawB8 o => execStrawB8 o s
  | .strawB16 o => execStrawB16 o s
  | .strawB32 o => execStrawB32 o s
  | .strawB64 o => execStrawB64 o s
  | .ldx o => execLdx o s
  | .stx o => execStx o s
  | .ldc o => execLdc o s
  | .lblk o => execLblk o s
  | .blkwb o => execBlkwb o s
  | .blkdrop o => execBlkdrop o s
  | .pref o => execPref o s
  | .atomN32 o => execAtomN32 o s
  | .atomS32 o => execAtomS32 o s
  | .atomN64 o => execAtomN64 o s
  | .atomF32 o => execAtomF32 o s
  | .redmN32 o => execRedmN32 o s
  | .redmS32 o => execRedmS32 o s
  | .redmN64 o => execRedmN64 o s
  | .redmF32 o => execRedmF32 o s
  | .atomcasB32 o => execAtomcasB32 o s
  | .atomcasB64 o => execAtomcasB64 o s
  | .accstAdd o => execAccstAdd o s
  | .accstOvw o => execAccstOvw o s
  | .accld o => execAccld o s
  | .stch o => execStch o s
  | .mark o => execMark o s
  | .fence o => execFence o s
  | .send o => execSend o s
  | .qpush o => execQpush o s
  | .qpop o => execQpop o s
  | .qtry o => execQtry o s
  | .stgB32 o => execStgB32 o s
  | .stgB64 o => execStgB64 o s
  | .cpy f pol sd ss sn z => execCpy f pol sd ss sn z s
  | .cpyfill f pol sd sv sn z => execCpyfill f pol sd sv sn z s
  | .macq f => execMacq f s
  | .mrel f => execMrel f s
  | .mready f => execMready f s
  | .mfence f => execMfence f s
  | .mzero f t n => execMzero f t n s
  | .mstat f sd => execMstat f sd s
  | .gopen f g => execGopen f g s
  | .gcommit f g => execGcommit f g s
  | .gabort f g => execGabort f g s
  | .gquery f g sd => execGquery f g sd s
  | .cpyt o => execCpyt o s
  | .cpyg o => execCpyg o s
  | .cpymc o => execCpymc o s
  | .cpych o => execCpych o s
  | .wbld o => execWbld o s
  | .mma o => execMma o s
  | .mmas o => execMmas o s
  | .mldt o => execMldt o s
  | .mdrain o => execMdrain o s
  | .waitf ne f => execWaitf ne f s
  | .reconv => execReconv s
  | .regang => execRegang s
  | .exit g => execExit g s
  | .yield n => execYield n s
  | .bara b => execBara b s
  | .barw b => execBarw b s
  | .baraw b => execBaraw b s
  | .ret n => execRet n s
  | .sleep n => execSleep n s
  | .bkpt n => execBkpt n s
  | .eret slot => execEret slot s
  | .trap n => execTrap n s
  | .brfZ f tgt => execBrfZ f tgt s
  | .brfNz f tgt => execBrfNz f tgt s
  | .brfErr f tgt => execBrfErr f tgt s
  | .bra g tgt => execBra g tgt s
  | .brap g neg q tgt => execBrap g neg q tgt s
  | .jmpt g sel tofs n => execJmpt g sel tofs n s
  | .call g l tgt => execCall g l tgt s
  | .sbarA => execSbarA s
  | .sbarW => execSbarW s
  | .sbarAw => execSbarAw s
  | .barset c b => execBarset c b s
  | .sysc n => execSysc n s
  | .mfs sd reg => execMfs sd reg s
  | .mts sa reg => execMts sa reg s
  | .mpset n v => execMpset n v s
  | .winset a n => execWinset a n s
  | .patset rs h f => execPatset rs h f s
  | .portcfg rs h f => execPortcfg rs h f s
  | .qcreate rs h f => execQcreate rs h f s
  | .qdestroy rs h f => execQdestroy rs h f s
  | .limg a kind f => execLimg a kind f s
  | .simg a kind f => execSimg a kind f s
  | _ => .next s

end Sys2Proof.Machine
end

