-- ==== Sys2Proof/Machine/Issue.lean ====
section
/-! DEFINITION. Issue: issue selection and the issue of one bundle (R201, R209, R216, R218, R396, R397). -/

namespace Sys2Proof.Machine
open Sys2Proof

/-- An operation of the skidder (R296) or a command of the mill (R311). -/
def skidOp : Instr → Bool
  | .cpy .. | .cpyfill .. | .cpyt .. | .cpyg .. | .cpymc .. | .cpych .. | .wbld .. => true
  | _ => false
def millOp : Instr → Bool
  | .mma .. | .mmas .. | .mzero .. | .mldt .. | .mdrain .. | .mfence .. | .mready .. => true
  | _ => false

/-- An entry is free for the engine command of a bundle (R186). A part that has waited issues no earlier than the clock after the one
in which it comes free (R209, R296, R311): entries freed in this clock do not count for it. -/
def State.roomFor (s : State) (c slot : Nat) (waited : Bool) (i : Instr) : Bool :=
  let k := s.core c
  let fresh := (k.skidFreed.filter (fun x => x.2 == s.clock && (mget? k.skid x.1).isNone)).map (fun x => (x.1, ({} : Skid)))
  let k1 := if waited then { k with skid := fresh.foldl (fun m x => mset m x.1 x.2) k.skid } else k
  if skidOp i then (k1.skidFree slot).isSome
  else if millOp i then decide (k.mill.queue.length + (if waited ∧ k.mill.left.1 = s.clock then k.mill.left.2 else 0) < 2048)
  else true

/-- What the part's fetch has come to: its bundle is at hand with every table entry it reads, or a fetch has failed. -/
def State.fetchedFor (s : State) (c slot lead : Nat) : Bool :=
  let g := s.gang c slot
  (g.part lead).fetchFault.isSome ||
    (match g.bundle? lead with
     | none => false
     | some b =>
       ((s.partTable c slot lead).all (fun a => match (s.fetchLook (s.ctxOf c slot) a 4).2 with
         | .ok _ | .fault _ _ => true
         | _ => false)) &&
       (match decodeBundle b with
        | .ok k => (bundleOps k).all (s.roomFor c slot (decide ((g.part lead).next < s.clock)))
        | .error _ => true))

/-- The part is a candidate of its partition at this clock (R396): it may issue, or take its fetch fault. -/
def State.candidate (s : State) (c slot lead : Nat) : Bool :=
  let g := s.gang c slot
  let p := g.part lead
  decide (p.next ≤ s.clock) && p.wait == .none && !p.macq && !g.frozen && !g.ended && !(s.copy c (s.ctxOf c slot)).loading &&
    decide ((s.copy c (s.ctxOf c slot)).from_ ≤ s.clock) &&
    (s.crew c g.cslot).phase == .running && s.fetchedFor c slot lead

/-- The candidates of partition q of core c, as (gang slot, lowest slice). -/
def State.candidates (s : State) (c q : Nat) : List (Nat × Nat) :=
  ((s.core c).gangs.filter (fun x => partOf x.1 == q)).flatMap (fun x =>
    (x.2.parts.filter (fun p => s.candidate c x.1 p.1)).map (fun p => (x.1, p.1)))

/-- The order of selection (R397): supervisor, parts of AGE 1,024 or more, then PRIO and AGE. -/
def State.rank (s : State) (c : Nat) (x : Nat × Nat) : Nat :=
  let g := s.gang c x.1
  let a := (g.part x.2).age
  if g.super then 2 ^ 25
  else if a ≥ 1024 then 2 ^ 24 + a
  else g.prio * 2 ^ 16 + a

/-- The first of a list in an order of descending rank; ties keep list order (lower slot, then lower slice). -/
def bestOf (f : Nat × Nat → Nat) : List (Nat × Nat) → Option (Nat × Nat)
  | [] => none
  | x :: xs => match bestOf f xs with
    | none => some x
    | some y => if f x < f y then some y else some x

/-- The part that partition q issues at this clock: one whose bank delay has just run out, else the first candidate; none
while the partition is held or once it has issued (R216, R397). -/
def State.select (s : State) (c q : Nat) : Option (Nat × Nat) :=
  let k := s.core c
  let held := mget? k.hold q
  if (mget? k.issued q) = some s.clock ∨ (mget? k.tried q) = some s.clock then none
  else if held.any (s.clock < ·) then none
  else
    let cs := s.candidates c q
    match (if held = some s.clock then cs.find? (fun x => ((k.gangs.find? (·.1 == x.1)).map (fun y => (y.2.part x.2).bankPaid)).getD false) else none) with
    | some x => some x
    | none => bestOf (s.rank c) cs

/-- The other candidates of a partition count a clock in which a part has issued (R396). -/
def State.ageOthers (s : State) (c : Nat) (others : List (Nat × Nat)) : State :=
  others.foldl (fun t y =>
    let g := t.gang c y.1
    let p := g.part y.2
    t.setGang c y.1 (g.setPart y.2 { p with age := min 65535 (p.age + 1) })) s

/-- The slots in the order V, M, X, C, each reading the state at issue through `cur`; the first that traps decides (R218). -/
def runSlots : List (Slot × SlotCode) → State → State × Option Trap
  | [], s => (s, none)
  | (k, .bad _) :: _, s => (s, some (illegal k))
  | (_, .op i) :: r, s =>
    match slotExec i s with
    | .next t => match t.cur.trap with
      | some x => (t, some x)
      | none => runSlots r t
    | _ => (s, none)

/-- The slices of the bundle, each with the address it goes to. -/
def State.nextPcs (s : State) : List (Nat × W64) :=
  (s.cur.slices.filter (fun k => !(s.me.slice k).ended)).map (fun k => (k, mget (s.cur.pc + 16) s.cur.next k))

/-- The clock from which the part may issue next, bank delay apart (R209). -/
def State.nextClock (s : State) : Nat :=
  let a := s.clock + s.cur.gap + 1
  let b := if s.cur.redirect then max a (s.clock + 3) else a
  if s.cur.jmpt then max b (s.clock + 6) else b

/-- A slice after the bundle: its address and its latches (R214). -/
def Slice.advance (x : Slice) (pc : W64) (lead : Nat) (l : Option Latch) : Slice :=
  { x with
    pc := pc
    lead := lead
    latches := match l with | some e => (e :: x.latches).take 4 | none => x.latches }

/-- The end of a bundle's issue: latches, generators, addresses, the split into parts (R183, R184), and the part's next clock. -/
def State.closeBundle (s : State) : State :=
  let g := s.me
  let p := g.part s.cur.lead
  let np := { p with next := max p.next s.nextClock, age := 0, fetched := none, bankPaid := false, bankd := 0 }
  let pcs := s.nextPcs
  let leadOf (pc : W64) : Nat := ((pcs.find? (fun x => x.2 == pc)).map Prod.fst).getD s.cur.lead
  let g1 := pcs.foldl (fun g x => g.setSlice x.1 ((g.slice x.1).advance x.2 (leadOf x.2) s.cur.latch)) g
  let g2 := { g1 with parts := mdel g1.parts s.cur.lead }
  let g3 := pcs.foldl (fun g x => if leadOf x.2 = x.1 then g.setPart x.1 np else g) g2
  let g4 := (match s.cur.rng with | some r => { g3 with rng := r } | none => g3).noteWrites s.cur.slices s.clock
  let g5 := if s.cur.latch.isSome then g4.noteDest s.cur.slices .lv (BitVec.allOnes 32) else g4
  let g6 := if s.cur.bad then { g5 with bad := false, asyncErr := true } else g5
  let k := s.core s.cur.core
  let s1 := s.setCore s.cur.core { k with issued := mset k.issued (partOf s.cur.slot) s.clock }
  ((s1.setMe g6).pmc 0 1).pmc 8 (if p.bankPaid then p.bankd else 0)

/-- The partition has taken its bundle of this clock, which met a precise trap (R397, R400). -/
def State.tryOnce (s : State) (c slot : Nat) : State :=
  let k := s.core c
  s.setCore c { k with tried := mset k.tried (partOf slot) s.clock }

/-- The bundle takes a precise trap; a table read that faulted has its record (R42, R337). -/
def State.trapBundle (s : State) (t : Trap) : State :=
  match t.page with
  | none => s.takeTrap t
  | some _ =>
    let (u, info) := s.fetchRecord s.cur.core s.myCrew.ctx t.dcause t.page
    u.takeTrap { t with info := info }

/-- One bundle of a part issues as a unit: all of it, or none of it and the trap (R201, R218). -/
def State.issueBundle (s : State) (c slot lead : Nat) (b : Bundle) : State :=
  match decodeBundle b with
  | .error _ => ((s.openBundle c slot lead 0).takeTrap { tcause := 0x60 }).tryOnce c slot
  | .ok k =>
    let s0 := s.openBundle c slot lead k.gap
    match runSlots k.slots s0 with
    | (_, some t) => (s0.trapBundle t).tryOnce c slot
    | (s1, none) => s1.closeBundle.ageOthers c ((s.candidates c (partOf slot)).filter (· != (slot, lead)))

/-- The partition is held for a part's bank delay, which it then owes no more (R216). -/
def State.holdBank (s : State) (c slot lead d : Nat) : State :=
  let g := s.gang c slot
  let k := s.core c
  (s.setCore c { k with hold := mset k.hold (partOf slot) (s.clock + d) }).setGang c slot
    (g.setPart lead { g.part lead with bankPaid := true, bankd := d, next := s.clock + d })

/-- BUNDLE_ISSUE (R201, R216, R397): the part its partition selects issues its bundle; a bank delay first holds the
partition for its clocks. -/
def execBundleIssue (s : State) : Out :=
  match s.ev with
  | .part c slot lead =>
    let q := partOf slot
    let p := (s.gang c slot).part lead
    if s.select c q ≠ some (slot, lead) then .next s
    else match p.fetchFault, (s.gang c slot).bundle? lead with
      | some (cause, info), _ => .next (((s.openBundle c slot lead 0).takeTrap (fetchTrap cause info none)).tryOnce c slot)
      | none, some b =>
        let d := p.owed ((s.gang c slot).wide s.clock s.free) b
        if 0 < d then .next (s.holdBank c slot lead d) else .next (s.issueBundle c slot lead b)
      | none, none => .next s
  | _ => .next s

end Sys2Proof.Machine
end

