-- ==== Sys2Proof/Machine/Migr.lean ====
section
/-! DEFINITION. Migr: the migration exchange (R39, R167 to R170) and the removal of translations (R30, R31). -/

namespace Sys2Proof.Machine
open Sys2Proof

/-- The level-0 entry of an address in a context without a G-stage: its place, the entry and its companion (R167). -/
def State.leafOf : Nat → State → Nat → Nat → Nat → Option (Nat × Nat × Nat)
  | 0, _, _, _, _ => none
  | fuel + 1, s, base, level, vpn =>
    let pa := base + 8 * vpnIdx vpn level
    if !inHbm pa 8 ∨ s.poisoned pa 8 then none
    else
      let e := s.rd pa 8
      if level = 0 then some (pa, e, s.rd (pa + 4096) 8)
      else if pteKind e level = .next then State.leafOf fuel s (4096 * ptePpn e) (level - 1) vpn
      else none

def State.leaf0 (s : State) (ctx vpn : Nat) : Option (Nat × Nat × Nat) :=
  if (s.ctx ctx).chgatp.toNat / 2 ^ 60 ≠ 0 then none
  else State.leafOf 5 s (4096 * ((s.ctx ctx).catp.toNat % 2 ^ 44)) 4 vpn

/-- MIGRATION_OFFER (Table 5-10 step 2): the leaf must forward to the sender with MIG = 1, and a frame be at hand. -/
def execMigrationOffer (s : State) : Out :=
  match s.ev with
  | .packet p =>
    let vpn := p.va / 4096
    let no (t : State) : Out := .next (t.send { kind := 13, dev := p.dev, ctx := p.peerCtx, peerCtx := p.ctx, va := p.va })
    match s.leaf0 p.ctx vpn with
    | none => no s
    | some (pa, e, c) =>
      let w := s.imageAper p.ctx (bitsOf e 15 10)
      let fwd := e % 2 == 0 && bitsOf e 63 54 == 0x3FF && w.getLsbD 63 && aperDev w == p.dev && aperCtx w == p.peerCtx
      if !fwd ∨ !c.testBit 58 ∨ !(s.ctx p.ctx).live then no s
      else match s.takeFrame p.ctx (tslice p.ctx p.va) with
        | (t, .error _) => no t
        | (t, .ok f) =>
          let m : Migr := { ctx := p.ctx, vpn := vpn, dev := p.dev, rctx := p.peerCtx, home := false, step := 2, frame := f,
                            pte := BitVec.ofNat 64 e, pteAddr := pa, count := p.a, age := p.b }
          .next (({ t with migr := t.migr ++ [m] } : State).send
            { kind := 14, dev := p.dev, ctx := p.peerCtx, peerCtx := p.ctx, va := p.va })
  | _ => .next s

/-- The exchange of a page. -/
def State.migOf (s : State) (ctx vpn : Nat) (home : Bool) : Option Migr :=
  s.migr.find? (fun m => m.ctx == ctx && m.vpn == vpn && m.home == home)

/-- MIGRATION_DECLINE: the exchange ends with the page unchanged; a frame already taken is kept as the slice's spare. -/
def execMigrationDecline (s : State) : Out :=
  match s.ev with
  | .packet p =>
    let vpn := p.va / 4096
    match s.migOf p.ctx vpn true, s.migOf p.ctx vpn false with
    | some m, _ => .next { s with migr := s.migr.erase m }
    | none, some m => .next { s with migr := s.migr.erase m, spare := mset s.spare (4096 * tslice p.ctx p.va + p.ctx) m.frame }
    | none, none => .next s
  | _ => .next s

/-- A removal of translations covers a 4 KiB page: by a test of context, page and level, at the level of the page or of a larger one
that has mapped it (R31). -/
def State.covered (s : State) (cov : Nat → Nat → Nat → Bool) (ctx vpn : Nat) : Bool :=
  cov ctx vpn 0 || s.large.any (fun n => n.1 == ctx && n.2.2 == vpn / 512 ^ n.2.1 && cov ctx vpn n.2.1)

/-- A piece translated here and not yet performed or sent on. A store performed early has been performed. -/
def Req.translated (r : Req) (l : LaneAcc) : Bool :=
  l.stage == 1 && (l.path == 0 || l.path == 6 || (l.path == 3 && l.fwds != 0)) && r.kind != .blkwb && r.kind != .blkdrop &&
    !(r.kind == .lblk && l.lane == 0) && !(l.early && r.writes)

/-- The page of a piece, or of its scale byte, is one of those that a test picks. -/
def LaneAcc.onPages (l : LaneAcc) (f : Nat → Bool) : Bool := f (l.ia.toNat % 2 ^ 57 / 4096) || l.sva.any (fun a => f (a / 4096))

/-- A lane of a decoding load takes its format from the companion of a page that a test picks. -/
def Req.codedBy (r : Req) (lane : Nat) (f : Nat → Bool) : Bool :=
  (r.of lane).any (fun m => m.fmt == 14 && m.off == 0 && !m.scr && (m.path != 3 || m.fwds != 0) && f (m.ia.toNat % 2 ^ 57 / 4096))

/-- The elements of a lane of a decoding load. -/
def Req.elems (r : Req) (lane : Nat) : List LaneAcc := (r.of lane).filter (fun m => m.fmt != 0 && m.fmt != 14)

/-- What a request has translated stays: a store made early comes after it, or it serves another request's piece at a peer. -/
def State.pinned? (s : State) (id : Nat) (r : Req) : Bool :=
  decide (scaleSlot ≤ r.slot) || s.reqs.any (fun q => q.2.writes && q.2.deps.contains id && q.2.lanes.any (·.early))

/-- A piece goes through its translation again; what it has read through it goes. -/
def LaneAcc.retranslate (l : LaneAcc) : LaneAcc :=
  let m := if l.early then l.again else l
  { m with stage := 0, sva := none, scale := none, path := if l.path = 3 then 0 else l.path, peer := if l.path = 3 then 0 else l.peer,
           fwds := if l.path = 3 then l.fwds - 1 else l.fwds }

/-- Removed translations leave a request (R31): a lane that none of its elements has been accessed for decodes again, and pieces not
yet performed are translated again. -/
def Req.untranslate (r : Req) (f : Nat → Bool) : Req :=
  let r1 := r.laneNos.foldl (fun q n =>
    if r.codedBy n f && (r.elems n).all (fun m => m.stage == 0 || m.stage == 1 || m.stage == 5) then q.recoded n none else q) r
  { r1 with lanes := r1.lanes.map (fun l => if r1.translated l && l.onPages f then l.retranslate else l) }

/-- Translations are removed (R31): cached entries go, accesses already translated through them are translated again, and landing
entries of their pages are to be translated again (R159). -/
def State.tlbDrop (s : State) (cov : Nat → Nat → Nat → Bool) : State :=
  { s with
    tlb := s.tlb.filter (fun t => !cov t.ctx t.vpn t.level)
    landing := s.landing.map (fun e => if s.covered cov e.dctx (e.va / 4096) then { e with stale := true } else e)
    reqs := s.reqs.map (fun r => if s.pinned? r.1 r.2 then r else (r.1, r.2.untranslate (s.covered cov r.2.ctx))) }

/-- An access that uses a removed translation has not delivered its request (R31): one that keeps it, one that waits for a scale byte
from a peer, and the elements left of a lane whose format the removed companion gave. -/
def State.stillUses (s : State) (id : Nat) (r : Req) (f : Nat → Bool) : Bool :=
  r.lanes.any (fun l =>
    (l.stage == 8 && l.onPages f) || (s.pinned? id r && r.translated l && l.onPages f) ||
    (l.fmt != 0 && l.fmt != 14 && [0, 1, 5, 8].contains l.stage && r.codedBy l.lane f && (r.elems l.lane).any (fun m => m.stage == 2)))

/-- Every first-level copy under an IA of the pages is recalled. -/
def State.recallPage (s : State) (f : Nat → Nat → Bool) : State :=
  let hits := s.cores.flatMap (fun x =>
    (x.2.blocks.flatMap (fun b => ((List.range b.lines.length).filter (fun i =>
      (b.lines.getD i {}).st != 0 && f b.ctx ((b.base + i) / 32))).map (fun i => (x.1, b.ctx, b.base + i)))) ++
    ((x.2.roL1.filter (fun r => f r.1 (r.2.1 / 32))).map (fun r => (x.1, r.1, r.2.1))))
  hits.foldl (fun t h => t.recall h.1 h.2.1 h.2.2) s

/-- The 4,096 bytes of a frame and the numbers of its poisoned words. -/
def State.frameBytes (s : State) (frame : Nat) : List Byte × List W64 :=
  (s.rdBytes frame 4096, ((List.range 512).filter (fun i => s.poison.contains (frame / 8 + i))).map (BitVec.ofNat 64))

/-- MIGRATION_ACCEPT (steps 3 and 4): the entry becomes a forwarding entry, the translation and first-level copies go, and the
lines are sent; accesses to the page wait meanwhile. A page returned after a failed swap is sent from its frame. -/
def execMigrationAccept (s : State) : Out :=
  match s.ev with
  | .packet p =>
    let vpn := p.va / 4096
    match s.migOf p.ctx vpn true with
    | none => .next s
    | some m =>
      let lines (t : State) (frame : Nat) : State :=
        let (bs, ps) := t.frameBytes frame
        t.send { kind := 15, dev := p.dev, ctx := p.peerCtx, peerCtx := p.ctx, va := p.va, a := m.count, b := m.age, bytes := bs, words := ps }
      if m.step = 9 then .next (lines s m.frame)
      else
        let quit : State := ({ s with migr := s.migr.erase m } : State).send { kind := 13, dev := p.dev, ctx := p.peerCtx, peerCtx := p.ctx, va := p.va }
        match s.leaf0 p.ctx vpn, s.aperTo p.ctx p.dev p.peerCtx with
        | some (pa, e, _), some n =>
          let f := leafFrame e 0 vpn
          if pteKind e 0 ≠ .leaf ∨ !(s.tlbFind p.ctx vpn).all (fun t => ptePpn t.pte.toNat == f) then .next quit
          else
            let fe := 0x3FF * 2 ^ 54 + n * 2 ^ 10 + e % 256 / 2 * 2
            let frame := 4096 * f
            let s1 := (s.writeEntry pa fe).tlbDrop (fun c v _ => c == p.ctx && v == vpn)
            let s2 := s1.recallPage (fun c v => c == p.ctx && v == vpn)
            let s3 : State := { s2 with migr := s2.migr.map (fun x => if x = m then { x with step := 3, frame := frame, pteAddr := pa } else x) }
            .next (lines s3 frame)
        | _, _ => .next quit
  | _ => .next s

/-- Enter a page's thrash history (R39); a full table of the slice replaces the entry with the oldest window. The pin of an entry that
leaves ends with it. -/
def State.thrashEnter (s : State) (ctx vpn count age : Nat) : State :=
  let win := max 1 (s.dfld 0x38 47 32) * clocksPerUs
  let thrn := s.dfld 0x38 29 24
  let (k, start) := if age ≤ win then (count + 1, s.clock - age) else (1, s.clock)
  let pin := decide (thrn ≠ 0 ∧ thrn < k)
  let sl := tslice ctx (4096 * vpn)
  let rest := s.thrash.filter (fun t => !(t.ctx == ctx && t.vpn == vpn))
  let mine := rest.filter (fun t => tslice t.ctx (4096 * t.vpn) == sl)
  let oldest := mine.foldl (fun (a : Option Thrash) t => match a with | none => some t | some b => if t.start < b.start then some t else some b) none
  let gone : List (Nat × Nat) := if mine.length < 256 then [] else oldest.toList.map (fun t => (t.ctx, t.vpn))
  let kept := rest.filter (fun t => !gone.contains (t.ctx, t.vpn))
  let ends (p : Pending) : Bool := p.op == .throttleExpiry &&
    (match p.arg with | .page c v => (c == ctx && v == vpn) || gone.contains (c, v) | _ => false)
  let s1 : State := { s with thrash := kept ++ [⟨ctx, vpn, k, start, pin⟩], agenda := s.agenda.filter (fun p => !ends p) }
  if pin then { s1 with agenda := s1.agenda ++ [{ op := .throttleExpiry, arg := .page ctx vpn, due := s.clock + max 1 (s.dfld 0x38 63 48) * 1000 * clocksPerUs }] } else s1

/-- MIGRATION_LINES (step 5): the lines are written, the entry made present with bits [7:1] of the forwarding entry and A = 1,
the history entered, and the move acknowledged. Where the swap fails, the frame is kept and the page is offered back; at
home the frame it left is then a spare one (log entry 44). -/
def execMigrationLines (s : State) : Out :=
  match s.ev with
  | .packet p =>
    let vpn := p.va / 4096
    match s.migOf p.ctx vpn false with
    | none => .next s
    | some m =>
      let s1 := (List.range 32).foldl (fun t i => t.lineWrite (m.frame + 128 * i) ((p.bytes.drop (128 * i)).take 128)) s
      let s2 := p.words.foldl (fun t w => t.poisonRange (m.frame + 8 * w.toNat) 8) s1
      let s3 : State := { s2 with migr := s2.migr.erase m }
      if s3.rd m.pteAddr 8 = m.pte.toNat then
        let e := (m.frame / 4096 * 2 ^ 10 + m.pte.toNat % 256 / 2 * 2) ||| 0x41
        let c := s3.rd (m.pteAddr + 4096) 8
        let back := s3.migOf p.ctx vpn true
        let s4 := ((s3.writeEntry m.pteAddr e).tlbInstall p.ctx vpn e c 0 noGStage).thrashEnter p.ctx vpn p.a p.b
        let s5 : State := match back with
          | some b => ({ s4 with migr := s4.migr.erase b, spare := mset s4.spare (4096 * tslice p.ctx p.va + p.ctx) b.frame } : State).wakePage p.ctx vpn
          | none => s4
        .next (s5.send { kind := 16, dev := p.dev, ctx := p.peerCtx, peerCtx := p.ctx, va := p.va })
      else
        let b : Migr := { m with home := true, step := 9 }
        .next (({ s3 with migr := s3.migr ++ [b] } : State).send
          { kind := 12, dev := p.dev, ctx := p.peerCtx, peerCtx := p.ctx, va := p.va, a := m.count, b := m.age })
  | _ => .next s

/-- MIGRATION_ACK (step 6, R170): the vacated frame goes to the return ring with an interrupt; held accesses go on. -/
def execMigrationAck (s : State) : Out :=
  match s.ev with
  | .packet p =>
    let vpn := p.va / 4096
    match s.migOf p.ctx vpn true with
    | none => .next s
    | some m =>
      let s1 : State := ({ s with migr := s.migr.erase m } : State).wakePage p.ctx vpn
      if m.step = 9 then .next { s1 with spare := mset s1.spare (4096 * tslice p.ctx p.va + p.ctx) m.frame }
      else
        let ring := s1.rd (s1.ctxWordPa p.ctx 5) 8
        let ipa := s1.ctxWordPa p.ctx 6
        let tail := s1.rd (ipa + 4) 4
        let ea := bitsOf ring 55 12 * 4096 + 16 * (tail % 2 ^ (ring / 2 ^ 60 + 6))
        let s2 := (s1.unitStore ea (bytesLE 8 m.frame ++ bytesLE 8 (4096 * vpn))).unitStore (ipa + 4) (bytesLE 4 ((tail + 1) % 2 ^ 32))
        .next (s2.irq (bitsOf (s2.ctx p.ctx).cxcfg.toNat 62 59))
  | _ => .next s

/-- THROTTLE_EXPIRY (R39): the entry is cleared. -/
def execThrottleExpiry (s : State) : Out :=
  match s.ev with
  | .page ctx vpn => .next { s with thrash := s.thrash.filter (fun t => !(t.ctx == ctx && t.vpn == vpn)) }
  | _ => .next s

/-! ### TIC (R30, R31) -/

/-- The command covers a page of a context: `level` is the size of the entry that maps it. -/
def ticCovers (w : W64) (ctx vpn level : Nat) : Bool :=
  match w.toNat / 2 ^ 62 with
  | 0 => ctx == bitsOf w.toNat 61 50 && vpn / 512 ^ level == w.toNat % 2 ^ 45 / 512 ^ level
  | 1 => ctx == bitsOf w.toNat 61 50
  | _ => true

/-- The command clears the walk caches of a context. -/
def ticWalks (w : W64) (ctx : Nat) : Bool :=
  match w.toNat / 2 ^ 62 with
  | 0 => false
  | 1 => ctx == bitsOf w.toNat 61 50
  | _ => true

/-- A TIC write: its entries, and by OP 1 and 2 the walk caches, are removed at once and the command waits to finish; a 17th command, or a reserved OP, is dropped with ERR. -/
def State.ticWrite (s : State) (val : W64) (size : Nat) : State :=
  if size ≠ 8 then s
  else if 16 ≤ s.ticq.length ∨ val.toNat / 2 ^ 62 = 3 then s.setDreg 0x28 (s.dreg 0x28 ||| 2)
  else
    let t := s.tlbDrop (ticCovers val)
    ({ t with ticq := s.ticq ++ [val], walkc := s.walkc.filter (fun w => !ticWalks val w.ctx) } : State).setDreg 0x28 (s.dreg 0x28 ||| 1)

/-- TIC_ONE_PAGE (R31). -/
def execTicOnePage (s : State) : Out :=
  match s.ev with
  | .reg _ val size => .next (s.ticWrite val size)
  | _ => .next s
/-- TIC_ONE_CONTEXT (R31). -/
def execTicOneContext (s : State) : Out :=
  match s.ev with
  | .reg _ val size => .next (s.ticWrite val size)
  | _ => .next s
/-- TIC_ALL_CONTEXTS (R31). -/
def execTicAllContexts (s : State) : Out :=
  match s.ev with
  | .reg _ val size => .next (s.ticWrite val size)
  | _ => .next s

/-- A fill or a migration of a covered page, or an access through a removed translation, is still under way (R31). -/
def State.ticBusy (s : State) (w : W64) : Bool :=
  s.reqs.any (fun r => s.stillUses r.1 r.2 (s.covered (ticCovers w) r.2.ctx)) ||
  (s.fills ++ s.fillq).any (fun f => ticCovers w f.ctx f.vpn 0) || s.migr.any (fun m => ticCovers w m.ctx m.vpn 0)

/-- The words of a context's table entry are read (R28, R390). -/
def State.readCtx (s : State) (c : Nat) : State :=
  let w (i : Nat) : W64 := BitVec.ofNat 64 (s.rd (s.ctxWordPa c i) 8)
  { s with ctxs := mset s.ctxs c { s.ctx c with catp := w 0, chgatp := w 1, cxcfg := w 2, sched := w 7 } }

/-- TIC_FINISH (R31): first-level copies are recalled, the words of the one context a command names are read again (R28; OP 2 names
none, log entry 44), and BUSY falls with the last command. -/
def execTicFinish (s : State) : Out :=
  match s.ticq with
  | [] => .next s
  | w :: rest =>
    let c := bitsOf w.toNat 61 50
    let s0 := ({ s with ticq := rest } : State).recallPage (s.covered (ticCovers w))
    let s1 : State := { s0 with large := s0.large.filter (fun n => !ticCovers w n.1 (n.2.2 * 512 ^ n.2.1) n.2.1) }
    let s2 := if w.toNat / 2 ^ 62 < 2 ∧ (s1.ctx c).live then s1.readCtx c else s1
    .next (if rest.isEmpty then s2.setDreg 0x28 (s2.dreg 0x28 &&& 2) else s2)

end Sys2Proof.Machine
end

