-- ==== Sys2Proof/Machine/Join.lean ====
section
/-! DEFINITION. Join: join units: ports, patterns, task queues, matching and firing (R165, R166, R284 to R289, R353, R354, R357 to
R383, R406). -/

namespace Sys2Proof.Machine
open Sys2Proof

/-! ### Handles (R358, R359) -/

/-- The unit and local port of a port handle. -/
def portOf (h : Nat) : Option (Nat × Nat) :=
  if h % 256 = 8 then some (bitsOf h 19 16, bitsOf h 15 8) else none
/-- The unit and local queue of a queue handle. -/
def queueOf (h : Nat) : Option (Nat × Nat) :=
  if h % 1024 = 0 then some (bitsOf h 19 16, bitsOf h 15 10) else none
/-- The unit and local pattern of a pattern handle. -/
def patternOf (h : Nat) : Option (Nat × Nat) :=
  if h % 1024 = 16 then some (bitsOf h 19 16, bitsOf h 15 10) else none

/-- The generation in a handle. -/
def handleGen (h : Nat) : Nat := bitsOf h 31 20
/-- The generation after a destroy: 0 is skipped. -/
def nextGen (g : Nat) : Nat := if (g + 1) % 4096 = 0 then 1 else (g + 1) % 4096

def portHandle (u p gen : Nat) : Nat := gen * 2 ^ 20 + u * 2 ^ 16 + p * 2 ^ 8 + 8
def queueHandle (u q gen : Nat) : Nat := gen * 2 ^ 20 + u * 2 ^ 16 + q * 2 ^ 10

def State.unit (s : State) (u : Nat) : JoinUnit := mget {} s.join u
def State.setUnit (s : State) (u : Nat) (x : JoinUnit) : State := { s with join := mset s.join u x }
def JoinUnit.port (x : JoinUnit) (p : Nat) : Port := mget {} x.ports p
def JoinUnit.pat (x : JoinUnit) (i : Nat) : Pattern := mget {} x.pats i
def JoinUnit.queue (x : JoinUnit) (q : Nat) : TaskQ := mget {} x.queues q
def JoinUnit.setPort (x : JoinUnit) (p : Nat) (v : Port) : JoinUnit := { x with ports := mset x.ports p v }
def JoinUnit.setPat (x : JoinUnit) (i : Nat) (v : Pattern) : JoinUnit := { x with pats := mset x.pats i v }
def JoinUnit.setQueue (x : JoinUnit) (q : Nat) (v : TaskQ) : JoinUnit := { x with queues := mset x.queues q v }

/-- The port a handle names, when it is fresh. -/
def State.freshPort (s : State) (h : Nat) : Option (Nat × Nat) :=
  (portOf h).bind (fun x =>
    let p := (s.unit x.1).port x.2
    if p.created && p.gen == handleGen h then some x else none)
/-- The queue a handle names, when it is fresh. -/
def State.freshQueue (s : State) (h : Nat) : Option (Nat × Nat) :=
  (queueOf h).bind (fun x =>
    let q := (s.unit x.1).queue x.2
    if q.created && q.gen == handleGen h then some x else none)
/-- The pattern a handle names, when it is fresh. -/
def State.freshPattern (s : State) (h : Nat) : Option (Nat × Nat) :=
  (patternOf h).bind (fun x =>
    let p := (s.unit x.1).pat x.2
    if p.claimed && p.gen == handleGen h then some x else none)

/-! ### Fields of a pattern (Tables 12-5 and 12-6) -/

def Pattern.w (p : Pattern) (i : Nat) : Nat := (p.words.getD i 0).toNat
/-- The local ports listed by a PATW0. -/
def listedPorts (w0 : Nat) : List Nat := (List.range (bitsOf w0 57 56 + 1)).map (fun i => w0 / 2 ^ (8 * i) % 256)
def Pattern.prio (p : Pattern) : Nat := bitsOf (p.w 0) 60 58
def Pattern.bind (p : Pattern) : Nat := bitsOf (p.w 0) 51 50

/-! ### Answers -/

/-- A unit answers the piece of a request that waits for it: 0, or the cause of its refusal; `out` is a handle result. -/
def State.answer (s : State) (id i cause out : Nat) : State :=
  match s.req id with
  | none => s
  | some r => match r.lanes[i]? with
    | none => s
    | some l => if l.stage ≠ 6 then s
      else s.setReq id (r.setLane i { l with stage := if cause = 0 then 2 else 4, cause := cause, out := out })

/-- A record goes to the request of a pop (R287); a QTRY may take none. -/
def State.givePop (s : State) (id : Nat) (rec_ : List W64) : State :=
  match s.req id with
  | none => s
  | some r => (s.setReq id { r with words := rec_ }).answer id 0 0 0

/-! ### Task queues (R376 to R381) -/

/-- Records in the ring. -/
def TaskQ.rcnt (q : TaskQ) : Nat := (q.rtail + 2 ^ 32 - q.rhead) % 2 ^ 32
/-- Entries of the ring. -/
def TaskQ.size (q : TaskQ) : Nat := 2 ^ (q.logn + 5)
/-- A push goes on-chip. -/
def TaskQ.onChip (q : TaskQ) : Bool := q.rcnt == 0 && !q.rfl && decide (q.recs.length < 32)
/-- A push is accepted, and no error stands (R368, R377). -/
def TaskQ.accepts (q : TaskQ) : Bool := !q.err && (q.onChip || decide (q.rcnt < q.size))
/-- The VA of ring entry i. -/
def TaskQ.entryVa (q : TaskQ) (i : Nat) : Nat := q.ring.toNat + 64 * (i % q.size)

/-- A push (R377), by the request `id` or, with 0, by a firing or a notice: the state, and the cause of a refusal. A record bound
for the ring waits for its ring write. -/
def State.pushQueue (s : State) (u k : Nat) (rec_ : List W64) (id : Nat) : State × Nat :=
  let q := (s.unit u).queue k
  if q.err then (s, q.cause)
  else if q.onChip then ((s.setUnit u ((s.unit u).setQueue k { q with recs := q.recs ++ [rec_] })).answer id 0 0 0, 0)
  else if q.rcnt < q.size then
    let t := s.setUnit u ((s.unit u).setQueue k { q with
      spills := q.spills ++ [(q.rtail, rec_, id)]
      rtail := (q.rtail + 1) % 2 ^ 32 })
    (t.later .queueRingWriteDone (.queue u k q.gen), 0)
  else (s, 0x42)

/-- A pending pop with a record on-chip. -/
def TaskQ.popDue (q : TaskQ) : Bool := q.created && !q.err && !q.pops.isEmpty && !q.recs.isEmpty
/-- A refill to start (R378). -/
def TaskQ.refillDue (q : TaskQ) : Bool := q.created && decide (q.recs.length ≤ 24) && decide (0 < q.rcnt) && !q.rfl

/-- The queue that is served first (R379): highest PRIO, then by rotation. -/
def JoinUnit.nextService (x : JoinUnit) : Option Nat :=
  let due := (x.queues.filter (fun q => q.2.popDue || q.2.refillDue)).map Prod.fst
  let top := (due.map (fun k => (x.queue k).prio)).foldl max 0
  let ptr := mget 0 x.qptr top
  ((List.range 64).map (fun j => (ptr + j) % 64)).find? (fun k => due.contains k && (x.queue k).prio == top)

/-- The cores whose supervisor takes its notices from a queue: they push a held notice again (R406). -/
def State.wakeNotices (s : State) (u k : Nat) : State :=
  let h := queueHandle u k ((s.unit u).queue k).gen
  ((List.range 8).map (8 * u + ·)).foldl (fun t c =>
    if !(t.core c).notices.isEmpty && (t.dreg (0x4000 + 8 * c)).toNat % 2 ^ 32 == h then t.later .queuePush (.core c) else t) s

/-- One service of a queue: a pop takes the head record, or a refill starts. -/
def State.serveQueue (s : State) (u k : Nat) : State :=
  let x := s.unit u
  let q := x.queue k
  let x1 := { x with qptr := mset x.qptr q.prio ((k + 1) % 64) }
  match q.pops, q.recs with
  | id :: ids, r :: rs =>
    ((s.setUnit u (x1.setQueue k { q with pops := ids, recs := rs })).givePop id r).wakeNotices u k
  | _, _ =>
    let n := min 8 q.rcnt
    (s.setUnit u (x1.setQueue k { q with rfl := true, refillN := n, rhead := (q.rhead + n) % 2 ^ 32 })).later
      .queueRefillDone (.queue u k q.gen)

/-- Services an event can enable at most. -/
def JoinUnit.services (x : JoinUnit) : Nat := x.queues.foldl (fun n q => n + q.2.pops.length + 2) 0

/-! ### Matching and firing (R368 to R374) -/

/-- A pattern is eligible (R368). -/
def State.eligible (s : State) (u i : Nat) : Bool :=
  let x := s.unit u
  let p := x.pat i
  p.claimed && p.en && (listedPorts (p.w 0)).all (fun n => (x.port n).created && !(x.port n).msgs.isEmpty) &&
    (p.bind != 2 || (match s.freshQueue (p.w 1 % 2 ^ 32) with
      | some y => y.1 == u && (x.queue y.2).accepts
      | none => false))

/-- The pattern that fires next (R370): highest PRIO, then by rotation. -/
def State.nextFiring (s : State) (u : Nat) : Option Nat :=
  let x := s.unit u
  let es := (x.pats.map Prod.fst).filter (s.eligible u)
  let top := (es.map (fun i => (x.pat i).prio)).foldl max 0
  let ptr := mget 0 x.ptr top
  ((List.range 64).map (fun j => (ptr + j) % 64)).find? (fun i => es.contains i && (x.pat i).prio == top)

/-- fire(w) (R371): heads are read in list order, those without KEEP are removed, and the binding starts. A firing of a handler or lot reaches
the controller once the 2.0 GHz clock it is made in has ended, so that those of one clock enter by cluster (R384). -/
def State.fire (s : State) (u i : Nat) : State :=
  let x := s.unit u
  let p := x.pat i
  let ports := listedPorts (p.w 0)
  let pay := (List.range 4).map (fun n => match ports[n]? with | some k => ((x.port k).msgs.head?).getD 0 | none => 0)
  let x1 := (List.range ports.length).foldl (fun y n =>
    let k := ports.getD n 0
    if (p.w 0).testBit (52 + n) then y else y.setPort k { y.port k with msgs := (y.port k).msgs.drop 1 }) x
  let x2 := { x1 with ptr := mset x1.ptr p.prio ((i + 1) % 64), fireseq := (x.fireseq + 1) % 2 ^ 32 }
  let s1 := (s.setUnit u x2).observe 3 u 6 1
  if p.bind = 2 then
    match queueOf (p.w 1 % 2 ^ 32) with
    | some y => (s1.pushQueue y.1 y.2 (pay ++ [BitVec.ofNat 64 (p.w 2),
        BitVec.ofNat 64 ((64 * u + i) * 2 ^ 32 + x.fireseq), 0, 0]) 0).1
    | none => s1
  else
    let e : Event := .fire p.bind p.ctx (64 * u + i) (BitVec.ofNat 64 (p.w 1)) (BitVec.ofNat 64 (p.w 2)) pay
    { s1 with agenda := s1.agenda ++ [{ op := .firingAtController, arg := e, due := 2 * (s.baseClock + 1) }] }

/-- One firing of a unit, which takes no event until it has found, in a later clock, that no pattern is eligible any more (R369, R370). Then
the queue services that are due follow, a pop an event of its own with its own firings (R379). -/
def State.fireOn : Nat → State → Nat → State
  | 0, s, u => s.setUnit u { s.unit u with busy := false }
  | fuel + 1, s, u =>
    match s.nextFiring u with
    | some i => let t := s.fire u i; t.setUnit u { t.unit u with busy := true }
    | none => match (s.unit u).nextService with
      | none => s.setUnit u { s.unit u with busy := false }
      | some k => State.fireOn fuel (s.serveQueue u k) u

/-- The end of an event of the unit: its firings, one in each 2.0 GHz clock, then what is due of its queues (R369, R379). -/
def State.endEvent (s : State) (u : Nat) : State := State.fireOn ((s.unit u).services + 1) s u

/-- What the window shows of a unit while its next event is under way (R383): the unit as the last one left it. -/
def State.seeUnit (s : State) (u : Nat) : State :=
  if (s.unit u).busy then s else { s with joinSeen := mset s.joinSeen u (s.unit u) }

/-! ### Arrivals (R361 to R364) -/

/-- A discarded arrival that has no flag is counted (Table 12-3). -/
def State.countStale (s : State) (u : Nat) : State :=
  let x := s.unit u
  s.setUnit u { x with stalecnt := min (2 ^ 32 - 1) (x.stalecnt + 1) }

/-- The source may send to the port (R363). -/
def Port.permits (p : Port) (m : Msg) (dev : Nat) : Bool :=
  match m.source with
  | 2 => p.ahost
  | 3 => p.apcie
  | 4 | 5 => true
  | _ => p.apeer || (m.dev == dev && m.ctx == p.ctx)

/-- A non-instruction arrival at a full port (R364). -/
def State.portOverflow (s : State) (u k : Nat) : State :=
  let p := (s.unit u).port k
  let t := s.setUnit u ((s.unit u).setPort k { p with ovf := true, ovfcnt := min 255 (p.ovfcnt + 1) })
  if p.ovf then t
  else
    let h := portHandle u k p.gen
    t.tellOwner u p.ctx 0x7A h 0 h

/-- An arrival at a port: the checks of R363 in their order; the cause its sender's flag takes. -/
def State.msgArrive (s : State) (m : Msg) : State × Nat :=
  let h := m.handle % 2 ^ 32
  let u := bitsOf h 19 16
  let stale : State × Nat := if [2, 3, 4].contains m.source then (s.countStale u, 0) else (s, 0x40)
  match s.freshPort h with
  | none => stale
  | some (_, k) =>
    let p := (s.unit u).port k
    if !p.permits m s.devId then stale
    else if p.depth + 1 ≤ p.msgs.length then (if m.source = 0 then (s, 0x41) else (s.portOverflow u k, 0))
    else ((s.setUnit u ((s.unit u).setPort k { p with msgs := p.msgs ++ [m.data] })).endEvent u, 0)

/-- The source of a message that comes by UALink, from its M-slot opcode. -/
def msgSource (opc : Nat) : Nat :=
  if opc = 0x45 then 5 else if opcKind opc == .store || opcKind opc == .rawStore then 1 else 0

/-- A message or record from a peer (R148): acknowledged at once; a record goes to its queue as a request served for the peer. -/
def State.peerMessage (s : State) (p : Packet) : State :=
  let s1 := s.send { kind := 1, dev := p.dev, ctx := p.peerCtx, tag := p.tag }
  if !(s.ctx p.ctx).live then
    s1.send { kind := 4, dev := p.dev, ctx := p.peerCtx, peerCtx := p.ctx, tag := p.tag, a := 0x17 }
  else if p.b = 1 then
    let id := s1.nextId
    (s1.addReq { kind := .qpush, ctx := p.ctx, words := p.words, opc := 0x33, born := s.clock,
                 lanes := [{ lane := 0, ia := BitVec.ofNat 64 p.va, path := 4, size := 8, pa := p.va, stage := 6 }],
                 peer := some (p.dev, p.peerCtx, p.tag) }).later .queuePush (.req id 0)
  else
    let (t, cause) := s1.msgArrive { handle := p.va, data := p.words.getD 0 0, source := msgSource (p.a % 256), ctx := p.peerCtx, dev := p.dev }
    t.send { kind := 4, dev := p.dev, ctx := p.peerCtx, peerCtx := p.ctx, tag := p.tag, a := cause }

/-- MESSAGE_ARRIVAL (R363, R166). -/
def execMessageArrival (s : State) : Out :=
  match s.ev with
  | .msg m =>
    let (t, cause) := s.msgArrive m
    .next (t.answer m.req m.entry cause 0)
  | .packet p => .next (s.peerMessage p)
  | _ => .next s

/-! ### Configuration (R353, R354, R365 to R367, R375, R376, R381) -/

/-- Disable the claimed patterns of a unit that a test picks (R375). -/
def JoinUnit.disable (x : JoinUnit) (f : Pattern → Bool) : JoinUnit :=
  { x with pats := x.pats.map (fun p => if p.2.claimed && f p.2 then (p.1, { p.2 with en := false, dis := true }) else p) }

/-- The port is destroyed: its messages are discarded, the generation advances, patterns that list it are disabled. -/
def JoinUnit.killPort (x : JoinUnit) (k : Nat) : JoinUnit :=
  (x.setPort k { gen := nextGen (x.port k).gen }).disable (fun p => (listedPorts (p.w 0)).contains k)

/-- The lowest number below `n` that a test picks. -/
def lowest (n : Nat) (f : Nat → Bool) : Option Nat := (List.range n).find? f

/-- Run a configuration event on its request: `f` answers a cause, or the new state, the unit and the handle result. -/
def onConfig (s : State) (f : Req → State → Except Nat (State × Nat × Nat)) : Out :=
  match s.ev with
  | .req id i =>
    match s.req id with
    | none => .next s
    | some r => match f r s with
      | .error cause => .next (s.answer id i cause 0)
      | .ok (t, u, out) => .next ((t.answer id i 0 out).endEvent u)
  | _ => .next s

/-- Word i of a record. -/
def Req.word (r : Req) (i : Nat) : Nat := (r.words.getD i 0).toNat

/-- Permission bits and capacity of a PCFG in a port. -/
def Port.configure (p : Port) (w : Nat) : Port :=
  { p with depth := bitsOf w 59 56, apcie := w.testBit 2, ahost := w.testBit 1, apeer := w.testBit 0 }

/-- PORT_CREATE (R365 OP 0). -/
def execPortCreate (s : State) : Out :=
  onConfig s (fun r s =>
    let w := r.word 0
    if r.word 2 ≠ 0 ∨ bitsOf w 50 3 ≠ 0 ∨ (w.testBit 51 = false ∧ r.word 1 ≠ 0) then .error 0x45
    else
      let u := bitsOf w 55 52
      let x := s.unit u
      match lowest 256 (fun k => !(x.port k).created) with
      | none => .error 0x44
      | some k =>
        let p := x.port k
        let n := ({ created := true, gen := p.gen, ctx := r.ctx, msgs := if w.testBit 51 then [r.words.getD 1 0] else [] } : Port).configure w
        .ok (s.setUnit u (x.setPort k n), u, portHandle u k p.gen))

/-- The port of OP 1 and 2, of the issuing context. -/
def State.ownPort (s : State) (r : Req) : Except Nat (Nat × Nat) :=
  let w := r.word 0
  if bitsOf w 50 3 ≠ 0 ∨ r.word 1 ≠ 0 ∨ bitsOf w 63 62 = 3 then .error 0x45
  else match s.freshPort (r.word 2) with
    | none => .error 0x40
    | some (u, k) => if ((s.unit u).port k).ctx = r.ctx then .ok (u, k) else .error 0x43

/-- PORT_MODIFY (R365 OP 1; OP 3 is refused). -/
def execPortModify (s : State) : Out :=
  onConfig s (fun r s =>
    match s.ownPort r with
    | .error c => .error c
    | .ok (u, k) =>
      let w := r.word 0
      let p := ((s.unit u).port k).configure w
      let p1 := if w.testBit 61 then { p with ovf := false, ovfcnt := 0 } else p
      let p2 := if w.testBit 60 then { p1 with msgs := [] } else p1
      .ok (s.setUnit u ((s.unit u).setPort k p2), u, r.word 2))

/-- PORT_DESTROY (R365 OP 2, R375). -/
def execPortDestroy (s : State) : Out :=
  onConfig s (fun r s =>
    match s.ownPort r with
    | .error c => .error c
    | .ok (u, k) => .ok (s.setUnit u ((s.unit u).killPort k), u, r.word 2))

/-- Bits [63:57] equal bit 56, and the low `n` bits are 0. -/
def canonAligned (a n : Nat) : Bool := canonical a && decide (a % 2 ^ n = 0)

/-- HTPL keeps the limits of Tables 6-1 and 6-2. -/
def htplOk (w : Nat) : Bool :=
  decide (bitsOf w 54 47 ≤ 128) && decide (bitsOf w 46 39 ≤ 128) && decide (bitsOf w 38 33 ≤ 32) && decide (w % 2 ^ 33 = 0)

/-- The fields of a pattern record are valid in unit u (R367). -/
def State.recordOk (s : State) (u : Nat) (r : Req) : Bool :=
  let w := r.word 0
  let x := s.unit u
  let ports := listedPorts w
  decide (bitsOf w 49 32 = 0) && decide (w % 2 ^ 32 / 2 ^ (8 * ports.length) = 0) && decide (ports.Nodup) &&
    ports.all (fun k => (x.port k).created) && decide (r.word 3 = 0) &&
    (match bitsOf w 51 50 with
     | 0 => canonAligned (r.word 1) 4 && htplOk (r.word 2)
     | 1 => canonAligned (r.word 1) 5 && decide (r.word 2 = 0)
     | 2 => decide (r.word 1 < 2 ^ 32) && (match s.freshQueue (r.word 1) with | some y => y.1 == u | none => false)
     | _ => false)

/-- A listed port or the bound queue belongs to another context (R367). -/
def State.recordForeign (s : State) (u : Nat) (r : Req) : Bool :=
  let w := r.word 0
  (listedPorts w).any (fun k => ((s.unit u).port k).ctx != r.ctx) ||
    (bitsOf w 51 50 == 2 && (match s.freshQueue (r.word 1) with
      | some y => ((s.unit y.1).queue y.2).ctx != r.ctx
      | none => false))

/-- The pattern with a record. -/
def patternWith (r : Req) (gen : Nat) : Pattern :=
  { claimed := true, en := (r.word 0).testBit 61, dis := false, gen := gen, ctx := r.ctx, words := r.words.take 4 }

/-- PATTERN_CLAIM (R367 OP 0). DEDUCED (log entry 27): cause 0x44 for a claimed index, which R367 gives and Table 11-11 does not, comes
after the causes of Table 11-11. -/
def execPatternClaim (s : State) : Out :=
  onConfig s (fun r s =>
    match patternOf (r.word 4) with
    | none => .error 0x45
    | some (u, i) =>
      if handleGen (r.word 4) = 0 ∨ !s.recordOk u r then .error 0x45
      else if s.recordForeign u r then .error 0x43
      else if ((s.unit u).pat i).claimed then .error 0x44
      else .ok (s.setUnit u ((s.unit u).setPat i (patternWith r (handleGen (r.word 4)))), u, 0))

/-- The pattern of OP 1 and 2, of the issuing context. -/
def State.ownPattern (s : State) (r : Req) : Except Nat (Nat × Nat) :=
  match s.freshPattern (r.word 4) with
  | none => .error 0x40
  | some (u, i) => if ((s.unit u).pat i).ctx = r.ctx then .ok (u, i) else .error 0x43

/-- PATTERN_REWRITE (R367 OP 1; OP 3 is refused): the record replaces the old one whole. -/
def execPatternRewrite (s : State) : Out :=
  onConfig s (fun r s =>
    if bitsOf (r.word 0) 63 62 = 3 ∨ !s.recordOk (bitsOf (r.word 4) 19 16) r then .error 0x45
    else match s.ownPattern r with
      | .error c => .error c
      | .ok (u, i) =>
        if s.recordForeign u r then .error 0x43
        else .ok (s.setUnit u ((s.unit u).setPat i (patternWith r ((s.unit u).pat i).gen)), u, 0))

/-- PATTERN_RELEASE (R367 OP 2): the pattern is free; the messages in its ports stay. -/
def execPatternRelease (s : State) : Out :=
  onConfig s (fun r s =>
    match s.ownPattern r with
    | .error c => .error c
    | .ok (u, i) =>
      .ok (s.setUnit u ((s.unit u).setPat i { (s.unit u).pat i with claimed := false, en := false, dis := false }), u, 0))

/-- QUEUE_CREATE (R376). -/
def execQueueCreate (s : State) : Out :=
  onConfig s (fun r s =>
    let w := r.word 0
    if bitsOf w 63 60 > 11 ∨ bitsOf w 52 0 ≠ 0 ∨ !canonAligned (r.word 1) 12 ∨ r.word 2 ≠ 0 ∨ r.word 3 ≠ 0 then .error 0x45
    else
      let u := bitsOf w 56 53
      let x := s.unit u
      match lowest 64 (fun k => !(x.queue k).created) with
      | none => .error 0x44
      | some k =>
        let g := (x.queue k).gen
        let t := s.setUnit u (x.setQueue k { created := true, gen := g, ctx := r.ctx, logn := bitsOf w 63 60, prio := bitsOf w 59 57,
                                              ring := r.words.getD 1 0 })
        .ok (t.wakeNotices u k, u, queueHandle u k g))

/-- The slot of a request that an access of a unit, or of a supervisor's area, makes at a peer; `core` is then the code the unit's
fault records name. -/
def unitSlot : Nat := 201

/-- No request to a peer is left of a unit. -/
def State.dropUnit (s : State) (core : Nat) : State :=
  { s with reqs := s.reqs.filter (fun r => !(r.2.slot == unitSlot && r.2.core == core)) }

/-- The number of a queue in the core-number field of its records (R380). -/
def queueCode (u k : Nat) : Nat := 0x8000 + 64 * u + k

/-- The queue is destroyed (R381): records are discarded, pops complete with cause 0x40, pushes on their way to the ring without
error, bound patterns are disabled. -/
def State.killQueue (s : State) (u k : Nat) : State :=
  let q := (s.unit u).queue k
  let h := queueHandle u k q.gen
  let x := ((s.unit u).setQueue k { gen := nextGen q.gen }).disable (fun p => p.bind == 2 && p.w 1 % 2 ^ 32 == h)
  let t := q.spills.foldl (fun t p => t.answer p.2.2 0 0 0) ((s.dropUnit (queueCode u k)).setUnit u x)
  q.pops.foldl (fun t id => t.answer id 0 0x40 0) t

/-- QUEUE_DESTROY (R381). -/
def execQueueDestroy (s : State) : Out :=
  onConfig s (fun r s =>
    match s.freshQueue (r.word 0) with
    | none => .error 0x40
    | some (u, k) =>
      if ((s.unit u).queue k).ctx ≠ r.ctx then .error 0x43 else .ok (s.killQueue u k, u, 0))

/-! ### Queue events -/

/-- The queue that supervisor notices of a core go to (R406, R437). -/
def State.supQueue (s : State) (c : Nat) : Option (Nat × Nat) := s.freshQueue ((s.dreg (0x4000 + 8 * c)).toNat % 2 ^ 32)

/-- The first notice of a core is pushed; a refused one stays held (R406). -/
def State.pushNotice (s : State) (c : Nat) : State :=
  match (s.core c).notices, s.supQueue c with
  | n :: ns, some (u, k) =>
    (match s.pushQueue u k n.words 0 with
     | (t, 0) =>
       let t1 := (t.setCore c { t.core c with notices := ns }).endEvent u
       if ns.isEmpty then t1 else t1.later .queuePush (.core c)
     | _ => s)
  | _, _ => s

/-- QUEUE_PUSH (R286, R377): by QPUSH, or a notice. -/
def execQueuePush (s : State) : Out :=
  match s.ev with
  | .core c => .next (s.pushNotice c)
  | .req id i =>
    match s.req id with
    | none => .next s
    | some r =>
      let h := ((r.lanes[i]?).map (·.pa)).getD 0 % 2 ^ 32
      match s.freshQueue h with
      | none => .next (s.answer id i 0x40 0)
      | some (u, k) => match s.pushQueue u k r.words id with
        | (t, 0) => .next (t.endEvent u)
        | (t, cause) => .next (t.answer id i cause 0)
  | _ => .next s

/-- QUEUE_POP_REQUEST (R287, R379): the pop waits its turn; a queue in error answers with its cause. -/
def execQueuePopRequest (s : State) : Out :=
  match s.ev with
  | .req id i =>
    match s.req id with
    | none => .next s
    | some r =>
      match s.freshQueue (((r.lanes[i]?).map (·.pa)).getD 0 % 2 ^ 32) with
      | none => .next (s.answer id i 0x40 0)
      | some (u, k) =>
        let q := (s.unit u).queue k
        if q.err then .next (s.answer id i q.cause 0)
        else .next ((s.setUnit u ((s.unit u).setQueue k { q with pops := q.pops ++ [id] })).endEvent u)
  | _ => .next s

/-- QUEUE_TRY_REQUEST (R287, R379): a record that is on-chip and not due to an earlier pop, or none. -/
def execQueueTryRequest (s : State) : Out :=
  match s.ev with
  | .req id i =>
    match s.req id with
    | none => .next s
    | some r =>
      match s.freshQueue (((r.lanes[i]?).map (·.pa)).getD 0 % 2 ^ 32) with
      | none => .next (s.answer id i 0x40 0)
      | some (u, k) =>
        let q := (s.unit u).queue k
        if q.err then .next (s.answer id i q.cause 0)
        else match q.recs with
        | [] => .next (s.answer id i 0 0)
        | w :: ws =>
          .next ((((s.setUnit u ((s.unit u).setQueue k { q with recs := ws })).givePop id w).wakeNotices u k).endEvent u)
  | _ => .next s

/-! ### The ring (R376, R380) -/

/-- Why a unit's access has not taken place: it waits for a fill, a migration or a peer, or for the answer to a record, or it has
failed for good. -/
inductive RingRes
  | wait
  | fault (rec_ : Nat × Nat)
  | fail (cause : Nat)
  deriving DecidableEq, Repr

/-- Where a unit's access takes place: a physical address here, or a peer, which has answered the request (R42, R168). -/
inductive UnitPlace
  | here (pa : Nat)
  | there (q : Req)
  deriving DecidableEq, Repr

/-- The request to a peer that serves an access of a unit. -/
def State.unitReq (s : State) (ctx va n acc core : Nat) : Option Req :=
  (s.reqs.find? (fun r => r.2.slot == unitSlot && r.2.core == core && r.2.ctx == ctx &&
    r.2.words == [BitVec.ofNat 64 va, BitVec.ofNat 64 n, BitVec.ofNat 64 acc])).map Prod.snd

/-- A request of a unit to a peer has not been answered. -/
def State.unitOpen (s : State) (core : Nat) : Bool := s.reqs.any (fun r => r.2.slot == unitSlot && r.2.core == core && !r.2.performed)

/-- A page that a fill or a migration holds. -/
def State.pageHeld (s : State) (ctx vpn : Nat) : Bool := s.filling ctx vpn || s.migrating ctx vpn ||
  s.reqs.any (fun q => q.2.ctx == ctx && q.2.writes && q.2.lanes.any (fun l => l.early && l.ia.toNat % 2 ^ 57 / 4096 == vpn &&
    s.inScope q.2.core q.2.slot (s.within q.2 l) .unit))

/-- A fault of a unit's own access: bound to a record that names the unit (`all`: whatever its cause), or final. -/
def State.unitFault (s : State) (ctx va acc cause gpa core : Nat) (all : Bool) : State × Except RingRes UnitPlace :=
  if all || escalated cause then
    let (t, r) := (s.dropUnit core).recordFault ctx (va / 4096 * 4096) cause acc gpa core
    (t, .error (.fault r))
  else (s.dropUnit core, .error (.fail cause))

/-- The lines of an access, as pieces sent through an aperture. -/
def unitLanes (va n : Nat) (w : W64) (bs : List Byte) : List LaneAcc :=
  (List.range ((va + n + 127) / 128 - va / 128)).map (fun i =>
    let a := max va (128 * (va / 128 + i))
    let k := min (va + n) (128 * (va / 128 + i) + 128) - a
    { lane := 0, off := a - va, ia := BitVec.ofNat 64 a, path := 3, peer := w, size := k, stage := 1, fwds := 1,
      data := ofBytesLE ((bs.drop (a - va)).take k) })

/-- A TAG 0 access of a unit to its owner context's memory, without windows: `n` bytes within a page, with `bs` to be stored. A read of a
line that a prepared group holds waits (R160). `all`: an access of a queue's ring, at priority 3 (R376), whose records name it as the
refill's read or the spill's write (R380). -/
def State.unitAccess (s : State) (ctx va n acc core : Nat) (bs : List Byte) (all : Bool) : State × Except RingRes UnitPlace :=
  match s.unitReq ctx va n acc core with
  | some q =>
    if !q.performed then (s, .error .wait)
    else match q.lanes.find? (fun l => l.stage == 4) with
      | some l => s.unitFault ctx va acc l.cause 0 core all
      | none => (s, .ok (.there q))
  | none =>
    if s.pageHeld ctx (va / 4096) then (s, .error .wait)
    else match s.translate ctx va acc with
      | (t, .ok f _ c _ _) =>
        let pa := 4096 * f + va % 4096
        if acc == 0 && (linesOf pa n).any t.lineHeld then (t, .error .wait)
        else
          let e := bitsOf c 57 56
          let u := (linesOf pa n).foldl (fun t l => (t.l2Use l (retention e (if all then 3 else 0)) (e == 3) (acc == 1) true).yields l)
            (t.migTouch ctx (va / 4096) none)
          (u, .ok (.here pa))
      | (t, .fault c g a) => t.unitFault ctx va (if all then acc else a) c g core all
      | (t, .fwd e) => (match t.fwdAper 0 ctx e false with
        | none => t.unitFault ctx va acc 0x05 0 core all
        | some w => (t.addReq { kind := if acc = 0 then .rawLoad else .rawStore, core := core, slot := unitSlot, ctx := ctx,
                                opc := if acc = 0 then 0x10 else 0x14, lanes := unitLanes va n w bs, born := s.clock,
                                words := [BitVec.ofNat 64 va, BitVec.ofNat 64 n, BitVec.ofNat 64 acc] }, .error .wait))
      | (t, .fill pa e _) => (match t.startFill ctx va acc pa e with
        | (u, some c) => u.unitFault ctx va acc c 0 core all
        | (u, none) => (u, .error .wait))

/-- A read of a unit: the bytes, and whether poison is among them. -/
def State.unitRead (s : State) (ctx va n core : Nat) (all : Bool) : State × Except RingRes (List Byte × Bool) :=
  match s.unitAccess ctx va n 0 core [] all with
  | (t, .ok (.here pa)) => (t, .ok (t.rdBytes pa n, t.poisoned pa n))
  | (t, .ok (.there q)) => (t, .ok (q.lanes.flatMap (fun l => bytesLE l.size l.out), q.lanes.any (fun l => l.undef || l.cause == 0x20)))
  | (t, .error e) => (t, .error e)

/-- A write of a unit. -/
def State.unitWrite (s : State) (ctx va : Nat) (bs : List Byte) (core : Nat) (all : Bool) : State × Option RingRes :=
  match s.unitAccess ctx va bs.length 1 core bs all with
  | (t, .ok (.here pa)) => (t.unitStore pa bs, none)
  | (t, .ok (.there _)) => (t, none)
  | (t, .error e) => (t, some e)

/-- A queue's ring access, a refill or a spill, fails for good (R380): the queue is in error; records bound for the ring, and those of a
failed refill, are lost, and pending pops leave, all with the cause. -/
def TaskQ.fail (q : TaskQ) (cause : Nat) (refill : Bool) : TaskQ :=
  { q with err := true, cause := cause, faulted := none, rfl := q.rfl && !refill, refillN := if refill then 0 else q.refillN, pops := [],
           spills := [], rtail := (q.rtail + 2 ^ 32 - q.spills.length) % 2 ^ 32 }

/-- The ring access of a queue fails for good: every push and pop that waits takes the cause. -/
def State.failQueue (s : State) (u k cause : Nat) (refill : Bool) : State :=
  let q := (s.unit u).queue k
  let t := (s.dropUnit (queueCode u k)).setUnit u ((s.unit u).setQueue k (q.fail cause refill))
  let t1 := q.spills.foldl (fun t p => t.answer p.2.2 0 cause 0) t
  q.pops.foldl (fun t id => t.answer id 0 cause 0) t1

/-- The queue's ring traffic waits for the answer to a fault. -/
def State.holdQueue (s : State) (u k : Nat) (r : Nat × Nat) : State :=
  s.setUnit u ((s.unit u).setQueue k { (s.unit u).queue k with faulted := some r })

/-- QUEUE_RING_WRITE_DONE (R377, R380): the oldest record bound for the ring is written, and its push completes. -/
def execQueueRingWriteDone (s : State) : Out :=
  match s.ev with
  | .queue u k gen =>
    let q := (s.unit u).queue k
    match q.spills with
    | [] => .next s
    | (i, w, id) :: rest =>
      if !q.created ∨ q.gen ≠ gen then .next s
      else
        let again (t : State) : State := t.later .queueRingWriteDone (.queue u k gen)
        match s.unitWrite q.ctx (q.entryVa i % 2 ^ 57) (w.flatMap (fun x => bytesLE 8 x.toNat)) (queueCode u k) true with
        | (t, none) =>
          let t1 := t.dropUnit (queueCode u k)
          .next (((t1.setUnit u ((t1.unit u).setQueue k { (t1.unit u).queue k with spills := rest })).answer id 0 0 0).endEvent u)
        | (t, some .wait) => .next (again t)
        | (t, some (.fault r)) => .next (again (t.holdQueue u k r))
        | (t, some (.fail c)) => .next ((t.failQueue u k c false).endEvent u)
  | _ => .next s

/-- The ring entries of a refill, read in order. DESIGN CHOICE (log entry 27): Table 2-9 names no ring; a poisoned entry fails the queue
at once with cause 0x20, with no record and no wait for an answer. -/
def State.refillReads : Nat → Nat → State → TaskQ → Nat → List (List W64) → State × Except RingRes (List (List W64))
  | 0, _, s, _, _, acc => (s, .ok acc)
  | n + 1, i, s, q, core, acc =>
    match s.unitRead q.ctx (q.entryVa i % 2 ^ 57) 64 core true with
    | (t, .ok (bs, bad)) =>
      if bad then (t, .error (.fail 0x20))
      else State.refillReads n (i + 1) t q core (acc ++ [(List.range 8).map (fun j => BitVec.ofNat 64 (wordAt bs (8 * j) 8))])
    | (t, .error r) => (t, .error r)

/-- QUEUE_REFILL_DONE (R378, R380): the records read come on-chip in ring order. -/
def execQueueRefillDone (s : State) : Out :=
  match s.ev with
  | .queue u k gen =>
    let q := (s.unit u).queue k
    if !q.created ∨ q.gen ≠ gen ∨ !q.rfl then .next s
    else
      let again (t : State) : State := t.later .queueRefillDone (.queue u k gen)
      match s.refillReads q.refillN ((q.rhead + 2 ^ 32 - q.refillN) % 2 ^ 32) q (queueCode u k) [] with
      | (t0, .ok rs) =>
        let t := t0.dropUnit (queueCode u k)
        let p := (t.unit u).queue k
        .next ((t.setUnit u ((t.unit u).setQueue k { p with recs := p.recs ++ rs, rfl := false, refillN := 0 })).endEvent u)
      | (t, .error (.fault r)) => .next (again (t.holdQueue u k r))
      | (t, .error (.fail c)) => .next ((t.failQueue u k c true).endEvent u)
      | (t, .error .wait) => .next (again t)
  | _ => .next s

/-- A line of `n` bytes at a VA is held by a prepared group, as far as its translation shows now (R160). -/
def State.vaHeld (s : State) (ctx va n : Nat) : Bool :=
  match (s.translate ctx (va % 2 ^ 57) 0).2 with
  | .ok f _ _ _ _ => (linesOf (4096 * f + va % 4096) n).any s.lineHeld
  | _ => false

/-- The ring indices of a refill in flight. -/
def TaskQ.refilling (q : TaskQ) : List Nat :=
  if q.rfl then (List.range q.refillN).map (fun j => (q.rhead + 2 ^ 32 - q.refillN + j) % 2 ^ 32) else []

/-- A ring event of a queue may happen: no fault of it awaits an answer, no page of its ring is held, no peer's answer is awaited; a
refill's records have been written and their lines are not held; the entry a spill takes has been read by the refill (R379). -/
def State.ringReady (s : State) (u k : Nat) (refill : Bool) : Bool :=
  let q := (s.unit u).queue k
  let lo := q.ring.toNat % 2 ^ 57 / 4096
  q.faulted.isNone && !s.unitOpen (queueCode u k) &&
    !((List.range ((64 * q.size + 4095) / 4096)).any (fun i => s.pageHeld q.ctx (lo + i))) &&
    (if refill then q.refilling.all (fun i => !s.vaHeld q.ctx (q.entryVa i) 64 && q.spills.all (fun p => p.1 != i))
     else (q.spills.head?).all (fun p => q.refilling.all (fun i => i == p.1 || i % q.size != p.1 % q.size)))

/-- FRESOLVE_FAIL (R41, R44): every access bound to the record completes in error with the given cause, or the recorded one. -/
def execFresolveFail (s : State) : Out :=
  match fresolveOf s.ev 1 with
  | some (ring, seq, cause) =>
    match s.openRec ring seq with
    | none => .next s
    | some r =>
      let b : Option (Nat × Nat) := some (ring, seq)
      let c := if cause = 0 then r.cause else cause
      let ws := s.awaiting ring seq
      let dead : List (Nat × BitVec 32) := s.cores.flatMap (fun x =>
        (x.2.log.filter (fun e => e.2.state == 1 && e.2.record == b)).map (fun e => (e.2.req, e.2.mask)))
      let inDead (id lane : Nat) : Bool := dead.any (fun d => d.1 == id && d.2.getLsbD lane)
      let cores := s.cores.map (fun x => (x.1, { x.2 with
        log := x.2.log.filter (fun e => !(e.2.state == 1 && e.2.record == b))
        skid := x.2.skid.map (fun e => if e.2.state = 3 ∧ e.2.record = b then
          (e.1, { e.2 with state := 1, cause := 0, record := none, err := if e.2.err = 0 then c else e.2.err, failed := true }) else e)
        engstop := if x.2.engstop.record = b then { x.2.engstop with record := none, failed := c } else x.2.engstop }))
      let lost : List Nat := s.join.flatMap (fun u => u.2.queues.flatMap (fun q =>
        if q.2.faulted = b then q.2.pops ++ q.2.spills.map (fun p => p.2.2) else []))
      let reqs := s.reqs.map (fun q => (q.1, { q.2 with lanes := q.2.lanes.map (fun l =>
        if (l.stage = 3 ∧ l.frec = b) ∨ (l.stage = 7 ∧ l.frec = b ∧ inDead q.1 l.lane) ∨ (l.stage = 6 ∧ lost.contains q.1) then { l with stage := 4, cause := c, frec := none } else l) }))
      let join := s.join.map (fun u => (u.1, { u.2 with queues := u.2.queues.map (fun q =>
        if q.2.faulted = b then (q.1, q.2.fail c (r.access == 0)) else q) }))
      let units := (s.join.filter (fun u => u.2.queues.any (fun q => q.2.faulted == b))).map Prod.fst
      let launches := s.launches.map (fun l => if l.faulted = b then { l with faulted := none, failed := true } else l)
      let s2 : State := { s with cores := cores, reqs := reqs, join := join, launches := launches }
      let s3 := ({ s2 with joinSeen := (units.foldl State.seeUnit s).joinSeen } : State).closeRec r 1 c
      .next (units.foldl (fun t u => if (t.unit u).busy then t else t.endEvent u) (s3.answered ws))
  | none => .next s

/-! ### The register window (Table 12-10) -/

def bitIf (b : Bool) (i : Nat) : Nat := if b then 2 ^ i else 0

/-- PST. -/
def Port.pst (p : Port) : Nat :=
  bitIf p.created 63 + bitIf p.ovf 62 + bitIf p.apeer 61 + bitIf p.ahost 60 + bitIf p.apcie 59 + p.depth * 2 ^ 55 +
    p.msgs.length * 2 ^ 50 + p.ovfcnt * 2 ^ 42 + p.gen * 2 ^ 20 + p.ctx
/-- PSTAT. -/
def Pattern.pstat (p : Pattern) : Nat := bitIf p.claimed 63 + bitIf p.en 62 + bitIf p.dis 61 + p.gen * 2 ^ 20 + p.ctx
/-- QST. -/
def TaskQ.qst (q : TaskQ) : Nat × Nat :=
  (bitIf q.created 63 + bitIf q.err 62 + q.prio * 2 ^ 59 + q.logn * 2 ^ 55 + q.recs.length * 2 ^ 49 + bitIf q.rfl 48 +
    q.cause * 2 ^ 40 + q.gen * 2 ^ 20 + q.ctx, q.rtail * 2 ^ 32 + q.rhead)

/-- A word of the window. -/
def JoinUnit.window (x : JoinUnit) (off : Nat) : Nat :=
  if off < 0x800 then (x.port (off / 8)).pst
  else if off < 0x1000 then (x.pat ((off - 0x800) / 32)).w (off % 32 / 8)
  else if off < 0x1200 then (x.pat ((off - 0x1000) / 8)).pstat
  else if off < 0x1600 then (if off % 16 < 8 then (x.queue ((off - 0x1200) / 16)).qst.1 else (x.queue ((off - 0x1200) / 16)).qst.2)
  else if off = 0x1600 then x.stalecnt
  else if off = 0x1608 then x.fireseq
  else if 0x1610 ≤ off ∧ off < 0x1650 then mget 0 x.ptr ((off - 0x1610) / 8)
  else 0

/-- A write of the window: OVF alone, by a one (R383). -/
def JoinUnit.windowWrite (x : JoinUnit) (off : Nat) (v : W64) : JoinUnit :=
  if off < 0x800 ∧ v.getLsbD 62 then x.setPort (off / 8) { x.port (off / 8) with ovf := false } else x

end Sys2Proof.Machine
end

