-- ==== Sys2Proof/Machine/Launch.lean ====
section
/-! DEFINITION. Launch: the partitioning controller: launch entries, lot templates, tenants, admission and placement, and a gang's
start (R20, R52, R53, R172 to R177, R190, R196, R372, R373, R384 to R394, R415). -/

namespace Sys2Proof.Machine
open Sys2Proof

/-! ### Shapes of crews (Tables 6-1, 6-2, 12-6, 13-2 to 13-5) -/

/-- One gang of a crew as its role gives it. -/
structure GangPlan where
  role : Nat := 0
  rgang : Nat := 0
  nsl : Nat := 1
  regs : Nat := 16
  prio : Nat := 0
  entry : W64 := 0
  deriving DecidableEq, Repr

/-- The gangs and allotments of a crew. -/
structure CrewPlan where
  gangs : List GangPlan := []
  scratch : Nat := 0
  tiles : Nat := 0
  wslots : Nat := 0
  deriving DecidableEq, Repr

/-- Word i of a template. -/
def tw (t : List W64) (i : Nat) : Nat := (t.getD i 0).toNat
def tmplKind (t : List W64) : Nat := bitsOf (tw t 0) 63 62
/-- Crews in a member: a stand's, or 1. -/
def tmplStand (t : List W64) : Nat := if tmplKind t = 1 then bitsOf (tw t 0) 61 59 + 1 else 1
def tmplRoles (t : List W64) : Nat := bitsOf (tw t 0) 58 57 + 1
def tmplPort (t : List W64) : Nat := tw t 0 % 2 ^ 32
/-- Extents x, y, z. -/
def tmplExtent (t : List W64) (i : Nat) : Nat := bitsOf (tw t 1) (16 * i + 15) (16 * i) + 1
def tmplMembers (t : List W64) : Nat := tmplExtent t 0 * tmplExtent t 1 * tmplExtent t 2
def roleWord (t : List W64) (r : Nat) : Nat := tw t (5 + 2 * r)
def roleEntry (t : List W64) (r : Nat) : W64 := t.getD (4 + 2 * r) 0

/-- The crew a template describes. -/
def tmplPlan (t : List W64) : CrewPlan :=
  { gangs := (List.range (tmplRoles t)).flatMap (fun r =>
      let w := roleWord t r
      (List.range (bitsOf w 63 59)).map (fun i =>
        { role := r, rgang := i, nsl := bitsOf w 58 56 + 1, regs := 16 * (bitsOf w 55 53 + 1), prio := bitsOf w 52 50, entry := roleEntry t r }))
    scratch := bitsOf (tw t 0) 56 49
    tiles := 16 * bitsOf (tw t 0) 48 41
    wslots := 16 * bitsOf (tw t 0) 40 35 }

/-- The crew of one gang that a handler binding describes (Table 12-6). -/
def handlerPlan (w1 w2 : W64) : CrewPlan :=
  let h := w2.toNat
  { gangs := [{ nsl := bitsOf h 63 61 + 1, regs := 16 * (bitsOf h 60 58 + 1), prio := bitsOf h 57 55, entry := w1 }]
    scratch := bitsOf h 54 47
    tiles := 16 * bitsOf h 46 39
    wslots := 16 * bitsOf h 38 33 }

/-- The fields of a template keep R389: what Table 13-2 does not name, the ENTRY words of roles above NROLE among it, is 0. -/
def tmplOk (t : List W64) : Bool :=
  let w0 := tw t 0
  let p := tmplPlan t
  decide (tmplKind t ≤ 1) && (tmplKind t == 1 || bitsOf w0 61 59 == 0) && decide (bitsOf w0 34 32 = 0) && decide (tw t 1 < 2 ^ 48) &&
    decide (tw t 2 = 0) && decide (tw t 3 = 0) && decide (p.scratch ≤ 128) && decide (p.tiles ≤ 2048) && decide (p.wslots ≤ 512) &&
    decide (0 < p.gangs.length) && decide (p.gangs.length ≤ 16) &&
    (List.range 4).all (fun r =>
      if r < tmplRoles t then canonAligned (roleEntry t r).toNat 4 && decide (roleWord t r % 2 ^ 50 = 0) &&
        decide (bitsOf (roleWord t r) 63 59 ≤ 16)
      else roleWord t r == 0 && roleEntry t r == 0)

/-! ### Occupancy and quota (R177, R391) -/

/-- The tenant of a context (R390). -/
def State.tenant (s : State) (ctx : Nat) : Nat := bitsOf (s.ctx ctx).sched.toNat 63 60

/-- Registers of a list of plans in a partition, for a crew in crew slot cs (R174). -/
def CrewPlan.regsIn (p : CrewPlan) (cs q : Nat) : Nat :=
  ((List.range p.gangs.length).filter (fun g => (g + cs) % 4 == q)).foldl (fun a g => a + (p.gangs.getD g {}).regs) 0
def CrewPlan.gangsIn (p : CrewPlan) (cs q : Nat) : Nat :=
  ((List.range p.gangs.length).filter (fun g => (g + cs) % 4 == q)).length

/-- The lowest free crew slot (R393). -/
def Core.freeCrew (k : Core) : Option Nat := (List.range 16).find? (fun n => (mget? k.crews n).isNone)

/-- Granules of a core that are not FREE. -/
def Core.occupied (k : Core) : Nat := (k.gtag.filter (fun t => gtState t.2 != 0)).length

/-- R177 holds with the crew added in crew slot cs. -/
def Core.hasRoom (k : Core) (p : CrewPlan) (cs : Nat) : Bool :=
  let inPart (q : Nat) := k.gangs.filter (fun g => partOf g.1 == q)
  (List.range 4).all (fun q =>
      decide ((inPart q).foldl (fun a g => a + g.2.regs) (p.regsIn cs q) ≤ 1024) && decide ((inPart q).length + p.gangsIn cs q ≤ 16)) &&
    decide (k.occupied + p.scratch ≤ 128) &&
    decide (k.crews.foldl (fun a c => a + c.2.tiles) p.tiles ≤ 2048) &&
    decide (k.crews.foldl (fun a c => a + c.2.wslots) p.wslots ≤ 512)

/-- The tenant's quota holds on a core with the crew added (R391). -/
def State.quotaOk (s : State) (k : Core) (tenant : Nat) (p : CrewPlan) : Bool :=
  let w := (s.dreg (0x80 + 8 * tenant)).toNat
  let cs := k.crews.filter (fun c => s.tenant c.2.ctx == tenant)
  let gs := k.gangs.filter (fun g => cs.any (fun c => c.1 == g.2.cslot))
  decide (gs.length + p.gangs.length ≤ min 64 (bitsOf w 31 25)) &&
    decide (16 * min 256 (bitsOf w 24 16) ≥ gs.foldl (fun a g => a + g.2.regs) (p.gangs.foldl (fun a g => a + g.regs) 0)) &&
    decide (cs.foldl (fun a c => a + c.2.granules.length) p.scratch ≤ min 128 (bitsOf w 15 8))

/-- The crew fits on a core (R392, R393): an allocation waits 60 ns after the core's last. -/
def State.fits (s : State) (c tenant : Nat) (p : CrewPlan) : Bool :=
  let k := s.core c
  match k.freeCrew with
  | none => false
  | some cs => k.hasRoom p cs && s.quotaOk k tenant p &&
      (p.scratch == 0 || k.lastAlloc.all (fun t => decide (t + 240 ≤ s.clock)))

/-- A template the controller refuses (R389). -/
def State.tmplRefused (s : State) (ctx : Nat) (t : List W64) : Bool :=
  !tmplOk t || !({} : Core).hasRoom (tmplPlan t) 0 || !s.quotaOk {} (s.tenant ctx) (tmplPlan t)

/-! ### A gang's start (R176) -/

/-- The identity word (Table 6-4). -/
def identity (lotid spos core cslot cgang : Nat) (g : GangPlan) : Nat :=
  lotid % 2 ^ 32 * 2 ^ 32 + spos * 2 ^ 29 + g.role * 2 ^ 27 + g.rgang * 2 ^ 23 + cgang * 2 ^ 19 + core * 2 ^ 12 +
    (cgang + cslot) % 4 * 2 ^ 10 + g.nsl * 2 ^ 6 + cslot * 4

/-- A gang in the state of Table 6-3, which may issue from the next clock. -/
def startGang (g : GangPlan) (cslot cgang now : Nat) (args : List W64) (s4 s5 : W64) : Gang :=
  { cslot := cslot
    cgang := cgang
    role := g.role
    rgang := g.rgang
    prio := g.prio
    regs := g.regs
    nsl := g.nsl
    s := (List.range 6).map (fun i => (i, if i < 4 then args.getD i 0 else if i = 4 then s4 else s5))
    rng := lanesOf (Num.rngSeed 0)
    slices := (List.range g.nsl).map (fun _ => { pc := g.entry })
    parts := [(0, { next := now + 1 })] }

/-- A gang of a restored crew (R415): frozen with TCAUSE 0x79, zero registers and a zero frame. -/
def restoredGang (g : GangPlan) (cslot cgang now : Nat) : Gang :=
  { startGang g cslot cgang now [] 0 0 with
    frozen := true
    restored := true
    frame := { tcause := 0x79 } }

/-- The lowest free gang slot of a partition. -/
def Core.freeSlotIn (k : Core) (q : Nat) : Nat :=
  ((List.range 16).find? (fun i => (mget? k.gangs (16 * q + i)).isNone)).getD 0 + 16 * q

/-- Gangs take their slots in order of CGANG (R174, R393). -/
def Core.seat (k : Core) (cs : Nat) (gs : List (Nat × Gang)) : Core :=
  gs.foldl (fun k g => { k with gangs := mset k.gangs (k.freeSlotIn ((g.1 + cs) % 4)) g.2 }) k

/-- An allocation of n granules (R52, R53): the lowest FREE ones, OWNED under the next generation; none for n = 0. -/
def Core.allocate (k : Core) (n now : Nat) : Core × List Nat × Nat :=
  if n = 0 then (k, [], 4096)
  else
    let gen := (k.gen + 1) % 4096
    let gr := ((List.range 128).filter (fun i => gtState (k.tag i) == 0)).take n
    ({ k with
        gen := gen
        lastAlloc := some now
        gtag := gr.foldl (fun m i => mset m i (BitVec.ofNat 32 (2 ^ 30 + gen * 2 ^ 18))) k.gtag }, gr, gen)

/-- What a crew is admitted with. -/
structure Seat where
  ctx : Nat
  lotid : Nat
  lot : Nat := 0
  standN : Nat := 0
  spos : Nat := 0
  stand : Nat := 0
  args : List W64 := []
  s4 : W64 := 0
  restored : Bool := false
  deriving DecidableEq, Repr

/-- The window image of a context is to be read where the core has no copy of it (R20). -/
def State.wantImage (s : State) (c ctx : Nat) : State :=
  let k := s.core c
  if (mget? k.copies ctx).isSome then s
  else (s.setCore c { k with copies := mset k.copies ctx { loading := true } }).later .windowImageReadDone (.entry c ctx)

/-- A crew is placed on a core: crew slot, allocation, gangs (R393). -/
def State.placeCrew (s : State) (c : Nat) (p : CrewPlan) (x : Seat) : State :=
  let k := s.core c
  let cs := k.freeCrew.getD 0
  let (k1, gr, gen) := k.allocate p.scratch s.clock
  let w : Crew := { ctx := x.ctx, lotid := x.lotid, lot := x.lot, standN := x.standN, spos := x.spos, stand := x.stand,
                    ngangs := p.gangs.length, granules := gr, gen := gen, tiles := p.tiles, wslots := p.wslots,
                    phase := if x.restored then .restoring else .running }
  let gs := (List.range p.gangs.length).map (fun g =>
    let a := p.gangs.getD g {}
    (g, if x.restored then restoredGang a cs g s.clock
        else startGang a cs g s.clock x.args x.s4 (BitVec.ofNat 64 (identity x.lotid x.spos c cs g a))))
  let k2 := k1.seat cs gs
  (s.setCore c { k2 with crews := mset k2.crews cs w }).wantImage c x.ctx

/-! ### Placement (R393, R394) -/

/-- The core a crew takes: fewest gangs, then most free granules, then the lowest number. -/
def State.bestCore (s : State) (cs : List Nat) : Option Nat :=
  let better (a b : Nat) : Bool :=
    let x := s.core a
    let y := s.core b
    decide (y.gangs.length < x.gangs.length) || (y.gangs.length == x.gangs.length && decide (y.occupied < x.occupied))
  cs.foldl (fun o c => match o with | none => some c | some b => if better b c then some c else some b) none

/-- The core of a single crew; a handler's is in its pattern's cluster where one fits there. -/
def State.coreFor (s : State) (tenant : Nat) (p : CrewPlan) (cluster : Option Nat) : Option Nat :=
  let all := (List.range 128).filter (fun c => s.fits c tenant p)
  match cluster with
  | some u => match s.bestCore (all.filter (fun c => c / 8 == u)) with
    | some c => some c
    | none => s.bestCore all
  | none => s.bestCore all

/-- A cluster holds a resident stand. -/
def State.hasStand (s : State) (u : Nat) : Bool :=
  (List.range 8).any (fun i => (s.core (8 * u + i)).crews.any (fun w => w.2.standN != 0))

/-- The cluster of a stand with crews at these positions. -/
def State.clusterFor (s : State) (tenant : Nat) (p : CrewPlan) (at_ : List Nat) : Option Nat :=
  let fit := (List.range 16).filter (fun u => !s.hasStand u && at_.all (fun i => s.fits (8 * u + i) tenant p))
  let load (u : Nat) : Nat := (List.range 8).foldl (fun a i => a + (s.core (8 * u + i)).gangs.length) 0
  fit.foldl (fun o u => match o with | none => some u | some b => if load u < load b then some u else some b) none

/-! ### Firings at the controller (R384, R385) -/

/-- A dropped launch is counted, and reported when LOVF was 0 (R385, R388). -/
def State.dropLaunch (s : State) (ctx pattern : Nat) : State :=
  let w := (s.dreg 0x60).toNat
  let t := s.setDreg 0x60 (BitVec.ofNat 64 (2 ^ 63 + satInc 32 (w % 2 ^ 32)))
  if w.testBit 63 then t else t.tellOwner (pattern / 64) ctx 0x7B pattern 1 pattern

/-- LTW0 is read for the message of a dropped lot firing (R385), as a template is read (R388): it waits for fills, migrations and held lines,
but a fault ends it with no record and no message. -/
def State.peekPort (s : State) (ctx va lotid : Nat) : State :=
  s.addReq { kind := .rawLoad, core := 0x9000, slot := peekSlot, ctx := ctx, opc := 0x10, words := [BitVec.ofNat 64 lotid], born := s.clock,
             lanes := [{ lane := 0, ia := BitVec.ofNat 64 (va % 2 ^ 57), size := 8 }] }

/-- Launch entries held (Table 13-1). -/
def State.entries (s : State) : Nat := (s.launches.filter (fun l => l.kind != 2)).length

/-- FIRING_AT_CONTROLLER (R384, R385): the firing takes the next LOTID, and an entry where one is free. -/
def execFiringAtController (s : State) : Out :=
  match s.ev with
  | .fire kind ctx pattern w1 w2 pay =>
    let id := s.lotid
    let s1 : State := { s with lotid := if (id + 1) % 2 ^ 32 = 0 then 1 else (id + 1) % 2 ^ 32 }
    if s.entries < 4096 then
      .next { s1 with launches := s1.launches ++ [{ kind := kind, tenant := s.tenant ctx, ctx := ctx, pattern := pattern, lotid := id,
                                                    payload := pay, w1 := w1, w2 := w2 }] }
    else if kind = 1 then .next ((s1.peekPort ctx w1.toNat id).dropLaunch ctx pattern)
    else .next (s1.dropLaunch ctx pattern)
  | _ => .next s

/-! ### Template reads (R387 to R389) -/

/-- The template at an address, read as a TAG 0 load of a context in pieces of 32 bytes. An unresolvable cause refuses it. -/
def State.readTmpl (s : State) (ctx va core : Nat) : State × Except RingRes (List W64) :=
  [0, 32, 64].foldl (fun (a : State × Except RingRes (List W64)) i =>
    match a.2 with
    | .error e => (a.1, .error e)
    | .ok ws => match a.1.unitRead ctx ((va + i) % 2 ^ 57) 32 core false with
      | (t, .ok (bs, bad)) =>
        if bad then (t, .error (.fail 0x20))
        else (t, .ok (ws ++ (List.range 4).map (fun j => BitVec.ofNat 64 (wordAt bs (8 * j) 8))))
      | (t, .error r) => (t, .error r)) (s, .ok [])

/-- The head of a tenant's lot queue. -/
def State.lotHead (s : State) (t : Nat) : Option Launch := s.launches.find? (fun l => l.kind == 1 && l.tenant == t)
/-- The head of a tenant's handler queue, restore requests among it. -/
def State.handlerHead (s : State) (t : Nat) : Option Launch := s.launches.find? (fun l => l.kind != 1 && l.tenant == t)

/-- Replace an entry, or take it out. -/
def State.setLaunch (s : State) (l : Launch) (n : Option Launch) : State :=
  { s with launches := match n with
      | some x => s.launches.map (fun y => if y = l then x else y)
      | none => s.launches.erase l }

/-- A template read can return: its entry heads its tenant's lot queue, no answer is awaited, and no page of it is held. -/
def State.tmplDue (s : State) (t : Nat) : Bool :=
  match s.lotHead t with
  | some l => !l.read && l.faulted.isNone && !s.unitOpen (0x9000 + l.pattern) && !s.pageHeld l.ctx (l.w1.toNat % 2 ^ 57 / 4096) &&
      !s.pageHeld l.ctx ((l.w1.toNat + 95) % 2 ^ 57 / 4096) && [0, 32, 64].all (fun i => !s.vaHeld l.ctx (l.w1.toNat + i) 32)
  | none => false

/-- TEMPLATE_READ_DONE (R388, R389). -/
def execTemplateReadDone (s : State) : Out :=
  match s.ev with
  | .launch t =>
    match s.lotHead t, s.tmplDue t with
    | some l, true =>
      let refuse (u : State) : State := ((u.dropUnit (0x9000 + l.pattern)).setLaunch l none).dropLaunch l.ctx l.pattern
      if l.failed then .next (refuse s)
      else match s.readTmpl l.ctx l.w1.toNat (0x9000 + l.pattern) with
        | (u, .error (.fault r)) => .next (u.setLaunch l (some { l with faulted := some r }))
        | (u, .error (.fail _)) => .next (refuse u)
        | (u, .error _) => .next u
        | (u0, .ok ws) =>
          let u := u0.dropUnit (0x9000 + l.pattern)
          if u.tmplRefused l.ctx ws then .next ((u.setLaunch l none).refuseMessage l.ctx l.lotid (tmplPort ws))
          else
            let lot : Lot := { ctx := l.ctx, lotid := l.lotid, left := tmplMembers ws, cport := tmplPort ws }
            .next ({ u.setLaunch l (some { l with tmpl := ws, read := true, lot := u.lotRec }) with
              lots := mset u.lots u.lotRec lot, lotRec := u.lotRec + 1 })
    | _, _ => .next s
  | _ => .next s

/-! ### Admission (R392, R415) -/

/-- The member index of a lot's next member (Table 6-3). -/
def memberIndex (t : List W64) (n : Nat) : W64 :=
  BitVec.ofNat 64 (n / (tmplExtent t 0 * tmplExtent t 1) * 2 ^ 32 + n / tmplExtent t 0 % tmplExtent t 1 * 2 ^ 16 + n % tmplExtent t 0)

/-- A stand's crews take positions of a cluster: 0 to n − 1, or those of a saved stand. -/
def State.placeStand (s : State) (u n : Nat) (at_ : List Nat) (p : CrewPlan) (x : Seat) : State :=
  let t := at_.foldl (fun t i => t.placeCrew (8 * u + i) p { x with standN := n, spos := i, stand := t.standNo }) s
  { t with standNo := t.standNo + 1 }

/-- Admit a handler's gang. -/
def State.admitHandler (s : State) (l : Launch) : Option State :=
  let p := handlerPlan l.w1 l.w2
  (s.coreFor l.tenant p (some (l.pattern / 64))).map (fun c =>
    (s.placeCrew c p { ctx := l.ctx, lotid := l.lotid, args := l.payload }).setLaunch l none)

/-- Admit the next member of a lot. -/
def State.admitMember (s : State) (l : Launch) : Option State :=
  if !l.read then none
  else
    let p := tmplPlan l.tmpl
    let x : Seat := { ctx := l.ctx, lotid := l.lotid, lot := l.lot, args := l.payload, s4 := memberIndex l.tmpl l.next }
    let done (t : State) : State := t.setLaunch l (if tmplMembers l.tmpl ≤ l.next + 1 then none else some { l with next := l.next + 1 })
    if tmplKind l.tmpl = 0 then (s.coreFor l.tenant p none).map (fun c => done (s.placeCrew c p x))
    else
      let n := tmplStand l.tmpl
      (s.clusterFor l.tenant p (List.range n)).map (fun u => done (s.placeStand u n (List.range n) p x))

/-- The lot a restored crew belongs to, where the controller still holds it. -/
def State.lotOf (s : State) (ctx lotid : Nat) : Nat :=
  ((s.lots.find? (fun l => l.2.ctx == ctx && l.2.lotid == lotid)).map Prod.fst).getD 0

/-- A request that restores a crew at position i of the stand that `l` restores. -/
def Launch.sibling (l x : Launch) (i : Nat) : Bool :=
  x.kind == 2 && x.ctx == l.ctx && x.lotid == l.lotid && x.w1 == l.w1 && x.spos == i

/-- The saved stand that a request restores, once each crew of it that was saved has its request (R195, R196, R415): its number and
positions. Where none of that lot is known to be saved here, a stand of the whole template (number 0). -/
def State.standToRestore (s : State) (l : Launch) : Option (Nat × List Nat) :=
  let mine := s.saved.filter (fun x => x.ctx == l.ctx && x.lotid == l.lotid)
  let at_ (n : Nat) : List Nat := (mine.filter (fun x => x.stand == n)).map (·.spos)
  let asked (is : List Nat) : Bool := is.all (fun i => s.launches.any (fun x => l.sibling x i))
  let resident (n : Nat) : Bool := s.cores.any (fun x => x.2.crews.any (fun w => w.2.standN != 0 && w.2.stand == n))
  if mine.isEmpty then (if asked (List.range (tmplStand l.tmpl)) then some (0, List.range (tmplStand l.tmpl)) else none)
  else ((mine.map (·.stand)).find? (fun n => !resident n && (at_ n).contains l.spos && asked (at_ n))).map (fun n => (n, at_ n))

/-- Notice 0x7E to the supervisor of a core (R415), for the slot of the restored crew's gang 0: that of the admission of the record,
where several wait to be unparked. -/
def State.restoreNotice (s : State) (c spos : Nat) (l : Launch) (old : List Nat) : State :=
  let k := s.core c
  let cs := ((k.crews.find? (fun w => w.2.phase == .restoring && w.2.lotid == l.lotid && w.2.ctx == l.ctx && w.2.spos == spos &&
    !old.contains w.1)).map Prod.fst).getD 0
  let slot := ((k.gangs.find? (fun g => g.2.cslot == cs && g.2.cgang == 0)).map Prod.fst).getD 0
  s.notice c slot 0x7E [BitVec.ofNat 64 (l.ctx * 2 ^ 32 + spos * 2 ^ 28 + cs * 2 ^ 24 + slot * 2 ^ 8 + 0x7E), 0, l.record,
    BitVec.ofNat 64 l.lotid, BitVec.ofNat 64 s.clock, 0, 0, 0]

/-- Admit a restored crew or stand (R196). -/
def State.admitRestore (s : State) (l : Launch) : Option State :=
  let p := tmplPlan l.tmpl
  let x : Seat := { ctx := l.ctx, lotid := l.lotid, lot := s.lotOf l.ctx l.lotid, restored := true }
  if tmplKind l.tmpl = 0 then
    (s.coreFor l.tenant p none).map (fun c => ((s.placeCrew c p x).setLaunch l none).restoreNotice c 0 l ((s.core c).crews.map Prod.fst))
  else
    (s.standToRestore l).bind (fun st => (s.clusterFor l.tenant p st.2).map (fun u =>
      let rs := st.2.filterMap (fun i => s.launches.find? (fun x => l.sibling x i))
      let t := { s with saved := s.saved.filter (fun y => !(y.ctx == l.ctx && y.lotid == l.lotid && y.stand == st.1)) }
      rs.foldl (fun t r => (t.setLaunch r none).restoreNotice (8 * u + r.spos) r.spos r ((s.core (8 * u + r.spos)).crews.map Prod.fst))
        (t.placeStand u (tmplStand l.tmpl) st.2 p x)))

/-- What tenant t is admitted next: its handler head, else the next member of its lot head. -/
def State.admitTenant (s : State) (t : Nat) : Option State :=
  let h := (s.handlerHead t).bind (fun l => if l.kind = 2 then s.admitRestore l else s.admitHandler l)
  match h with
  | some u => some u
  | none => (s.lotHead t).bind (fun l => s.admitMember l)

/-- The admission of this clock: tenants in rotation from TROT. -/
def State.admission? (s : State) : Option State :=
  ((List.range 16).map (fun i => (s.trot + i) % 16)).findSome? (fun t =>
    (s.admitTenant t).map (fun u => { u with trot := (t + 1) % 16 }))

/-- ADMISSION (R392): at most one in a clock, over what was free as the clock began. -/
def execAdmission (s : State) : Out := .next { s.admission?.getD s with admitting := false }

/-! ### What follows an admission or an end -/

/-- The image's words are in HBM. -/
def State.imagePa (s : State) (ctx : Nat) : Nat := bitsOf (s.ctx ctx).cxcfg.toNat 54 11 * 4096

/-- A word of a context's window image with the register's reserved bits 0; a poisoned one is free. `v`: it is the word with V of a
register whose words, from `own` on, are not to be poisoned (R20). -/
def State.imageWord (s : State) (ctx ofs : Nat) (mask : W64) (v : Bool) (own n : Nat) : W64 :=
  let pa := s.imagePa ctx + ofs
  let w := if s.poisoned pa 8 then Config.freeW64 s.free ofs else BitVec.ofNat 64 (s.rd pa 8)
  let m := if v ∧ s.poisoned (s.imagePa ctx + own) n then mask &&& 0x7FFFFFFFFFFFFFFF else mask
  if !inHbm (s.imagePa ctx) 1024 then 0 else w &&& m

/-- The copy of an image: windows at 2N and 2N + 1, apertures at 64 + N. -/
def State.imageCopy (s : State) (ctx : Nat) : CtxCopy :=
  { words := (List.range 32).map (fun i => (i, s.imageWord ctx (8 * i) (if i % 2 = 0 then 0xFFFFFFFFFFFFFE00 else 0xFDFFFFFFFFFFF000)
        (i % 2 == 0) (8 * i) 16)) ++
      (List.range 63).map (fun i => (65 + i, s.imageWord ctx (0x108 + 8 * i) 0x800FFFFFC0000000 true (0x108 + 8 * i) 8)) }

/-- WINDOW_IMAGE_READ_DONE (R19, R20): the words take effect after 4 clocks, before which no gang of the context issues. Poison is
counted (R440), one uncorrectable error of HBM for each poisoned word. -/
def execWindowImageReadDone (s : State) : Out :=
  match s.ev with
  | .entry c ctx =>
    match mget? (s.core c).copies ctx with
    | none => .next s
    | some w =>
      if !w.loading then .next s
      else
        let bad := if inHbm (s.imagePa ctx) 1024 then
            ((List.range 96).filter (fun i => i != 32 && s.poisoned (s.imagePa ctx + 8 * i) 8)) else []
        let s1 := s.setCore c { s.core c with copies := mset (s.core c).copies ctx { s.imageCopy ctx with from_ := s.clock + 4 } }
        .next (bad.foldl (fun t i => t.rasUncorrected 0 (s.imagePa ctx + 8 * i)) s1).bump
  | _ => .next s

/-- A granule is to be zeroed: RETIRING with nothing inbound (R53). -/
def Core.zeroDue (k : Core) (g : Nat) : Bool :=
  let t := k.tag g
  gtState t == 2 && mget 0 k.icnt (gtGen t) == 0

/-- GRANULE_ZEROED (R53): every word of it 0, its tag fields 0, and it is FREE. -/
def execGranuleZeroed (s : State) : Out :=
  match s.ev with
  | .entry c g =>
    let k := s.core c
    if !k.zeroDue g then .next s
    else .next (s.setCore c { k with
      gtag := mdel k.gtag g
      scratch := k.scratch.filter (fun b => b.1 / 4096 != g)
      scrPoison := k.scrPoison.filter (fun w => w / 512 != g) })
  | _ => .next s

end Sys2Proof.Machine
end

