-- ==== Sys2Proof/Machine/Preempt.lean ====
section
/-! DEFINITION. Preempt: trap frames and asynchronous traps (R80, R400 to R402, R406, R408, R454), ENGSTOP and the pre-emption of
crews (R193 to R196, R288, R409 to R416, R422). -/

namespace Sys2Proof.Machine
open Sys2Proof

/-! ### Trap frames (R401, R402, R406, R408) -/

/-- Every fixed-latency operation of the gang has completed. -/
def Gang.fixedDone (g : Gang) (now : Nat) : Bool :=
  g.pend.isEmpty && g.slices.all (fun x => x.latches.all (fun l => decide (l.ready ≤ now)))

/-- Latch j of a lane as the frame takes it: a lane the operation did not write is undefined. -/
def Gang.latchLane (g : Gang) (j l k : Nat) : W32 :=
  match (g.slice (l / 4)).latches[j]? with
  | none => 0
  | some x => if x.mask.getLsbD l then laneGet x.vals l else Config.freeW32 k (32 * j + l)

/-- The frame can be written. -/
def State.frameDue (s : State) (c slot : Nat) : Bool :=
  match s.gang? c slot with
  | some g => g.frozen && g.frameOpen && g.fixedDone s.clock
  | none => false

/-- TRAP_FRAME_WRITE (R401): the latch image, then the notice or interrupt. -/
def execTrapFrameWrite (s : State) : Out :=
  match s.ev with
  | .gang c slot =>
    if !s.frameDue c slot then .next s
    else
      let g := s.gang c slot
      let f := { g.frame with lv := (List.range 4).map (fun j => lanesOf (fun l => g.latchLane j l s.free)), lx1 := g.lx1 }
      .next ((s.setGang c slot { g with frame := f, frameOpen := false }).bump.tellTrap c slot f)
  | _ => .next s

/-! ### Asynchronous traps -/

/-- The part of a gang whose bundle would issue next (R399): one that waits for nothing before one that waits, then the earliest clock,
then the order of selection (R397), then the lower slice. -/
def Gang.nextPart (g : Gang) (now : Nat) : Nat :=
  let key (p : Part) : Nat := (if p.wait == .none && !p.macq then 0 else 2 ^ 80) + max now p.next * 2 ^ 16 + (65535 - p.age)
  (g.parts.foldl (fun (b : Option (Nat × Nat)) p => match b with
    | none => some (p.1, key p.2)
    | some y => if key p.2 < y.2 then some (p.1, key p.2) else some y) none).elim 0 Prod.fst

/-- A trap of no slot at the gang's next bundle boundary. -/
def State.boundaryTrap (s : State) (c slot : Nat) (t : Trap) : State :=
  s.takeTrapAt c slot t ((s.gang c slot).slice ((s.gang c slot).nextPart s.clock)).pc

/-- The gang can take an asynchronous trap. -/
def Gang.canTrap (g : Gang) : Bool := !g.frozen && !g.ended

/-- ASYNC_ERROR_TAKEN (R80, R400): a word of the gang's state goes bad, and the next bundle reads it: its operands, and so the results of
its operations, are undefined (log entry 45). The error, like one that arises while the gang is frozen, is pending then, and is taken
at the bundle boundary. A bad word counts for the vector registers where it lies in them (R440). -/
def execAsyncErrorTaken (s : State) : Out :=
  match s.ev with
  | .gang c slot =>
    match s.gang? c slot with
    | none => .next s
    | some g =>
      if g.ended then .next s
      else if g.asyncErr then
        (if g.frozen then .next s
         else .next ((s.setGang c slot { g with asyncErr := false }).boundaryTrap c slot { tcause := 0x78, dcause := 0x20 }))
      else
        let s1 := if Config.freeBit s.free 440 then s.rasUncorrected 6 (c + (Config.freeW32 s.free 440).toNat * 256) else s
        .next (s1.setGang c slot (if g.frozen then { g with asyncErr := true } else { g with bad := true })).bump
  | _ => .next s

/-- WATCHPOINT_TRAP (R454): the merged matches that have arrived. -/
def execWatchpointTrap (s : State) : Out :=
  match s.ev with
  | .gang c slot =>
    match s.gang? c slot with
    | none => .next s
    | some g => match g.watch with
      | some (i, st, n) =>
        if !g.canTrap then .next s
        else .next ((s.setGang c slot { g with watch := none, watchDue := false }).boundaryTrap c slot
          { tcause := 0x73, info := i + (if st then 8 else 0) + n * 256 })
      | none => .next s
  | _ => .next s

/-! ### ENGSTOP (R409, R422) -/

def State.eng (s : State) (c : Nat) : Engstop := (s.core c).engstop
def State.setEng (s : State) (c : Nat) (e : Engstop) : State := s.setCore c { s.core c with engstop := e }

/-- The gang slot and crew slot that SELGANG names: V set, a slot other than 63 that holds a gang. -/
def State.engSel (s : State) (c : Nat) : Option (Nat × Nat) :=
  let w := (s.core c).selgang
  let slot := w.toNat % 64
  if !w.getLsbD 63 || slot == 63 then none else (s.gang? c slot).map (fun g => (slot, g.cslot))

/-- The area a command names: VA[56:8]. -/
def engArea (v : W64) : W64 := v &&& 0x01FFFFFFFFFFFF00

/-- A command begins: BUSY from here on, and what its notice will say of the crew. -/
def State.engBegin (s : State) (c cmd : Nat) (v : W64) : State :=
  let (slot, cs) := (s.engSel c).getD (0, 0)
  let info := if (s.engSel c).isSome ∧ cmd ≠ 6 then s.noticeWords c slot 0x7D 0 0 0 else [0x7D, 0, 0, 0, 0, 0, 0, 0]
  let old := s.eng c
  s.setEng c { cmd := cmd, slot := slot, cslot := cs, addr := engArea v, busy := true, res := old.res, info := info,
               crews := if (s.engSel c).isSome then [(c, cs)] else [], began := s.clock, seed := s.free, cstop := old.cstop, mstop := old.mstop }

/-- The crew slot the command under way on a core was given. -/
def State.engCrew (s : State) (c : Nat) : Option Nat := (s.eng c).crews.head?.map Prod.snd

/-- A command is about to finish with RES and a cause. -/
def State.engFinish (s : State) (c out cause : Nat) : State :=
  s.setEng c { s.eng c with finished := true, out := out, cause := cause, record := none }

/-- A command under way waits for nothing but its own accesses. -/
def Engstop.running (e : Engstop) (cmd : Nat) : Bool := e.busy && e.cmd == cmd && !e.finished && e.record.isNone

/-- Run a command: from its write, unless one is under way, or further. -/
def onEng (s : State) (cmd : Nat) (f : Nat → State → State) : Out :=
  match s.ev with
  | .sysw c _ _ v => if (s.eng c).busy then .next s else .next (f c (s.engBegin c cmd v))
  | .core c => if (s.eng c).running cmd then .next (f c s) else .next s
  | _ => .next s

/-- A command can end: after the clock in which it started, and once every earlier notice of the core has been pushed or refused. -/
def State.engEnding (s : State) (c : Nat) : Bool :=
  let e := s.eng c
  e.busy && e.finished && decide (e.began < s.clock) &&
    ((s.core c).notices.isEmpty || !s.agenda.any (fun p => p.op == .queuePush && p.arg == .core c))

/-- ENGSTOP_COMMAND_DONE (R422): BUSY clears, RES takes its value, and notice 0x7D is pushed, in one; behind notices that the queue has
refused it is held with them (R406). -/
def execEngstopCommandDone (s : State) : Out :=
  match s.ev with
  | .core c =>
    let e := s.eng c
    if !s.engEnding c then .next s
    else
      let words := [e.info.getD 0 0, 0, BitVec.ofNat 64 (e.cause * 256 + e.out * 16 + e.cmd), e.info.getD 3 0, BitVec.ofNat 64 s.clock, 0, 0, 0]
      let t := (s.setEng c { e with busy := false, finished := false, res := e.out }).holdNotice c e.slot 0x7D words
      .next (if (s.core c).notices.isEmpty then t.pushNotice c else t)
  | _ => .next s

/-! ### The crew of a command -/

/-- The gangs of a crew. -/
def State.crewGangs (s : State) (c cs : Nat) : List (Nat × Gang) := (s.core c).gangs.filter (fun g => g.2.cslot == cs)
/-- A gang slot of the crew. -/
def State.inCrew (s : State) (c cs slot : Nat) : Bool := (s.crewGangs c cs).any (fun g => g.1 == slot)
/-- The requests the crew's gangs have issued. -/
def State.crewReqs (s : State) (c cs : Nat) : List (Nat × Req) :=
  s.reqs.filter (fun r => r.2.core == c && r.2.peer.isNone && s.inCrew c cs r.2.slot)
def State.crewSkid (s : State) (c cs : Nat) : List (Nat × Skid) := (s.core c).skid.filter (fun e => s.inCrew c cs e.2.slot)
/-- The crew's mill commands: in the queue, or still to enter it with the grant (R416). -/
def State.crewCmds (s : State) (c cs : Nat) : List MillCmd :=
  let m := (s.core c).mill
  m.queue.filter (fun q => s.inCrew c cs q.slot) ++ (m.resume.filter (fun x => s.inCrew c cs x.slot)).flatMap (·.cmds)

/-- The part of a crew's mill state that its MPROG and its batch are: in the mill, or still to enter it (R416). -/
def State.crewBack (s : State) (c cs : Nat) : MillBack :=
  let m := (s.core c).mill
  match m.resume.find? (fun x => s.inCrew c cs x.slot) with
  | some x => x
  | none =>
    let mine := m.owner.any (s.inCrew c cs)
    let head := m.head.any (fun q => s.inCrew c cs q.slot)
    { slot := 0, own := mine, cmds := [], group := if head then m.group else 0, tile := if head then m.tile else 0,
      issued := if mine then m.issued else 0, cause := if mine || !(s.crewCmds c cs).isEmpty then m.batchCause else 0 }

/-- Change the phase of a crew. -/
def State.setPhase (s : State) (c cs : Nat) (p : CrewPhase) : State := s.setCrew c cs { s.crew c cs with phase := p }

/-- ENGSTOP_CSTOP (R409): the selected gang's skidder entries stop, or run again. -/
def execEngstopCstop (s : State) : Out :=
  match s.ev with
  | .sysw c _ _ v =>
    let stop := v.getLsbD 1
    let s1 := s.setEng c { s.eng c with cstop := stop }
    let w := (s.core c).selgang
    let slot := w.toNat % 64
    if !w.getLsbD 63 then .next s1
    else
      let k := s1.core c
      let go := (s.crew c (s.gang c slot).cslot).phase == .running
      .next (s1.setCore c { k with skid := k.skid.map (fun e =>
        if e.2.slot ≠ slot then e
        else if stop ∧ e.2.state = 1 then (e.1, { e.2 with state := 2 })
        else if !stop ∧ go ∧ e.2.state = 2 then (e.1, { e.2 with state := 1 })
        else e) })
  | _ => .next s

/-- ENGSTOP_MSTOP (R409, R324): the mill stops at its next step boundary, or resumes from MPROG. -/
def execEngstopMstop (s : State) : Out :=
  match s.ev with
  | .sysw c _ _ v =>
    .next ((s.setEng c { s.eng c with mstop := v.getLsbD 0 }).millStop c (v.getLsbD 0))
  | _ => .next s

/-! ### Quiesce (R194, R288, R410) -/

/-- The lowest free operand-log entry. -/
def Core.freeLog (k : Core) : Option Nat := freeSlot 256 k.log

/-- A pending QPOP leaves its unit and becomes a READY log entry, held until its gang resumes. -/
def State.withdrawOne (s : State) (c id : Nat) : State :=
  match s.req id, (s.core c).freeLog with
  | some r, some e =>
    let join := s.join.map (fun u => (u.1, { u.2 with queues := u.2.queues.map (fun q =>
      (q.1, { q.2 with pops := q.2.pops.filter (· != id) })) }))
    let t : State := { s with
      join := join
      agenda := s.agenda.filter (fun p => !(p.op == .queuePopRequest && p.arg == .req id 0)) }
    let k := t.core c
    let ent : LogEntry := { state := 2, slot := r.slot, flag := r.flag, req := id, mask := 1, held := true }
    (t.setCore c { k with log := mset k.log e ent }).setReq id { r with lanes := r.lanes.map (fun l => { l with stage := 7, frec := none }) }
  | _, _ => s

/-- QPOPs of a crew that have taken no record. -/
def State.pendingPops (s : State) (c cs : Nat) : List Nat :=
  ((s.crewReqs c cs).filter (fun r => r.2.kind == .qpop && r.2.lanes.all (fun l => l.stage == 1 || l.stage == 6))).map Prod.fst

def State.withdraw (s : State) (c cs : Nat) : State := (s.pendingPops c cs).foldl (fun t id => t.withdrawOne c id) s

/-- Quiesce one crew: parts stop, gangs freeze, engines stop, QPOPs are withdrawn, gangs leave the MACQ queue. -/
def State.quiesceCrew (s : State) (c cs : Nat) : State :=
  let gs := s.crewGangs c cs
  let k := s.core c
  let mine (slot : Nat) : Bool := gs.any (fun g => g.1 == slot)
  let stop := k.mill.owner.any mine || k.mill.queue.any (fun q => mine q.slot)
  let w := s.crew c cs
  let w1 : Crew := { w with
    phase := .quiescing
    queued := k.mill.waiters.filter (fun x => mine x.1)
    standAt := (s.standCrews c cs).map (fun p => (p.1, p.2.1, p.2.2, (s.crew p.2.1 p.2.2).alloc)) }
  let m : Mill := { k.mill with
    state := if stop then 2 else k.mill.state
    waiters := k.mill.waiters.filter (fun x => !mine x.1) }
  let skid := k.skid.map (fun e => if mine e.2.slot && e.2.state == 1 then (e.1, { e.2 with state := 2 }) else e)
  let s1 := (s.setCore c { k with mill := m, skid := skid }).setCrew c cs w1
  let s2 := gs.foldl (fun t g => if g.2.canTrap then t.boundaryTrap c g.1 { tcause := 0x79 } else t) s1
  s2.withdraw c cs

/-- ENGSTOP_QUIESCE (R410): the crew, or every crew of its stand. -/
def execEngstopQuiesce (s : State) : Out :=
  match s.ev with
  | .core _ => .next s
  | _ => onEng s 1 (fun c s =>
      match s.engCrew c with
      | none => s.engFinish c 1 0
      | some cs =>
        if (s.crew c cs).phase != .running then s.engFinish c 1 0
        else
          let crews := (s.standCrews c cs).map (fun p => (p.2.1, p.2.2))
          let s1 := crews.foldl (fun t x => t.quiesceCrew x.1 x.2) s
          s1.setEng c { s1.eng c with crews := crews })

/-- The log entry of a request that is FAULTED or withdrawn. -/
def Core.stoppedEntry (k : Core) (id : Nat) : Option Nat :=
  (k.log.find? (fun e => e.2.req == id && (e.2.state == 1 || (e.2.state == 2 && e.2.held)))).map Prod.fst

/-- A request is FAULTED, withdrawn, or held behind one that is. -/
def State.stoppedReq (s : State) (c cs id : Nat) : Bool :=
  (s.crewGangs c cs).any (fun g => (s.behind c g.1 (s.core c).stoppedEntry).any (fun b => b.1 == id))

/-- A quiescing crew is drained: every operation complete, FAULTED, stopped or withdrawn, frames written, every stand arrival and
peer write of it counted. -/
def State.crewDrained (s : State) (c cs : Nat) : Bool :=
  (s.crewGangs c cs).all (fun g => g.2.ended || (g.2.frozen && !g.2.frameOpen && g.2.fixedDone s.clock)) &&
    (s.crewReqs c cs).all (fun r => s.stoppedReq c cs r.1) &&
    (s.crewSkid c cs).all (fun e => e.2.aux.isNone && !s.skidEnding c e.1) &&
    (s.crewCmds c cs).all (fun q => !s.mreadyDue c q.id) &&
    s.agenda.all (fun p => match p.op, p.arg with
      | .sbarCarrArrival, .carr c' k' _ _ _ _ => !(c' == c && k' == cs)
      | _, _ => true) &&
    s.reqs.all (fun r => r.2.lanes.all (fun l => !((l.path == 1 || l.path == 2 || l.path == 8) && l.core == c && l.cslot == cs &&
      r.2.core != c && (l.stage == 0 || l.stage == 1))))

/-- The crews of a quiesce still to be drained: those that have not ended meanwhile. -/
def State.quiescing (s : State) (c : Nat) : List (Nat × Nat) :=
  (s.eng c).crews.filter (fun x => (mget? (s.core x.1).crews x.2).any (fun w => w.phase == .quiescing))

/-- The quiesce under way on a core can end. -/
def State.quiesceDue (s : State) (c : Nat) : Bool :=
  (s.eng c).running 1 && (s.quiescing c).all (fun x => s.crewDrained x.1 x.2)

/-- The command's notice to another core of the stand. -/
def State.drainNotice (s : State) (c cs : Nat) : State :=
  let slot := ((s.crewGangs c cs).head?.map Prod.fst).getD 0
  s.notice c slot 0x7D (s.noticeWords c slot 0x7D 0 0 1)

/-- QUIESCE_DRAINED (R410, R195). -/
def execQuiesceDrained (s : State) : Out :=
  match s.ev with
  | .core c =>
    if !s.quiesceDue c then .next s
    else
      let xs := s.quiescing c
      let s1 := xs.foldl (fun t x => t.setPhase x.1 x.2 .drained) s
      let s2 := (xs.filter (fun x => x.1 != c)).foldl (fun t x => t.drainNotice x.1 x.2) s1
      .next (s2.engFinish c (if xs.isEmpty then 1 else 0) 0)
  | _ => .next s

/-! ### Area accesses (R410, R355) -/

/-- The pieces of an area of n bytes at va from offset ofs on, each within a page: offset and bytes. -/
def areaPieces : Nat → Nat → Nat → Nat → List (Nat × Nat)
  | 0, _, _, _ => []
  | fuel + 1, va, ofs, n =>
    if n = 0 then []
    else
      let k := min n (4096 - (va + ofs) % 4096)
      (ofs, k) :: areaPieces fuel va (ofs + k) (n - k)

/-- An access of an area: a TAG 0 access of the supervisor context through its PATH 0 windows, made page by page in order. A read
answers the bytes, and whether poison is among them. -/
def State.areaAccess (s : State) (c n : Nat) (wr : Bool) (bs : List Byte) : State × Except RingRes (List Byte × Bool) :=
  let va := (s.eng c).addr.toNat
  (areaPieces (n / 4096 + 2) va 0 n).foldl (fun (x : State × Except RingRes (List Byte × Bool)) p =>
    match x.2 with
    | .error e => (x.1, .error e)
    | .ok (got, bad) =>
      let a := (va + p.1) % 2 ^ 57
      let v := x.1.look c 0 (sext64 a 57) wr
      if v.cause ≠ 0 then (x.1, .error (.fail v.cause))
      else if v.path ≠ 0 then (x.1, .error (.fail 0x02))
      else if wr then (match x.1.unitWrite 0 a ((bs.drop p.1).take p.2) c false with
        | (t, none) => (t, .ok ([], false))
        | (t, some e) => (t, .error e))
      else match x.1.unitRead 0 a p.2 c false with
        | (t, .ok (b, q)) => (t, .ok (got ++ b, bad || q))
        | (t, .error e) => (t, .error e)) (s, .ok ([], false))

/-- An area access that has not succeeded: the command waits for a fill or an answer, or ends with RES 2. -/
def State.areaFailed (s : State) (c : Nat) (r : RingRes) : State :=
  match r with
  | .fault q => s.setEng c { s.eng c with record := some q }
  | .fail cause => s.engFinish c 2 cause
  | .wait => s

/-! ### Park (R410, R412, R413, Table 14-9) -/

/-- CGANG of a gang slot. -/
def State.cgOf (s : State) (c slot : Nat) : Nat := (s.gang c slot).cgang

/-- The queues and pending destinations of a gang, and its parts that wait at MACQ, which park keeps with its operations. -/
def Gang.shadow (g : Gang) : Gang :=
  { marks := g.marks, loadQ := g.loadQ, storeQ := g.storeQ, barQ := g.barQ, heldQ := g.heldQ, markQ := g.markQ, unready := g.unready, copied := g.copied, foreign := g.foreign,
    parts := (g.parts.filter (fun p => p.2.macq)).map (fun p => (p.1, { macq := true })) }

/-- The crew's engine state. -/
def State.packCrew (s : State) (c cs : Nat) : Parked :=
  let k := s.core c
  let w := s.crew c cs
  let cg := s.cgOf c
  let mine := s.inCrew c cs
  let back := s.crewBack c cs
  { ctx := w.ctx
    lotid := w.lotid
    spos := w.spos
    stand := w.stand
    gangs := (s.crewGangs c cs).map (fun g => (g.2.cgang, g.2.shadow))
    reqs := (s.crewReqs c cs).map (fun r => (r.1, { r.2 with slot := cg r.2.slot }))
    log := (k.log.filter (fun e => mine e.2.slot)).map (fun e => { e.2 with slot := cg e.2.slot })
    skid := (s.crewSkid c cs).map (fun e => { e.2 with slot := cg e.2.slot })
    chutes := k.chutes.filter (fun x => x.2.holder == some cs)
    cmds := (s.crewCmds c cs).map (fun q => { q with slot := cg q.slot })
    uses := (k.mill.uses.filter (fun u => mine u.slot)).map (fun u => { u with slot := cg u.slot })
    owner := (if k.mill.owner.any mine then k.mill.owner else if back.own then some back.slot else none).map cg
    queued := w.queued.map (fun x => (cg x.1, x.2))
    group := back.group
    tile := back.tile
    issued := back.issued
    batchCause := back.cause
    wbuf := w.wbuf
    wstag := w.wstag
    wPoison := w.wPoison
    barIds := w.barIds
    barDone := w.barDone
    standAt := w.standAt }

/-- Records of each kind (Table 14-9): log, skidder, chute, mill, weight slot. -/
def Parked.counts (p : Parked) (wslots : Nat) : Nat × Nat × Nat × Nat × Nat :=
  (p.log.length, p.skid.length, p.chutes.foldl (fun a x => a + x.2.entries.length) 0,
    p.cmds.length + p.queued.foldl (fun a x => a + x.2.length) 0, wslots)

/-- Bytes of an area's records. -/
def recordBytes (n : Nat × Nat × Nat × Nat × Nat) : Nat :=
  576 * n.1 + 64 * n.2.1 + 528 * n.2.2.1 + 16 * n.2.2.2.1 + 1040 * n.2.2.2.2

/-- The bytes park writes: the header, and records whose interiors the spec does not give. -/
def Parked.area (p : Parked) (wslots : Nat) (mprog : W64) (k : Nat) : List Byte :=
  let n := p.counts wslots
  let who := match p.owner with | some o => o | none => (p.queued.head?.map Prod.fst).getD 0
  let bits := (if p.owner.isSome then 1 else 0) + (if p.queued.isEmpty then 0 else 2)
  bytesLE 4 (64 + recordBytes n) ++ bytesLE 2 n.1 ++ bytesLE 1 n.2.1 ++ bytesLE 1 n.2.2.1 ++ bytesLE 2 n.2.2.2.1 ++
    bytesLE 1 bits ++ bytesLE 1 who ++ bytesLE 2 n.2.2.2.2 ++ bytesLE 2 0 ++ bytesLE 8 mprog.toNat ++ bytesLE 40 0 ++
    (List.range (recordBytes n)).map (fun i => Config.freeByte k i)

/-- The crew's engine state leaves the core: the mill and the chutes are free for others. -/
def State.unload (s : State) (c cs : Nat) : State :=
  let k := s.core c
  let mine := s.inCrew c cs
  let ids := (s.crewReqs c cs).map Prod.fst
  let m : Mill := { k.mill.drop (fun q => mine q.slot) with
    owner := k.mill.owner.filter (fun o => !mine o)
    owners := k.mill.owners.filter (fun o => !mine o)
    uses := k.mill.uses.filter (fun u => !mine u.slot)
    resume := k.mill.resume.filter (fun x => !mine x.slot) }
  let k1 : Core := { k with
    mill := m.leaves s.clock (k.mill.queue.length - m.queue.length)
    log := k.log.filter (fun e => !mine e.2.slot)
    skid := k.skid.filter (fun e => !mine e.2.slot)
    skidFreed := (s.crewSkid c cs).foldl (fun x e => mset x e.1 s.clock) k.skidFreed
    chutes := k.chutes.map (fun x => if x.2.holder = some cs then (x.1, ({} : Chute)) else x)
    gangs := k.gangs.map (fun g => if g.2.cslot = cs then
      (g.1, { g.2 with marks := [], loadQ := [], storeQ := [], barQ := [], heldQ := [], markQ := [], unready := [], copied := [], foreign := [] }) else g) }
  let t : State := { s.setCore c k1 with reqs := s.reqs.filter (fun r => !ids.contains r.1) }
  let w := t.crew c cs
  (t.setCrew c cs { w with wbuf := [], wstag := [], wPoison := [], queued := [] }).millGo c

/-- Open fault records. -/
def State.openRecs (s : State) : Nat := (s.recs.filter (fun r => r.answer.isNone ||
  s.parked.any (fun p => p.log.any (fun e => e.record == some (r.ring, r.seq)) || p.skid.any (fun e => e.record == some (r.ring, r.seq))))).length

/-- ENGSTOP_PARK (R410). -/
def execEngstopPark (s : State) : Out :=
  onEng s 2 (fun c s =>
    let e := s.eng c
    match s.engCrew c with
    | none => s.engFinish c 1 0
    | some cs =>
      if (s.crew c cs).phase != .drained then s.engFinish c 1 0
      else if 65536 < s.openRecs then s.engFinish c 3 0
      else if e.failed ≠ 0 then s.engFinish c 2 e.failed
      else
        let w := s.crew c cs
        let p := s.packCrew c cs
        let bs := p.area w.wslots (s.core c).mill.mprog e.seed
        match s.areaAccess c bs.length true bs with
        | (t, .error r) => t.areaFailed c r
        | (t, .ok _) =>
          let t1 : State := { (t.dropUnit c).unload c cs with parked := s.parked ++ [{ p with bytes := bs }] }
          ((t1.setPhase c cs .parked).engFinish c 0 0).bump)

/-! ### Release and end (R410) -/

/-- ENGSTOP_RELEASE: a parked crew's slots, registers and allotments are free, its scratchpad RETIRING; no message is sent. A crew of a
stand is one that the stand's restore brings back (R196). -/
def execEngstopRelease (s : State) : Out :=
  match s.ev with
  | .core _ => .next s
  | _ => onEng s 4 (fun c s =>
      match s.engCrew c with
      | none => s.engFinish c 1 0
      | some cs =>
        if (s.crew c cs).phase != .parked then s.engFinish c 1 0
        else
          let k := (s.core c).retire (s.crew c cs).alloc
          let k1 : Core := { k with gangs := k.gangs.filter (fun g => g.2.cslot != cs), crews := mdel k.crews cs }
          let w := s.crew c cs
          let t : State := { s with saved := if w.standN = 0 then s.saved else s.saved ++ [{ ctx := w.ctx, lotid := w.lotid, stand := w.stand, spos := w.spos }] }
          (t.setCore c k1.lapse).engFinish c 0 0)

/-- Operations of a gang leave its flags without a cause. -/
def State.decAll (s : State) (c : Nat) (xs : List (Nat × Nat)) : State := xs.foldl (fun t x => t.dec c x.1 x.2 0) s

/-- A crew ends at once: its gangs issue nothing more, its stopped and FAULTED engine work and its waits are discarded, and it is
errored; its slots are released as their flags reach zero (R189). -/
def State.killCrew (s : State) (c cs : Nat) : State :=
  let k := s.core c
  let w := s.crew c cs
  let mine := s.inCrew c cs
  let still := w.phase != .running
  let gone := w.phase == .parked || w.phase == .restoring
  let pops := s.pendingPops c cs
  let deadSkid := k.skid.filter (fun e => mine e.2.slot && (still || e.2.state == 2 || e.2.state == 3))
  let waiting := (k.mill.resume.filter (fun x => mine x.slot)).flatMap (·.cmds)
  let deadCmds := if still || k.mill.state == 2 then s.crewCmds c cs else waiting
  let waits := k.mill.waiters.filter (fun x => mine x.1) ++ w.queued
  let dropAux : List Nat := deadSkid.filterMap (fun e => e.2.aux)
  let reqs := (s.reqs.filter (fun r => !dropAux.contains r.1)).map (fun r =>
    if r.2.core == c && r.2.peer.isNone && mine r.2.slot then
      (r.1, { r.2 with lanes := r.2.lanes.map (fun l =>
        if l.stage = 3 ∨ l.stage = 7 ∨ pops.contains r.1 then { l with stage := 4, cause := 0, frec := none } else l) })
    else r)
  let join := s.join.map (fun u => (u.1, { u.2 with queues := u.2.queues.map (fun q =>
    (q.1, { q.2 with pops := q.2.pops.filter (fun id => !pops.contains id) })) }))
  let m0 := (s.crewGangs c cs).foldl (fun m g => m.leave g.1) { k.mill with resume := k.mill.resume.filter (fun x => !mine x.slot) }
  let dead (q : MillCmd) : Bool := deadCmds.any (fun d => d.id == q.id)
  let m := m0.drop dead
  let gangs := k.gangs.map (fun g => if g.2.cslot ≠ cs then g
    else (g.1, { g.2 with
      ended := true
      parts := []
      frozen := false
      frameOpen := false
      asyncErr := false
      watch := none
      flags := if gone then g.2.flags.map (fun f => (f.1, { f.2 with count := 0 })) else g.2.flags }))
  let k1 : Core := { k with
    mill := m.leaves s.clock (k.mill.queue.length - m.queue.length)
    gangs := gangs
    skid := k.skid.filter (fun e => !deadSkid.any (fun d => d.1 == e.1))
    skidFreed := deadSkid.foldl (fun x e => mset x e.1 s.clock) k.skidFreed
    log := k.log.filter (fun e => !(mine e.2.slot && e.2.state != 3)) }
  let w1 : Crew := { w with phase := .running, errored := true, queued := [] }
  let t : State := { (s.setCore c k1).setCrew c cs w1 with
    reqs := reqs
    join := join
    parked := s.parked.filter (fun p => !(w.phase == .parked && p.standAt.contains (w.spos, c, cs, w.alloc))) }
  let told := ((s.crewGangs c cs).filter (fun g => g.2.frameOpen)).foldl (fun t g => t.tellTrap c g.1 g.2.frame) t
  let t1 := if gone then told else
    ((told.decAll c (deadSkid.map (fun e => (e.2.slot, e.2.flag)))).decAll c (deadCmds.map (fun q => (q.slot, q.flag)))).decAll c
      (waits.flatMap (fun x => x.2.map (fun f => (x.1, f))))
  t1.millGo c

/-- ENGSTOP_END (R410): the crew, or its whole stand. -/
def execEngstopEnd (s : State) : Out :=
  match s.ev with
  | .core _ => .next s
  | _ => onEng s 5 (fun c s =>
      match s.engCrew c with
      | none => s.engFinish c 1 0
      | some cs => ((s.standCrews c cs).foldl (fun t p => t.killCrew p.2.1 p.2.2) s).engFinish c 0 0)

/-! ### Restore (R415) -/

/-- ENGSTOP_RESTORE_REQUEST: the record at ADDR is read, its template read and checked, and the request queued. -/
def execEngstopRestoreRequest (s : State) : Out :=
  onEng s 6 (fun c s =>
    let e := s.eng c
    if e.failed ≠ 0 then s.engFinish c 2 e.failed
    else match s.areaAccess c 32 false [] with
      | (t, .error r) => t.areaFailed c r
      | (t, .ok (bs, bad)) =>
        if bad then t.engFinish c 2 0x20
        else
          let w (i : Nat) : Nat := wordAt bs (8 * i) 8
          let ctx := bitsOf (w 1) 43 32
          let spos := w 2 % 8
          let t1 := t.setEng c { t.eng c with info := [BitVec.ofNat 64 (ctx * 2 ^ 32 + spos * 2 ^ 28 + 0x7D), 0, 0, BitVec.ofNat 64 (w 1 % 2 ^ 32)] }
          if !(t.ctx ctx).live || t.dying ctx then t1.engFinish c 1 0
          else match t1.readTmpl ctx (w 0) c with
            | (u, .error r) => u.areaFailed c r
            | (u0, .ok ws) =>
              let u := u0.dropUnit c
              if u.tmplRefused ctx ws then u.engFinish c 1 0
              else
                let l : Launch := { kind := 2, tenant := u.tenant ctx, ctx := ctx, pattern := 0, lotid := w 1 % 2 ^ 32, w1 := BitVec.ofNat 64 (w 0),
                                    tmpl := ws, read := true, spos := spos, record := e.addr }
                ({ u with launches := u.launches ++ [l] } : State).engFinish c 0 0)

/-! ### Unpark (R413, R416) -/

/-- The gang slot of a CGANG of a crew. -/
def State.slotOf (s : State) (c cs cg : Nat) : Nat :=
  (((s.crewGangs c cs).find? (fun g => g.2.cgang == cg)).map Prod.fst).getD 0

/-- Where an allocation of the parked crew's stand now is: core, crew slot, allocation. -/
def State.newPlace (s : State) (c cs : Nat) (p : Parked) (x : Nat × Nat × Alloc) : Nat × Nat × Alloc :=
  match p.standAt.find? (fun y => y.2 == x) with
  | none => x
  | some y =>
    let (c', k') := if y.1 = (s.crew c cs).spos then (c, cs) else (s.standPeer c cs y.1).getD (c, cs)
    (c', k', (s.crew c' k').alloc)

/-- A piece of a parked request, at the crew's new place. An accumulator piece names its stand. -/
def State.movePiece (s : State) (c cs : Nat) (p : Parked) (l : LaneAcc) : LaneAcc :=
  if l.path = 1 ∨ l.path = 2 then
    let x := s.newPlace c cs p (l.core, l.cslot, l.alloc)
    { l with core := x.1, cslot := x.2.1, alloc := x.2.2 }
  else if l.path = 8 then
    match p.standAt.find? (fun y => y.2.1 == l.core && y.2.2.1 == l.cslot) with
    | none => l
    | some y =>
      let (c', k') := if y.1 = (s.crew c cs).spos then (c, cs) else (s.standPeer c cs y.1).getD (c, cs)
      { l with core := c', cslot := k', stand := (s.crew c cs).stand }
  else l

/-- A side of a parked copy. -/
def State.moveSide (s : State) (c cs : Nat) (p : Parked) (d : Side) : Side :=
  if d.scratch then
    let x := s.newPlace c cs p (d.core, d.cslot, d.alloc)
    { d with core := x.1, cslot := x.2.1, alloc := x.2.2 }
  else d

/-- The answer kept for a record (R413): none while it is open. -/
def State.keptAnswer (s : State) (r : Option (Nat × Nat)) : Option (Nat × Nat) :=
  match r with
  | none => none
  | some (ring, seq) => (s.recs.find? (fun x => x.ring == ring && x.seq == seq)).bind (·.answer)

/-- A parked log entry comes back: READY, or FAULTED where its record is unanswered, or its lanes end in error. -/
def State.backLog (s : State) (c cs : Nat) (e : LogEntry) : State :=
  let put (x : LogEntry) : State :=
    let k := s.core c
    match k.freeLog with
    | some i => s.setCore c { k with log := mset k.log i { x with slot := s.slotOf c cs e.slot, held := true } }
    | none => s
  if e.state ≠ 1 then put { e with state := 2 }
  else match s.keptAnswer e.record with
    | none => put e
    | some (0, _) => put { e with state := 2 }
    | some (_, cause) =>
      match s.req e.req with
      | some r => s.setReq e.req { r with lanes := r.lanes.map (fun l =>
          if l.stage = 7 ∧ e.part l = true then { l with stage := 4, cause := cause, frec := none } else l) }
      | none => s

/-- The entry a skidder record takes: the gang's reserved one, else a shared one (R296). -/
def Core.skidSlot (k : Core) (slot : Nat) : Option Nat :=
  if (mget? k.skid slot).isNone then some slot else ((List.range 32).map (64 + ·)).find? (fun i => (mget? k.skid i).isNone)

/-- A parked copy comes back stopped, until its gang's ERET. -/
def State.backSkid (s : State) (c cs : Nat) (p : Parked) (e : Skid) : State :=
  let k := s.core c
  let slot := s.slotOf c cs e.slot
  let x : Skid := { e with
    slot := slot
    held := true
    dst := s.moveSide c cs p e.dst
    src := s.moveSide c cs p e.src
    idx := s.moveSide c cs p e.idx
    targets := e.targets.map (s.newPlace c cs p)
    high := e.high.map (fun h => match p.standAt.find? (fun y => y.2.1 == h.1 && y.2.2.1 == h.2.1) with
      | some y => (let n := s.newPlace c cs p y.2; (n.1, n.2.1, h.2.2.1, h.2.2.2))
      | none => h)
    state := if e.state = 3 then 3 else 2 }
  let y : Skid := if e.state ≠ 3 then x else match s.keptAnswer e.record with
    | none => x
    | some (0, _) => { x with state := 2, cause := 0, record := none }
    | some (_, cause) => { x with state := 2, cause := 0, record := none, err := if x.err = 0 then cause else x.err, failed := true }
  match k.skidSlot slot with
  | some i => s.setCore c { k with skid := mset k.skid i y }
  | none => s

/-- The gangs' queues and pending destinations come back, and their parts wait at MACQ again (R412); what was issued before the save comes before what follows it (R142). -/
def State.backGangs (s : State) (c cs : Nat) (p : Parked) : State :=
  p.gangs.foldl (fun t x =>
    let slot := t.slotOf c cs x.1
    let g := t.gang c slot
    t.setGang c slot { g with marks := x.2.marks, loadQ := x.2.loadQ, storeQ := x.2.storeQ, barQ := x.2.covered, heldQ := x.2.covered, markQ := x.2.markQ,
                              unready := x.2.unready, copied := x.2.copied, foreign := x.2.foreign
                              parts := x.2.parts.foldl (fun m p => mset m p.1 { mget {} m p.1 with macq := true }) g.parts }) s

/-- The mill's commands, uses and ownership: the crew joins the ownership queue at its tail. -/
def State.backMill (s : State) (c cs : Nat) (p : Parked) : State :=
  let k := s.core c
  let slot := s.slotOf c cs
  let cmds := p.cmds.map (fun q => { q with slot := slot q.slot })
  let first : Option Nat := match p.owner with
    | some o => some o
    | none => match p.queued with
      | x :: _ => some x.1
      | [] => p.cmds.head?.map (·.slot)
  let own : List (Nat × List Nat) := match p.owner with
    | some o => if p.queued.any (fun x => x.1 == o) then [] else [(slot o, [])]
    | none => if p.queued.isEmpty then (p.cmds.head?.map (fun q => (slot q.slot, ([] : List Nat)))).toList else []
  let m : Mill := { k.mill with
    waiters := k.mill.waiters ++ own ++ p.queued.map (fun x => (slot x.1, x.2))
    uses := k.mill.uses ++ p.uses.map (fun u => { u with slot := slot u.slot })
    resume := k.mill.resume ++ (match first with
      | some f => [{ slot := slot f, own := p.owner.isSome, cmds := cmds, group := p.group, tile := p.tile, issued := p.issued,
                     cause := p.batchCause }]
      | none => []) }
  s.setCore c { k with mill := m }

/-- Every record of a park re-enters the core; no flag is counted. -/
def State.unparkCrew (s : State) (c cs : Nat) (p : Parked) : State :=
  let s1 : State := { s with
    parked := s.parked.erase p
    reqs := p.reqs.foldl (fun m r => mset m r.1 { r.2 with
      core := c
      slot := s.slotOf c cs r.2.slot
      lanes := r.2.lanes.map (s.movePiece c cs p) }) s.reqs }
  let s2 := p.log.foldl (fun t e => t.backLog c cs e) s1
  let s3 := p.skid.foldl (fun t e => t.backSkid c cs p e) s2
  let k := s3.core c
  let s4 := s3.setCore c { k with chutes := p.chutes.foldl (fun m x => mset m x.1 { x.2 with holder := some cs }) k.chutes }
  let s5 := (s4.backMill c cs p).backGangs c cs p
  let w := s5.crew c cs
  s5.setCrew c cs { w with wbuf := p.wbuf, wstag := p.wstag, wPoison := p.wPoison, barIds := p.barIds, barDone := p.barDone,
                           sbarSent := w.sbst.getLsbD (48 + w.spos) }

/-- An area that no park wrote leaves flags, weight slots and their tags undefined (R410). -/
def State.undefCrew (s : State) (c cs : Nat) : State :=
  let w := s.crew c cs
  let s1 := s.setCrew c cs { w with
    wbuf := (List.range (1024 * w.wslots)).map (fun i => (i, Config.freeByte s.free i))
    wstag := (List.range w.wslots).map (fun i => (i, (Config.freeW32 s.free i).setWidth 16)) }
  ((s.crewGangs c cs).foldl (fun t g =>
    let x := t.gang c g.1
    t.setGang c g.1 { x with flags := (List.range 32).map (fun n =>
      let v := (Config.freeW32 s.free (2 ^ 20 + 32 * g.1 + n)).toNat
      (n, { count := v % 64, err := v.testBit 7, cause := bitsOf v 15 8 })) }) s1).bump

/-- The crew is unparked; a stand runs once every crew of it is (R196). -/
def State.unparked (s : State) (c cs : Nat) : State :=
  let t := s.setPhase c cs .unparked
  let crews := t.standCrews c cs
  if crews.all (fun p => (t.crew p.2.1 p.2.2).phase == .unparked) then crews.foldl (fun t p => t.setPhase p.2.1 p.2.2 .running) t else t

/-- Skidder records of one gang beyond its reserved entry. -/
def Parked.shared (p : Parked) : Nat :=
  (p.gangs.map (fun g => (p.skid.filter (fun e => e.slot == g.1)).length - 1)).foldl (· + ·) 0

/-- Shared skidder entries free on a core. -/
def Core.freeShared (k : Core) : Nat := (((List.range 32).map (64 + ·)).filter (fun i => (mget? k.skid i).isNone)).length

/-- The park whose area holds these bytes, for the crew. -/
def State.findPark (s : State) (w : Crew) (bs : List Byte) : Option Parked :=
  s.parked.find? (fun p => p.ctx == w.ctx && p.lotid == w.lotid && p.spos == w.spos && p.bytes == bs)

/-- Header fields of an area. -/
def areaUsed (h : List Byte) : Nat := min 790528 (wordAt h 0 4)
def areaLogs (h : List Byte) : Nat := wordAt h 4 2
def areaChutes (h : List Byte) : Nat := wordAt h 7 1

/-- The records of an area re-enter once they have room: shared skidder entries are awaited. Of an area no park wrote the header alone
is known: whether one of its chute records names a chute held by another crew is free. -/
def State.unparkWith (s : State) (c cs : Nat) (bs : List Byte) : State :=
  let k := s.core c
  match s.findPark (s.crew c cs) bs with
  | none =>
    let clash := decide (areaChutes bs ≠ 0) && k.chutes.any (fun x => x.2.holder.any (· != cs)) && Config.freeBit s.free 410
    if 256 < k.log.length + areaLogs bs then s.engFinish c 4 0
    else if clash then s.bump.engFinish c 1 0
    else ((s.undefCrew c cs).unparked c cs).engFinish c 0 0
  | some p =>
    if 256 < k.log.length + p.log.length then s.engFinish c 4 0
    else if p.chutes.any (fun x => (mget {} k.chutes x.1).holder.any (· != cs)) then s.engFinish c 1 0
    else if k.freeShared < p.shared then s.setEng c { s.eng c with need := p.shared }
    else ((s.unparkCrew c cs p).unparked c cs).engFinish c 0 0

/-- ENGSTOP_UNPARK (R416). -/
def execEngstopUnpark (s : State) : Out :=
  onEng s 3 (fun c s =>
    let e := s.eng c
    match s.engCrew c with
    | none => s.engFinish c 1 0
    | some cs =>
      if (s.crew c cs).phase != .restoring || (s.crewGangs c cs).any (fun g => !g.2.limgFlags) then s.engFinish c 1 0
      else if e.failed ≠ 0 then s.engFinish c 2 e.failed
      else match s.areaAccess c 64 false [] with
        | (t, .error r) => t.areaFailed c r
        | (t, .ok (h, bad)) =>
          if bad then t.engFinish c 2 0x20
          else match t.areaAccess c (max 64 (areaUsed h)) false [] with
            | (u, .error r) => u.areaFailed c r
            | (u, .ok (bs, worse)) => if worse then u.engFinish c 2 0x20 else (u.dropUnit c).unparkWith c cs bs)

/-- The command under way on a core can go on: no fill or migration of a page it may need is under way, no peer's answer is awaited, and
an unpark has its entries. -/
def State.engDue (s : State) (c : Nat) : Bool :=
  let e := s.eng c
  (e.running 2 || e.running 3 || e.running 6) && !s.unitOpen c &&
    !((s.fills ++ s.fillq).any (fun f => f.ctx == 0 || e.cmd == 6)) && !(s.migr.any (fun m => (m.ctx == 0 || e.cmd == 6) && s.migrating m.ctx m.vpn)) &&
    decide (e.need ≤ (s.core c).freeShared)

end Sys2Proof.Machine
end

