-- ==== Sys2Proof/Machine/Sha3.lean ====
section
/-! DEFINITION. Sha3: the hash SHA3-256 of the measurement registers and of the boot checks (R436, R438), after FIPS 202. -/

namespace Sys2Proof.Machine.Sha3
open Sys2Proof

/-- Rotation constants of rho, for lane x + 5y. -/
def rho : List Nat :=
  [0, 1, 62, 28, 27, 36, 44, 6, 55, 20, 3, 10, 43, 25, 39, 41, 45, 15, 21, 8, 18, 2, 61, 56, 14]

/-- Round constants of iota. -/
def iota : List W64 :=
  [0x0000000000000001, 0x0000000000008082, 0x800000000000808A, 0x8000000080008000, 0x000000000000808B, 0x0000000080000001,
   0x8000000080008081, 0x8000000000008009, 0x000000000000008A, 0x0000000000000088, 0x0000000080008009, 0x000000008000000A] ++
  [0x000000008000808B, 0x800000000000008B, 0x8000000000008089, 0x8000000000008003, 0x8000000000008002, 0x8000000000000080,
   0x000000000000800A, 0x800000008000000A, 0x8000000080008081, 0x8000000000008080, 0x0000000080000001, 0x8000000080008008]

/-- Lane x + 5y of a state of 25. -/
def lane (a : List W64) (x y : Nat) : W64 := a.getD (x % 5 + 5 * (y % 5)) 0

/-- A state from a function of its lanes. -/
def ofLanes (f : Nat → Nat → W64) : List W64 := (List.range 25).map (fun i => f (i % 5) (i / 5))

def theta (a : List W64) : List W64 :=
  let c := (List.range 5).map (fun x => lane a x 0 ^^^ lane a x 1 ^^^ lane a x 2 ^^^ lane a x 3 ^^^ lane a x 4)
  let d := (List.range 5).map (fun x => c.getD ((x + 4) % 5) 0 ^^^ (c.getD ((x + 1) % 5) 0).rotateLeft 1)
  ofLanes (fun x y => lane a x y ^^^ d.getD x 0)

/-- rho and pi: lane (x, y) takes the rotated lane (x + 3y, x). -/
def rhoPi (a : List W64) : List W64 :=
  ofLanes (fun x y => (lane a (x + 3 * y) x).rotateLeft (rho.getD ((x + 3 * y) % 5 + 5 * x) 0))

def chi (a : List W64) : List W64 :=
  ofLanes (fun x y => lane a x y ^^^ (~~~(lane a (x + 1) y) &&& lane a (x + 2) y))

def round (a : List W64) (rc : W64) : List W64 :=
  let b := chi (rhoPi (theta a))
  b.set 0 (b.getD 0 0 ^^^ rc)

/-- Keccak-f[1600]. -/
def permute (a : List W64) : List W64 := iota.foldl round a

/-- The padded message: a suffix 01, then 10*1 to whole blocks of 136 bytes. -/
def pad (m : List Byte) : List Byte :=
  let n := 136 - m.length % 136
  m ++ (if n = 1 then [0x86] else [0x06] ++ List.replicate (n - 2) 0 ++ [0x80])

/-- Absorb a block of 136 bytes. -/
def absorb (a : List W64) (block : List Byte) : List W64 :=
  permute ((List.range 25).map (fun i =>
    if i < 17 then a.getD i 0 ^^^ BitVec.ofNat 64 (ofBytesLE ((block.drop (8 * i)).take 8)) else a.getD i 0))

def absorbAll : Nat → List W64 → List Byte → List W64
  | 0, a, _ => a
  | n + 1, a, m => absorbAll n (absorb a (m.take 136)) (m.drop 136)

/-- SHA3-256. -/
def hash (m : List Byte) : List Byte :=
  let p := pad m
  let a := absorbAll (p.length / 136) (List.replicate 25 0) p
  (List.range 4).flatMap (fun i => bytesLE 8 (a.getD i 0).toNat)

end Sys2Proof.Machine.Sha3
end

