-- ==== Sys2Proof/Machine/Host.lean ====
section
/-! DEFINITION. Host: the device register space (R424, R425, Tables 18-2 and 19-1), contexts (R426), supervisors (R431, R437), PCIe
and the port aperture (R433 to R435), boot and measurement (R436, R438, R439), reliability counts (R440, R441), links (R78, R427). -/

namespace Sys2Proof.Machine
open Sys2Proof

/-! ### Offsets of Table 18-2 and Table 19-1 -/

def inRow (off lo hi step : Nat) : Bool := decide (lo ≤ off) && decide (off < hi) && (off - lo) % step == 0
/-- Core and offset within the frame window of an offset (R431). -/
def frameOf (off : Nat) : Option (Nat × Nat) :=
  if 0x100000 ≤ off ∧ off < 0x120000 then some ((off - 0x100000) / 0x400, off % 0x400) else none
/-- Cluster and offset within the join window of an offset (R383). -/
def windowOf (off : Nat) : Option (Nat × Nat) :=
  if 0x200000 ≤ off ∧ off < 0x220000 then some ((off - 0x200000) / 0x2000, off % 0x2000) else none

/-- The writable fields of a plain register; none for an offset that is not one. -/
def rwMask (off : Nat) : Option W64 :=
  if off = 0x8 then some 0x00FFFFFFFFFC0000
  else if off = 0x38 then some 0xFFFFFFFF3F0000FF
  else if off = 0x40 then some 0xFFFFFFFF00000000
  else if off = 0x58 then some 0x00FFFFFFFC000000
  else if inRow off 0x80 0x100 8 then some 0x00000000FFFFFF00
  else if inRow off 0x100 0x200 16 then some 0xF0FFFFFFFFFFF000
  else if inRow off 0x400 0xC00 8 then some 0x80FFFFFFFFFFF7FF
  else if off = 0xC00 then some 0x81FFFFFFFFFFFFF0
  else if inRow off 0x1010 0x1030 8 then some 0xFFFFFFFFFFFFFFFF
  else if off = 0x3000 ∨ off = 0x3040 then some 0xFFFFFFFFFFFFFFFF
  else if inRow off 0x3100 0x3180 8 then some 0xF000000000000000
  else if inRow off 0x3200 0x3600 8 then some 0xFFFFFFFFFFFFFFFF
  else if off = 0x3608 ∨ off = 0x3908 then some 0x00000000FFFFFFFF
  else if inRow off 0x3700 0x3780 16 then some 0xE1FFFFFFFFFFFFFF
  else if inRow off 0x3708 0x3788 16 then some 0xFFFFC00000000000
  else if off = 0x3800 then some 0xFFFFFFFFFFFFFFFF
  else if off = 0x3900 then some 0x8FFFFFFFFFFFF000 -- EN, LOGN, BASE
  else if inRow off 0x4000 0x4400 8 then some 0x00000000FFFFFFFF
  else none

/-- The bits a write of 1 clears. -/
def w1cMask (off : Nat) : Option W64 :=
  if off = 0x18 ∨ off = 0x28 then some 2
  else if off = 0x60 ∨ off = 0x68 then some 0x8000000000000000
  else if off = 0x1008 then some 6
  else none

/-- Offsets whose writes have events of their own, or reach read-only registers. -/
def otherOffset (off : Nat) : Bool :=
  [0x0, 0x10, 0x20, 0x30, 0x48, 0x50, 0x70, 0x200, 0xC08, 0x1000, 0x3008, 0x3600, 0x3610, 0x3910].contains off ||
    inRow off 0x108 0x208 16 || inRow off 0x2000 0x2200 8 || inRow off 0x3010 0x3038 8

/-! ### Reads (R425) -/

/-- The supervisor of a core. -/
def State.super? (s : State) (c : Nat) : Option Gang := (s.gang? c 63).filter (·.super)

/-- The frame window of a core (R431): the latch image with the live flags (R403), then SLPC0 to SLPC7. -/
def State.frameWord (s : State) (c o : Nat) : W64 :=
  match s.super? c with
  | none => 0
  | some g =>
    if o < 0x280 then
      BitVec.ofNat 64 (wordAt (g.image 0 (fun n => (s.faultOn c 63 n).isSome)) o 8)
    else if o < 0x2C0 then (g.slice ((o - 0x280) / 8)).slpc
    else 0

/-- What a read of `size` bytes of the register space returns. Write-only registers read 0. DESIGN CHOICE (log entry 46): so does SUPRES, to
which the spec gives neither an access code nor a value. -/
def State.hostRead (s : State) (off size : Nat) : W64 :=
  if size ≠ 8 ∨ off % 8 ≠ 0 then 0
  else match frameOf off, windowOf off with
    | some (c, o), _ => s.frameWord c o
    | _, some (u, o) => BitVec.ofNat 64 ((if (s.unit u).busy then mget {} s.joinSeen u else s.unit u).window o)
    | none, none =>
      if off = 0x60 then BitVec.ofNat 64 (setBits (s.dreg off).toNat 44 32 s.entries)
      else if off = 0x50 then
        BitVec.ofNat 64 ((landGroups (s.dests.filter (·.prepared))).length * 2 ^ 48 + (landGroups s.dests).length * 2 ^ 32 + s.landing.length)
      else if inRow off 0x2000 0x2200 8 then mget 0 s.ras ((off - 0x2000) / 8)
      else if (rwMask off).isSome ∨ (w1cMask off).isSome ∨ [0x0, 0x70, 0x3008, 0x3600, 0x3610, 0x3910].contains off ∨
          inRow off 0x108 0x208 16 ∨ inRow off 0x3010 0x3038 8 then s.dreg off
      else 0

/-! ### Writes (R425) -/

/-- A write of SUPQc wakes the notices the core holds (R437). -/
def State.wakeCore (s : State) (off : Nat) : State :=
  let c := (off - 0x4000) / 8
  if inRow off 0x4000 0x4400 8 && !(s.core c).notices.isEmpty then s.later .queuePush (.core c) else s

/-- A write at an offset that holds a register, or none. -/
def State.regWrite (s : State) (off : Nat) (v : W64) : State :=
  let old := s.dreg off
  match rwMask off, w1cMask off, windowOf off with
  | some m, _, _ => (s.setDreg off ((v &&& m) ||| (old &&& ~~~m))).wakeCore off
  | _, some m, _ => s.setDreg off (old &&& ~~~(v &&& m))
  | _, _, some (u, o) =>
    { s.setUnit u ((s.unit u).windowWrite o v) with joinSeen := s.joinSeen.map (fun x => if x.1 = u then (u, x.2.windowWrite o v) else x) }
  | none, none, none =>
    if inRow off 0x3010 0x3038 8 then
      (if 600 ≤ v.toNat % 4096 ∧ v.toNat % 4096 ≤ 1000 then s.setDreg off (v &&& 0xFFF) else s)
    else if off = 0x10 then (if 2 ≤ v.toNat / 2 ^ 62 ∨ s.dfld 0x18 0 0 = 1 then s.setDreg 0x18 (s.dreg 0x18 ||| 2) else s)
    else if off = 0x20 then (if v.toNat / 2 ^ 62 = 3 then s.setDreg 0x28 (s.dreg 0x28 ||| 2) else s)
    else if off = 0x1000 then (if v.toNat / 2 ^ 62 = 3 ∨ s.dfld 0x1008 0 0 = 1 then s.setDreg 0x1008 (s.dreg 0x1008 ||| 4) else s)
    else if off = 0x3910 ∧ v = 0 then s.setDreg off 0
    else s

/-- REGISTER_WRITE (R425): a write of another size, or at an offset without a register, changes nothing. -/
def execRegisterWrite (s : State) : Out :=
  match s.ev with
  | .reg off v size => if size = 8 ∧ off % 8 = 0 then .next (s.regWrite off v) else .next s
  | _ => .next s

/-! ### Contexts (R426, R28) -/

/-- CTXSTAT with its command bits changed. -/
def State.ctxStat (s : State) (set clear : W64) : State := s.setDreg 0x18 ((s.dreg 0x18 &&& ~~~clear) ||| set)

/-- CTX_MAKE_LIVE: the entry is read; a MODE that R28 does not permit is REFUSED. -/
def execCtxMakeLive (s : State) : Out :=
  match s.ev with
  | .reg _ v size =>
    if size ≠ 8 then .next s
    else if (s.dreg 0x18).getLsbD 0 then .next (s.ctxStat 2 0)
    else
      let c := v.toNat % 4096
      let t := s.readCtx c
      let m := (t.ctx c).catp.toNat / 2 ^ 60
      let h := (t.ctx c).chgatp.toNat / 2 ^ 60
      let ok := m == 10 && (h == 0 || h == 10)
      .next (({ t with ctxs := mset t.ctxs c { t.ctx c with live := ok } } : State).ctxStat (if ok then 0 else 4) 4)
  | _ => .next s

/-- The join objects of a context are destroyed, as PORTCFG OP 2, PATSET OP 2 and QDESTROY give: in each unit an event that comes last in
its clock's order, with the application cores' writes (R369). -/
def State.clearJoin (s : State) (ctx : Nat) : State :=
  (List.range 16).foldl (fun t u =>
    let x := { t.unit u with last := (t.baseClock, 2 ^ 15) }
    let ports := (x.ports.filter (fun p => p.2.created && p.2.ctx == ctx)).map Prod.fst
    let pats := (x.pats.filter (fun p => p.2.claimed && p.2.ctx == ctx)).map Prod.fst
    let queues := (x.queues.filter (fun q => q.2.created && q.2.ctx == ctx)).map Prod.fst
    if ports.isEmpty && pats.isEmpty && queues.isEmpty then t
    else
      let t0 := (t.seeUnit u).setUnit u x
      let t1 := ports.foldl (fun t k => t.setUnit u ((t.unit u).killPort k)) t0
      let t2 := pats.foldl (fun t i => t.setUnit u ((t.unit u).setPat i { (t.unit u).pat i with claimed := false, en := false, dis := false })) t1
      (queues.foldl (fun t k => t.killQueue u k) t2).endEvent u) s

/-- What a context that is being unmade loses: launches and restore requests, firings on their way, join objects, unprepared
destination state, open fault records. -/
def State.clearCtx (s : State) (ctx : Nat) : State :=
  let s1 : State := { s with
    launches := s.launches.filter (fun l => l.ctx != ctx)
    saved := s.saved.filter (fun x => x.ctx != ctx)
    agenda := s.agenda.filter (fun p => match p.arg with | .fire _ c _ _ _ _ => c != ctx | _ => true)
    recs := s.recs.filter (fun r => r.ctx != ctx || r.answer.isSome) }
  let s2 := s1.clearJoin ctx
  (s2.dests.filter (fun d => d.dctx == ctx && !d.prepared)).foldl (fun t d => t.freeDest d.odev d.octx d.group d.dctx) s2

/-- CTX_MAKE_NOT_LIVE: the context's crews end as by ENGSTOP CMD 5; then the rest of R426, in its order. -/
def execCtxMakeNotLive (s : State) : Out :=
  match s.ev with
  | .reg _ v size =>
    if size ≠ 8 then .next s
    else
      let ctx := v.toNat % 4096
      if (s.dreg 0x18).getLsbD 0 ∨ ctx = 0 then .next (s.ctxStat 2 0)
      else
        let crews := s.cores.flatMap (fun x => (x.2.crews.filter (fun w => w.2.ctx == ctx)).map (fun w => (x.1, w.1)))
        let t := crews.foldl (fun t x => t.killCrew x.1 x.2) s
        let mine := (s.recs.filter (fun r => r.ctx == ctx)).map (fun r => some (r.ring, r.seq))
        let t1 : State := { t with cores := t.cores.map (fun x =>
          if mine.contains x.2.engstop.record then (x.1, { x.2 with engstop := { x.2.engstop with record := none } }) else x) }
        .next ((((t1.clearCtx ctx).setDreg 0x10 v).ctxStat 1 0).later .ctxNotLiveDone (.host ctx 0))
  | _ => .next s

/-- The context's work is over: no crew, access, fill or prepared group of it is left. -/
def State.ctxIdle (s : State) (ctx : Nat) : Bool :=
  s.cores.all (fun x => x.2.crews.all (fun w => w.2.ctx != ctx)) && s.reqs.all (fun r => r.2.ctx != ctx) &&
    s.fills.all (fun f => f.ctx != ctx) && s.migr.all (fun m => m.ctx != ctx) && !s.dests.any (fun d => d.dctx == ctx && d.prepared)

/-- CTX_NOT_LIVE_DONE. -/
def execCtxNotLiveDone (s : State) : Out :=
  match s.ev with
  | .host ctx _ =>
    if !(s.dying ctx && s.ctxIdle ctx) then .next s
    else
      let t := s.clearCtx ctx
      .next (({ t with
        ctxs := mset t.ctxs ctx { t.ctx ctx with live := false }
        lots := t.lots.filter (fun l => l.2.ctx != ctx) } : State).ctxStat 0 1)
  | _ => .next s

/-! ### Supervisors (R405, R431, R437) -/

/-- Start the supervisor of a core whose slot 63, and crew slot 15, hold nothing. -/
def State.startSuper (s : State) (c : Nat) (pc : W64) : State :=
  let k := s.core c
  if (mget? k.gangs 63).isSome ∨ (mget? k.crews 15).isSome then s
  else
    let p : GangPlan := { nsl := 8, regs := 64, prio := 7, entry := pc }
    let g := { startGang p 15 0 s.clock [] 0 (BitVec.ofNat 64 (identity 0 0 c 15 0 p)) with super := true }
    (s.setCore c { k with gangs := mset k.gangs 63 g, crews := mset k.crews 15 {} }).wantImage c 0

/-- SUPGO_START (R437). -/
def execSupgoStart (s : State) : Out :=
  match s.ev with
  | .reg _ v size =>
    let e := s.dreg 0xC00
    if size ≠ 8 ∨ !(s.ctx 0).live ∨ !e.getLsbD 63 then .next s
    else
      let cs := if v.getLsbD 63 then List.range 128 else [v.toNat % 128]
      .next (cs.foldl (fun t c => t.startSuper c (pcBits e)) s)
  | _ => .next s

/-- SUPRES_RESUME (R431). -/
def execSupresResume (s : State) : Out :=
  match s.ev with
  | .reg _ v size =>
    let c := v.toNat % 128
    if size = 8 ∧ (s.super? c).any (·.frozen) then .next (s.eret c 63) else .next s
  | _ => .next s

/-- One word of a gang's latch image, as LIMG kind 0 writes the whole (R431). The flags whose words it holds are written at the next
ERET, beside those that earlier writes have given. -/
def Gang.loadFrameWord (g : Gang) (o : Nat) (v : W64) : Gang :=
  let old := g.frame.bytes ((List.range 32).map (fun n => (g.frame.flags.getD n 0).toNat))
  let f := Frame.ofBytes (old.take o ++ bytesLE 8 v.toNat ++ old.drop (o + 8))
  let fl := (List.range 32).filter (fun n => decide (o ≤ 0x200 + 2 * n) && decide (0x200 + 2 * n < o + 8))
  { g with
    frame := if g.frameOpen then { g.frame with flags := f.flags } else f
    limg0 := g.limg0 || !fl.isEmpty
    limgFlags := if fl.isEmpty then g.limgFlags else false
    limgMask := (if g.limg0 then g.limgMask else if fl.isEmpty then g.limgMask else 0) ||| maskOf fl }

/-- SUPERVISOR_FRAME_WRITE (R431): one word of the latch image of a frozen supervisor, with the effect of LIMG kind 0. -/
def execSupervisorFrameWrite (s : State) : Out :=
  match s.ev with
  | .reg off v size =>
    match frameOf off with
    | none => .next s
    | some (c, o) => match s.super? c with
      | none => .next s
      | some g =>
        if size ≠ 8 ∨ off % 8 ≠ 0 ∨ !g.frozen ∨ 0x280 ≤ o then .next s
        else
          .next (s.setGang c 63 (g.loadFrameWord o v))
  | _ => .next s

/-! ### Measurement registers and the mailbox (R438, R439) -/

/-- MRn; reset clears it. -/
def State.mr (s : State) (n : Nat) : List Byte := mget (List.replicate 32 0) s.mrs n
/-- MRn is extended with a digest. -/
def State.extend (s : State) (n : Nat) (d : List Byte) : State := { s with mrs := mset s.mrs n (Sha3.hash (s.mr n ++ d)) }

/-- A command refused: ERR. -/
def State.mbRefuse (s : State) : State := s.setDreg 0x1008 (s.dreg 0x1008 ||| 4)
/-- A command starts: BUSY until MAILBOX_DONE. -/
def State.mbStart (s : State) : State := (s.setDreg 0x1008 (s.dreg 0x1008 ||| 1)).later .mailboxDone .none

/-- The register a command names, where it is accepted at all: n is bits [61:0] of MBCMD, of which N is all but 0. -/
def State.mbTarget (s : State) (v : W64) : Option Nat :=
  if (s.dreg 0x1008).getLsbD 0 ∨ 7 < v.toNat % 2 ^ 62 then none else some (v.toNat % 8)

/-- MAILBOX_READ: MRn into MBDATA0 to MBDATA3, when the command starts (log entry 44). -/
def execMailboxRead (s : State) : Out :=
  match s.ev with
  | .reg _ v size =>
    if size ≠ 8 then .next s
    else match s.mbTarget v with
      | none => .next s.mbRefuse
      | some n =>
        .next ((List.range 4).foldl (fun t i => t.setDreg (0x1010 + 8 * i) (BitVec.ofNat 64 (wordAt (s.mr n) (8 * i) 8))) s).mbStart
  | _ => .next s

/-- MAILBOX_EXTEND: MRn takes the digest in MBDATA0 to MBDATA3. Firmware locks MR0 to MR3 at a moment after boot that no register
shows (R436 step 7): from some extend of them on they are found locked. -/
def execMailboxExtend (s : State) : Out :=
  match s.ev with
  | .reg _ v size =>
    if size ≠ 8 then .next s
    else match s.mbTarget v with
      | none => .next s.mbRefuse
      | some n =>
        let locked := s.mrLocked || (decide (n < 4) && s.booted && Config.freeBit s.free 438)
        let t := { s.bump with mrLocked := locked }
        if n < 4 ∧ locked then .next t.mbRefuse
        else .next (t.extend n ((List.range 4).flatMap (fun i => bytesLE 8 (s.dreg (0x1010 + 8 * i)).toNat))).mbStart
  | _ => .next s

/-- MAILBOX_DONE: DONE, and IRQT 146. -/
def execMailboxDone (s : State) : Out :=
  if (s.dreg 0x1008).getLsbD 0 then .next ((s.setDreg 0x1008 ((s.dreg 0x1008 &&& 6) ||| 2)).irq 146) else .next s

/-! ### SPDM (R438); the messages' layout is that of SPDM 1.2 -/


/-- SPDM_GET_VERSION: version 1.2. -/
def execSpdmGetVersion (s : State) : Out :=
  match s.ev with
  | .host _ _ => .next (s.reply [0x10, 0x04, 0, 0, 0, 1, 0x00, 0x12])
  | _ => .next s

/-- Undefined bytes of a response. -/
def freeBytes (k from_ n : Nat) : List Byte := (List.range n).map (fun i => Config.freeByte k (from_ + i))

/-- SPDM_GET_CAPABILITIES: measurements without signatures, no sessions; exponents and sizes are not given. -/
def execSpdmGetCapabilities (s : State) : Out :=
  match s.ev with
  | .host _ _ => .next (s.reply ([0x12, 0x61, 0, 0, 0] ++ freeBytes s.free 0 1 ++ [0, 0, 0x08, 0, 0, 0] ++ freeBytes s.free 1 8)).bump
  | _ => .next s

/-- SPDM_NEGOTIATE_ALGORITHMS: DMTF measurements hashed with SHA3-256, no signature algorithm. -/
def execSpdmNegotiateAlgorithms (s : State) : Out :=
  match s.ev with
  | .host _ _ => .next (s.reply ([0x12, 0x63, 0, 0, 36, 0, 1, 0, 0x10, 0, 0, 0] ++ List.replicate 24 0))
  | _ => .next s

/-- Measurement block n + 1: MRn, a digest (R438); the kind of what was measured is not given. -/
def State.block (s : State) (n : Nat) : List Byte :=
  [BitVec.ofNat 8 (n + 1), 1, 35, 0] ++ [Config.freeByte s.free n &&& 0x7F] ++ [32, 0] ++ s.mr n

/-- SPDM_GET_MEASUREMENTS: index 0 asks the number of blocks, 0xFF all of them, n + 1 that of MRn; another index is an error. -/
def execSpdmGetMeasurements (s : State) : Out :=
  match s.ev with
  | .host i _ =>
    let msg (total blocks : Nat) (rec_ : List Byte) : List Byte :=
      [0x12, 0x60, BitVec.ofNat 8 total, 0, BitVec.ofNat 8 blocks] ++ bytesLE 3 rec_.length ++ rec_ ++ freeBytes s.free 16 32 ++ [0, 0]
    .next (s.reply (
      if i = 0 then msg 8 0 []
      else if i = 255 then msg 0 8 ((List.range 8).flatMap s.block)
      else if i ≤ 8 then msg 0 1 (s.block (i - 1))
      else [0x12, 0x7F, 1, 0])).bump
  | _ => .next s

/-! ### Reliability (R78, R440, R441) and links (R427) -/

/-- RAS_COUNT_CLEAR: a write of word 0 clears both counts. -/
def execRasCountClear (s : State) : Out :=
  match s.ev with
  | .reg off _ size =>
    if size = 8 ∧ inRow off 0x2000 0x2200 32 then .next { s with ras := mset s.ras ((off - 0x2000) / 8) 0 } else .next s
  | _ => .next s

/-- LINK_CRC_REPLAY: a corrected error of the link's structure. -/
def execLinkCrcReplay (s : State) : Out :=
  match s.ev with
  | .host k loc => .next (s.rasCorrected k loc)
  | _ => .next s

/-- UALINK_LINK_LOSS. -/
def execUalinkLinkLoss (s : State) : Out :=
  match s.ev with
  | .host port _ => .next { s with linksLost := if s.linksLost.contains port then s.linksLost else s.linksLost ++ [port] }
  | _ => .next s

/-- UALINK_LINK_RESTORED. -/
def execUalinkLinkRestored (s : State) : Out :=
  match s.ev with
  | .host port _ => .next { s with linksLost := s.linksLost.filter (· != port) }
  | _ => .next s

/-- SCRUBCFG_WRITE (R441). -/
def execScrubcfgWrite (s : State) : Out :=
  match s.ev with
  | .reg off v size => if size = 8 then .next (s.setDreg off (v &&& 0x800000000000FFFF)) else .next s
  | _ => .next s

/-- Clocks from one unit read to the next: the period over the units of HBM (R441, log entry 39). -/
def State.scrubPace (s : State) : Nat := max 1 (s.dfld 0x70 15 0) * (3600 * 1000000 * clocksPerUs) / (hbmSize / 256)

/-- A unit is to be read: the scrubber is on, and its pace has come. -/
def State.scrubDue (s : State) : Bool := (s.dreg 0x70).getLsbD 63 && decide (s.scrubAt + s.scrubPace ≤ s.clock)

/-- What the scrubber finds in a unit: a corrected error is counted; data that cannot be corrected are poisoned (R79, R81, R440). -/
def State.scrubFound (s : State) (pa : Nat) : State :=
  match Config.upset s.free % 3 with
  | 1 => s.rasCorrected 0 pa
  | 2 =>
    let held (l : Nat) : Bool := s.l2.any (·.line == l)
    let t := (linesOf pa 256).foldl (fun t l => if held l then { t with hbmBad := (t.hbmBad ++ wordsOf (128 * l) 128).eraseDups }
      else t.poisonRange (128 * l) 128) s
    t.rasUncorrected 0 pa
  | _ => s

/-- SCRUB_UNIT_READ (R441): the next 256-byte unit; the last one completes a pass, which structure 15 counts in word 0. -/
def execScrubUnitRead (s : State) : Out :=
  if !s.scrubDue then .next s
  else
    let t := (s.scrubFound (256 * s.scrub)).bump
    if s.scrub + 1 < hbmSize / 256 then .next { t with scrub := s.scrub + 1, scrubAt := s.clock }
    else
      let w := (mget 0 t.ras 60).toNat
      .next { t with scrub := 0, scrubAt := s.clock, ras := mset t.ras 60 (BitVec.ofNat 64 (w / 2 ^ 32 * 2 ^ 32 + satInc 32 (w % 2 ^ 32))) }

/-! ### PCIe (R424, R425, R433, R434) and the port aperture (R435) -/

/-- Base of the aperture and its end. -/
def apertureBase : Nat := 0x020000000000
def inAperture (a : Nat) : Bool := decide (apertureBase ≤ a) && decide (a < apertureBase + 2 ^ 32)

/-- A write to the aperture from a hart (2) or a PCIe device (3): a message, or discarded. -/
def State.apertureWrite (s : State) (a : Nat) (bs : List Byte) (source : Nat) : State :=
  let h := (a - apertureBase) % 2 ^ 32
  if bs.length = 8 ∧ a % 8 = 0 then
    s.later .messageArrival (.msg { handle := h, data := BitVec.ofNat 64 (ofBytesLE bs), source := source, dev := s.devId })
  else s.countStale (bitsOf h 19 16)

/-- PORT_APERTURE_WRITE. -/
def execPortApertureWrite (s : State) : Out :=
  match s.ev with
  | .mem a bs source => if inAperture a then .next (s.apertureWrite a bs source) else .next s
  | _ => .next s

/-- PORT_APERTURE_READ: it returns zeros and is counted; so is a write of another size or alignment. -/
def execPortApertureRead (s : State) : Out :=
  match s.ev with
  | .mem a bs size =>
    if !inAperture a then .next s
    else
      let t := s.countStale (bitsOf (a - apertureBase) 19 16)
      if bs.isEmpty then .next (t.reply (List.replicate size 0)) else .next t
  | _ => .next s

/-- Regions of Table 18-1 that PCIe reaches beyond HBM and the aperture: the interrupt files, and the root ports' windows. -/
def inComplex (a : Nat) : Bool := decide (0x040000000000 ≤ a) && decide (a < 0x050000000000)
def inPorts (a : Nat) : Bool := decide (0x100000000000 ≤ a) && decide (a < 0x200000000000)

/-- The boot ROM, which is read only; the spec gives no contents (Table 18-1). -/
def inRom (a : Nat) : Bool := decide (0x030000000000 ≤ a) && decide (a < 0x030000040000)

/-- The IOMMU refuses an inbound request: it ends as an Unsupported Request or Completer Abort, an empty reply, and is reported in the fault
queue (R434). -/
def State.iommuRefuse (s : State) (a : Nat) : State := ({ s with iommuq := s.iommuq ++ [a] } : State).reply []

/-- A PCIe write at the address the IOMMU gives (Table 2-5): at each home slice every copy is invalidated and the bytes merged; an MSI
reaches its IMSIC file. DESIGN CHOICE (log entry 34): a write of the boot ROM, as one of an unlisted address, ends as an Unsupported Request. -/
def State.pcieStore (s : State) (a : Nat) (bs : List Byte) : State :=
  if inHbm a bs.length then (s.wrOver a bs).voids .host a bs.length
  else if inAperture a then s.apertureWrite a bs 3
  else if inComplex a then
    (if bs.length = 4 ∧ a % 4096 = 0 then { s with irqs := s.irqs ++ [(256, a, ofBytesLE bs)] } else s)
  else if inPorts a then s
  else s.reply []

/-- PCIE_WRITE (R434, R435). -/
def execPcieWrite (s : State) : Out :=
  match s.ev with
  | .mem a bs _ => (match Config.iommu s.free a with
    | some pa => .next (s.pcieStore pa bs)
    | none => .next (s.iommuRefuse a))
  | _ => .next s

/-- Lines held as E or M give up their sole ownership to a reader that keeps nothing: M becomes O (Table 2-5). -/
def State.pcieRead (s : State) (pl : Nat) : State :=
  let (m, o, sh) := s.dirOf pl
  if m = 4 then
    let t : State := { s with cores := s.cores.map (fun x => (x.1, { x.2 with blocks := x.2.blocks.map (fun b =>
      { b with lines := b.lines.map (fun l => if l.st = 4 ∧ l.pl = pl then ⟨3, pl, fullLine, []⟩ else l) }) })) }
    t.setDir pl (3, o, sh)
  else s

/-- A read whose lines are held takes its place in the order of arrival (R160, R161), as a request of the complex: a piece for each
line. -/
def State.pcieWait (s : State) (a n : Nat) : State :=
  let piece (l : Nat) : LaneAcc :=
    let b := max a (128 * l)
    { lane := 0, off := b - a, ia := BitVec.ofNat 64 b, pa := b, size := min (a + n) (128 * l + 128) - b, stage := 1, nc := true,
      hold := if s.lineHeld l then some s.tickets else none }
  let t := s.addReq { kind := .rawLoad, core := 128, slot := pcieSlot, opc := 0x10, lanes := (linesOf a n).map piece, born := s.clock }
  { t with tickets := s.tickets + 1 }

/-- A PCIe read at the address the IOMMU gives. A held line is waited for, and so is the turn of a store made early (R113). The interrupt
files and timers return values the spec does not give. -/
def State.pcieLoad (s : State) (a n : Nat) : State :=
  if inHbm a n then
    let t := (linesOf a n).foldl (fun t l => t.pcieRead l) s
    if (linesOf a n).any s.lineHeld || s.unseen .host a n then t.pcieWait a n
    else (t.reply ((List.range n).map (fun i =>
      if s.poisoned (a + i) 1 then Config.freeByte s.free i else Mem.read s.mem (a + i)))).bump
  else if inAperture a then (s.countStale (bitsOf (a - apertureBase) 19 16)).reply (List.replicate n 0)
  else if inComplex a || inRom a then (s.reply (freeBytes s.free 0 n)).bump
  else if inPorts a then s
  else s.reply []

/-- PCIE_READ (R434). -/
def execPcieRead (s : State) : Out :=
  match s.ev with
  | .mem a _ n => (match Config.iommu s.free a with
    | some pa => .next (s.pcieLoad pa n)
    | none => .next (s.iommuRefuse a))
  | _ => .next s

/-! ### Boot (R436, Tables 18-9 and 18-10) -/

/-- The checks of steps 3 and 4, and D. -/
def bootDigest (image : List Byte) : List Byte :=
  Sha3.hash (image.take 0x20 ++ (image.drop 0x1000).take (wordAt image 0x8 8))

def bootOk (image keyHash : List Byte) (minSvn : Nat) : Bool :=
  let key := (image.drop 0x20).take 1312
  Sha3.hash key == keyHash && decide (minSvn ≤ wordAt image 0x10 4) &&
    Config.mldsaVerify key (bootDigest image) ((image.drop 0x540).take 2420)

/-- BASE_DIE_RESET_RELEASE: from reset, DEVID, LANDBASE and MR0 set, the image is checked; MR1 is extended with D and firmware
entered, or the base die halts with a code. HBM and what has left the device stay as they are. -/
def execBaseDieResetRelease (s : State) : Out :=
  match s.ev with
  | .boot image rom keyHash minSvn dev land =>
    let r : State := { State.reset with
      mem := s.mem
      poison := (s.poison ++ s.hbmBad).eraseDups
      free := s.free + 1
      inbox := s.inbox
      irqs := s.irqs
      outbox := s.outbox
      replies := s.replies }
    let r1 := (r.setDreg 0 ((r.dreg 0 &&& 0xFFFFFFFFFFFFFC00) ||| BitVec.ofNat 64 (dev % 1024))).setDreg 0x58 (land &&& 0x00FFFFFFFC000000)
    let r2 : State := { r1 with mrs := mset r1.mrs 0 rom }
    if bootOk image keyHash minSvn then .next { r2.extend 1 (bootDigest image) with booted := true }
    else .next { r2 with halted := some ((Config.freeW32 s.free 436).toNat) }
  | _ => .next s

end Sys2Proof.Machine
end

