-- ==== Sys2Proof/Machine/Power.lean ====
section
/-! DEFINITION. Power: the power estimate and the budgets it sets (R443 to R447), and the time series (R451, R452). -/

namespace Sys2Proof.Machine
open Sys2Proof

/-! ### The estimate (R444, R445) -/

/-- The points of a cluster's leakage table: temperature and leakage. -/
def State.leakPoints (s : State) (c : Nat) : List (Nat × Nat) :=
  (List.range 8).flatMap (fun j =>
    let w := (s.dreg (0x3200 + 64 * c + 8 * j)).toNat
    [(bitsOf w 31 24, bitsOf w 23 0), (bitsOf w 63 56, bitsOf w 55 32)])

/-- The points in use: up to the first whose temperature does not rise. -/
def risingPrefix : List (Nat × Nat) → List (Nat × Nat)
  | [] => []
  | [p] => [p]
  | p :: q :: r => if p.1 < q.1 then p :: risingPrefix (q :: r) else [p]

/-- interp(T) over points in use; the division rounds down. -/
def interp : List (Nat × Nat) → Nat → Nat
  | [], _ => 0
  | [p], _ => p.2
  | p :: q :: r, t =>
    if t ≤ p.1 then p.2
    else if t ≤ q.1 then (((p.2 : Int) + (((q.2 : Int) - p.2) * ((t : Int) - p.1)).fdiv ((q.1 : Int) - p.1))).toNat
    else interp (q :: r) t

/-- F of R444. -/
def biasFactor (rb : Nat) : Nat := [65536, 55109, 46341, 38968].getD (rb % 4) 0

/-- VREF, with 0 treated as 750. -/
def State.vref (s : State) : Nat := if s.dfld 0x3000 47 36 = 0 then 750 else s.dfld 0x3000 47 36
/-- CAP in watts, with 0 treated as 1. -/
def State.powerCap (s : State) : Nat := max 1 (s.dfld 0x3000 63 48)
/-- The supply of the die of a cluster: four clusters to a die. -/
def State.vdie (s : State) (c : Nat) : Nat := s.dfld (0x3010 + 8 * (c / 4)) 11 0

/-- The leakage of a cluster in mW at a temperature. -/
def State.leak (s : State) (c t : Nat) : Nat :=
  let v := s.vdie c
  let rb := s.dfld (0x3100 + 8 * c) 63 60
  let l := interp (risingPrefix (s.leakPoints c)) t * v * v / (s.vref * s.vref)
  l * biasFactor rb / 2 ^ (16 + rb / 4)

/-- The events of a cluster, weighted, in fJ. -/
def State.weighted (s : State) (c : Nat) : Nat :=
  (List.range 4).foldl (fun a k => a + s.dfld 0x3040 (16 * k + 15) (16 * k) * mget 0 s.counts.events (16 * k + c)) 0

/-- The dynamic power of a cluster in mW. -/
def State.dyn (s : State) (c : Nat) : Nat :=
  let v := s.vdie c
  s.weighted c * v * v / (s.vref * s.vref) / 1000000

/-- The sensor of a cluster in this interval. -/
def State.sensor (s : State) (c : Nat) : Nat := (Config.freeByte s.free c).toNat

/-! ### Budgets (R446, R447) -/

/-- The budget of the next interval. -/
def nextBudget (p cap bud lines bmin step : Nat) : Nat :=
  if p ≤ cap * 1000 then (if bud = 0xFFFF then 0xFFFF else min 0xFFFF (bud + 64 * step))
  else max bmin (lines * cap * 1000 / p)

/-- CLPWRc of the next interval. -/
def State.clpwr (s : State) (c p : Nat) : W64 :=
  let w := s.dfld (0x3100 + 8 * c)
  let bud := nextBudget p s.powerCap (w 51 36) (mget 0 s.counts.lines c) (s.dfld 0x3000 23 8) (s.dfld 0x3000 7 0)
  BitVec.ofNat 64 (w 63 60 * 2 ^ 60 + s.sensor c * 2 ^ 52 + min 0xFFFF bud * 2 ^ 36 + min (2 ^ 18 - 1) (s.leak c (s.sensor c)) * 2 ^ 18 +
    min (2 ^ 18 - 1) (s.dyn c / 4))

/-- P in mW. -/
def State.devicePower (s : State) : Nat :=
  (List.range 16).foldl (fun a c => a + s.leak c (s.sensor c) + s.dyn c) (s.dfld 0x3000 35 24 * 1000)

/-- An interval has ended and its estimate is still to be made. -/
def State.powerDue (s : State) : Bool := decide (0 < s.clock) && s.clock % 4000 == 0 && s.counts.power != s.clock

/-- POWER_INTERVAL_END (R444, R446): estimates, budgets, and the counts of a new interval. -/
def execPowerIntervalEnd (s : State) : Out :=
  if !s.powerDue then .next s
  else
    let p := s.devicePower
    let w := (s.dreg 0x3008).toNat
    let n := if s.powerCap * 1000 < p then satInc 32 (w / 2 ^ 32) else w / 2 ^ 32
    let low := if p < 2 ^ 32 then p else (Config.freeW32 s.free 444).toNat
    let t1 := (List.range 16).foldl (fun t c => t.setDreg (0x3100 + 8 * c) (s.clpwr c p)) s
    .next (({ t1 with counts := { t1.counts with events := [], lines := [], power := s.clock } } : State).setDreg 0x3008
      (BitVec.ofNat 64 (n * 2 ^ 32 + low))).bump

/-! ### The time series (R451, R452) -/

/-- K, clamped to 10 to 24. -/
def State.obsK (s : State) : Nat := max 10 (min 24 (s.dfld 0x3600 61 57))

/-- An observation counter as a latch takes it. -/
def State.obsCount (s : State) (kind i j : Nat) : Nat := min (2 ^ 32 - 1) (mget 0 s.counts.tick (2 ^ 20 * kind + 2 ^ 10 * i + j))

/-- A field of four bytes. -/
def b4 (n : Nat) : List Byte := bytesLE 4 (min (2 ^ 32 - 1) n)

/-- The records of a tick (Table 19-9). -/
def State.obsRecord (s : State) (tick kind i : Nat) : List Byte :=
  let head := b4 tick ++ bytesLE 1 kind ++ bytesLE 1 i ++ bytesLE 2 0
  match kind with
  | 1 => head ++ (List.range 14).flatMap (fun j => b4 (s.obsCount 1 i j))
  | 2 => head ++ (List.range 9).flatMap (fun j => b4 (s.obsCount 2 i j)) ++ List.replicate 20 0
  | _ =>
    let w := s.dfld (0x3100 + 8 * i)
    head ++ b4 (w 51 36) ++ b4 (s.obsCount 3 i 1) ++ b4 (s.obsCount 3 i 2) ++ b4 (w 35 18) ++ b4 (w 17 0) ++ b4 (w 59 52) ++
      b4 (s.obsCount 3 i 6) ++ List.replicate 28 0

/-- The block of a tick: 16 KiB. -/
def State.obsBlock (s : State) (tick : Nat) : List Byte :=
  (List.range 128).flatMap (s.obsRecord tick 1) ++ (List.range 64).flatMap (s.obsRecord tick 2) ++
    (List.range 16).flatMap (s.obsRecord tick 3) ++ List.replicate 3072 0

/-- A tick is due at this clock. -/
def State.obsDue (s : State) : Bool :=
  (s.dreg 0x3600).getLsbD 63 && s.clock % 2 ^ s.obsK == 0 && decide (s.obsFrom ≤ s.clock) && s.obsTick != s.clock + 1

/-- The block is written, 128 lines of full-line writes at their home slices. -/
def State.obsWrite (s : State) (pa : Nat) (bs : List Byte) : State :=
  (List.range 128).foldl (fun t i => t.lineWrite (pa + 128 * i) ((bs.drop (128 * i)).take 128)) s

/-- OBS_TICK (R451, R452): the first latch after a restart starts the counts; each later one is written, or dropped. -/
def execObsTick (s : State) : Out :=
  if !s.obsDue then .next s
  else
    let cfg := s.dreg 0x3600
    let tick := s.clock / 2 ^ s.obsK % 2 ^ 32
    let clear (t : State) : State := { t with counts := { t.counts with tick := [] }, obsTick := s.clock + 1 }
    if s.obsFrom = s.clock then .next (clear s)
    else
      let idx := (s.dreg 0x3608).toNat
      let tail := idx / 2 ^ 32
      let head := idx % 2 ^ 32
      let size := 2 ^ (cfg.toNat % 16)
      let full := (tail + 2 ^ 32 - head) % 2 ^ 32 == size
      let lose (t : State) : State := t.setDreg 0x3610 (BitVec.ofNat 64 (satInc 32 (s.dreg 0x3610).toNat))
      if full && cfg.getLsbD 62 then .next (clear (lose s))
      else
        let s1 := if full then lose s else s
        let h := if full then (head + 1) % 2 ^ 32 else head
        let pa := bitsOf cfg.toNat 55 14 * 2 ^ 14 + 16384 * (tail % size)
        let s2 := (s1.obsWrite pa (s.obsBlock tick)).setDreg 0x3608 (BitVec.ofNat 64 ((tail + 1) % 2 ^ 32 * 2 ^ 32 + h))
        .next (clear s2).bump

/-- OBSCFG_WRITE (R452): counters and ticks restart from the next multiple of 2^K. -/
def execObscfgWrite (s : State) : Out :=
  match s.ev with
  | .reg off v size =>
    if size ≠ 8 then .next s
    else
      let t := s.setDreg off (v &&& 0xFEFFFFFFFFFFC00F)
      let p := 2 ^ t.obsK
      .next { t with obsFrom := (s.clock / p + 1) * p, counts := { t.counts with tick := [] } }
  | _ => .next s

/-- OBSLOST_CLEAR (R452): a write of 0 clears it. -/
def execObslostClear (s : State) : Out :=
  match s.ev with
  | .reg off v size => if size = 8 ∧ v = 0 then .next (s.setDreg off 0) else .next s
  | _ => .next s

end Sys2Proof.Machine
end

