-- ==== Sys2Proof/Machine/Clock.lean ====
section
/-! DEFINITION. Clock: the end of a clock (R186, R209, R449 to R451), and what may happen next: the work that is due at this clock,
and the events, issues among them, whose order the spec leaves open (R6, R110). -/

namespace Sys2Proof.Machine
open Sys2Proof

/-- The die, if any, whose VDIEd has been written below its fused minimum (R443); 4 is the base die. The fused value itself is none such. -/
def State.belowMinimum (s : State) : Option Nat :=
  (List.range 5).find? (fun d => match mget? s.dregs (0x3010 + 8 * d) with
    | some v => decide (v.toNat + Config.margin d < (Config.fused (0x3010 + 8 * d)).toNat)
    | none => false)

/-! ### The end of a clock -/

/-- Gangs of a core, each with its slot. -/
def State.allGangs (s : State) : List (Nat × Nat × Gang) := s.cores.flatMap (fun x => x.2.gangs.map (fun g => (x.1, g.1, g.2)))

/-- A part inside a wait of a kind. -/
def WaitC.atFlag : WaitC → Bool
  | .flag _ _ => true
  | _ => false
def WaitC.atBarrier : WaitC → Bool
  | .bar _ _ _ | .sbar _ _ => true
  | _ => false

/-- Counters 5 to 7 of the parts of a gang that is not frozen, for a clock (Table 19-8). -/
def State.countParts (s : State) (c slot : Nat) : State :=
  let g := s.gang c slot
  if g.frozen then s
  else
    let n (f : Nat × Part → Bool) : Nat := (g.parts.filter f).length
    ((s.pmcAdd c g.cslot 5 (n (fun p => s.candidate c slot p.1))).pmcAdd c g.cslot 6 (n (fun p => p.2.wait.atFlag))).pmcAdd c g.cslot 7
      (n (fun p => p.2.wait.atBarrier))

/-- Counter 15 of every crew with a gang resident and not parked. -/
def State.countCrews (s : State) : State :=
  s.cores.foldl (fun t x => x.2.crews.foldl (fun t w => if w.2.phase == .parked then t else t.pmcAdd x.1 w.1 15 1) t) s

/-- One clock of a core in the time series (Table 19-9). -/
def State.observeCore (s : State) (c : Nat) : State :=
  let k := s.core c
  let t := (List.range 4).foldl (fun t q =>
    if mget? k.issued q = some s.clock then t.observe 1 c q 1
    else if k.gangs.any (fun g => partOf g.1 == q) then t.observe 1 c (4 + q) 1
    else t) s
  let held := (List.range 4).filter (fun q => (mget? k.hold q).any (s.clock < ·))
  let t1 := t.observe 1 c 8 held.length
  let t2 := if s.reqs.any (fun r => r.2.core == c && r.2.lanes.any (s.heldPiece r.2)) then t1.observe 1 c 12 1 else t1
  if k.log.any (fun e => e.2.state == 1) || k.skid.any (fun e => e.2.state == 3) then t2.observe 1 c 13 1 else t2

/-- Lines that prepared groups hold. -/
def State.heldLines (s : State) : List Nat := ((s.landing.map (·.pa)).filter s.lineHeld).eraseDups

/-- One clock of the time series, while it is on (R451). -/
def State.observeClock (s : State) : State :=
  if !(s.dreg 0x3600).getLsbD 63 then s
  else
    let t := s.cores.foldl (fun t x => t.observeCore x.1) s
    t.heldLines.foldl (fun t l => t.observe 2 (homeSlice (128 * l)) 8 1) t

/-- A 2.0 GHz clock begins with this one. -/
def State.baseStart (s : State) : Bool := s.clock % 2 == 0

/-- A unit whose patterns stay eligible fires once more in each 2.0 GHz clock (R369); a quiescing crew's late pops are withdrawn
(R410). -/
def State.background (s : State) : State :=
  let t := s.join.foldl (fun t u => if u.2.busy && s.baseStart then State.fireOn (u.2.services + 1) t u.1 else t) s
  t.cores.foldl (fun t x => x.2.crews.foldl (fun t w => if w.2.phase == .quiescing then t.withdraw x.1 w.1 else t) t) t

/-- The end of a clock: waits are tested, counters advance, and the next one begins. -/
def State.tick (s : State) : State :=
  let t := s.testWaits
  let t1 := (t.allGangs.foldl (fun t g => t.countParts g.1 g.2.1) t).countCrews.observeClock
  let t2 : State := { t1 with clock := s.clock + 1, free := t1.free + 1 }
  { t2.background with admitting := !t2.launches.isEmpty && t2.baseStart }

/-! ### Work due at this clock -/

/-- Events of the agenda that come at a clock of their own. -/
def State.timed (s : State) (p : Pending) : Bool :=
  match p.op, p.arg with
  | .waitTimerExpiry, .part c slot lead =>
    (match ((s.gang c slot).part lead).wait with | .timer u _ => decide (u ≤ s.clock) | _ => true)
  | .rsptoExpiry, _ | .preptoExpiry, _ | .throttleExpiry, _ => decide (p.due ≤ s.clock)
  | _, .sysw _ _ _ _ => decide (p.due ≤ s.clock)
  | _, _ => false

/-- An asynchronous trap of a running gang comes after what its parts meet in this clock: a bundle that may still issue, with its
precise conditions, and a wait that traps (R400). -/
def State.asyncTurn (s : State) (c slot : Nat) : Bool :=
  let g := s.gang c slot
  !g.canTrap || ((s.select c (partOf slot)).all (·.1 != slot) &&
    !g.parts.any (fun p => decide (p.2.tests ≤ s.clock) && (match s.testWait c slot p.2.wait with | .trap _ => true | _ => false)))

/-- Work of a gang that is due: a fixed-latency write, its trap frame, a pending asynchronous error, and a watchpoint match that was
pending at its ERET (R400). -/
def State.gangDue (s : State) (x : Nat × Nat × Gang) : List Pending :=
  let ev (op : Instr) : List Pending := [{ op := op, arg := .gang x.1 x.2.1 }]
  (if x.2.2.pend.any (fun p => decide (p.due ≤ s.clock)) then ev .fixedLatencyWriteback else []) ++
    (if s.frameDue x.1 x.2.1 then ev .trapFrameWrite else []) ++
    (if x.2.2.asyncErr && x.2.2.canTrap && s.asyncTurn x.1 x.2.1 then ev .asyncErrorTaken else []) ++
    (if x.2.2.watchDue && x.2.2.watch.isSome && x.2.2.canTrap then ev .watchpointTrap else [])

/-- What is due at this clock, in the order it is taken. -/
def State.due (s : State) : List Pending :=
  (if s.powerDue then [{ op := .powerIntervalEnd, arg := .none }] else []) ++
    (if s.admitting then [{ op := .admission, arg := .none }] else []) ++
    (if s.obsDue then [{ op := .obsTick, arg := .none }] else []) ++
    (if s.scrubDue then [{ op := .scrubUnitRead, arg := .none }] else []) ++
    s.allGangs.flatMap s.gangDue ++
    (s.reqs.filter (fun r => (r.2.kind == .mrel || (r.2.kind == .stg && r.2.peer.isNone && r.2.lanes.isEmpty)) && decide (r.2.born < s.clock))).map
      (fun r => { op := .memoryOpComplete, arg := .req r.1 0 }) ++ s.agenda.filter s.timed

/-! ### Requests -/

/-- An event of piece i of a request. -/
def pieceEvent (op : Instr) (id i : Nat) : List Pending := [{ op := op, arg := .req id i }]

/-- The lane's first piece of a load has not come to its attribute, which decides how the lane is read (R101, R267). What lies on
the first piece's page at a peer goes with it (R148). -/
def Req.undecoded (r : Req) (l : LaneAcc) : Bool :=
  r.kind == .load && r.peer.isNone && l.fmt == 0 && l.off != 0 &&
    r.lanes.any (fun m => m.lane == l.lane && m.off == 0 && m.fmt == 0 && m.stage != 2 && m.stage != 4 &&
      !(m.path == 3 && m.ia.toNat / 4096 == l.ia.toNat / 4096))

/-- An earlier lane of a port store has not gone to its port (R362). -/
def Req.behindPort (r : Req) (i : Nat) (l : LaneAcc) : Bool :=
  l.path == 4 && (r.lanes.take i).any (fun m => m.path == 4 && (m.stage == 0 || m.stage == 1 || (m.stage == 6 && m.peer == 0)))

/-- What in its own request holds a translated piece back (R72, R362). -/
def Req.waits (i : Nat) (r : Req) (l : LaneAcc) : Bool := r.undecoded l || r.behindLane l || r.behindPort i l

/-- What else holds a translated piece back within its gang (R72, R113, R362). -/
def State.stuck (s : State) (i : Nat) (r : Req) (l : LaneAcc) : Bool := !s.inTurn r l || Req.waits i r l

/-- An access that a migration or a held line made wait, free to go otherwise, arrived before piece `l` and has not gone on: on its
page, or among the reads of its line (R161, R169). -/
def State.behindArrival (s : State) (l : LaneAcc) (same : Req → LaneAcc → Bool) : Bool :=
  s.reqs.any (fun q => ((List.range q.2.lanes.length).zip q.2.lanes).any (fun m =>
    m.2.hold.any (fun t => l.hold.all (t < ·)) && same q.2 m.2 && !s.stuck m.1 q.2 m.2))

/-- Held by its page's migration and not yet past translation, or not yet sent on to the page's new home. -/
def LaneAcc.onPage (l : LaneAcc) (r q : Req) (m : LaneAcc) : Bool :=
  q.ctx == r.ctx && m.ia.toNat % 2 ^ 57 / 4096 == l.ia.toNat % 2 ^ 57 / 4096 && (m.stage == 0 || (l.stage == 1 && m.stage == 1 && m.path == 3))

/-- A fill of a line into a core is on its way; one of its physical line into the cluster under another pair (R70). -/
def State.fillComing (s : State) (c ctx line : Nat) : Bool :=
  s.agenda.any (fun p => p.op == .stashLineFill && (match p.arg with | .line c' x l _ => c' == c && x == ctx && l == line | _ => false))
def State.aliasComing (s : State) (c ctx line pl : Nat) : Bool :=
  s.agenda.any (fun p => p.op == .stashLineFill && (match p.arg with
    | .line c' x l q => q == pl && c' / 8 == c / 8 && !(x == ctx && l == line)
    | _ => false))

/-- A piece that needs its line in the core: an alias in the cluster is recalled first (R70), then the directory is asked. -/
def State.lineEvent (s : State) (r : Req) (l : LaneAcc) (need : Nat) : List Pending :=
  let line := l.ia.toNat % 2 ^ 57 / 128
  let pl := l.pa / 128
  if s.fillComing r.core r.ctx line || s.aliasComing r.core r.ctx line pl || s.lineHeld pl then []
  else match (s.holders pl).find? (fun h => h.1 / 8 == r.core / 8 && !(h.2.1 == r.ctx && h.2.2 == line)) with
    | some h => [{ op := .coherenceRecall, arg := .line h.1 h.2.1 h.2.2 0 }]
    | none =>
      if !s.budgetOk r.core then []
      else [{ op := if need = 1 then .directoryRead else .directoryOwnership, arg := .line r.core r.ctx line pl }]

/-- An access that waited for the budget of a core's cluster can have its line now: it is granted before a write-back (R447). -/
def State.arbReady (s : State) (c : Nat) : Bool :=
  s.reqs.any (fun q => q.2.core / 8 == c / 8 && ((List.range q.2.lanes.length).zip q.2.lanes).any (fun m =>
    let line := m.2.ia.toNat % 2 ^ 57 / 128
    m.2.arb.isSome && s.atArbiter q.2 m.2 && !s.stuck m.1 q.2 m.2 && !s.lineHeld (m.2.pa / 128) &&
      !s.fillComing q.2.core q.2.ctx line && !s.aliasComing q.2.core q.2.ctx line (m.2.pa / 128)))

/-- The write-backs that an allocation of a core waits for, while its budget lasts (R62, R447). -/
def State.makeWay (s : State) (c ctx base n : Nat) : List Pending :=
  if s.budgetOk c && !s.arbReady c then s.roomEvents c ctx base n else []

/-- Piece `m` reads the physical line of `l`, for which it may have waited. -/
def waitedFor (l : LaneAcc) (q : Req) (m : LaneAcc) : Bool :=
  m.stage == 1 && (m.path == 0 || m.path == 6) && (!q.writes || q.atomic) && m.pa / 128 == l.pa / 128

/-- A translated piece on a page of HBM. -/
def State.memEvent (s : State) (id i : Nat) (r : Req) (l : LaneAcc) : List Pending :=
  let go := pieceEvent .memoryAccessPerform id i
  let line := l.ia.toNat % 2 ^ 57 / 128
  let held := s.lineHeld (l.pa / 128)
  if r.kind == .lblk && l.lane == 0 then
    (match s.stashRoom r.core r.ctx line (r.dest % 64 + 1) with
     | .ok _ => go
     | .error _ => s.makeWay r.core r.ctx line (r.dest % 64 + 1))
  else if r.kind == .blkwb || r.kind == .blkdrop then (if s.heldPiece r l && l.arb.isSome then [] else go)
  else if r.kind == .stg then go
  else if (!r.writes || r.atomic) && (s.unseen r.agent l.pa l.size || (l.sva.isSome && s.unseen r.agent l.spa 1)) then []
  else if s.heldRead r l then (if l.hold.isNone then go else [])
  else if (!r.writes || r.atomic) && s.behindArrival l (waitedFor l) then []
  else
    let need := s.lineNeed r.core r.ctx l r.writes
    if r.copying || r.atomic || r.peer.isSome || l.nc || need = 0 || (r.kind == .pref && r.dest == 1) || (held && r.writes) then
      (if s.heldPiece r l && l.arb.isSome then [] else go)
    else if s.heldPiece r l && l.arb.isNone then go
    else s.lineEvent r l need

/-- Other lanes of the faulting part are not yet known to fault: they are on the same page (R45). -/
def Req.partOpen (r : Req) (l : LaneAcc) : Bool :=
  r.lanes.any (fun m => m.stage == 0 && !r.undecoded m && m.ia.toNat % 2 ^ 57 / 4096 == l.ia.toNat % 2 ^ 57 / 4096)

/-- Other pieces of a line that has moved to a peer are still to be translated: they go in the same request (R148). -/
def Req.lineOpen (r : Req) (l : LaneAcc) : Bool :=
  l.fwds != 0 && r.lanes.any (fun m => m.stage == 0 && !r.undecoded m && m.ia.toNat / 128 == l.ia.toNat / 128)

/-- What may happen to a translated piece. -/
def State.translated (s : State) (id i : Nat) (r : Req) (l : LaneAcc) : List Pending :=
  if Req.waits i r l || (r.kind == .stg && r.peer.isNone) then []
  else if !s.inTurn r l then (if !l.early && s.mayEarly r l && !s.heldRead r l then s.memEvent id i r l else [])
  else if l.early && !s.heldRead r l then pieceEvent .memoryAccessPerform id i
  else if l.path = 0 ∨ l.path = 6 then s.memEvent id i r l
  else if l.path = 3 then
    (if s.heldPiece r l then (if l.arb.isNone then pieceEvent .memoryAccessPerform id i else [])
     else if r.lineOpen l || s.behindArrival l (l.onPage r) then [] else pieceEvent .memoryAccessPerform id i)
  else if l.isPeer r then pieceEvent .peerWriteArrival id i
  else pieceEvent .memoryAccessPerform id i

/-- A group event or STG of the core for the same group comes before a request (R326). -/
def State.groupBehind (s : State) (id : Nat) (r : Req) : Bool :=
  s.reqs.any (fun q => decide (q.1 < id) && q.2.core == r.core && q.2.ctx == r.ctx && q.2.z == r.z && q.2.peer.isNone &&
    (q.2.kind == .gopen || q.2.kind == .gend || (q.2.kind == .stg && !q.2.atTable)))

/-- An STG whose turn at the origin's table has come (R326, R291). -/
def State.stgTurn (s : State) (id : Nat) (r : Req) : Bool :=
  r.kind == .stg && r.peer.isNone && !r.lanes.isEmpty && !r.atTable && r.lanes.all (s.inTurn r) && !s.groupBehind id r && decide (r.born < s.clock)

/-- An access that waited for the budget of a core's cluster, arrived before one with ticket `a` (`none`: a new arrival), can go on
(R447). -/
def State.arbWaits (s : State) (core : Nat) (a : Option Nat) : Bool :=
  s.reqs.any (fun q => q.2.core / 8 == core / 8 && ((List.range q.2.lanes.length).zip q.2.lanes).any (fun m =>
    m.2.arb.any (fun t => a.all (t < ·)) && s.atArbiter q.2 m.2 && (!(s.translated q.1 m.1 q.2 m.2).isEmpty || s.stgTurn q.1 q.2)))

/-- What may happen to a piece of a request. -/
def State.pieceMoves (s : State) (id i : Nat) (r : Req) (l : LaneAcc) : List Pending :=
  let page := l.ia.toNat % 2 ^ 57 / 4096
  if l.stage = 0 then
    (if r.undecoded l || (s.migrating r.ctx page && l.hold.isSome) || (!s.migrating r.ctx page && s.behindArrival l (l.onPage r)) then []
     else pieceEvent .translateAccess id i)
  else if l.stage = 1 then
    (if s.atArbiter r l && s.budgetOk r.core && s.arbWaits r.core l.arb then [] else s.translated id i r l)
  else if l.stage = 3 ∧ r.peer.isNone ∧ r.slot < 64 then
    (if r.partOpen l then [] else if (s.core r.core).log.length < 256 ∨ (s.core r.core).log.any (fun e => e.2.req == id && e.2.state == 3) then
      pieceEvent .faultReturnToLog id i else [])
  else []

/-- An access that a MARK covers is complete: a load has written its destination, a store is performed (R116). -/
def State.ended (s : State) (id : Nat) : Bool :=
  match s.req id with
  | some r => !(inLoadQ r.opc && !inStoreQ r.opc) && s.settled id
  | none => true

/-- A load may complete: what queue order, acquires and fences put before it is done (R47, R113, R145). A MARK orders its pieces alone. -/
def State.loadTurn (s : State) (r : Req) : Bool :=
  r.reasons.all (fun d => if d.2.1.testBit 0 then s.settled d.1 else r.lanes.all (fun l => !s.binds r l d.1 (d.2.1 % 4)))

/-- What may happen to a request as a whole. A load of a gang completes behind the earlier ones it is ordered after (R47). -/
def State.wholeMoves (s : State) (id : Nat) (r : Req) : List Pending :=
  if (64 ≤ r.slot ∧ r.slot < scaleSlot) ∨ r.slot = unitSlot ∨ r.kind = .gopen ∨ r.kind = .gend ∨ r.kind = .mrel then []
  else if r.kind = .stg ∧ r.peer.isNone ∧ !r.lanes.isEmpty ∧ !r.atTable then
    (if s.stgTurn id r && (if s.budgetOk r.core then !s.arbWaits r.core (r.lanes.findSome? (·.arb)) else r.lanes.any (fun l => s.atArbiter r l && l.arb.isNone)) then
      pieceEvent .stgAtTable id 0 else [])
  else if !r.performed ∨ s.clock ≤ r.born then []
  else if r.kind = .mark then (if r.deps.all s.ended then pieceEvent .memoryOpComplete id 0 else [])
  else if r.kind = .fence ∧ !r.deps.all s.settled then []
  else if inLoadQ r.opc ∧ r.peer = none ∧ !s.loadTurn r then []
  else pieceEvent .memoryOpComplete id 0

/-- What may happen to the requests in progress. -/
def State.reqMoves (s : State) : List Pending :=
  s.reqs.flatMap (fun r =>
    (List.range r.2.lanes.length).flatMap (fun i => s.pieceMoves r.1 i r.2 (r.2.lanes.getD i { lane := 0 })) ++ s.wholeMoves r.1 r.2)

/-! ### Events that wait their turn -/

/-- The join unit an event acts on. -/
def State.eventUnit (s : State) (p : Pending) : Option Nat :=
  match p.op, p.arg with
  | .messageArrival, .msg m => some (bitsOf m.handle 19 16)
  | .messageArrival, .packet q => some (bitsOf q.va 19 16)
  | .queuePush, .core c => (s.supQueue c).map Prod.fst
  | .engstopCommandDone, .core c => if (s.core c).notices.isEmpty then (s.supQueue c).map Prod.fst else none
  | .queueRefillDone, .queue u _ _ | .queueRingWriteDone, .queue u _ _ => some u
  | .portCreate, .req id _ => (s.req id).map (fun r => bitsOf (r.word 0) 55 52)
  | .queueCreate, .req id _ => (s.req id).map (fun r => bitsOf (r.word 0) 56 53)
  | .queueDestroy, .req id _ => (s.req id).map (fun r => bitsOf (r.word 0) 19 16)
  | .portModify, .req id _ | .portDestroy, .req id _ => (s.req id).map (fun r => bitsOf (r.word 2) 19 16)
  | .patternClaim, .req id _ | .patternRewrite, .req id _ | .patternRelease, .req id _ => (s.req id).map (fun r => bitsOf (r.word 4) 19 16)
  | .queuePush, .req id i | .queuePopRequest, .req id i | .queueTryRequest, .req id i =>
    (s.req id).bind (fun r => (r.lanes[i]?).map (fun l => bitsOf l.pa 19 16))
  | _, _ => none

/-- The place of a core's event among those that reach unit `u` in one clock: the cluster's own cores first, then the others (R369).
`slot` is 0 for an M slot, 2 for a C slot. -/
def coreRank (u core part slot : Nat) : Nat :=
  if core / 8 = u then 32 * core + 4 * part + slot else 2 ^ 12 + core

/-- The place of a request's event: a peer's comes with the UALink arrivals. -/
def Req.unitRank (r : Req) (u : Nat) : Nat :=
  if r.peer.isSome then 2 ^ 14 else coreRank u r.core (partOf r.slot) (if r.kind == .join then 2 else 0)

/-- The place of an event among those that reach unit `u` in one clock (R369): own cores, other clusters' cores, lot and skidder
completions, UALink (whose ports no program sees, R149), application cores and PCIe. Queue-ring work of the unit itself has none. -/
def State.eventRank (s : State) (u : Nat) (p : Pending) : Option Nat :=
  match p.op, p.arg with
  | .messageArrival, .msg m =>
    if m.source = 2 ∨ m.source = 3 then some (2 ^ 15)
    else if m.source = 4 ∨ m.source = 5 then some (2 ^ 13)
    else some (match s.req m.req with | some r => r.unitRank u | none => coreRank u m.core 0 0)
  | .messageArrival, .packet _ => some (2 ^ 14)
  | .queuePush, .core c | .engstopCommandDone, .core c => some (coreRank u c 0 0)
  | .queueRefillDone, _ | .queueRingWriteDone, _ => none
  | _, .req id _ => (s.req id).map (·.unitRank u)
  | _, _ => none

/-- The firing that reaches the controller next: in firing order, those of one 2.0 GHz clock by ascending cluster (R384, R419). -/
def State.nextFired (s : State) : Option Pending :=
  let cluster (p : Pending) : Nat := match p.arg with | .fire _ _ w _ _ _ => w / 64 | _ => 16
  (s.agenda.filter (fun p => p.op == .firingAtController)).foldl (fun o p => match o with
    | none => some p
    | some q => if p.due < q.due ∨ (p.due = q.due ∧ cluster p < cluster q) then some p else o) none

/-- No later event of this clock's order has come before it to its unit (R369); firings come to the controller in their order (R384). -/
def State.unitTurn (s : State) (p : Pending) : Bool :=
  match s.eventUnit p with
  | none => (match p.arg with
    | .fire _ _ _ _ _ _ => s.nextFired == some p
    | _ => true)
  | some u =>
    let x := s.unit u
    !x.busy && (x.last.1 != s.baseClock || (s.eventRank u p).all (x.last.2 ≤ ·))

/-- An access that a migration made wait comes to the page's new home after those sent before it (R169). -/
def State.packetTurn (s : State) (p : Packet) : Bool :=
  p.b != 1 || ((s.inbox ++ s.agenda).find? (fun q => q.op == .remoteRequestArrival && (match q.arg with
    | .packet x => x.b == 1 && x.dev == p.dev && x.ctx == p.ctx && x.va / 4096 == p.va / 4096
    | _ => false))).all (fun q => q.arg == .packet p)

/-- A record can be written: it is the oldest of its ring, and the ring has room (R428). -/
def State.recordReady (s : State) (ring seq : Nat) : Bool :=
  let frb := (s.dreg (0x100 + 16 * ring)).toNat
  let fri := (s.dreg (0x108 + 16 * ring)).toNat
  let first := s.recs.find? (fun r => r.ring == ring && !r.written)
  !(s.recs.any (fun r => r.ring == ring && r.seq == seq)) ||
    (first.any (fun r => r.seq == seq) && decide (frb / 2 ^ 60 ≤ 10) &&
      decide ((fri / 2 ^ 32 + 2 ^ 32 - fri % 2 ^ 32) % 2 ^ 32 < 2 ^ (frb / 2 ^ 60 + 6)))

/-- A line comes for which the core has no room yet: its implicit block's write-backs (R62, R64). -/
def State.fillWaits (s : State) (c ctx line pl : Nat) : Option (List Pending) :=
  if !(s.dirOf pl).2.2.testBit (c / 8) || (!(s.askers c ctx line).isEmpty && (stashAsks (s.askers c ctx line)).isEmpty) || ((s.core c).block? ctx line).isSome then none
  else match s.stashRoom c ctx line 1 with
    | .ok _ => none
    | .error _ => some (s.makeWay c ctx line 1)

/-- No unit that holds join objects of a context is in the midst of an event (R369). -/
def State.joinIdle (s : State) (ctx : Nat) : Bool :=
  s.join.all (fun u => !u.2.busy || !(u.2.ports.any (fun p => p.2.created && p.2.ctx == ctx) || u.2.pats.any (fun p => p.2.claimed && p.2.ctx == ctx) ||
    u.2.queues.any (fun q => q.2.created && q.2.ctx == ctx)))

/-- An event of the agenda may happen now. -/
def State.ready (s : State) (p : Pending) : Bool :=
  decide (p.due ≤ s.clock) && s.unitTurn p &&
    (match p.op, p.arg with
     | .waitTimerExpiry, _ | .rsptoExpiry, _ | .preptoExpiry, _ | .throttleExpiry, _ => false
     | _, .sysw _ _ _ _ | .scrubUnitRead, _ => false
     | .faultRecordWrite, .fault ring seq _ => s.recordReady ring seq
     | .queueRefillDone, .queue u k _ => s.ringReady u k true
     | .queueRingWriteDone, .queue u k _ => s.ringReady u k false
     | .commitPrepareSend, .group ctx g _ => s.prepareDue ctx g
     | .prepareAnswerSend, .dest q => !s.prepareWaits q
     | .gopenAtTable, .group _ _ id | .gcommitAtTable, .group _ _ id =>
       (match s.req id with | some r => decide (r.born < s.clock) && !s.groupBehind id r | none => true)
     | .directoryWriteback, .line c _ _ _ => s.budgetOk c && !s.arbReady c
     | .directoryRead, .line c _ _ pl | .directoryOwnership, .line c _ _ pl =>
       !(ofComplex c && (s.lineHeld pl || s.unseen .host (128 * pl) 128))
     | .stashLineFill, .line c ctx line pl => (s.fillWaits c ctx line pl).isNone
     | .remoteRequestArrival, .packet p => s.packetTurn p
     | .ctxNotLiveDone, .host ctx _ => s.dying ctx && s.ctxIdle ctx && s.joinIdle ctx
     | .ctxMakeNotLive, .reg _ v _ => s.joinIdle (v.toNat % 4096)
     | .asyncErrorTaken, .gang c slot => !(s.gang c slot).asyncErr || s.asyncTurn c slot
     | _, _ => true)

/-- What may happen in a core: engines, its log, fetches, releases, and commands of its supervisor. -/
def State.coreMoves (s : State) (c : Nat) (k : Core) : List Pending :=
  let one (b : Bool) (op : Instr) (arg : Event) : List Pending := if b then [{ op := op, arg := arg }] else []
  k.skid.flatMap (fun e => one (s.skidDue c e.1) .skidderUnitDone (.entry c e.1) ++ one (s.skidEnding c e.1) .skidderComplete (.entry c e.1)) ++
    one (s.millDue c) .millCommandDone (.core c) ++
    k.mill.queue.flatMap (fun q => one (s.mreadyDue c q.id) .mreadyDone (.entry c q.id)) ++
    one k.mill.grantee.isSome .millGrant (.core c) ++
    k.log.flatMap (fun e => one (e.2.state == 2 && !e.2.held &&
      [CrewPhase.running, .quiescing].contains (s.crew c (s.gang c e.2.slot).cslot).phase) .replay (.entry c e.1)) ++
    k.gangs.flatMap (fun g =>
      one (g.2.ended && g.2.pend.isEmpty && g.2.flags.all (fun f => f.2.count == 0)) .gangRelease (.gang c g.1) ++
      one (g.2.watch.isSome && g.2.canTrap && s.asyncTurn c g.1) .watchpointTrap (.gang c g.1) ++
      g.2.parts.flatMap (fun p => one (s.fetchDue c g.1 p.1) .bundleFetchReturn (.part c g.1 p.1))) ++
    (k.gtag.filter (fun t => k.zeroDue t.1)).flatMap (fun t => one true .granuleZeroed (.entry c t.1)) ++
    one (s.quiesceDue c) .quiesceDrained (.core c) ++
    one (s.engEnding c && s.unitTurn { op := .engstopCommandDone, arg := .core c }) .engstopCommandDone (.core c) ++
    one (s.engDue c) (match k.engstop.cmd with | 2 => .engstopPark | 3 => .engstopUnpark | _ => .engstopRestoreRequest) (.core c)

/-- What may happen anywhere else. -/
def State.deviceMoves (s : State) : List Pending :=
  s.fills.map (fun f => { op := .fillComplete, arg := .page f.ctx f.vpn }) ++
    (match s.ticq with | w :: _ => if s.ticBusy w then [] else [{ op := .ticFinish, arg := .none }] | [] => []) ++
    ((List.range 16).filter s.tmplDue).map (fun t => { op := .templateReadDone, arg := .launch t })

/-- The bundle each core issues next at this clock: its partitions take their turns in ascending order (R261, R325, R344). -/
def State.issues (s : State) : List Pending :=
  s.cores.flatMap (fun x => (((List.range 4).filter (fun q => (x.2.issued.all (fun y => decide (y.1 ≤ q) || y.2 != s.clock)))).findSome? (fun q =>
    (s.select x.1 q).map (fun y => ({ op := .bundleIssue, arg := .part x.1 y.1 y.2 } : Pending)))).toList)

/-- Write-backs that make room for lines on their way. -/
def State.wayMoves (s : State) : List Pending :=
  s.agenda.flatMap (fun p => match p.op, p.arg with
    | .stashLineFill, .line c ctx line pl => (s.fillWaits c ctx line pl).getD []
    | _, _ => [])

/-- What may happen next; `none` stands for the end of the clock, which comes only once every partition has issued. -/
def State.moves (s : State) : List (Option Pending) :=
  let is := s.issues
  (s.reqMoves ++ s.cores.flatMap (fun x => s.coreMoves x.1 x.2) ++ s.deviceMoves ++ s.wayMoves ++ (s.agenda ++ s.inbox).filter s.ready ++ is).map some ++
    (if is.isEmpty then [none] else [])

/-- The move taken: what is due, else the only one, else one of them by the spec's free choice. -/
def State.nextMove (s : State) : Option Pending :=
  match s.due with
  | p :: _ => some p
  | [] => match s.moves with
    | [] => none
    | [m] => m
    | m :: ms => ((m :: ms)[Config.choose s.free (ms.length + 1) % (ms.length + 1)]?).getD m

/-- The event's place in its clock's order at its unit (R369), which the window shows as it was before (R383). -/
def State.noteTurn (s : State) (p : Pending) : State :=
  match s.eventUnit p with
  | none => s
  | some u =>
    let t := s.seeUnit u
    match s.eventRank u p with
    | none => t
    | some k => t.setUnit u { t.unit u with last := (s.baseClock, k) }

/-- The state in which an event runs: its operands at hand, itself no longer pending. -/
def State.begin (s : State) (p : Pending) : State :=
  let t := s.noteTurn p
  { t with ev := p.arg, agenda := t.agenda.erase p, inbox := t.inbox.erase p, free := t.free + 1 }

end Sys2Proof.Machine
end

