-- ==== Sys2Proof/Machine/Dispatch.lean ====
section
/-! DEFINITION. Dispatch: the meaning of every row, one arm a constructor. -/

namespace Sys2Proof.Machine
open Sys2Proof

/-- The meaning of a row in a state. -/
def exec (i : Instr) (s : State) : Host.Outcome State Fault Refusal :=
  match i with
  | .nopX32 => Sys2Proof.Machine.execNopX32 s
  | .nopSlot k => Sys2Proof.Machine.execNopSlot k s
  | .iadd o => Sys2Proof.Machine.execIadd o s
  | .isub o => Sys2Proof.Machine.execIsub o s
  | .imul o => Sys2Proof.Machine.execImul o s
  | .imulhS32 o => Sys2Proof.Machine.execImulhS32 o s
  | .imulhN32 o => Sys2Proof.Machine.execImulhN32 o s
  | .imad o => Sys2Proof.Machine.execImad o s
  | .iminS32 o => Sys2Proof.Machine.execIminS32 o s
  | .iminN32 o => Sys2Proof.Machine.execIminN32 o s
  | .imaxS32 o => Sys2Proof.Machine.execImaxS32 o s
  | .imaxN32 o => Sys2Proof.Machine.execImaxN32 o s
  | .iabs o => Sys2Proof.Machine.execIabs o s
  | .ineg o => Sys2Proof.Machine.execIneg o s
  | .iadd64 o => Sys2Proof.Machine.execIadd64 o s
  | .mov o => Sys2Proof.Machine.execMov o s
  | .movi o => Sys2Proof.Machine.execMovi o s
  | .and o => Sys2Proof.Machine.execAnd o s
  | .or o => Sys2Proof.Machine.execOr o s
  | .xor o => Sys2Proof.Machine.execXor o s
  | .andn o => Sys2Proof.Machine.execAndn o s
  | .shl o => Sys2Proof.Machine.execShl o s
  | .shr o => Sys2Proof.Machine.execShr o s
  | .sar o => Sys2Proof.Machine.execSar o s
  | .shfL o => Sys2Proof.Machine.execShfL o s
  | .shfR o => Sys2Proof.Machine.execShfR o s
  | .popc o => Sys2Proof.Machine.execPopc o s
  | .clz o => Sys2Proof.Machine.execClz o s
  | .brev o => Sys2Proof.Machine.execBrev o s
  | .bfxS32 o => Sys2Proof.Machine.execBfxS32 o s
  | .bfxN32 o => Sys2Proof.Machine.execBfxN32 o s
  | .bfi o => Sys2Proof.Machine.execBfi o s
  | .sel o => Sys2Proof.Machine.execSel o s
  | .icmpEq o => Sys2Proof.Machine.execIcmpEq o s
  | .icmpNe o => Sys2Proof.Machine.execIcmpNe o s
  | .icmpLtS32 o => Sys2Proof.Machine.execIcmpLtS32 o s
  | .icmpLeS32 o => Sys2Proof.Machine.execIcmpLeS32 o s
  | .icmpGtS32 o => Sys2Proof.Machine.execIcmpGtS32 o s
  | .icmpGeS32 o => Sys2Proof.Machine.execIcmpGeS32 o s
  | .icmpLtN32 o => Sys2Proof.Machine.execIcmpLtN32 o s
  | .icmpLeN32 o => Sys2Proof.Machine.execIcmpLeN32 o s
  | .icmpGtN32 o => Sys2Proof.Machine.execIcmpGtN32 o s
  | .icmpGeN32 o => Sys2Proof.Machine.execIcmpGeN32 o s
  | .fadd o => Sys2Proof.Machine.execFadd o s
  | .fsub o => Sys2Proof.Machine.execFsub o s
  | .fmul o => Sys2Proof.Machine.execFmul o s
  | .ffma o => Sys2Proof.Machine.execFfma o s
  | .fmin o => Sys2Proof.Machine.execFmin o s
  | .fmax o => Sys2Proof.Machine.execFmax o s
  | .frcp o => Sys2Proof.Machine.execFrcp o s
  | .frsq o => Sys2Proof.Machine.execFrsq o s
  | .fsqrt o => Sys2Proof.Machine.execFsqrt o s
  | .fexp2 o => Sys2Proof.Machine.execFexp2 o s
  | .flog2 o => Sys2Proof.Machine.execFlog2 o s
  | .fsin o => Sys2Proof.Machine.execFsin o s
  | .fcos o => Sys2Proof.Machine.execFcos o s
  | .fcmpEq o => Sys2Proof.Machine.execFcmpEq o s
  | .fcmpNe o => Sys2Proof.Machine.execFcmpNe o s
  | .fcmpLt o => Sys2Proof.Machine.execFcmpLt o s
  | .fcmpLe o => Sys2Proof.Machine.execFcmpLe o s
  | .fcmpGt o => Sys2Proof.Machine.execFcmpGt o s
  | .fcmpGe o => Sys2Proof.Machine.execFcmpGe o s
  | .fcmpNum o => Sys2Proof.Machine.execFcmpNum o s
  | .fcmpNan o => Sys2Proof.Machine.execFcmpNan o s
  | .hadd2F16 o => Sys2Proof.Machine.execHadd2F16 o s
  | .hmul2F16 o => Sys2Proof.Machine.execHmul2F16 o s
  | .hfma2F16 o => Sys2Proof.Machine.execHfma2F16 o s
  | .hmin2F16 o => Sys2Proof.Machine.execHmin2F16 o s
  | .hmax2F16 o => Sys2Proof.Machine.execHmax2F16 o s
  | .hadd2Bf16 o => Sys2Proof.Machine.execHadd2Bf16 o s
  | .hmul2Bf16 o => Sys2Proof.Machine.execHmul2Bf16 o s
  | .hfma2Bf16 o => Sys2Proof.Machine.execHfma2Bf16 o s
  | .hmin2Bf16 o => Sys2Proof.Machine.execHmin2Bf16 o s
  | .hmax2Bf16 o => Sys2Proof.Machine.execHmax2Bf16 o s
  | .fdot4E4m3E4m3 o => Sys2Proof.Machine.execFdot4E4m3E4m3 o s
  | .fdot4E4m3E5m2 o => Sys2Proof.Machine.execFdot4E4m3E5m2 o s
  | .fdot4E5m2E4m3 o => Sys2Proof.Machine.execFdot4E5m2E4m3 o s
  | .fdot4E5m2E5m2 o => Sys2Proof.Machine.execFdot4E5m2E5m2 o s
  | .cvt o => Sys2Proof.Machine.execCvt o s
  | .pack o => Sys2Proof.Machine.execPack o s
  | .k4enc o => Sys2Proof.Machine.execK4enc o s
  | .k4dec o => Sys2Proof.Machine.execK4dec o s
  | .shflIdx o => Sys2Proof.Machine.execShflIdx o s
  | .shflUp o => Sys2Proof.Machine.execShflUp o s
  | .shflDown o => Sys2Proof.Machine.execShflDown o s
  | .shflXor o => Sys2Proof.Machine.execShflXor o s
  | .voteAll o => Sys2Proof.Machine.execVoteAll o s
  | .voteAny o => Sys2Proof.Machine.execVoteAny o s
  | .voteBal o => Sys2Proof.Machine.execVoteBal o s
  | .pand o => Sys2Proof.Machine.execPand o s
  | .por o => Sys2Proof.Machine.execPor o s
  | .pxor o => Sys2Proof.Machine.execPxor o s
  | .pnot o => Sys2Proof.Machine.execPnot o s
  | .movs o => Sys2Proof.Machine.execMovs o s
  | .chpop o => Sys2Proof.Machine.execChpop o s
  | .lredAddF32 o => Sys2Proof.Machine.execLredAddF32 o s
  | .lredAddN32 o => Sys2Proof.Machine.execLredAddN32 o s
  | .lredMinF32 o => Sys2Proof.Machine.execLredMinF32 o s
  | .lredMaxF32 o => Sys2Proof.Machine.execLredMaxF32 o s
  | .lredMinS32 o => Sys2Proof.Machine.execLredMinS32 o s
  | .lredMaxS32 o => Sys2Proof.Machine.execLredMaxS32 o s
  | .lredMinN32 o => Sys2Proof.Machine.execLredMinN32 o s
  | .lredMaxN32 o => Sys2Proof.Machine.execLredMaxN32 o s
  | .lredAnd o => Sys2Proof.Machine.execLredAnd o s
  | .lredOr o => Sys2Proof.Machine.execLredOr o s
  | .lredXor o => Sys2Proof.Machine.execLredXor o s
  | .ldB8 o => Sys2Proof.Machine.execLdB8 o s
  | .ldB8Sx o => Sys2Proof.Machine.execLdB8Sx o s
  | .ldB16 o => Sys2Proof.Machine.execLdB16 o s
  | .ldB16Sx o => Sys2Proof.Machine.execLdB16Sx o s
  | .ldB32 o => Sys2Proof.Machine.execLdB32 o s
  | .ldB64 o => Sys2Proof.Machine.execLdB64 o s
  | .ldB128 o => Sys2Proof.Machine.execLdB128 o s
  | .ldB32S o => Sys2Proof.Machine.execLdB32S o s
  | .ldB64S o => Sys2Proof.Machine.execLdB64S o s
  | .stB8 o => Sys2Proof.Machine.execStB8 o s
  | .stB16 o => Sys2Proof.Machine.execStB16 o s
  | .stB32 o => Sys2Proof.Machine.execStB32 o s
  | .stB64 o => Sys2Proof.Machine.execStB64 o s
  | .stB128 o => Sys2Proof.Machine.execStB128 o s
  | .ldrawB8 o => Sys2Proof.Machine.execLdrawB8 o s
  | .ldrawB16 o => Sys2Proof.Machine.execLdrawB16 o s
  | .ldrawB32 o => Sys2Proof.Machine.execLdrawB32 o s
  | .ldrawB64 o => Sys2Proof.Machine.execLdrawB64 o s
  | .strawB8 o => Sys2Proof.Machine.execStrawB8 o s
  | .strawB16 o => Sys2Proof.Machine.execStrawB16 o s
  | .strawB32 o => Sys2Proof.Machine.execStrawB32 o s
  | .strawB64 o => Sys2Proof.Machine.execStrawB64 o s
  | .ldx o => Sys2Proof.Machine.execLdx o s
  | .stx o => Sys2Proof.Machine.execStx o s
  | .ldc o => Sys2Proof.Machine.execLdc o s
  | .lblk o => Sys2Proof.Machine.execLblk o s
  | .blkwb o => Sys2Proof.Machine.execBlkwb o s
  | .blkdrop o => Sys2Proof.Machine.execBlkdrop o s
  | .pref o => Sys2Proof.Machine.execPref o s
  | .atomN32 o => Sys2Proof.Machine.execAtomN32 o s
  | .atomS32 o => Sys2Proof.Machine.execAtomS32 o s
  | .atomN64 o => Sys2Proof.Machine.execAtomN64 o s
  | .atomF32 o => Sys2Proof.Machine.execAtomF32 o s
  | .redmN32 o => Sys2Proof.Machine.execRedmN32 o s
  | .redmS32 o => Sys2Proof.Machine.execRedmS32 o s
  | .redmN64 o => Sys2Proof.Machine.execRedmN64 o s
  | .redmF32 o => Sys2Proof.Machine.execRedmF32 o s
  | .atomcasB32 o => Sys2Proof.Machine.execAtomcasB32 o s
  | .atomcasB64 o => Sys2Proof.Machine.execAtomcasB64 o s
  | .accstAdd o => Sys2Proof.Machine.execAccstAdd o s
  | .accstOvw o => Sys2Proof.Machine.execAccstOvw o s
  | .accld o => Sys2Proof.Machine.execAccld o s
  | .stch o => Sys2Proof.Machine.execStch o s
  | .mark o => Sys2Proof.Machine.execMark o s
  | .fence o => Sys2Proof.Machine.execFence o s
  | .send o => Sys2Proof.Machine.execSend o s
  | .qpush o => Sys2Proof.Machine.execQpush o s
  | .qpop o => Sys2Proof.Machine.execQpop o s
  | .qtry o => Sys2Proof.Machine.execQtry o s
  | .stgB32 o => Sys2Proof.Machine.execStgB32 o s
  | .stgB64 o => Sys2Proof.Machine.execStgB64 o s
  | .cpy f pol sd ss sn z => Sys2Proof.Machine.execCpy f pol sd ss sn z s
  | .cpyfill f pol sd sv sn z => Sys2Proof.Machine.execCpyfill f pol sd sv sn z s
  | .macq f => Sys2Proof.Machine.execMacq f s
  | .mrel f => Sys2Proof.Machine.execMrel f s
  | .mready f => Sys2Proof.Machine.execMready f s
  | .mfence f => Sys2Proof.Machine.execMfence f s
  | .mzero f t n => Sys2Proof.Machine.execMzero f t n s
  | .mstat f sd => Sys2Proof.Machine.execMstat f sd s
  | .gopen f g => Sys2Proof.Machine.execGopen f g s
  | .gcommit f g => Sys2Proof.Machine.execGcommit f g s
  | .gabort f g => Sys2Proof.Machine.execGabort f g s
  | .gquery f g sd => Sys2Proof.Machine.execGquery f g sd s
  | .cpyt o => Sys2Proof.Machine.execCpyt o s
  | .cpyg o => Sys2Proof.Machine.execCpyg o s
  | .cpymc o => Sys2Proof.Machine.execCpymc o s
  | .cpych o => Sys2Proof.Machine.execCpych o s
  | .wbld o => Sys2Proof.Machine.execWbld o s
  | .mma o => Sys2Proof.Machine.execMma o s
  | .mmas o => Sys2Proof.Machine.execMmas o s
  | .mldt o => Sys2Proof.Machine.execMldt o s
  | .mdrain o => Sys2Proof.Machine.execMdrain o s
  | .waitf ne f => Sys2Proof.Machine.execWaitf ne f s
  | .reconv => Sys2Proof.Machine.execReconv s
  | .regang => Sys2Proof.Machine.execRegang s
  | .exit g => Sys2Proof.Machine.execExit g s
  | .yield n => Sys2Proof.Machine.execYield n s
  | .bara b => Sys2Proof.Machine.execBara b s
  | .barw b => Sys2Proof.Machine.execBarw b s
  | .baraw b => Sys2Proof.Machine.execBaraw b s
  | .ret n => Sys2Proof.Machine.execRet n s
  | .sleep n => Sys2Proof.Machine.execSleep n s
  | .bkpt n => Sys2Proof.Machine.execBkpt n s
  | .eret slot => Sys2Proof.Machine.execEret slot s
  | .trap n => Sys2Proof.Machine.execTrap n s
  | .brfZ f tgt => Sys2Proof.Machine.execBrfZ f tgt s
  | .brfNz f tgt => Sys2Proof.Machine.execBrfNz f tgt s
  | .brfErr f tgt => Sys2Proof.Machine.execBrfErr f tgt s
  | .bra g tgt => Sys2Proof.Machine.execBra g tgt s
  | .brap g neg q tgt => Sys2Proof.Machine.execBrap g neg q tgt s
  | .jmpt g sel tofs n => Sys2Proof.Machine.execJmpt g sel tofs n s
  | .call g l tgt => Sys2Proof.Machine.execCall g l tgt s
  | .sbarA => Sys2Proof.Machine.execSbarA s
  | .sbarW => Sys2Proof.Machine.execSbarW s
  | .sbarAw => Sys2Proof.Machine.execSbarAw s
  | .barset c b => Sys2Proof.Machine.execBarset c b s
  | .sysc n => Sys2Proof.Machine.execSysc n s
  | .mfs sd reg => Sys2Proof.Machine.execMfs sd reg s
  | .mts sa reg => Sys2Proof.Machine.execMts sa reg s
  | .mpset n v => Sys2Proof.Machine.execMpset n v s
  | .winset a n => Sys2Proof.Machine.execWinset a n s
  | .patset rs h f => Sys2Proof.Machine.execPatset rs h f s
  | .portcfg rs h f => Sys2Proof.Machine.execPortcfg rs h f s
  | .qcreate rs h f => Sys2Proof.Machine.execQcreate rs h f s
  | .qdestroy rs h f => Sys2Proof.Machine.execQdestroy rs h f s
  | .limg a kind f => Sys2Proof.Machine.execLimg a kind f s
  | .simg a kind f => Sys2Proof.Machine.execSimg a kind f s
  | .bundleIssue => Sys2Proof.Machine.execBundleIssue s
  | .bundleFetchReturn => Sys2Proof.Machine.execBundleFetchReturn s
  | .fixedLatencyWriteback => Sys2Proof.Machine.execFixedLatencyWriteback s
  | .waitTimerExpiry => Sys2Proof.Machine.execWaitTimerExpiry s
  | .trapFrameWrite => Sys2Proof.Machine.execTrapFrameWrite s
  | .asyncErrorTaken => Sys2Proof.Machine.execAsyncErrorTaken s
  | .watchpointTrap => Sys2Proof.Machine.execWatchpointTrap s
  | .translateAccess => Sys2Proof.Machine.execTranslateAccess s
  | .fillComplete => Sys2Proof.Machine.execFillComplete s
  | .migrationOffer => Sys2Proof.Machine.execMigrationOffer s
  | .migrationDecline => Sys2Proof.Machine.execMigrationDecline s
  | .migrationAccept => Sys2Proof.Machine.execMigrationAccept s
  | .migrationLines => Sys2Proof.Machine.execMigrationLines s
  | .migrationAck => Sys2Proof.Machine.execMigrationAck s
  | .throttleExpiry => Sys2Proof.Machine.execThrottleExpiry s
  | .faultRecordWrite => Sys2Proof.Machine.execFaultRecordWrite s
  | .faultReturnToLog => Sys2Proof.Machine.execFaultReturnToLog s
  | .faultRingHeadWrite => Sys2Proof.Machine.execFaultRingHeadWrite s
  | .fresolveRetry => Sys2Proof.Machine.execFresolveRetry s
  | .fresolveFail => Sys2Proof.Machine.execFresolveFail s
  | .replay => Sys2Proof.Machine.execReplay s
  | .memoryAccessPerform => Sys2Proof.Machine.execMemoryAccessPerform s
  | .memoryOpComplete => Sys2Proof.Machine.execMemoryOpComplete s
  | .remoteRequestArrival => Sys2Proof.Machine.execRemoteRequestArrival s
  | .remoteAckArrival => Sys2Proof.Machine.execRemoteAckArrival s
  | .rsptoExpiry => Sys2Proof.Machine.execRsptoExpiry s
  | .peerWriteArrival => Sys2Proof.Machine.execPeerWriteArrival s
  | .granuleZeroed => Sys2Proof.Machine.execGranuleZeroed s
  | .stashLineFill => Sys2Proof.Machine.execStashLineFill s
  | .coherenceRecall => Sys2Proof.Machine.execCoherenceRecall s
  | .directoryRead => Sys2Proof.Machine.execDirectoryRead s
  | .directoryOwnership => Sys2Proof.Machine.execDirectoryOwnership s
  | .directoryWriteback => Sys2Proof.Machine.execDirectoryWriteback s
  | .pcieWrite => Sys2Proof.Machine.execPcieWrite s
  | .pcieRead => Sys2Proof.Machine.execPcieRead s
  | .linkCrcReplay => Sys2Proof.Machine.execLinkCrcReplay s
  | .ualinkLinkLoss => Sys2Proof.Machine.execUalinkLinkLoss s
  | .peerLostReport => Sys2Proof.Machine.execPeerLostReport s
  | .originLostReport => Sys2Proof.Machine.execOriginLostReport s
  | .scrubUnitRead => Sys2Proof.Machine.execScrubUnitRead s
  | .skidderUnitDone => Sys2Proof.Machine.execSkidderUnitDone s
  | .skidderComplete => Sys2Proof.Machine.execSkidderComplete s
  | .millGrant => Sys2Proof.Machine.execMillGrant s
  | .millCommandDone => Sys2Proof.Machine.execMillCommandDone s
  | .mreadyDone => Sys2Proof.Machine.execMreadyDone s
  | .messageArrival => Sys2Proof.Machine.execMessageArrival s
  | .portCreate => Sys2Proof.Machine.execPortCreate s
  | .portModify => Sys2Proof.Machine.execPortModify s
  | .portDestroy => Sys2Proof.Machine.execPortDestroy s
  | .patternClaim => Sys2Proof.Machine.execPatternClaim s
  | .patternRewrite => Sys2Proof.Machine.execPatternRewrite s
  | .patternRelease => Sys2Proof.Machine.execPatternRelease s
  | .queueCreate => Sys2Proof.Machine.execQueueCreate s
  | .queueDestroy => Sys2Proof.Machine.execQueueDestroy s
  | .queuePush => Sys2Proof.Machine.execQueuePush s
  | .queuePopRequest => Sys2Proof.Machine.execQueuePopRequest s
  | .queueTryRequest => Sys2Proof.Machine.execQueueTryRequest s
  | .queueRefillDone => Sys2Proof.Machine.execQueueRefillDone s
  | .queueRingWriteDone => Sys2Proof.Machine.execQueueRingWriteDone s
  | .portApertureWrite => Sys2Proof.Machine.execPortApertureWrite s
  | .portApertureRead => Sys2Proof.Machine.execPortApertureRead s
  | .firingAtController => Sys2Proof.Machine.execFiringAtController s
  | .templateReadDone => Sys2Proof.Machine.execTemplateReadDone s
  | .admission => Sys2Proof.Machine.execAdmission s
  | .gangRelease => Sys2Proof.Machine.execGangRelease s
  | .sbarCarrArrival => Sys2Proof.Machine.execSbarCarrArrival s
  | .gopenAtTable => Sys2Proof.Machine.execGopenAtTable s
  | .stgAtTable => Sys2Proof.Machine.execStgAtTable s
  | .stgLaneArrival => Sys2Proof.Machine.execStgLaneArrival s
  | .gcommitAtTable => Sys2Proof.Machine.execGcommitAtTable s
  | .commitPrepareSend => Sys2Proof.Machine.execCommitPrepareSend s
  | .prepareArrival => Sys2Proof.Machine.execPrepareArrival s
  | .prepareAnswerSend => Sys2Proof.Machine.execPrepareAnswerSend s
  | .answerArrival => Sys2Proof.Machine.execAnswerArrival s
  | .preptoExpiry => Sys2Proof.Machine.execPreptoExpiry s
  | .commitArrival => Sys2Proof.Machine.execCommitArrival s
  | .abortArrival => Sys2Proof.Machine.execAbortArrival s
  | .groupAckArrival => Sys2Proof.Machine.execGroupAckArrival s
  | .gresolveCommit => Sys2Proof.Machine.execGresolveCommit s
  | .gresolveAbort => Sys2Proof.Machine.execGresolveAbort s
  | .engstopQuiesce => Sys2Proof.Machine.execEngstopQuiesce s
  | .quiesceDrained => Sys2Proof.Machine.execQuiesceDrained s
  | .engstopPark => Sys2Proof.Machine.execEngstopPark s
  | .engstopUnpark => Sys2Proof.Machine.execEngstopUnpark s
  | .engstopRelease => Sys2Proof.Machine.execEngstopRelease s
  | .engstopEnd => Sys2Proof.Machine.execEngstopEnd s
  | .engstopRestoreRequest => Sys2Proof.Machine.execEngstopRestoreRequest s
  | .engstopCommandDone => Sys2Proof.Machine.execEngstopCommandDone s
  | .engstopCstop => Sys2Proof.Machine.execEngstopCstop s
  | .engstopMstop => Sys2Proof.Machine.execEngstopMstop s
  | .rngseedWrite => Sys2Proof.Machine.execRngseedWrite s
  | .ferrClear => Sys2Proof.Machine.execFerrClear s
  | .cprogWrite => Sys2Proof.Machine.execCprogWrite s
  | .mprogWrite => Sys2Proof.Machine.execMprogWrite s
  | .sldepthWrite => Sys2Proof.Machine.execSldepthWrite s
  | .gtagWrite => Sys2Proof.Machine.execGtagWrite s
  | .ticOnePage => Sys2Proof.Machine.execTicOnePage s
  | .ticOneContext => Sys2Proof.Machine.execTicOneContext s
  | .ticAllContexts => Sys2Proof.Machine.execTicAllContexts s
  | .ticFinish => Sys2Proof.Machine.execTicFinish s
  | .ctxMakeLive => Sys2Proof.Machine.execCtxMakeLive s
  | .ctxMakeNotLive => Sys2Proof.Machine.execCtxMakeNotLive s
  | .ctxNotLiveDone => Sys2Proof.Machine.execCtxNotLiveDone s
  | .supgoStart => Sys2Proof.Machine.execSupgoStart s
  | .supresResume => Sys2Proof.Machine.execSupresResume s
  | .supervisorFrameWrite => Sys2Proof.Machine.execSupervisorFrameWrite s
  | .mailboxRead => Sys2Proof.Machine.execMailboxRead s
  | .mailboxExtend => Sys2Proof.Machine.execMailboxExtend s
  | .mailboxDone => Sys2Proof.Machine.execMailboxDone s
  | .spdmGetVersion => Sys2Proof.Machine.execSpdmGetVersion s
  | .spdmGetCapabilities => Sys2Proof.Machine.execSpdmGetCapabilities s
  | .spdmNegotiateAlgorithms => Sys2Proof.Machine.execSpdmNegotiateAlgorithms s
  | .spdmGetMeasurements => Sys2Proof.Machine.execSpdmGetMeasurements s
  | .obscfgWrite => Sys2Proof.Machine.execObscfgWrite s
  | .obslostClear => Sys2Proof.Machine.execObslostClear s
  | .rasCountClear => Sys2Proof.Machine.execRasCountClear s
  | .scrubcfgWrite => Sys2Proof.Machine.execScrubcfgWrite s
  | .registerWrite => Sys2Proof.Machine.execRegisterWrite s
  | .powerIntervalEnd => Sys2Proof.Machine.execPowerIntervalEnd s
  | .obsTick => Sys2Proof.Machine.execObsTick s
  | .baseDieResetRelease => Sys2Proof.Machine.execBaseDieResetRelease s
  | .windowImageReadDone => Sys2Proof.Machine.execWindowImageReadDone s
  | .ualinkLinkRestored => Sys2Proof.Machine.execUalinkLinkRestored s

end Sys2Proof.Machine
end

