-- ==== Sys2Proof/Machine/Load.lean ====
section
/-! DEFINITION. Load: a program placed from outside the machine (log entry 6). -/

namespace Sys2Proof.Machine
open Sys2Proof

/-- The bundle that holds one instruction of the opcode table: an X32 word (32 bits), an M40 word (40 bits) or an X72 word
(72 bits) in its slot of a bundle whose other slots are empty. -/
def wordBundle (nbits w : Nat) : Bundle :=
  if nbits = 72 then BitVec.ofNat 128 (2 * 2 ^ 120 + w % 2 ^ 72 * 2 ^ 12)
  else if nbits = 40 then BitVec.ofNat 128 (w % 2 ^ 40 * 2 ^ 44)
  else BitVec.ofNat 128 (w % 2 ^ 32 * 2 ^ 12)

/-- A gang of one slice and 128 registers as R176 starts it, at address 0, with the bundle there at hand. -/
def gangAt (b : Bundle) : Gang :=
  { regs := 128, nsl := 1, rng := lanesOf (Num.rngSeed 0), slices := [{}], parts := [(0, { fetched := some (0, b) })] }

/-- A crew of one gang in crew slot 0 of core 0, with nothing else on the core, and that gang at the bundle. -/
def State.placeWord (s : State) (nbits w : Nat) : State :=
  { s with
    cores := [(0, { gangs := [(0, gangAt (wordBundle nbits w))], crews := [(0, {})] })]
    agenda := []
    inbox := [] }

end Sys2Proof.Machine
end

