-- ==== Sys2Proof/Machine/Step.lean ====
section
/-! DEFINITION. Step: one step of the machine. -/

namespace Sys2Proof.Machine

/-- One step: the next event, or the end of the clock. A halted base die takes none but the module's reset (R436); a die below its minimum
supply does nothing the spec defines (R443). -/
def step (s : State) : Host.Outcome State Fault Refusal :=
  match s.halted with
  | some _ => (match s.inbox.find? (fun p => p.op == .baseDieResetRelease) with
    | some p => exec p.op (s.begin p)
    | none => .fault .bootHalted)
  | none =>
    match s.belowMinimum with
    | some d => .fault (.belowMinimum d)
    | none =>
      match s.nextMove with
      | some p => exec p.op (s.begin p)
      | none => .next s.tick

/-- The state whose next step issues the instruction of `nbits` bits `w`. -/
def State.withFetchWord (s : State) (nbits w : Nat) : State := s.placeWord nbits w

end Sys2Proof.Machine
end

