-- ==== Sys2Proof/Laws/Mem.lean ====
section
/-! SUPPORT. Laws of the byte memory: reads after writes, bytes elsewhere, and the canonical form that every operation of Mem keeps. -/

namespace Sys2Proof.Machine
open Sys2Proof

theorem Mem.wf_cons {a : Nat} {b : Byte} {r : List Host.Cell} :
    Mem.wf ((a, b) :: r) = true ↔ b ≠ 0 ∧ (∀ x ∈ r, a < x.1) ∧ Mem.wf r = true := by
  induction r generalizing a b with
  | nil => simp [Mem.wf]
  | cons p r ih =>
    obtain ⟨c, d⟩ := p
    simp only [Mem.wf, Bool.and_eq_true, decide_eq_true_eq, bne_iff_ne, ne_eq]
    constructor
    · rintro ⟨⟨hb, hac⟩, hw⟩
      refine ⟨hb, ?_, hw⟩
      intro x hx
      rcases List.mem_cons.mp hx with rfl | hx
      · exact hac
      · exact Nat.lt_trans hac ((ih.mp hw).2.1 x hx)
    · rintro ⟨hb, hx, hw⟩
      exact ⟨⟨hb, hx (c, d) (by simp)⟩, hw⟩

theorem Mem.mem_write {m : List Host.Cell} {a : Nat} {b : Byte} {x : Host.Cell} (h : x ∈ Mem.write m a b) :
    (x = (a, b) ∧ b ≠ 0) ∨ x ∈ m := by
  induction m with
  | nil =>
    simp only [Mem.write] at h
    split at h
    · simp at h
    · simp only [List.mem_singleton] at h; exact .inl ⟨h, by assumption⟩
  | cons p r ih =>
    obtain ⟨k, v⟩ := p
    simp only [Mem.write] at h
    split at h
    · split at h
      · exact .inr h
      · rcases List.mem_cons.mp h with h | h
        · exact .inl ⟨h, by assumption⟩
        · exact .inr h
    · split at h
      · split at h
        · exact .inr (List.mem_cons_of_mem _ h)
        · rcases List.mem_cons.mp h with h | h
          · exact .inl ⟨h, by assumption⟩
          · exact .inr (List.mem_cons_of_mem _ h)
      · rcases List.mem_cons.mp h with h | h
        · exact .inr (by simp [h])
        · rcases ih h with h | h
          · exact .inl h
          · exact .inr (List.mem_cons_of_mem _ h)

/-- A byte write keeps the canonical form. -/
theorem Mem.wf_write {m : List Host.Cell} (h : Mem.wf m = true) (a : Nat) (b : Byte) : Mem.wf (Mem.write m a b) = true := by
  induction m with
  | nil => simp only [Mem.write]; split <;> simp_all [Mem.wf]
  | cons p r ih =>
    obtain ⟨k, v⟩ := p
    obtain ⟨hv, hx, hr⟩ := Mem.wf_cons.mp h
    simp only [Mem.write]
    split
    · rename_i hlt
      split
      · exact h
      · rename_i hb
        refine Mem.wf_cons.mpr ⟨hb, ?_, h⟩
        intro x hm
        rcases List.mem_cons.mp hm with rfl | hm
        · exact hlt
        · exact Nat.lt_trans hlt (hx x hm)
    · split
      · split
        · exact hr
        · rename_i h1 h2 hb
          exact Mem.wf_cons.mpr ⟨hb, fun x hm => h2 ▸ hx x hm, hr⟩
      · rename_i h1 h2
        refine Mem.wf_cons.mpr ⟨hv, ?_, ih hr⟩
        intro x hm
        rcases Mem.mem_write hm with ⟨rfl, -⟩ | hm
        · simp only; omega
        · exact hx x hm

/-- Writing bytes keeps the canonical form. -/
theorem Mem.wf_put {m : List Host.Cell} (h : Mem.wf m = true) (a : Nat) (bs : List Byte) : Mem.wf (Mem.put m a bs) = true := by
  induction bs generalizing m a with
  | nil => exact h
  | cons b bs ih => exact ih (Mem.wf_write h a b) (a + 1)

theorem State.wrBytes_wf {s : State} (h : Mem.wf s.mem = true) (pa : Nat) (bs : List Byte) : Mem.wf (s.wrBytes pa bs).mem = true :=
  Mem.wf_put h pa bs
theorem State.wr_wf {s : State} (h : Mem.wf s.mem = true) (pa n v : Nat) : Mem.wf (s.wr pa n v).mem = true := Mem.wf_put h pa _
theorem State.poisonRange_wf {s : State} (h : Mem.wf s.mem = true) (pa n : Nat) : Mem.wf (s.poisonRange pa n).mem = true := h
theorem State.wrLine_wf {s : State} (h : Mem.wf s.mem = true) (pa : Nat) (bs : List Byte) : Mem.wf (s.wrLine pa bs).mem = true :=
  Mem.wf_put h pa bs

/-! ### The directory and the L2 hold no data of their own -/

theorem State.foldl_mem {α : Type} {f : State → α → State} (h : ∀ s a, (f s a).mem = s.mem) (l : List α) (s : State) :
    (l.foldl f s).mem = s.mem := by
  induction l generalizing s with
  | nil => rfl
  | cons a l ih => exact (ih _).trans (h s a)

@[simp] theorem State.dirDrop_mem (s : State) (pl c : Nat) : (s.dirDrop pl c).mem = s.mem := by
  unfold State.dirDrop
  split
  dsimp only
  repeat' split
  all_goals rfl
@[simp] theorem State.dirWriteback_mem (s : State) (pl : Nat) : (s.dirWriteback pl).mem = s.mem := by
  unfold State.dirWriteback
  dsimp only
  split <;> rfl
@[simp] theorem State.recall_mem (s : State) (c ctx line : Nat) : (s.recall c ctx line).mem = s.mem := by
  unfold State.recall
  dsimp only
  split
  · rw [State.dirWriteback_mem, State.dirDrop_mem]; rfl
  · rw [State.dirDrop_mem]; rfl
@[simp] theorem State.recallAll_mem (s : State) (pl : Nat) : (s.recallAll pl).mem = s.mem := by
  unfold State.recallAll
  dsimp only
  have h := State.foldl_mem (f := fun (t : State) (h : Nat × Nat × Nat) => t.recall h.1 h.2.1 h.2.2) (fun t h => t.recall_mem _ _ _)
    (s.holders pl) s
  split
  · split
    · rw [State.dirDrop_mem, State.dirWriteback_mem, h]
    · rw [State.dirDrop_mem, h]
  · exact h
@[simp] theorem State.atSlice_mem (s : State) (pa : Nat) : (s.atSlice pa).mem = s.mem := by
  unfold State.atSlice
  exact s.recallAll_mem _
@[simp] theorem State.l2Evict_mem (s : State) (x : L2Line) : (s.l2Evict x).mem = s.mem := by
  unfold State.l2Evict
  dsimp only
  split
  · exact s.recallAll_mem _
  · exact s.recallAll_mem _
@[simp] theorem State.l2Use_mem (s : State) (pl rank : Nat) (last wr fetch : Bool) : (s.l2Use pl rank last wr fetch).mem = s.mem := by
  unfold State.l2Use
  dsimp only
  have h : ∀ t : State, (if (s.l2Mates pl).length < 12 then s else
      match l2Victim (s.l2Mates pl) with | some x => s.l2Evict x | none => s) = t → t.mem = s.mem := by
    intro t ht
    subst ht
    split
    · rfl
    · split
      · exact s.l2Evict_mem _
      · rfl
  split
  · rfl
  · generalize hg : (if (s.l2Mates pl).length < 12 then s else
      match l2Victim (s.l2Mates pl) with | some x => s.l2Evict x | none => s) = t
    split
    · exact h t hg
    · exact h t hg

theorem State.lineWrite_wf {s : State} (h : Mem.wf s.mem = true) (pa : Nat) (bs : List Byte) : Mem.wf (s.lineWrite pa bs).mem = true := by
  apply State.wrLine_wf
  rw [State.atSlice_mem, State.l2Use_mem]
  exact h
theorem State.zeroFrame_wf {s : State} (h : Mem.wf s.mem = true) (f : Nat) : Mem.wf (s.zeroFrame f).mem = true := by
  have key : ∀ (l : List Nat) (g : Nat → Nat) (bs : List Byte) (t : State), Mem.wf t.mem = true →
      Mem.wf (l.foldl (fun t i => t.lineWrite (g i) bs) t).mem = true := by
    intro l g bs
    induction l with
    | nil => exact fun t ht => ht
    | cons i l ih => exact fun t ht => ih _ (State.lineWrite_wf ht _ _)
  exact key _ (fun i => f + 128 * i) _ s h
/-- A write over several lines changes memory as its bytes say. -/
@[simp] theorem State.wrOver_mem (s : State) (pa : Nat) (bs : List Byte) : (s.wrOver pa bs).mem = Mem.put s.mem pa bs := by
  unfold State.wrOver
  dsimp only [State.wrBytes]
  rw [State.foldl_mem (f := fun (t : State) (l : Nat) => t.atSlice (128 * l)) (fun t l => t.atSlice_mem _)]
theorem State.wrOver_wf {s : State} (h : Mem.wf s.mem = true) (pa : Nat) (bs : List Byte) : Mem.wf (s.wrOver pa bs).mem = true := by
  rw [State.wrOver_mem]
  exact Mem.wf_put h pa bs

/-- The byte written is read back. -/
theorem Mem.read_write_self {m : List Host.Cell} (h : Mem.wf m = true) (a : Nat) (b : Byte) : Mem.read (Mem.write m a b) a = b := by
  induction m with
  | nil =>
    simp only [Mem.write]
    split
    · simp_all [Mem.read, mget, mget?]
    · simp [Mem.read, mget, mget?]
  | cons p r ih =>
    obtain ⟨k, v⟩ := p
    obtain ⟨-, hx, hr⟩ := Mem.wf_cons.mp h
    have miss : ∀ l : List Host.Cell, (∀ x ∈ l, a < x.1) → mget? l a = none := by
      intro l
      induction l with
      | nil => intro _; rfl
      | cons q l ihl =>
        intro hl
        have h1 : a < q.1 := hl q (by simp)
        have h2 := ihl (fun x hm => hl x (List.mem_cons_of_mem _ hm))
        simp only [mget?, h2]
        split
        · omega
        · rfl
    simp only [Mem.write]
    split
    · rename_i hlt
      split
      · rename_i hb
        have := miss ((k, v) :: r) (by
          intro x hm
          rcases List.mem_cons.mp hm with rfl | hm
          · exact hlt
          · exact Nat.lt_trans hlt (hx x hm))
        simp [Mem.read, mget, this, hb]
      · simp [Mem.read, mget, mget?]
    · split
      · rename_i h1 h2
        split
        · rename_i hb
          have := miss r (fun x hm => h2 ▸ hx x hm)
          simp [Mem.read, mget, this, hb]
        · simp [Mem.read, mget, mget?]
      · rename_i h1 h2
        have := ih hr
        simp only [Mem.read, mget, mget?, Ne.symm h2, if_false] at this ⊢
        exact this

/-- A write leaves every other byte as it is. -/
theorem Mem.read_write_ne (m : List Host.Cell) {a c : Nat} (b : Byte) (h : c ≠ a) : Mem.read (Mem.write m a b) c = Mem.read m c := by
  induction m with
  | nil =>
    simp only [Mem.write]
    split
    · rfl
    · simp [Mem.read, mget, mget?, Ne.symm h]
  | cons p r ih =>
    obtain ⟨k, v⟩ := p
    simp only [Mem.write]
    split
    · split
      · rfl
      · simp [Mem.read, mget, mget?, Ne.symm h]
    · split
      · rename_i h1 h2
        subst h2
        split <;> simp [Mem.read, mget, mget?, Ne.symm h]
      · simp only [Mem.read, mget, mget?] at ih ⊢
        split
        · rfl
        · exact ih

/-- Bytes outside the range written are as before. -/
theorem Mem.read_put_out (m : List Host.Cell) (a : Nat) (bs : List Byte) {c : Nat} (h : c < a ∨ a + bs.length ≤ c) :
    Mem.read (Mem.put m a bs) c = Mem.read m c := by
  induction bs generalizing m a with
  | nil => rfl
  | cons b bs ih =>
    simp only [List.length_cons] at h
    simp only [Mem.put]
    rw [ih (Mem.write m a b) (a + 1) (by omega), Mem.read_write_ne m b (by omega)]

/-- The bytes written are read back. -/
theorem Mem.read_put_in {m : List Host.Cell} (hw : Mem.wf m = true) (a : Nat) (bs : List Byte) {i : Nat} (h : i < bs.length) :
    Mem.read (Mem.put m a bs) (a + i) = bs[i] := by
  induction bs generalizing m a i with
  | nil => simp at h
  | cons b bs ih =>
    simp only [Mem.put]
    cases i with
    | zero => simp only [Nat.add_zero]; rw [Mem.read_put_out _ _ _ (by omega), Mem.read_write_self hw]; rfl
    | succ j =>
      have := ih (Mem.wf_write hw a b) (a + 1) (i := j) (by simpa using h)
      rw [show a + (j + 1) = a + 1 + j by omega, this]; rfl

end Sys2Proof.Machine
end

