-- ==== Sys2Proof/Laws/Map.lean ====
section
/-! SUPPORT. Laws of the tables: what a read finds after a write or a removal, and that keys stay rising. -/

namespace Sys2Proof.Machine

@[simp] theorem mget?_mset_self {α : Type} (m : Map α) (k : Nat) (a : α) : mget? (mset m k a) k = some a := by
  induction m with
  | nil => simp [mset, mget?]
  | cons p r ih =>
    obtain ⟨k', b⟩ := p
    simp only [mset]
    split
    · simp [mget?]
    · split
      · simp [mget?]
      · rename_i h1 h2
        simp [mget?, Ne.symm h2, ih]

theorem mget?_mset_ne {α : Type} (m : Map α) {k j : Nat} (a : α) (h : j ≠ k) : mget? (mset m k a) j = mget? m j := by
  induction m with
  | nil => simp [mset, mget?, Ne.symm h]
  | cons p r ih =>
    obtain ⟨k', b⟩ := p
    simp only [mset]
    split
    · simp [mget?, Ne.symm h]
    · split
      · rename_i h2
        subst h2
        simp [mget?, Ne.symm h]
      · simp [mget?, ih]

theorem mget?_mset {α : Type} (m : Map α) (k j : Nat) (a : α) :
    mget? (mset m k a) j = if j = k then some a else mget? m j := by
  by_cases h : j = k
  · subst h; simp
  · simp [h, mget?_mset_ne m a h]

@[simp] theorem mget_mset_self {α : Type} (d : α) (m : Map α) (k : Nat) (a : α) : mget d (mset m k a) k = a := by simp [mget]

theorem mget_mset_ne {α : Type} (d : α) (m : Map α) {k j : Nat} (a : α) (h : j ≠ k) : mget d (mset m k a) j = mget d m j := by
  simp [mget, mget?_mset_ne m a h]

theorem mget_mset {α : Type} (d : α) (m : Map α) (k j : Nat) (a : α) :
    mget d (mset m k a) j = if j = k then a else mget d m j := by
  by_cases h : j = k
  · subst h; simp
  · simp [h, mget_mset_ne d m a h]

@[simp] theorem mget?_nil {α : Type} (k : Nat) : mget? ([] : Map α) k = none := rfl
@[simp] theorem mget_nil {α : Type} (d : α) (k : Nat) : mget d ([] : Map α) k = d := rfl

@[simp] theorem mget?_mdel_self {α : Type} (m : Map α) (k : Nat) : mget? (mdel m k) k = none := by
  induction m with
  | nil => rfl
  | cons p r ih =>
    by_cases h : p.1 = k
    · simpa [mdel, h] using ih
    · simpa [mdel, h, mget?] using ih

theorem mget?_mdel_ne {α : Type} (m : Map α) {k j : Nat} (h : j ≠ k) : mget? (mdel m k) j = mget? m j := by
  induction m with
  | nil => rfl
  | cons p r ih =>
    by_cases hk : p.1 = k
    · have : p.1 ≠ j := fun e => h (e ▸ hk)
      simp only [mdel, List.filter_cons, hk, bne_self_eq_false, Bool.false_eq_true, if_false, mget?, Ne.symm h] at ih ⊢
      exact ih
    · simp only [mdel, List.filter_cons, bne_iff_ne, ne_eq, hk, not_false_eq_true, if_true, mget?] at ih ⊢
      rw [ih]

theorem mget_mdel_ne {α : Type} (d : α) (m : Map α) {k j : Nat} (h : j ≠ k) : mget d (mdel m k) j = mget d m j := by
  simp [mget, mget?_mdel_ne m h]

/-- The keys of a table rise. -/
def Map.rising {α : Type} (m : Map α) : Prop := m.Pairwise (fun x y => x.1 < y.1)

theorem mem_mset {α : Type} {m : Map α} {k : Nat} {a : α} {x : Nat × α} (h : x ∈ mset m k a) : x = (k, a) ∨ x ∈ m := by
  induction m with
  | nil => simpa [mset] using h
  | cons p r ih =>
    obtain ⟨k', b⟩ := p
    simp only [mset] at h
    split at h
    · simpa using h
    · split at h
      · simp only [List.mem_cons] at h ⊢; tauto
      · simp only [List.mem_cons] at h ⊢
        rcases h with h | h
        · exact .inr (.inl h)
        · rcases ih h with h | h
          · exact .inl h
          · exact .inr (.inr h)

/-- A write keeps the keys rising. -/
theorem mset_rising {α : Type} {m : Map α} (h : Map.rising m) (k : Nat) (a : α) : Map.rising (mset m k a) := by
  induction m with
  | nil => simp [mset, Map.rising]
  | cons p r ih =>
    obtain ⟨k', b⟩ := p
    have hp := List.pairwise_cons.mp h
    simp only [mset]
    split
    · rename_i hlt
      refine List.pairwise_cons.mpr ⟨?_, h⟩
      intro x hx
      rcases List.mem_cons.mp hx with rfl | hx
      · exact hlt
      · exact Nat.lt_trans hlt (hp.1 x hx)
    · split
      · rename_i h2
        subst h2
        exact List.pairwise_cons.mpr ⟨hp.1, hp.2⟩
      · rename_i h1 h2
        refine List.pairwise_cons.mpr ⟨?_, ih hp.2⟩
        intro x hx
        rcases mem_mset hx with rfl | hx
        · simp only at *; omega
        · exact hp.1 x hx

/-- A removal keeps the keys rising. -/
theorem mdel_rising {α : Type} {m : Map α} (h : Map.rising m) (k : Nat) : Map.rising (mdel m k) := List.Pairwise.filter _ h

end Sys2Proof.Machine
end

