-- ==== Sys2Proof/Laws/State.lean ====
section
/-! SUPPORT. Laws of State: what each named update leaves as it is, field by field, and what the accessors of cores, gangs and
crews read after one. -/

namespace Sys2Proof.Machine
open Sys2Proof

/-! #### setCore -/

@[simp] theorem State.setCore_clock (s : State) (c : Nat) (k : Core) : (s.setCore c k).clock = s.clock := rfl
@[simp] theorem State.setCore_mem (s : State) (c : Nat) (k : Core) : (s.setCore c k).mem = s.mem := rfl
@[simp] theorem State.setCore_poison (s : State) (c : Nat) (k : Core) : (s.setCore c k).poison = s.poison := rfl
@[simp] theorem State.setCore_hbmBad (s : State) (c : Nat) (k : Core) : (s.setCore c k).hbmBad = s.hbmBad := rfl
@[simp] theorem State.setCore_reqs (s : State) (c : Nat) (k : Core) : (s.setCore c k).reqs = s.reqs := rfl
@[simp] theorem State.setCore_nextId (s : State) (c : Nat) (k : Core) : (s.setCore c k).nextId = s.nextId := rfl
@[simp] theorem State.setCore_ctxs (s : State) (c : Nat) (k : Core) : (s.setCore c k).ctxs = s.ctxs := rfl
@[simp] theorem State.setCore_tlb (s : State) (c : Nat) (k : Core) : (s.setCore c k).tlb = s.tlb := rfl
@[simp] theorem State.setCore_walkc (s : State) (c : Nat) (k : Core) : (s.setCore c k).walkc = s.walkc := rfl
@[simp] theorem State.setCore_large (s : State) (c : Nat) (k : Core) : (s.setCore c k).large = s.large := rfl
@[simp] theorem State.setCore_thrash (s : State) (c : Nat) (k : Core) : (s.setCore c k).thrash = s.thrash := rfl
@[simp] theorem State.setCore_spare (s : State) (c : Nat) (k : Core) : (s.setCore c k).spare = s.spare := rfl
@[simp] theorem State.setCore_fills (s : State) (c : Nat) (k : Core) : (s.setCore c k).fills = s.fills := rfl
@[simp] theorem State.setCore_fillq (s : State) (c : Nat) (k : Core) : (s.setCore c k).fillq = s.fillq := rfl
@[simp] theorem State.setCore_fillBad (s : State) (c : Nat) (k : Core) : (s.setCore c k).fillBad = s.fillBad := rfl
@[simp] theorem State.setCore_migr (s : State) (c : Nat) (k : Core) : (s.setCore c k).migr = s.migr := rfl
@[simp] theorem State.setCore_seqs (s : State) (c : Nat) (k : Core) : (s.setCore c k).seqs = s.seqs := rfl
@[simp] theorem State.setCore_recs (s : State) (c : Nat) (k : Core) : (s.setCore c k).recs = s.recs := rfl
@[simp] theorem State.setCore_lowSent (s : State) (c : Nat) (k : Core) : (s.setCore c k).lowSent = s.lowSent := rfl
@[simp] theorem State.setCore_ticq (s : State) (c : Nat) (k : Core) : (s.setCore c k).ticq = s.ticq := rfl
@[simp] theorem State.setCore_join (s : State) (c : Nat) (k : Core) : (s.setCore c k).join = s.join := rfl
@[simp] theorem State.setCore_joinSeen (s : State) (c : Nat) (k : Core) : (s.setCore c k).joinSeen = s.joinSeen := rfl
@[simp] theorem State.setCore_lotid (s : State) (c : Nat) (k : Core) : (s.setCore c k).lotid = s.lotid := rfl
@[simp] theorem State.setCore_lotRec (s : State) (c : Nat) (k : Core) : (s.setCore c k).lotRec = s.lotRec := rfl
@[simp] theorem State.setCore_launches (s : State) (c : Nat) (k : Core) : (s.setCore c k).launches = s.launches := rfl
@[simp] theorem State.setCore_lots (s : State) (c : Nat) (k : Core) : (s.setCore c k).lots = s.lots := rfl
@[simp] theorem State.setCore_parked (s : State) (c : Nat) (k : Core) : (s.setCore c k).parked = s.parked := rfl
@[simp] theorem State.setCore_saved (s : State) (c : Nat) (k : Core) : (s.setCore c k).saved = s.saved := rfl
@[simp] theorem State.setCore_trot (s : State) (c : Nat) (k : Core) : (s.setCore c k).trot = s.trot := rfl
@[simp] theorem State.setCore_admitting (s : State) (c : Nat) (k : Core) : (s.setCore c k).admitting = s.admitting := rfl
@[simp] theorem State.setCore_standNo (s : State) (c : Nat) (k : Core) : (s.setCore c k).standNo = s.standNo := rfl
@[simp] theorem State.setCore_groups (s : State) (c : Nat) (k : Core) : (s.setCore c k).groups = s.groups := rfl
@[simp] theorem State.setCore_landing (s : State) (c : Nat) (k : Core) : (s.setCore c k).landing = s.landing := rfl
@[simp] theorem State.setCore_dests (s : State) (c : Nat) (k : Core) : (s.setCore c k).dests = s.dests := rfl
@[simp] theorem State.setCore_dir (s : State) (c : Nat) (k : Core) : (s.setCore c k).dir = s.dir := rfl
@[simp] theorem State.setCore_dregs (s : State) (c : Nat) (k : Core) : (s.setCore c k).dregs = s.dregs := rfl
@[simp] theorem State.setCore_mrs (s : State) (c : Nat) (k : Core) : (s.setCore c k).mrs = s.mrs := rfl
@[simp] theorem State.setCore_mrLocked (s : State) (c : Nat) (k : Core) : (s.setCore c k).mrLocked = s.mrLocked := rfl
@[simp] theorem State.setCore_ras (s : State) (c : Nat) (k : Core) : (s.setCore c k).ras = s.ras := rfl
@[simp] theorem State.setCore_scrub (s : State) (c : Nat) (k : Core) : (s.setCore c k).scrub = s.scrub := rfl
@[simp] theorem State.setCore_scrubAt (s : State) (c : Nat) (k : Core) : (s.setCore c k).scrubAt = s.scrubAt := rfl
@[simp] theorem State.setCore_counts (s : State) (c : Nat) (k : Core) : (s.setCore c k).counts = s.counts := rfl
@[simp] theorem State.setCore_obsFrom (s : State) (c : Nat) (k : Core) : (s.setCore c k).obsFrom = s.obsFrom := rfl
@[simp] theorem State.setCore_obsTick (s : State) (c : Nat) (k : Core) : (s.setCore c k).obsTick = s.obsTick := rfl
@[simp] theorem State.setCore_linksLost (s : State) (c : Nat) (k : Core) : (s.setCore c k).linksLost = s.linksLost := rfl
@[simp] theorem State.setCore_iommuq (s : State) (c : Nat) (k : Core) : (s.setCore c k).iommuq = s.iommuq := rfl
@[simp] theorem State.setCore_halted (s : State) (c : Nat) (k : Core) : (s.setCore c k).halted = s.halted := rfl
@[simp] theorem State.setCore_booted (s : State) (c : Nat) (k : Core) : (s.setCore c k).booted = s.booted := rfl
@[simp] theorem State.setCore_cur (s : State) (c : Nat) (k : Core) : (s.setCore c k).cur = s.cur := rfl
@[simp] theorem State.setCore_ev (s : State) (c : Nat) (k : Core) : (s.setCore c k).ev = s.ev := rfl
@[simp] theorem State.setCore_agenda (s : State) (c : Nat) (k : Core) : (s.setCore c k).agenda = s.agenda := rfl
@[simp] theorem State.setCore_inbox (s : State) (c : Nat) (k : Core) : (s.setCore c k).inbox = s.inbox := rfl
@[simp] theorem State.setCore_irqs (s : State) (c : Nat) (k : Core) : (s.setCore c k).irqs = s.irqs := rfl
@[simp] theorem State.setCore_outbox (s : State) (c : Nat) (k : Core) : (s.setCore c k).outbox = s.outbox := rfl
@[simp] theorem State.setCore_replies (s : State) (c : Nat) (k : Core) : (s.setCore c k).replies = s.replies := rfl
@[simp] theorem State.setCore_tickets (s : State) (c : Nat) (k : Core) : (s.setCore c k).tickets = s.tickets := rfl
@[simp] theorem State.setCore_free (s : State) (c : Nat) (k : Core) : (s.setCore c k).free = s.free := rfl
/-! #### setGang -/

@[simp] theorem State.setGang_clock (s : State) (c g : Nat) (x : Gang) : (s.setGang c g x).clock = s.clock := rfl
@[simp] theorem State.setGang_mem (s : State) (c g : Nat) (x : Gang) : (s.setGang c g x).mem = s.mem := rfl
@[simp] theorem State.setGang_poison (s : State) (c g : Nat) (x : Gang) : (s.setGang c g x).poison = s.poison := rfl
@[simp] theorem State.setGang_hbmBad (s : State) (c g : Nat) (x : Gang) : (s.setGang c g x).hbmBad = s.hbmBad := rfl
@[simp] theorem State.setGang_reqs (s : State) (c g : Nat) (x : Gang) : (s.setGang c g x).reqs = s.reqs := rfl
@[simp] theorem State.setGang_nextId (s : State) (c g : Nat) (x : Gang) : (s.setGang c g x).nextId = s.nextId := rfl
@[simp] theorem State.setGang_ctxs (s : State) (c g : Nat) (x : Gang) : (s.setGang c g x).ctxs = s.ctxs := rfl
@[simp] theorem State.setGang_tlb (s : State) (c g : Nat) (x : Gang) : (s.setGang c g x).tlb = s.tlb := rfl
@[simp] theorem State.setGang_walkc (s : State) (c g : Nat) (x : Gang) : (s.setGang c g x).walkc = s.walkc := rfl
@[simp] theorem State.setGang_large (s : State) (c g : Nat) (x : Gang) : (s.setGang c g x).large = s.large := rfl
@[simp] theorem State.setGang_thrash (s : State) (c g : Nat) (x : Gang) : (s.setGang c g x).thrash = s.thrash := rfl
@[simp] theorem State.setGang_spare (s : State) (c g : Nat) (x : Gang) : (s.setGang c g x).spare = s.spare := rfl
@[simp] theorem State.setGang_fills (s : State) (c g : Nat) (x : Gang) : (s.setGang c g x).fills = s.fills := rfl
@[simp] theorem State.setGang_fillq (s : State) (c g : Nat) (x : Gang) : (s.setGang c g x).fillq = s.fillq := rfl
@[simp] theorem State.setGang_fillBad (s : State) (c g : Nat) (x : Gang) : (s.setGang c g x).fillBad = s.fillBad := rfl
@[simp] theorem State.setGang_migr (s : State) (c g : Nat) (x : Gang) : (s.setGang c g x).migr = s.migr := rfl
@[simp] theorem State.setGang_seqs (s : State) (c g : Nat) (x : Gang) : (s.setGang c g x).seqs = s.seqs := rfl
@[simp] theorem State.setGang_recs (s : State) (c g : Nat) (x : Gang) : (s.setGang c g x).recs = s.recs := rfl
@[simp] theorem State.setGang_lowSent (s : State) (c g : Nat) (x : Gang) : (s.setGang c g x).lowSent = s.lowSent := rfl
@[simp] theorem State.setGang_ticq (s : State) (c g : Nat) (x : Gang) : (s.setGang c g x).ticq = s.ticq := rfl
@[simp] theorem State.setGang_join (s : State) (c g : Nat) (x : Gang) : (s.setGang c g x).join = s.join := rfl
@[simp] theorem State.setGang_joinSeen (s : State) (c g : Nat) (x : Gang) : (s.setGang c g x).joinSeen = s.joinSeen := rfl
@[simp] theorem State.setGang_lotid (s : State) (c g : Nat) (x : Gang) : (s.setGang c g x).lotid = s.lotid := rfl
@[simp] theorem State.setGang_lotRec (s : State) (c g : Nat) (x : Gang) : (s.setGang c g x).lotRec = s.lotRec := rfl
@[simp] theorem State.setGang_launches (s : State) (c g : Nat) (x : Gang) : (s.setGang c g x).launches = s.launches := rfl
@[simp] theorem State.setGang_lots (s : State) (c g : Nat) (x : Gang) : (s.setGang c g x).lots = s.lots := rfl
@[simp] theorem State.setGang_parked (s : State) (c g : Nat) (x : Gang) : (s.setGang c g x).parked = s.parked := rfl
@[simp] theorem State.setGang_saved (s : State) (c g : Nat) (x : Gang) : (s.setGang c g x).saved = s.saved := rfl
@[simp] theorem State.setGang_trot (s : State) (c g : Nat) (x : Gang) : (s.setGang c g x).trot = s.trot := rfl
@[simp] theorem State.setGang_admitting (s : State) (c g : Nat) (x : Gang) : (s.setGang c g x).admitting = s.admitting := rfl
@[simp] theorem State.setGang_standNo (s : State) (c g : Nat) (x : Gang) : (s.setGang c g x).standNo = s.standNo := rfl
@[simp] theorem State.setGang_groups (s : State) (c g : Nat) (x : Gang) : (s.setGang c g x).groups = s.groups := rfl
@[simp] theorem State.setGang_landing (s : State) (c g : Nat) (x : Gang) : (s.setGang c g x).landing = s.landing := rfl
@[simp] theorem State.setGang_dests (s : State) (c g : Nat) (x : Gang) : (s.setGang c g x).dests = s.dests := rfl
@[simp] theorem State.setGang_dir (s : State) (c g : Nat) (x : Gang) : (s.setGang c g x).dir = s.dir := rfl
@[simp] theorem State.setGang_dregs (s : State) (c g : Nat) (x : Gang) : (s.setGang c g x).dregs = s.dregs := rfl
@[simp] theorem State.setGang_mrs (s : State) (c g : Nat) (x : Gang) : (s.setGang c g x).mrs = s.mrs := rfl
@[simp] theorem State.setGang_mrLocked (s : State) (c g : Nat) (x : Gang) : (s.setGang c g x).mrLocked = s.mrLocked := rfl
@[simp] theorem State.setGang_ras (s : State) (c g : Nat) (x : Gang) : (s.setGang c g x).ras = s.ras := rfl
@[simp] theorem State.setGang_scrub (s : State) (c g : Nat) (x : Gang) : (s.setGang c g x).scrub = s.scrub := rfl
@[simp] theorem State.setGang_scrubAt (s : State) (c g : Nat) (x : Gang) : (s.setGang c g x).scrubAt = s.scrubAt := rfl
@[simp] theorem State.setGang_counts (s : State) (c g : Nat) (x : Gang) : (s.setGang c g x).counts = s.counts := rfl
@[simp] theorem State.setGang_obsFrom (s : State) (c g : Nat) (x : Gang) : (s.setGang c g x).obsFrom = s.obsFrom := rfl
@[simp] theorem State.setGang_obsTick (s : State) (c g : Nat) (x : Gang) : (s.setGang c g x).obsTick = s.obsTick := rfl
@[simp] theorem State.setGang_linksLost (s : State) (c g : Nat) (x : Gang) : (s.setGang c g x).linksLost = s.linksLost := rfl
@[simp] theorem State.setGang_iommuq (s : State) (c g : Nat) (x : Gang) : (s.setGang c g x).iommuq = s.iommuq := rfl
@[simp] theorem State.setGang_halted (s : State) (c g : Nat) (x : Gang) : (s.setGang c g x).halted = s.halted := rfl
@[simp] theorem State.setGang_booted (s : State) (c g : Nat) (x : Gang) : (s.setGang c g x).booted = s.booted := rfl
@[simp] theorem State.setGang_cur (s : State) (c g : Nat) (x : Gang) : (s.setGang c g x).cur = s.cur := rfl
@[simp] theorem State.setGang_ev (s : State) (c g : Nat) (x : Gang) : (s.setGang c g x).ev = s.ev := rfl
@[simp] theorem State.setGang_agenda (s : State) (c g : Nat) (x : Gang) : (s.setGang c g x).agenda = s.agenda := rfl
@[simp] theorem State.setGang_inbox (s : State) (c g : Nat) (x : Gang) : (s.setGang c g x).inbox = s.inbox := rfl
@[simp] theorem State.setGang_irqs (s : State) (c g : Nat) (x : Gang) : (s.setGang c g x).irqs = s.irqs := rfl
@[simp] theorem State.setGang_outbox (s : State) (c g : Nat) (x : Gang) : (s.setGang c g x).outbox = s.outbox := rfl
@[simp] theorem State.setGang_replies (s : State) (c g : Nat) (x : Gang) : (s.setGang c g x).replies = s.replies := rfl
@[simp] theorem State.setGang_tickets (s : State) (c g : Nat) (x : Gang) : (s.setGang c g x).tickets = s.tickets := rfl
@[simp] theorem State.setGang_free (s : State) (c g : Nat) (x : Gang) : (s.setGang c g x).free = s.free := rfl
/-! #### setCrew -/

@[simp] theorem State.setCrew_clock (s : State) (c k : Nat) (x : Crew) : (s.setCrew c k x).clock = s.clock := rfl
@[simp] theorem State.setCrew_mem (s : State) (c k : Nat) (x : Crew) : (s.setCrew c k x).mem = s.mem := rfl
@[simp] theorem State.setCrew_poison (s : State) (c k : Nat) (x : Crew) : (s.setCrew c k x).poison = s.poison := rfl
@[simp] theorem State.setCrew_hbmBad (s : State) (c k : Nat) (x : Crew) : (s.setCrew c k x).hbmBad = s.hbmBad := rfl
@[simp] theorem State.setCrew_reqs (s : State) (c k : Nat) (x : Crew) : (s.setCrew c k x).reqs = s.reqs := rfl
@[simp] theorem State.setCrew_nextId (s : State) (c k : Nat) (x : Crew) : (s.setCrew c k x).nextId = s.nextId := rfl
@[simp] theorem State.setCrew_ctxs (s : State) (c k : Nat) (x : Crew) : (s.setCrew c k x).ctxs = s.ctxs := rfl
@[simp] theorem State.setCrew_tlb (s : State) (c k : Nat) (x : Crew) : (s.setCrew c k x).tlb = s.tlb := rfl
@[simp] theorem State.setCrew_walkc (s : State) (c k : Nat) (x : Crew) : (s.setCrew c k x).walkc = s.walkc := rfl
@[simp] theorem State.setCrew_large (s : State) (c k : Nat) (x : Crew) : (s.setCrew c k x).large = s.large := rfl
@[simp] theorem State.setCrew_thrash (s : State) (c k : Nat) (x : Crew) : (s.setCrew c k x).thrash = s.thrash := rfl
@[simp] theorem State.setCrew_spare (s : State) (c k : Nat) (x : Crew) : (s.setCrew c k x).spare = s.spare := rfl
@[simp] theorem State.setCrew_fills (s : State) (c k : Nat) (x : Crew) : (s.setCrew c k x).fills = s.fills := rfl
@[simp] theorem State.setCrew_fillq (s : State) (c k : Nat) (x : Crew) : (s.setCrew c k x).fillq = s.fillq := rfl
@[simp] theorem State.setCrew_fillBad (s : State) (c k : Nat) (x : Crew) : (s.setCrew c k x).fillBad = s.fillBad := rfl
@[simp] theorem State.setCrew_migr (s : State) (c k : Nat) (x : Crew) : (s.setCrew c k x).migr = s.migr := rfl
@[simp] theorem State.setCrew_seqs (s : State) (c k : Nat) (x : Crew) : (s.setCrew c k x).seqs = s.seqs := rfl
@[simp] theorem State.setCrew_recs (s : State) (c k : Nat) (x : Crew) : (s.setCrew c k x).recs = s.recs := rfl
@[simp] theorem State.setCrew_lowSent (s : State) (c k : Nat) (x : Crew) : (s.setCrew c k x).lowSent = s.lowSent := rfl
@[simp] theorem State.setCrew_ticq (s : State) (c k : Nat) (x : Crew) : (s.setCrew c k x).ticq = s.ticq := rfl
@[simp] theorem State.setCrew_join (s : State) (c k : Nat) (x : Crew) : (s.setCrew c k x).join = s.join := rfl
@[simp] theorem State.setCrew_joinSeen (s : State) (c k : Nat) (x : Crew) : (s.setCrew c k x).joinSeen = s.joinSeen := rfl
@[simp] theorem State.setCrew_lotid (s : State) (c k : Nat) (x : Crew) : (s.setCrew c k x).lotid = s.lotid := rfl
@[simp] theorem State.setCrew_lotRec (s : State) (c k : Nat) (x : Crew) : (s.setCrew c k x).lotRec = s.lotRec := rfl
@[simp] theorem State.setCrew_launches (s : State) (c k : Nat) (x : Crew) : (s.setCrew c k x).launches = s.launches := rfl
@[simp] theorem State.setCrew_lots (s : State) (c k : Nat) (x : Crew) : (s.setCrew c k x).lots = s.lots := rfl
@[simp] theorem State.setCrew_parked (s : State) (c k : Nat) (x : Crew) : (s.setCrew c k x).parked = s.parked := rfl
@[simp] theorem State.setCrew_saved (s : State) (c k : Nat) (x : Crew) : (s.setCrew c k x).saved = s.saved := rfl
@[simp] theorem State.setCrew_trot (s : State) (c k : Nat) (x : Crew) : (s.setCrew c k x).trot = s.trot := rfl
@[simp] theorem State.setCrew_admitting (s : State) (c k : Nat) (x : Crew) : (s.setCrew c k x).admitting = s.admitting := rfl
@[simp] theorem State.setCrew_standNo (s : State) (c k : Nat) (x : Crew) : (s.setCrew c k x).standNo = s.standNo := rfl
@[simp] theorem State.setCrew_groups (s : State) (c k : Nat) (x : Crew) : (s.setCrew c k x).groups = s.groups := rfl
@[simp] theorem State.setCrew_landing (s : State) (c k : Nat) (x : Crew) : (s.setCrew c k x).landing = s.landing := rfl
@[simp] theorem State.setCrew_dests (s : State) (c k : Nat) (x : Crew) : (s.setCrew c k x).dests = s.dests := rfl
@[simp] theorem State.setCrew_dir (s : State) (c k : Nat) (x : Crew) : (s.setCrew c k x).dir = s.dir := rfl
@[simp] theorem State.setCrew_dregs (s : State) (c k : Nat) (x : Crew) : (s.setCrew c k x).dregs = s.dregs := rfl
@[simp] theorem State.setCrew_mrs (s : State) (c k : Nat) (x : Crew) : (s.setCrew c k x).mrs = s.mrs := rfl
@[simp] theorem State.setCrew_mrLocked (s : State) (c k : Nat) (x : Crew) : (s.setCrew c k x).mrLocked = s.mrLocked := rfl
@[simp] theorem State.setCrew_ras (s : State) (c k : Nat) (x : Crew) : (s.setCrew c k x).ras = s.ras := rfl
@[simp] theorem State.setCrew_scrub (s : State) (c k : Nat) (x : Crew) : (s.setCrew c k x).scrub = s.scrub := rfl
@[simp] theorem State.setCrew_scrubAt (s : State) (c k : Nat) (x : Crew) : (s.setCrew c k x).scrubAt = s.scrubAt := rfl
@[simp] theorem State.setCrew_counts (s : State) (c k : Nat) (x : Crew) : (s.setCrew c k x).counts = s.counts := rfl
@[simp] theorem State.setCrew_obsFrom (s : State) (c k : Nat) (x : Crew) : (s.setCrew c k x).obsFrom = s.obsFrom := rfl
@[simp] theorem State.setCrew_obsTick (s : State) (c k : Nat) (x : Crew) : (s.setCrew c k x).obsTick = s.obsTick := rfl
@[simp] theorem State.setCrew_linksLost (s : State) (c k : Nat) (x : Crew) : (s.setCrew c k x).linksLost = s.linksLost := rfl
@[simp] theorem State.setCrew_iommuq (s : State) (c k : Nat) (x : Crew) : (s.setCrew c k x).iommuq = s.iommuq := rfl
@[simp] theorem State.setCrew_halted (s : State) (c k : Nat) (x : Crew) : (s.setCrew c k x).halted = s.halted := rfl
@[simp] theorem State.setCrew_booted (s : State) (c k : Nat) (x : Crew) : (s.setCrew c k x).booted = s.booted := rfl
@[simp] theorem State.setCrew_cur (s : State) (c k : Nat) (x : Crew) : (s.setCrew c k x).cur = s.cur := rfl
@[simp] theorem State.setCrew_ev (s : State) (c k : Nat) (x : Crew) : (s.setCrew c k x).ev = s.ev := rfl
@[simp] theorem State.setCrew_agenda (s : State) (c k : Nat) (x : Crew) : (s.setCrew c k x).agenda = s.agenda := rfl
@[simp] theorem State.setCrew_inbox (s : State) (c k : Nat) (x : Crew) : (s.setCrew c k x).inbox = s.inbox := rfl
@[simp] theorem State.setCrew_irqs (s : State) (c k : Nat) (x : Crew) : (s.setCrew c k x).irqs = s.irqs := rfl
@[simp] theorem State.setCrew_outbox (s : State) (c k : Nat) (x : Crew) : (s.setCrew c k x).outbox = s.outbox := rfl
@[simp] theorem State.setCrew_replies (s : State) (c k : Nat) (x : Crew) : (s.setCrew c k x).replies = s.replies := rfl
@[simp] theorem State.setCrew_tickets (s : State) (c k : Nat) (x : Crew) : (s.setCrew c k x).tickets = s.tickets := rfl
@[simp] theorem State.setCrew_free (s : State) (c k : Nat) (x : Crew) : (s.setCrew c k x).free = s.free := rfl
/-! #### setMe -/

@[simp] theorem State.setMe_clock (s : State) (g : Gang) : (s.setMe g).clock = s.clock := rfl
@[simp] theorem State.setMe_mem (s : State) (g : Gang) : (s.setMe g).mem = s.mem := rfl
@[simp] theorem State.setMe_poison (s : State) (g : Gang) : (s.setMe g).poison = s.poison := rfl
@[simp] theorem State.setMe_hbmBad (s : State) (g : Gang) : (s.setMe g).hbmBad = s.hbmBad := rfl
@[simp] theorem State.setMe_reqs (s : State) (g : Gang) : (s.setMe g).reqs = s.reqs := rfl
@[simp] theorem State.setMe_nextId (s : State) (g : Gang) : (s.setMe g).nextId = s.nextId := rfl
@[simp] theorem State.setMe_ctxs (s : State) (g : Gang) : (s.setMe g).ctxs = s.ctxs := rfl
@[simp] theorem State.setMe_tlb (s : State) (g : Gang) : (s.setMe g).tlb = s.tlb := rfl
@[simp] theorem State.setMe_walkc (s : State) (g : Gang) : (s.setMe g).walkc = s.walkc := rfl
@[simp] theorem State.setMe_large (s : State) (g : Gang) : (s.setMe g).large = s.large := rfl
@[simp] theorem State.setMe_thrash (s : State) (g : Gang) : (s.setMe g).thrash = s.thrash := rfl
@[simp] theorem State.setMe_spare (s : State) (g : Gang) : (s.setMe g).spare = s.spare := rfl
@[simp] theorem State.setMe_fills (s : State) (g : Gang) : (s.setMe g).fills = s.fills := rfl
@[simp] theorem State.setMe_fillq (s : State) (g : Gang) : (s.setMe g).fillq = s.fillq := rfl
@[simp] theorem State.setMe_fillBad (s : State) (g : Gang) : (s.setMe g).fillBad = s.fillBad := rfl
@[simp] theorem State.setMe_migr (s : State) (g : Gang) : (s.setMe g).migr = s.migr := rfl
@[simp] theorem State.setMe_seqs (s : State) (g : Gang) : (s.setMe g).seqs = s.seqs := rfl
@[simp] theorem State.setMe_recs (s : State) (g : Gang) : (s.setMe g).recs = s.recs := rfl
@[simp] theorem State.setMe_lowSent (s : State) (g : Gang) : (s.setMe g).lowSent = s.lowSent := rfl
@[simp] theorem State.setMe_ticq (s : State) (g : Gang) : (s.setMe g).ticq = s.ticq := rfl
@[simp] theorem State.setMe_join (s : State) (g : Gang) : (s.setMe g).join = s.join := rfl
@[simp] theorem State.setMe_joinSeen (s : State) (g : Gang) : (s.setMe g).joinSeen = s.joinSeen := rfl
@[simp] theorem State.setMe_lotid (s : State) (g : Gang) : (s.setMe g).lotid = s.lotid := rfl
@[simp] theorem State.setMe_lotRec (s : State) (g : Gang) : (s.setMe g).lotRec = s.lotRec := rfl
@[simp] theorem State.setMe_launches (s : State) (g : Gang) : (s.setMe g).launches = s.launches := rfl
@[simp] theorem State.setMe_lots (s : State) (g : Gang) : (s.setMe g).lots = s.lots := rfl
@[simp] theorem State.setMe_parked (s : State) (g : Gang) : (s.setMe g).parked = s.parked := rfl
@[simp] theorem State.setMe_saved (s : State) (g : Gang) : (s.setMe g).saved = s.saved := rfl
@[simp] theorem State.setMe_trot (s : State) (g : Gang) : (s.setMe g).trot = s.trot := rfl
@[simp] theorem State.setMe_admitting (s : State) (g : Gang) : (s.setMe g).admitting = s.admitting := rfl
@[simp] theorem State.setMe_standNo (s : State) (g : Gang) : (s.setMe g).standNo = s.standNo := rfl
@[simp] theorem State.setMe_groups (s : State) (g : Gang) : (s.setMe g).groups = s.groups := rfl
@[simp] theorem State.setMe_landing (s : State) (g : Gang) : (s.setMe g).landing = s.landing := rfl
@[simp] theorem State.setMe_dests (s : State) (g : Gang) : (s.setMe g).dests = s.dests := rfl
@[simp] theorem State.setMe_dir (s : State) (g : Gang) : (s.setMe g).dir = s.dir := rfl
@[simp] theorem State.setMe_dregs (s : State) (g : Gang) : (s.setMe g).dregs = s.dregs := rfl
@[simp] theorem State.setMe_mrs (s : State) (g : Gang) : (s.setMe g).mrs = s.mrs := rfl
@[simp] theorem State.setMe_mrLocked (s : State) (g : Gang) : (s.setMe g).mrLocked = s.mrLocked := rfl
@[simp] theorem State.setMe_ras (s : State) (g : Gang) : (s.setMe g).ras = s.ras := rfl
@[simp] theorem State.setMe_scrub (s : State) (g : Gang) : (s.setMe g).scrub = s.scrub := rfl
@[simp] theorem State.setMe_scrubAt (s : State) (g : Gang) : (s.setMe g).scrubAt = s.scrubAt := rfl
@[simp] theorem State.setMe_counts (s : State) (g : Gang) : (s.setMe g).counts = s.counts := rfl
@[simp] theorem State.setMe_obsFrom (s : State) (g : Gang) : (s.setMe g).obsFrom = s.obsFrom := rfl
@[simp] theorem State.setMe_obsTick (s : State) (g : Gang) : (s.setMe g).obsTick = s.obsTick := rfl
@[simp] theorem State.setMe_linksLost (s : State) (g : Gang) : (s.setMe g).linksLost = s.linksLost := rfl
@[simp] theorem State.setMe_iommuq (s : State) (g : Gang) : (s.setMe g).iommuq = s.iommuq := rfl
@[simp] theorem State.setMe_halted (s : State) (g : Gang) : (s.setMe g).halted = s.halted := rfl
@[simp] theorem State.setMe_booted (s : State) (g : Gang) : (s.setMe g).booted = s.booted := rfl
@[simp] theorem State.setMe_cur (s : State) (g : Gang) : (s.setMe g).cur = s.cur := rfl
@[simp] theorem State.setMe_ev (s : State) (g : Gang) : (s.setMe g).ev = s.ev := rfl
@[simp] theorem State.setMe_agenda (s : State) (g : Gang) : (s.setMe g).agenda = s.agenda := rfl
@[simp] theorem State.setMe_inbox (s : State) (g : Gang) : (s.setMe g).inbox = s.inbox := rfl
@[simp] theorem State.setMe_irqs (s : State) (g : Gang) : (s.setMe g).irqs = s.irqs := rfl
@[simp] theorem State.setMe_outbox (s : State) (g : Gang) : (s.setMe g).outbox = s.outbox := rfl
@[simp] theorem State.setMe_replies (s : State) (g : Gang) : (s.setMe g).replies = s.replies := rfl
@[simp] theorem State.setMe_tickets (s : State) (g : Gang) : (s.setMe g).tickets = s.tickets := rfl
@[simp] theorem State.setMe_free (s : State) (g : Gang) : (s.setMe g).free = s.free := rfl
/-! #### setMyCrew -/

@[simp] theorem State.setMyCrew_clock (s : State) (k : Crew) : (s.setMyCrew k).clock = s.clock := rfl
@[simp] theorem State.setMyCrew_mem (s : State) (k : Crew) : (s.setMyCrew k).mem = s.mem := rfl
@[simp] theorem State.setMyCrew_poison (s : State) (k : Crew) : (s.setMyCrew k).poison = s.poison := rfl
@[simp] theorem State.setMyCrew_hbmBad (s : State) (k : Crew) : (s.setMyCrew k).hbmBad = s.hbmBad := rfl
@[simp] theorem State.setMyCrew_reqs (s : State) (k : Crew) : (s.setMyCrew k).reqs = s.reqs := rfl
@[simp] theorem State.setMyCrew_nextId (s : State) (k : Crew) : (s.setMyCrew k).nextId = s.nextId := rfl
@[simp] theorem State.setMyCrew_ctxs (s : State) (k : Crew) : (s.setMyCrew k).ctxs = s.ctxs := rfl
@[simp] theorem State.setMyCrew_tlb (s : State) (k : Crew) : (s.setMyCrew k).tlb = s.tlb := rfl
@[simp] theorem State.setMyCrew_walkc (s : State) (k : Crew) : (s.setMyCrew k).walkc = s.walkc := rfl
@[simp] theorem State.setMyCrew_large (s : State) (k : Crew) : (s.setMyCrew k).large = s.large := rfl
@[simp] theorem State.setMyCrew_thrash (s : State) (k : Crew) : (s.setMyCrew k).thrash = s.thrash := rfl
@[simp] theorem State.setMyCrew_spare (s : State) (k : Crew) : (s.setMyCrew k).spare = s.spare := rfl
@[simp] theorem State.setMyCrew_fills (s : State) (k : Crew) : (s.setMyCrew k).fills = s.fills := rfl
@[simp] theorem State.setMyCrew_fillq (s : State) (k : Crew) : (s.setMyCrew k).fillq = s.fillq := rfl
@[simp] theorem State.setMyCrew_fillBad (s : State) (k : Crew) : (s.setMyCrew k).fillBad = s.fillBad := rfl
@[simp] theorem State.setMyCrew_migr (s : State) (k : Crew) : (s.setMyCrew k).migr = s.migr := rfl
@[simp] theorem State.setMyCrew_seqs (s : State) (k : Crew) : (s.setMyCrew k).seqs = s.seqs := rfl
@[simp] theorem State.setMyCrew_recs (s : State) (k : Crew) : (s.setMyCrew k).recs = s.recs := rfl
@[simp] theorem State.setMyCrew_lowSent (s : State) (k : Crew) : (s.setMyCrew k).lowSent = s.lowSent := rfl
@[simp] theorem State.setMyCrew_ticq (s : State) (k : Crew) : (s.setMyCrew k).ticq = s.ticq := rfl
@[simp] theorem State.setMyCrew_join (s : State) (k : Crew) : (s.setMyCrew k).join = s.join := rfl
@[simp] theorem State.setMyCrew_joinSeen (s : State) (k : Crew) : (s.setMyCrew k).joinSeen = s.joinSeen := rfl
@[simp] theorem State.setMyCrew_lotid (s : State) (k : Crew) : (s.setMyCrew k).lotid = s.lotid := rfl
@[simp] theorem State.setMyCrew_lotRec (s : State) (k : Crew) : (s.setMyCrew k).lotRec = s.lotRec := rfl
@[simp] theorem State.setMyCrew_launches (s : State) (k : Crew) : (s.setMyCrew k).launches = s.launches := rfl
@[simp] theorem State.setMyCrew_lots (s : State) (k : Crew) : (s.setMyCrew k).lots = s.lots := rfl
@[simp] theorem State.setMyCrew_parked (s : State) (k : Crew) : (s.setMyCrew k).parked = s.parked := rfl
@[simp] theorem State.setMyCrew_saved (s : State) (k : Crew) : (s.setMyCrew k).saved = s.saved := rfl
@[simp] theorem State.setMyCrew_trot (s : State) (k : Crew) : (s.setMyCrew k).trot = s.trot := rfl
@[simp] theorem State.setMyCrew_admitting (s : State) (k : Crew) : (s.setMyCrew k).admitting = s.admitting := rfl
@[simp] theorem State.setMyCrew_standNo (s : State) (k : Crew) : (s.setMyCrew k).standNo = s.standNo := rfl
@[simp] theorem State.setMyCrew_groups (s : State) (k : Crew) : (s.setMyCrew k).groups = s.groups := rfl
@[simp] theorem State.setMyCrew_landing (s : State) (k : Crew) : (s.setMyCrew k).landing = s.landing := rfl
@[simp] theorem State.setMyCrew_dests (s : State) (k : Crew) : (s.setMyCrew k).dests = s.dests := rfl
@[simp] theorem State.setMyCrew_dir (s : State) (k : Crew) : (s.setMyCrew k).dir = s.dir := rfl
@[simp] theorem State.setMyCrew_dregs (s : State) (k : Crew) : (s.setMyCrew k).dregs = s.dregs := rfl
@[simp] theorem State.setMyCrew_mrs (s : State) (k : Crew) : (s.setMyCrew k).mrs = s.mrs := rfl
@[simp] theorem State.setMyCrew_mrLocked (s : State) (k : Crew) : (s.setMyCrew k).mrLocked = s.mrLocked := rfl
@[simp] theorem State.setMyCrew_ras (s : State) (k : Crew) : (s.setMyCrew k).ras = s.ras := rfl
@[simp] theorem State.setMyCrew_scrub (s : State) (k : Crew) : (s.setMyCrew k).scrub = s.scrub := rfl
@[simp] theorem State.setMyCrew_scrubAt (s : State) (k : Crew) : (s.setMyCrew k).scrubAt = s.scrubAt := rfl
@[simp] theorem State.setMyCrew_counts (s : State) (k : Crew) : (s.setMyCrew k).counts = s.counts := rfl
@[simp] theorem State.setMyCrew_obsFrom (s : State) (k : Crew) : (s.setMyCrew k).obsFrom = s.obsFrom := rfl
@[simp] theorem State.setMyCrew_obsTick (s : State) (k : Crew) : (s.setMyCrew k).obsTick = s.obsTick := rfl
@[simp] theorem State.setMyCrew_linksLost (s : State) (k : Crew) : (s.setMyCrew k).linksLost = s.linksLost := rfl
@[simp] theorem State.setMyCrew_iommuq (s : State) (k : Crew) : (s.setMyCrew k).iommuq = s.iommuq := rfl
@[simp] theorem State.setMyCrew_halted (s : State) (k : Crew) : (s.setMyCrew k).halted = s.halted := rfl
@[simp] theorem State.setMyCrew_booted (s : State) (k : Crew) : (s.setMyCrew k).booted = s.booted := rfl
@[simp] theorem State.setMyCrew_cur (s : State) (k : Crew) : (s.setMyCrew k).cur = s.cur := rfl
@[simp] theorem State.setMyCrew_ev (s : State) (k : Crew) : (s.setMyCrew k).ev = s.ev := rfl
@[simp] theorem State.setMyCrew_agenda (s : State) (k : Crew) : (s.setMyCrew k).agenda = s.agenda := rfl
@[simp] theorem State.setMyCrew_inbox (s : State) (k : Crew) : (s.setMyCrew k).inbox = s.inbox := rfl
@[simp] theorem State.setMyCrew_irqs (s : State) (k : Crew) : (s.setMyCrew k).irqs = s.irqs := rfl
@[simp] theorem State.setMyCrew_outbox (s : State) (k : Crew) : (s.setMyCrew k).outbox = s.outbox := rfl
@[simp] theorem State.setMyCrew_replies (s : State) (k : Crew) : (s.setMyCrew k).replies = s.replies := rfl
@[simp] theorem State.setMyCrew_tickets (s : State) (k : Crew) : (s.setMyCrew k).tickets = s.tickets := rfl
@[simp] theorem State.setMyCrew_free (s : State) (k : Crew) : (s.setMyCrew k).free = s.free := rfl
/-! #### bump -/

@[simp] theorem State.bump_clock (s : State) : s.bump.clock = s.clock := rfl
@[simp] theorem State.bump_cores (s : State) : s.bump.cores = s.cores := rfl
@[simp] theorem State.bump_mem (s : State) : s.bump.mem = s.mem := rfl
@[simp] theorem State.bump_poison (s : State) : s.bump.poison = s.poison := rfl
@[simp] theorem State.bump_hbmBad (s : State) : s.bump.hbmBad = s.hbmBad := rfl
@[simp] theorem State.bump_reqs (s : State) : s.bump.reqs = s.reqs := rfl
@[simp] theorem State.bump_nextId (s : State) : s.bump.nextId = s.nextId := rfl
@[simp] theorem State.bump_ctxs (s : State) : s.bump.ctxs = s.ctxs := rfl
@[simp] theorem State.bump_tlb (s : State) : s.bump.tlb = s.tlb := rfl
@[simp] theorem State.bump_walkc (s : State) : s.bump.walkc = s.walkc := rfl
@[simp] theorem State.bump_large (s : State) : s.bump.large = s.large := rfl
@[simp] theorem State.bump_thrash (s : State) : s.bump.thrash = s.thrash := rfl
@[simp] theorem State.bump_spare (s : State) : s.bump.spare = s.spare := rfl
@[simp] theorem State.bump_fills (s : State) : s.bump.fills = s.fills := rfl
@[simp] theorem State.bump_fillq (s : State) : s.bump.fillq = s.fillq := rfl
@[simp] theorem State.bump_fillBad (s : State) : s.bump.fillBad = s.fillBad := rfl
@[simp] theorem State.bump_migr (s : State) : s.bump.migr = s.migr := rfl
@[simp] theorem State.bump_seqs (s : State) : s.bump.seqs = s.seqs := rfl
@[simp] theorem State.bump_recs (s : State) : s.bump.recs = s.recs := rfl
@[simp] theorem State.bump_lowSent (s : State) : s.bump.lowSent = s.lowSent := rfl
@[simp] theorem State.bump_ticq (s : State) : s.bump.ticq = s.ticq := rfl
@[simp] theorem State.bump_join (s : State) : s.bump.join = s.join := rfl
@[simp] theorem State.bump_joinSeen (s : State) : s.bump.joinSeen = s.joinSeen := rfl
@[simp] theorem State.bump_lotid (s : State) : s.bump.lotid = s.lotid := rfl
@[simp] theorem State.bump_lotRec (s : State) : s.bump.lotRec = s.lotRec := rfl
@[simp] theorem State.bump_launches (s : State) : s.bump.launches = s.launches := rfl
@[simp] theorem State.bump_lots (s : State) : s.bump.lots = s.lots := rfl
@[simp] theorem State.bump_parked (s : State) : s.bump.parked = s.parked := rfl
@[simp] theorem State.bump_saved (s : State) : s.bump.saved = s.saved := rfl
@[simp] theorem State.bump_trot (s : State) : s.bump.trot = s.trot := rfl
@[simp] theorem State.bump_admitting (s : State) : s.bump.admitting = s.admitting := rfl
@[simp] theorem State.bump_standNo (s : State) : s.bump.standNo = s.standNo := rfl
@[simp] theorem State.bump_groups (s : State) : s.bump.groups = s.groups := rfl
@[simp] theorem State.bump_landing (s : State) : s.bump.landing = s.landing := rfl
@[simp] theorem State.bump_dests (s : State) : s.bump.dests = s.dests := rfl
@[simp] theorem State.bump_dir (s : State) : s.bump.dir = s.dir := rfl
@[simp] theorem State.bump_dregs (s : State) : s.bump.dregs = s.dregs := rfl
@[simp] theorem State.bump_mrs (s : State) : s.bump.mrs = s.mrs := rfl
@[simp] theorem State.bump_mrLocked (s : State) : s.bump.mrLocked = s.mrLocked := rfl
@[simp] theorem State.bump_ras (s : State) : s.bump.ras = s.ras := rfl
@[simp] theorem State.bump_scrub (s : State) : s.bump.scrub = s.scrub := rfl
@[simp] theorem State.bump_scrubAt (s : State) : s.bump.scrubAt = s.scrubAt := rfl
@[simp] theorem State.bump_counts (s : State) : s.bump.counts = s.counts := rfl
@[simp] theorem State.bump_obsFrom (s : State) : s.bump.obsFrom = s.obsFrom := rfl
@[simp] theorem State.bump_obsTick (s : State) : s.bump.obsTick = s.obsTick := rfl
@[simp] theorem State.bump_linksLost (s : State) : s.bump.linksLost = s.linksLost := rfl
@[simp] theorem State.bump_iommuq (s : State) : s.bump.iommuq = s.iommuq := rfl
@[simp] theorem State.bump_halted (s : State) : s.bump.halted = s.halted := rfl
@[simp] theorem State.bump_booted (s : State) : s.bump.booted = s.booted := rfl
@[simp] theorem State.bump_cur (s : State) : s.bump.cur = s.cur := rfl
@[simp] theorem State.bump_ev (s : State) : s.bump.ev = s.ev := rfl
@[simp] theorem State.bump_agenda (s : State) : s.bump.agenda = s.agenda := rfl
@[simp] theorem State.bump_inbox (s : State) : s.bump.inbox = s.inbox := rfl
@[simp] theorem State.bump_irqs (s : State) : s.bump.irqs = s.irqs := rfl
@[simp] theorem State.bump_outbox (s : State) : s.bump.outbox = s.outbox := rfl
@[simp] theorem State.bump_replies (s : State) : s.bump.replies = s.replies := rfl
@[simp] theorem State.bump_tickets (s : State) : s.bump.tickets = s.tickets := rfl
/-! #### power -/

@[simp] theorem State.power_clock (s : State) (core j d : Nat) : (s.power core j d).clock = s.clock := rfl
@[simp] theorem State.power_cores (s : State) (core j d : Nat) : (s.power core j d).cores = s.cores := rfl
@[simp] theorem State.power_mem (s : State) (core j d : Nat) : (s.power core j d).mem = s.mem := rfl
@[simp] theorem State.power_poison (s : State) (core j d : Nat) : (s.power core j d).poison = s.poison := rfl
@[simp] theorem State.power_hbmBad (s : State) (core j d : Nat) : (s.power core j d).hbmBad = s.hbmBad := rfl
@[simp] theorem State.power_reqs (s : State) (core j d : Nat) : (s.power core j d).reqs = s.reqs := rfl
@[simp] theorem State.power_nextId (s : State) (core j d : Nat) : (s.power core j d).nextId = s.nextId := rfl
@[simp] theorem State.power_ctxs (s : State) (core j d : Nat) : (s.power core j d).ctxs = s.ctxs := rfl
@[simp] theorem State.power_tlb (s : State) (core j d : Nat) : (s.power core j d).tlb = s.tlb := rfl
@[simp] theorem State.power_walkc (s : State) (core j d : Nat) : (s.power core j d).walkc = s.walkc := rfl
@[simp] theorem State.power_large (s : State) (core j d : Nat) : (s.power core j d).large = s.large := rfl
@[simp] theorem State.power_thrash (s : State) (core j d : Nat) : (s.power core j d).thrash = s.thrash := rfl
@[simp] theorem State.power_spare (s : State) (core j d : Nat) : (s.power core j d).spare = s.spare := rfl
@[simp] theorem State.power_fills (s : State) (core j d : Nat) : (s.power core j d).fills = s.fills := rfl
@[simp] theorem State.power_fillq (s : State) (core j d : Nat) : (s.power core j d).fillq = s.fillq := rfl
@[simp] theorem State.power_fillBad (s : State) (core j d : Nat) : (s.power core j d).fillBad = s.fillBad := rfl
@[simp] theorem State.power_migr (s : State) (core j d : Nat) : (s.power core j d).migr = s.migr := rfl
@[simp] theorem State.power_seqs (s : State) (core j d : Nat) : (s.power core j d).seqs = s.seqs := rfl
@[simp] theorem State.power_recs (s : State) (core j d : Nat) : (s.power core j d).recs = s.recs := rfl
@[simp] theorem State.power_lowSent (s : State) (core j d : Nat) : (s.power core j d).lowSent = s.lowSent := rfl
@[simp] theorem State.power_ticq (s : State) (core j d : Nat) : (s.power core j d).ticq = s.ticq := rfl
@[simp] theorem State.power_join (s : State) (core j d : Nat) : (s.power core j d).join = s.join := rfl
@[simp] theorem State.power_joinSeen (s : State) (core j d : Nat) : (s.power core j d).joinSeen = s.joinSeen := rfl
@[simp] theorem State.power_lotid (s : State) (core j d : Nat) : (s.power core j d).lotid = s.lotid := rfl
@[simp] theorem State.power_lotRec (s : State) (core j d : Nat) : (s.power core j d).lotRec = s.lotRec := rfl
@[simp] theorem State.power_launches (s : State) (core j d : Nat) : (s.power core j d).launches = s.launches := rfl
@[simp] theorem State.power_lots (s : State) (core j d : Nat) : (s.power core j d).lots = s.lots := rfl
@[simp] theorem State.power_parked (s : State) (core j d : Nat) : (s.power core j d).parked = s.parked := rfl
@[simp] theorem State.power_saved (s : State) (core j d : Nat) : (s.power core j d).saved = s.saved := rfl
@[simp] theorem State.power_trot (s : State) (core j d : Nat) : (s.power core j d).trot = s.trot := rfl
@[simp] theorem State.power_admitting (s : State) (core j d : Nat) : (s.power core j d).admitting = s.admitting := rfl
@[simp] theorem State.power_standNo (s : State) (core j d : Nat) : (s.power core j d).standNo = s.standNo := rfl
@[simp] theorem State.power_groups (s : State) (core j d : Nat) : (s.power core j d).groups = s.groups := rfl
@[simp] theorem State.power_landing (s : State) (core j d : Nat) : (s.power core j d).landing = s.landing := rfl
@[simp] theorem State.power_dests (s : State) (core j d : Nat) : (s.power core j d).dests = s.dests := rfl
@[simp] theorem State.power_dir (s : State) (core j d : Nat) : (s.power core j d).dir = s.dir := rfl
@[simp] theorem State.power_dregs (s : State) (core j d : Nat) : (s.power core j d).dregs = s.dregs := rfl
@[simp] theorem State.power_mrs (s : State) (core j d : Nat) : (s.power core j d).mrs = s.mrs := rfl
@[simp] theorem State.power_mrLocked (s : State) (core j d : Nat) : (s.power core j d).mrLocked = s.mrLocked := rfl
@[simp] theorem State.power_ras (s : State) (core j d : Nat) : (s.power core j d).ras = s.ras := rfl
@[simp] theorem State.power_scrub (s : State) (core j d : Nat) : (s.power core j d).scrub = s.scrub := rfl
@[simp] theorem State.power_scrubAt (s : State) (core j d : Nat) : (s.power core j d).scrubAt = s.scrubAt := rfl
@[simp] theorem State.power_obsFrom (s : State) (core j d : Nat) : (s.power core j d).obsFrom = s.obsFrom := rfl
@[simp] theorem State.power_obsTick (s : State) (core j d : Nat) : (s.power core j d).obsTick = s.obsTick := rfl
@[simp] theorem State.power_linksLost (s : State) (core j d : Nat) : (s.power core j d).linksLost = s.linksLost := rfl
@[simp] theorem State.power_iommuq (s : State) (core j d : Nat) : (s.power core j d).iommuq = s.iommuq := rfl
@[simp] theorem State.power_halted (s : State) (core j d : Nat) : (s.power core j d).halted = s.halted := rfl
@[simp] theorem State.power_booted (s : State) (core j d : Nat) : (s.power core j d).booted = s.booted := rfl
@[simp] theorem State.power_cur (s : State) (core j d : Nat) : (s.power core j d).cur = s.cur := rfl
@[simp] theorem State.power_ev (s : State) (core j d : Nat) : (s.power core j d).ev = s.ev := rfl
@[simp] theorem State.power_agenda (s : State) (core j d : Nat) : (s.power core j d).agenda = s.agenda := rfl
@[simp] theorem State.power_inbox (s : State) (core j d : Nat) : (s.power core j d).inbox = s.inbox := rfl
@[simp] theorem State.power_irqs (s : State) (core j d : Nat) : (s.power core j d).irqs = s.irqs := rfl
@[simp] theorem State.power_outbox (s : State) (core j d : Nat) : (s.power core j d).outbox = s.outbox := rfl
@[simp] theorem State.power_replies (s : State) (core j d : Nat) : (s.power core j d).replies = s.replies := rfl
@[simp] theorem State.power_tickets (s : State) (core j d : Nat) : (s.power core j d).tickets = s.tickets := rfl
@[simp] theorem State.power_free (s : State) (core j d : Nat) : (s.power core j d).free = s.free := rfl
/-! #### observe -/

@[simp] theorem State.observe_clock (s : State) (kind i j d : Nat) : (s.observe kind i j d).clock = s.clock := rfl
@[simp] theorem State.observe_cores (s : State) (kind i j d : Nat) : (s.observe kind i j d).cores = s.cores := rfl
@[simp] theorem State.observe_mem (s : State) (kind i j d : Nat) : (s.observe kind i j d).mem = s.mem := rfl
@[simp] theorem State.observe_poison (s : State) (kind i j d : Nat) : (s.observe kind i j d).poison = s.poison := rfl
@[simp] theorem State.observe_hbmBad (s : State) (kind i j d : Nat) : (s.observe kind i j d).hbmBad = s.hbmBad := rfl
@[simp] theorem State.observe_reqs (s : State) (kind i j d : Nat) : (s.observe kind i j d).reqs = s.reqs := rfl
@[simp] theorem State.observe_nextId (s : State) (kind i j d : Nat) : (s.observe kind i j d).nextId = s.nextId := rfl
@[simp] theorem State.observe_ctxs (s : State) (kind i j d : Nat) : (s.observe kind i j d).ctxs = s.ctxs := rfl
@[simp] theorem State.observe_tlb (s : State) (kind i j d : Nat) : (s.observe kind i j d).tlb = s.tlb := rfl
@[simp] theorem State.observe_walkc (s : State) (kind i j d : Nat) : (s.observe kind i j d).walkc = s.walkc := rfl
@[simp] theorem State.observe_large (s : State) (kind i j d : Nat) : (s.observe kind i j d).large = s.large := rfl
@[simp] theorem State.observe_thrash (s : State) (kind i j d : Nat) : (s.observe kind i j d).thrash = s.thrash := rfl
@[simp] theorem State.observe_spare (s : State) (kind i j d : Nat) : (s.observe kind i j d).spare = s.spare := rfl
@[simp] theorem State.observe_fills (s : State) (kind i j d : Nat) : (s.observe kind i j d).fills = s.fills := rfl
@[simp] theorem State.observe_fillq (s : State) (kind i j d : Nat) : (s.observe kind i j d).fillq = s.fillq := rfl
@[simp] theorem State.observe_fillBad (s : State) (kind i j d : Nat) : (s.observe kind i j d).fillBad = s.fillBad := rfl
@[simp] theorem State.observe_migr (s : State) (kind i j d : Nat) : (s.observe kind i j d).migr = s.migr := rfl
@[simp] theorem State.observe_seqs (s : State) (kind i j d : Nat) : (s.observe kind i j d).seqs = s.seqs := rfl
@[simp] theorem State.observe_recs (s : State) (kind i j d : Nat) : (s.observe kind i j d).recs = s.recs := rfl
@[simp] theorem State.observe_lowSent (s : State) (kind i j d : Nat) : (s.observe kind i j d).lowSent = s.lowSent := rfl
@[simp] theorem State.observe_ticq (s : State) (kind i j d : Nat) : (s.observe kind i j d).ticq = s.ticq := rfl
@[simp] theorem State.observe_join (s : State) (kind i j d : Nat) : (s.observe kind i j d).join = s.join := rfl
@[simp] theorem State.observe_joinSeen (s : State) (kind i j d : Nat) : (s.observe kind i j d).joinSeen = s.joinSeen := rfl
@[simp] theorem State.observe_lotid (s : State) (kind i j d : Nat) : (s.observe kind i j d).lotid = s.lotid := rfl
@[simp] theorem State.observe_lotRec (s : State) (kind i j d : Nat) : (s.observe kind i j d).lotRec = s.lotRec := rfl
@[simp] theorem State.observe_launches (s : State) (kind i j d : Nat) : (s.observe kind i j d).launches = s.launches := rfl
@[simp] theorem State.observe_lots (s : State) (kind i j d : Nat) : (s.observe kind i j d).lots = s.lots := rfl
@[simp] theorem State.observe_parked (s : State) (kind i j d : Nat) : (s.observe kind i j d).parked = s.parked := rfl
@[simp] theorem State.observe_saved (s : State) (kind i j d : Nat) : (s.observe kind i j d).saved = s.saved := rfl
@[simp] theorem State.observe_trot (s : State) (kind i j d : Nat) : (s.observe kind i j d).trot = s.trot := rfl
@[simp] theorem State.observe_admitting (s : State) (kind i j d : Nat) : (s.observe kind i j d).admitting = s.admitting := rfl
@[simp] theorem State.observe_standNo (s : State) (kind i j d : Nat) : (s.observe kind i j d).standNo = s.standNo := rfl
@[simp] theorem State.observe_groups (s : State) (kind i j d : Nat) : (s.observe kind i j d).groups = s.groups := rfl
@[simp] theorem State.observe_landing (s : State) (kind i j d : Nat) : (s.observe kind i j d).landing = s.landing := rfl
@[simp] theorem State.observe_dests (s : State) (kind i j d : Nat) : (s.observe kind i j d).dests = s.dests := rfl
@[simp] theorem State.observe_dir (s : State) (kind i j d : Nat) : (s.observe kind i j d).dir = s.dir := rfl
@[simp] theorem State.observe_dregs (s : State) (kind i j d : Nat) : (s.observe kind i j d).dregs = s.dregs := rfl
@[simp] theorem State.observe_mrs (s : State) (kind i j d : Nat) : (s.observe kind i j d).mrs = s.mrs := rfl
@[simp] theorem State.observe_mrLocked (s : State) (kind i j d : Nat) : (s.observe kind i j d).mrLocked = s.mrLocked := rfl
@[simp] theorem State.observe_ras (s : State) (kind i j d : Nat) : (s.observe kind i j d).ras = s.ras := rfl
@[simp] theorem State.observe_scrub (s : State) (kind i j d : Nat) : (s.observe kind i j d).scrub = s.scrub := rfl
@[simp] theorem State.observe_scrubAt (s : State) (kind i j d : Nat) : (s.observe kind i j d).scrubAt = s.scrubAt := rfl
@[simp] theorem State.observe_obsFrom (s : State) (kind i j d : Nat) : (s.observe kind i j d).obsFrom = s.obsFrom := rfl
@[simp] theorem State.observe_obsTick (s : State) (kind i j d : Nat) : (s.observe kind i j d).obsTick = s.obsTick := rfl
@[simp] theorem State.observe_linksLost (s : State) (kind i j d : Nat) : (s.observe kind i j d).linksLost = s.linksLost := rfl
@[simp] theorem State.observe_iommuq (s : State) (kind i j d : Nat) : (s.observe kind i j d).iommuq = s.iommuq := rfl
@[simp] theorem State.observe_halted (s : State) (kind i j d : Nat) : (s.observe kind i j d).halted = s.halted := rfl
@[simp] theorem State.observe_booted (s : State) (kind i j d : Nat) : (s.observe kind i j d).booted = s.booted := rfl
@[simp] theorem State.observe_cur (s : State) (kind i j d : Nat) : (s.observe kind i j d).cur = s.cur := rfl
@[simp] theorem State.observe_ev (s : State) (kind i j d : Nat) : (s.observe kind i j d).ev = s.ev := rfl
@[simp] theorem State.observe_agenda (s : State) (kind i j d : Nat) : (s.observe kind i j d).agenda = s.agenda := rfl
@[simp] theorem State.observe_inbox (s : State) (kind i j d : Nat) : (s.observe kind i j d).inbox = s.inbox := rfl
@[simp] theorem State.observe_irqs (s : State) (kind i j d : Nat) : (s.observe kind i j d).irqs = s.irqs := rfl
@[simp] theorem State.observe_outbox (s : State) (kind i j d : Nat) : (s.observe kind i j d).outbox = s.outbox := rfl
@[simp] theorem State.observe_replies (s : State) (kind i j d : Nat) : (s.observe kind i j d).replies = s.replies := rfl
@[simp] theorem State.observe_tickets (s : State) (kind i j d : Nat) : (s.observe kind i j d).tickets = s.tickets := rfl
@[simp] theorem State.observe_free (s : State) (kind i j d : Nat) : (s.observe kind i j d).free = s.free := rfl
/-! #### later -/

@[simp] theorem State.later_clock (s : State) (op : Instr) (arg : Event) : (s.later op arg).clock = s.clock := rfl
@[simp] theorem State.later_cores (s : State) (op : Instr) (arg : Event) : (s.later op arg).cores = s.cores := rfl
@[simp] theorem State.later_mem (s : State) (op : Instr) (arg : Event) : (s.later op arg).mem = s.mem := rfl
@[simp] theorem State.later_poison (s : State) (op : Instr) (arg : Event) : (s.later op arg).poison = s.poison := rfl
@[simp] theorem State.later_hbmBad (s : State) (op : Instr) (arg : Event) : (s.later op arg).hbmBad = s.hbmBad := rfl
@[simp] theorem State.later_reqs (s : State) (op : Instr) (arg : Event) : (s.later op arg).reqs = s.reqs := rfl
@[simp] theorem State.later_nextId (s : State) (op : Instr) (arg : Event) : (s.later op arg).nextId = s.nextId := rfl
@[simp] theorem State.later_ctxs (s : State) (op : Instr) (arg : Event) : (s.later op arg).ctxs = s.ctxs := rfl
@[simp] theorem State.later_tlb (s : State) (op : Instr) (arg : Event) : (s.later op arg).tlb = s.tlb := rfl
@[simp] theorem State.later_walkc (s : State) (op : Instr) (arg : Event) : (s.later op arg).walkc = s.walkc := rfl
@[simp] theorem State.later_large (s : State) (op : Instr) (arg : Event) : (s.later op arg).large = s.large := rfl
@[simp] theorem State.later_thrash (s : State) (op : Instr) (arg : Event) : (s.later op arg).thrash = s.thrash := rfl
@[simp] theorem State.later_spare (s : State) (op : Instr) (arg : Event) : (s.later op arg).spare = s.spare := rfl
@[simp] theorem State.later_fills (s : State) (op : Instr) (arg : Event) : (s.later op arg).fills = s.fills := rfl
@[simp] theorem State.later_fillq (s : State) (op : Instr) (arg : Event) : (s.later op arg).fillq = s.fillq := rfl
@[simp] theorem State.later_fillBad (s : State) (op : Instr) (arg : Event) : (s.later op arg).fillBad = s.fillBad := rfl
@[simp] theorem State.later_migr (s : State) (op : Instr) (arg : Event) : (s.later op arg).migr = s.migr := rfl
@[simp] theorem State.later_seqs (s : State) (op : Instr) (arg : Event) : (s.later op arg).seqs = s.seqs := rfl
@[simp] theorem State.later_recs (s : State) (op : Instr) (arg : Event) : (s.later op arg).recs = s.recs := rfl
@[simp] theorem State.later_lowSent (s : State) (op : Instr) (arg : Event) : (s.later op arg).lowSent = s.lowSent := rfl
@[simp] theorem State.later_ticq (s : State) (op : Instr) (arg : Event) : (s.later op arg).ticq = s.ticq := rfl
@[simp] theorem State.later_join (s : State) (op : Instr) (arg : Event) : (s.later op arg).join = s.join := rfl
@[simp] theorem State.later_joinSeen (s : State) (op : Instr) (arg : Event) : (s.later op arg).joinSeen = s.joinSeen := rfl
@[simp] theorem State.later_lotid (s : State) (op : Instr) (arg : Event) : (s.later op arg).lotid = s.lotid := rfl
@[simp] theorem State.later_lotRec (s : State) (op : Instr) (arg : Event) : (s.later op arg).lotRec = s.lotRec := rfl
@[simp] theorem State.later_launches (s : State) (op : Instr) (arg : Event) : (s.later op arg).launches = s.launches := rfl
@[simp] theorem State.later_lots (s : State) (op : Instr) (arg : Event) : (s.later op arg).lots = s.lots := rfl
@[simp] theorem State.later_parked (s : State) (op : Instr) (arg : Event) : (s.later op arg).parked = s.parked := rfl
@[simp] theorem State.later_saved (s : State) (op : Instr) (arg : Event) : (s.later op arg).saved = s.saved := rfl
@[simp] theorem State.later_trot (s : State) (op : Instr) (arg : Event) : (s.later op arg).trot = s.trot := rfl
@[simp] theorem State.later_admitting (s : State) (op : Instr) (arg : Event) : (s.later op arg).admitting = s.admitting := rfl
@[simp] theorem State.later_standNo (s : State) (op : Instr) (arg : Event) : (s.later op arg).standNo = s.standNo := rfl
@[simp] theorem State.later_groups (s : State) (op : Instr) (arg : Event) : (s.later op arg).groups = s.groups := rfl
@[simp] theorem State.later_landing (s : State) (op : Instr) (arg : Event) : (s.later op arg).landing = s.landing := rfl
@[simp] theorem State.later_dests (s : State) (op : Instr) (arg : Event) : (s.later op arg).dests = s.dests := rfl
@[simp] theorem State.later_dir (s : State) (op : Instr) (arg : Event) : (s.later op arg).dir = s.dir := rfl
@[simp] theorem State.later_dregs (s : State) (op : Instr) (arg : Event) : (s.later op arg).dregs = s.dregs := rfl
@[simp] theorem State.later_mrs (s : State) (op : Instr) (arg : Event) : (s.later op arg).mrs = s.mrs := rfl
@[simp] theorem State.later_mrLocked (s : State) (op : Instr) (arg : Event) : (s.later op arg).mrLocked = s.mrLocked := rfl
@[simp] theorem State.later_ras (s : State) (op : Instr) (arg : Event) : (s.later op arg).ras = s.ras := rfl
@[simp] theorem State.later_scrub (s : State) (op : Instr) (arg : Event) : (s.later op arg).scrub = s.scrub := rfl
@[simp] theorem State.later_scrubAt (s : State) (op : Instr) (arg : Event) : (s.later op arg).scrubAt = s.scrubAt := rfl
@[simp] theorem State.later_counts (s : State) (op : Instr) (arg : Event) : (s.later op arg).counts = s.counts := rfl
@[simp] theorem State.later_obsFrom (s : State) (op : Instr) (arg : Event) : (s.later op arg).obsFrom = s.obsFrom := rfl
@[simp] theorem State.later_obsTick (s : State) (op : Instr) (arg : Event) : (s.later op arg).obsTick = s.obsTick := rfl
@[simp] theorem State.later_linksLost (s : State) (op : Instr) (arg : Event) : (s.later op arg).linksLost = s.linksLost := rfl
@[simp] theorem State.later_iommuq (s : State) (op : Instr) (arg : Event) : (s.later op arg).iommuq = s.iommuq := rfl
@[simp] theorem State.later_halted (s : State) (op : Instr) (arg : Event) : (s.later op arg).halted = s.halted := rfl
@[simp] theorem State.later_booted (s : State) (op : Instr) (arg : Event) : (s.later op arg).booted = s.booted := rfl
@[simp] theorem State.later_cur (s : State) (op : Instr) (arg : Event) : (s.later op arg).cur = s.cur := rfl
@[simp] theorem State.later_ev (s : State) (op : Instr) (arg : Event) : (s.later op arg).ev = s.ev := rfl
@[simp] theorem State.later_inbox (s : State) (op : Instr) (arg : Event) : (s.later op arg).inbox = s.inbox := rfl
@[simp] theorem State.later_irqs (s : State) (op : Instr) (arg : Event) : (s.later op arg).irqs = s.irqs := rfl
@[simp] theorem State.later_outbox (s : State) (op : Instr) (arg : Event) : (s.later op arg).outbox = s.outbox := rfl
@[simp] theorem State.later_replies (s : State) (op : Instr) (arg : Event) : (s.later op arg).replies = s.replies := rfl
@[simp] theorem State.later_tickets (s : State) (op : Instr) (arg : Event) : (s.later op arg).tickets = s.tickets := rfl
@[simp] theorem State.later_free (s : State) (op : Instr) (arg : Event) : (s.later op arg).free = s.free := rfl
/-! #### inc -/

@[simp] theorem State.inc_clock (s : State) (f : Nat) : (s.inc f).clock = s.clock := rfl
@[simp] theorem State.inc_mem (s : State) (f : Nat) : (s.inc f).mem = s.mem := rfl
@[simp] theorem State.inc_poison (s : State) (f : Nat) : (s.inc f).poison = s.poison := rfl
@[simp] theorem State.inc_hbmBad (s : State) (f : Nat) : (s.inc f).hbmBad = s.hbmBad := rfl
@[simp] theorem State.inc_reqs (s : State) (f : Nat) : (s.inc f).reqs = s.reqs := rfl
@[simp] theorem State.inc_nextId (s : State) (f : Nat) : (s.inc f).nextId = s.nextId := rfl
@[simp] theorem State.inc_ctxs (s : State) (f : Nat) : (s.inc f).ctxs = s.ctxs := rfl
@[simp] theorem State.inc_tlb (s : State) (f : Nat) : (s.inc f).tlb = s.tlb := rfl
@[simp] theorem State.inc_walkc (s : State) (f : Nat) : (s.inc f).walkc = s.walkc := rfl
@[simp] theorem State.inc_large (s : State) (f : Nat) : (s.inc f).large = s.large := rfl
@[simp] theorem State.inc_thrash (s : State) (f : Nat) : (s.inc f).thrash = s.thrash := rfl
@[simp] theorem State.inc_spare (s : State) (f : Nat) : (s.inc f).spare = s.spare := rfl
@[simp] theorem State.inc_fills (s : State) (f : Nat) : (s.inc f).fills = s.fills := rfl
@[simp] theorem State.inc_fillq (s : State) (f : Nat) : (s.inc f).fillq = s.fillq := rfl
@[simp] theorem State.inc_fillBad (s : State) (f : Nat) : (s.inc f).fillBad = s.fillBad := rfl
@[simp] theorem State.inc_migr (s : State) (f : Nat) : (s.inc f).migr = s.migr := rfl
@[simp] theorem State.inc_seqs (s : State) (f : Nat) : (s.inc f).seqs = s.seqs := rfl
@[simp] theorem State.inc_recs (s : State) (f : Nat) : (s.inc f).recs = s.recs := rfl
@[simp] theorem State.inc_lowSent (s : State) (f : Nat) : (s.inc f).lowSent = s.lowSent := rfl
@[simp] theorem State.inc_ticq (s : State) (f : Nat) : (s.inc f).ticq = s.ticq := rfl
@[simp] theorem State.inc_join (s : State) (f : Nat) : (s.inc f).join = s.join := rfl
@[simp] theorem State.inc_joinSeen (s : State) (f : Nat) : (s.inc f).joinSeen = s.joinSeen := rfl
@[simp] theorem State.inc_lotid (s : State) (f : Nat) : (s.inc f).lotid = s.lotid := rfl
@[simp] theorem State.inc_lotRec (s : State) (f : Nat) : (s.inc f).lotRec = s.lotRec := rfl
@[simp] theorem State.inc_launches (s : State) (f : Nat) : (s.inc f).launches = s.launches := rfl
@[simp] theorem State.inc_lots (s : State) (f : Nat) : (s.inc f).lots = s.lots := rfl
@[simp] theorem State.inc_parked (s : State) (f : Nat) : (s.inc f).parked = s.parked := rfl
@[simp] theorem State.inc_saved (s : State) (f : Nat) : (s.inc f).saved = s.saved := rfl
@[simp] theorem State.inc_trot (s : State) (f : Nat) : (s.inc f).trot = s.trot := rfl
@[simp] theorem State.inc_admitting (s : State) (f : Nat) : (s.inc f).admitting = s.admitting := rfl
@[simp] theorem State.inc_standNo (s : State) (f : Nat) : (s.inc f).standNo = s.standNo := rfl
@[simp] theorem State.inc_groups (s : State) (f : Nat) : (s.inc f).groups = s.groups := rfl
@[simp] theorem State.inc_landing (s : State) (f : Nat) : (s.inc f).landing = s.landing := rfl
@[simp] theorem State.inc_dests (s : State) (f : Nat) : (s.inc f).dests = s.dests := rfl
@[simp] theorem State.inc_dir (s : State) (f : Nat) : (s.inc f).dir = s.dir := rfl
@[simp] theorem State.inc_dregs (s : State) (f : Nat) : (s.inc f).dregs = s.dregs := rfl
@[simp] theorem State.inc_mrs (s : State) (f : Nat) : (s.inc f).mrs = s.mrs := rfl
@[simp] theorem State.inc_mrLocked (s : State) (f : Nat) : (s.inc f).mrLocked = s.mrLocked := rfl
@[simp] theorem State.inc_ras (s : State) (f : Nat) : (s.inc f).ras = s.ras := rfl
@[simp] theorem State.inc_scrub (s : State) (f : Nat) : (s.inc f).scrub = s.scrub := rfl
@[simp] theorem State.inc_scrubAt (s : State) (f : Nat) : (s.inc f).scrubAt = s.scrubAt := rfl
@[simp] theorem State.inc_counts (s : State) (f : Nat) : (s.inc f).counts = s.counts := rfl
@[simp] theorem State.inc_obsFrom (s : State) (f : Nat) : (s.inc f).obsFrom = s.obsFrom := rfl
@[simp] theorem State.inc_obsTick (s : State) (f : Nat) : (s.inc f).obsTick = s.obsTick := rfl
@[simp] theorem State.inc_linksLost (s : State) (f : Nat) : (s.inc f).linksLost = s.linksLost := rfl
@[simp] theorem State.inc_iommuq (s : State) (f : Nat) : (s.inc f).iommuq = s.iommuq := rfl
@[simp] theorem State.inc_halted (s : State) (f : Nat) : (s.inc f).halted = s.halted := rfl
@[simp] theorem State.inc_booted (s : State) (f : Nat) : (s.inc f).booted = s.booted := rfl
@[simp] theorem State.inc_cur (s : State) (f : Nat) : (s.inc f).cur = s.cur := rfl
@[simp] theorem State.inc_ev (s : State) (f : Nat) : (s.inc f).ev = s.ev := rfl
@[simp] theorem State.inc_agenda (s : State) (f : Nat) : (s.inc f).agenda = s.agenda := rfl
@[simp] theorem State.inc_inbox (s : State) (f : Nat) : (s.inc f).inbox = s.inbox := rfl
@[simp] theorem State.inc_irqs (s : State) (f : Nat) : (s.inc f).irqs = s.irqs := rfl
@[simp] theorem State.inc_outbox (s : State) (f : Nat) : (s.inc f).outbox = s.outbox := rfl
@[simp] theorem State.inc_replies (s : State) (f : Nat) : (s.inc f).replies = s.replies := rfl
@[simp] theorem State.inc_tickets (s : State) (f : Nat) : (s.inc f).tickets = s.tickets := rfl
@[simp] theorem State.inc_free (s : State) (f : Nat) : (s.inc f).free = s.free := rfl
/-! #### wrBytes -/

@[simp] theorem State.wrBytes_clock (s : State) (pa : Nat) (bs : List Byte) : (s.wrBytes pa bs).clock = s.clock := rfl
@[simp] theorem State.wrBytes_cores (s : State) (pa : Nat) (bs : List Byte) : (s.wrBytes pa bs).cores = s.cores := rfl
@[simp] theorem State.wrBytes_poison (s : State) (pa : Nat) (bs : List Byte) : (s.wrBytes pa bs).poison = s.poison := rfl
@[simp] theorem State.wrBytes_hbmBad (s : State) (pa : Nat) (bs : List Byte) : (s.wrBytes pa bs).hbmBad = s.hbmBad := rfl
@[simp] theorem State.wrBytes_reqs (s : State) (pa : Nat) (bs : List Byte) : (s.wrBytes pa bs).reqs = s.reqs := rfl
@[simp] theorem State.wrBytes_nextId (s : State) (pa : Nat) (bs : List Byte) : (s.wrBytes pa bs).nextId = s.nextId := rfl
@[simp] theorem State.wrBytes_ctxs (s : State) (pa : Nat) (bs : List Byte) : (s.wrBytes pa bs).ctxs = s.ctxs := rfl
@[simp] theorem State.wrBytes_tlb (s : State) (pa : Nat) (bs : List Byte) : (s.wrBytes pa bs).tlb = s.tlb := rfl
@[simp] theorem State.wrBytes_walkc (s : State) (pa : Nat) (bs : List Byte) : (s.wrBytes pa bs).walkc = s.walkc := rfl
@[simp] theorem State.wrBytes_large (s : State) (pa : Nat) (bs : List Byte) : (s.wrBytes pa bs).large = s.large := rfl
@[simp] theorem State.wrBytes_thrash (s : State) (pa : Nat) (bs : List Byte) : (s.wrBytes pa bs).thrash = s.thrash := rfl
@[simp] theorem State.wrBytes_spare (s : State) (pa : Nat) (bs : List Byte) : (s.wrBytes pa bs).spare = s.spare := rfl
@[simp] theorem State.wrBytes_fills (s : State) (pa : Nat) (bs : List Byte) : (s.wrBytes pa bs).fills = s.fills := rfl
@[simp] theorem State.wrBytes_fillq (s : State) (pa : Nat) (bs : List Byte) : (s.wrBytes pa bs).fillq = s.fillq := rfl
@[simp] theorem State.wrBytes_fillBad (s : State) (pa : Nat) (bs : List Byte) : (s.wrBytes pa bs).fillBad = s.fillBad := rfl
@[simp] theorem State.wrBytes_migr (s : State) (pa : Nat) (bs : List Byte) : (s.wrBytes pa bs).migr = s.migr := rfl
@[simp] theorem State.wrBytes_seqs (s : State) (pa : Nat) (bs : List Byte) : (s.wrBytes pa bs).seqs = s.seqs := rfl
@[simp] theorem State.wrBytes_recs (s : State) (pa : Nat) (bs : List Byte) : (s.wrBytes pa bs).recs = s.recs := rfl
@[simp] theorem State.wrBytes_lowSent (s : State) (pa : Nat) (bs : List Byte) : (s.wrBytes pa bs).lowSent = s.lowSent := rfl
@[simp] theorem State.wrBytes_ticq (s : State) (pa : Nat) (bs : List Byte) : (s.wrBytes pa bs).ticq = s.ticq := rfl
@[simp] theorem State.wrBytes_join (s : State) (pa : Nat) (bs : List Byte) : (s.wrBytes pa bs).join = s.join := rfl
@[simp] theorem State.wrBytes_joinSeen (s : State) (pa : Nat) (bs : List Byte) : (s.wrBytes pa bs).joinSeen = s.joinSeen := rfl
@[simp] theorem State.wrBytes_lotid (s : State) (pa : Nat) (bs : List Byte) : (s.wrBytes pa bs).lotid = s.lotid := rfl
@[simp] theorem State.wrBytes_lotRec (s : State) (pa : Nat) (bs : List Byte) : (s.wrBytes pa bs).lotRec = s.lotRec := rfl
@[simp] theorem State.wrBytes_launches (s : State) (pa : Nat) (bs : List Byte) : (s.wrBytes pa bs).launches = s.launches := rfl
@[simp] theorem State.wrBytes_lots (s : State) (pa : Nat) (bs : List Byte) : (s.wrBytes pa bs).lots = s.lots := rfl
@[simp] theorem State.wrBytes_parked (s : State) (pa : Nat) (bs : List Byte) : (s.wrBytes pa bs).parked = s.parked := rfl
@[simp] theorem State.wrBytes_saved (s : State) (pa : Nat) (bs : List Byte) : (s.wrBytes pa bs).saved = s.saved := rfl
@[simp] theorem State.wrBytes_trot (s : State) (pa : Nat) (bs : List Byte) : (s.wrBytes pa bs).trot = s.trot := rfl
@[simp] theorem State.wrBytes_admitting (s : State) (pa : Nat) (bs : List Byte) : (s.wrBytes pa bs).admitting = s.admitting := rfl
@[simp] theorem State.wrBytes_standNo (s : State) (pa : Nat) (bs : List Byte) : (s.wrBytes pa bs).standNo = s.standNo := rfl
@[simp] theorem State.wrBytes_groups (s : State) (pa : Nat) (bs : List Byte) : (s.wrBytes pa bs).groups = s.groups := rfl
@[simp] theorem State.wrBytes_landing (s : State) (pa : Nat) (bs : List Byte) : (s.wrBytes pa bs).landing = s.landing := rfl
@[simp] theorem State.wrBytes_dests (s : State) (pa : Nat) (bs : List Byte) : (s.wrBytes pa bs).dests = s.dests := rfl
@[simp] theorem State.wrBytes_dir (s : State) (pa : Nat) (bs : List Byte) : (s.wrBytes pa bs).dir = s.dir := rfl
@[simp] theorem State.wrBytes_dregs (s : State) (pa : Nat) (bs : List Byte) : (s.wrBytes pa bs).dregs = s.dregs := rfl
@[simp] theorem State.wrBytes_mrs (s : State) (pa : Nat) (bs : List Byte) : (s.wrBytes pa bs).mrs = s.mrs := rfl
@[simp] theorem State.wrBytes_mrLocked (s : State) (pa : Nat) (bs : List Byte) : (s.wrBytes pa bs).mrLocked = s.mrLocked := rfl
@[simp] theorem State.wrBytes_ras (s : State) (pa : Nat) (bs : List Byte) : (s.wrBytes pa bs).ras = s.ras := rfl
@[simp] theorem State.wrBytes_scrub (s : State) (pa : Nat) (bs : List Byte) : (s.wrBytes pa bs).scrub = s.scrub := rfl
@[simp] theorem State.wrBytes_scrubAt (s : State) (pa : Nat) (bs : List Byte) : (s.wrBytes pa bs).scrubAt = s.scrubAt := rfl
@[simp] theorem State.wrBytes_counts (s : State) (pa : Nat) (bs : List Byte) : (s.wrBytes pa bs).counts = s.counts := rfl
@[simp] theorem State.wrBytes_obsFrom (s : State) (pa : Nat) (bs : List Byte) : (s.wrBytes pa bs).obsFrom = s.obsFrom := rfl
@[simp] theorem State.wrBytes_obsTick (s : State) (pa : Nat) (bs : List Byte) : (s.wrBytes pa bs).obsTick = s.obsTick := rfl
@[simp] theorem State.wrBytes_linksLost (s : State) (pa : Nat) (bs : List Byte) : (s.wrBytes pa bs).linksLost = s.linksLost := rfl
@[simp] theorem State.wrBytes_iommuq (s : State) (pa : Nat) (bs : List Byte) : (s.wrBytes pa bs).iommuq = s.iommuq := rfl
@[simp] theorem State.wrBytes_halted (s : State) (pa : Nat) (bs : List Byte) : (s.wrBytes pa bs).halted = s.halted := rfl
@[simp] theorem State.wrBytes_booted (s : State) (pa : Nat) (bs : List Byte) : (s.wrBytes pa bs).booted = s.booted := rfl
@[simp] theorem State.wrBytes_cur (s : State) (pa : Nat) (bs : List Byte) : (s.wrBytes pa bs).cur = s.cur := rfl
@[simp] theorem State.wrBytes_ev (s : State) (pa : Nat) (bs : List Byte) : (s.wrBytes pa bs).ev = s.ev := rfl
@[simp] theorem State.wrBytes_agenda (s : State) (pa : Nat) (bs : List Byte) : (s.wrBytes pa bs).agenda = s.agenda := rfl
@[simp] theorem State.wrBytes_inbox (s : State) (pa : Nat) (bs : List Byte) : (s.wrBytes pa bs).inbox = s.inbox := rfl
@[simp] theorem State.wrBytes_irqs (s : State) (pa : Nat) (bs : List Byte) : (s.wrBytes pa bs).irqs = s.irqs := rfl
@[simp] theorem State.wrBytes_outbox (s : State) (pa : Nat) (bs : List Byte) : (s.wrBytes pa bs).outbox = s.outbox := rfl
@[simp] theorem State.wrBytes_replies (s : State) (pa : Nat) (bs : List Byte) : (s.wrBytes pa bs).replies = s.replies := rfl
@[simp] theorem State.wrBytes_tickets (s : State) (pa : Nat) (bs : List Byte) : (s.wrBytes pa bs).tickets = s.tickets := rfl
@[simp] theorem State.wrBytes_free (s : State) (pa : Nat) (bs : List Byte) : (s.wrBytes pa bs).free = s.free := rfl
/-! #### wr -/

@[simp] theorem State.wr_clock (s : State) (pa n v : Nat) : (s.wr pa n v).clock = s.clock := rfl
@[simp] theorem State.wr_cores (s : State) (pa n v : Nat) : (s.wr pa n v).cores = s.cores := rfl
@[simp] theorem State.wr_poison (s : State) (pa n v : Nat) : (s.wr pa n v).poison = s.poison := rfl
@[simp] theorem State.wr_hbmBad (s : State) (pa n v : Nat) : (s.wr pa n v).hbmBad = s.hbmBad := rfl
@[simp] theorem State.wr_reqs (s : State) (pa n v : Nat) : (s.wr pa n v).reqs = s.reqs := rfl
@[simp] theorem State.wr_nextId (s : State) (pa n v : Nat) : (s.wr pa n v).nextId = s.nextId := rfl
@[simp] theorem State.wr_ctxs (s : State) (pa n v : Nat) : (s.wr pa n v).ctxs = s.ctxs := rfl
@[simp] theorem State.wr_tlb (s : State) (pa n v : Nat) : (s.wr pa n v).tlb = s.tlb := rfl
@[simp] theorem State.wr_walkc (s : State) (pa n v : Nat) : (s.wr pa n v).walkc = s.walkc := rfl
@[simp] theorem State.wr_large (s : State) (pa n v : Nat) : (s.wr pa n v).large = s.large := rfl
@[simp] theorem State.wr_thrash (s : State) (pa n v : Nat) : (s.wr pa n v).thrash = s.thrash := rfl
@[simp] theorem State.wr_spare (s : State) (pa n v : Nat) : (s.wr pa n v).spare = s.spare := rfl
@[simp] theorem State.wr_fills (s : State) (pa n v : Nat) : (s.wr pa n v).fills = s.fills := rfl
@[simp] theorem State.wr_fillq (s : State) (pa n v : Nat) : (s.wr pa n v).fillq = s.fillq := rfl
@[simp] theorem State.wr_fillBad (s : State) (pa n v : Nat) : (s.wr pa n v).fillBad = s.fillBad := rfl
@[simp] theorem State.wr_migr (s : State) (pa n v : Nat) : (s.wr pa n v).migr = s.migr := rfl
@[simp] theorem State.wr_seqs (s : State) (pa n v : Nat) : (s.wr pa n v).seqs = s.seqs := rfl
@[simp] theorem State.wr_recs (s : State) (pa n v : Nat) : (s.wr pa n v).recs = s.recs := rfl
@[simp] theorem State.wr_lowSent (s : State) (pa n v : Nat) : (s.wr pa n v).lowSent = s.lowSent := rfl
@[simp] theorem State.wr_ticq (s : State) (pa n v : Nat) : (s.wr pa n v).ticq = s.ticq := rfl
@[simp] theorem State.wr_join (s : State) (pa n v : Nat) : (s.wr pa n v).join = s.join := rfl
@[simp] theorem State.wr_joinSeen (s : State) (pa n v : Nat) : (s.wr pa n v).joinSeen = s.joinSeen := rfl
@[simp] theorem State.wr_lotid (s : State) (pa n v : Nat) : (s.wr pa n v).lotid = s.lotid := rfl
@[simp] theorem State.wr_lotRec (s : State) (pa n v : Nat) : (s.wr pa n v).lotRec = s.lotRec := rfl
@[simp] theorem State.wr_launches (s : State) (pa n v : Nat) : (s.wr pa n v).launches = s.launches := rfl
@[simp] theorem State.wr_lots (s : State) (pa n v : Nat) : (s.wr pa n v).lots = s.lots := rfl
@[simp] theorem State.wr_parked (s : State) (pa n v : Nat) : (s.wr pa n v).parked = s.parked := rfl
@[simp] theorem State.wr_saved (s : State) (pa n v : Nat) : (s.wr pa n v).saved = s.saved := rfl
@[simp] theorem State.wr_trot (s : State) (pa n v : Nat) : (s.wr pa n v).trot = s.trot := rfl
@[simp] theorem State.wr_admitting (s : State) (pa n v : Nat) : (s.wr pa n v).admitting = s.admitting := rfl
@[simp] theorem State.wr_standNo (s : State) (pa n v : Nat) : (s.wr pa n v).standNo = s.standNo := rfl
@[simp] theorem State.wr_groups (s : State) (pa n v : Nat) : (s.wr pa n v).groups = s.groups := rfl
@[simp] theorem State.wr_landing (s : State) (pa n v : Nat) : (s.wr pa n v).landing = s.landing := rfl
@[simp] theorem State.wr_dests (s : State) (pa n v : Nat) : (s.wr pa n v).dests = s.dests := rfl
@[simp] theorem State.wr_dir (s : State) (pa n v : Nat) : (s.wr pa n v).dir = s.dir := rfl
@[simp] theorem State.wr_dregs (s : State) (pa n v : Nat) : (s.wr pa n v).dregs = s.dregs := rfl
@[simp] theorem State.wr_mrs (s : State) (pa n v : Nat) : (s.wr pa n v).mrs = s.mrs := rfl
@[simp] theorem State.wr_mrLocked (s : State) (pa n v : Nat) : (s.wr pa n v).mrLocked = s.mrLocked := rfl
@[simp] theorem State.wr_ras (s : State) (pa n v : Nat) : (s.wr pa n v).ras = s.ras := rfl
@[simp] theorem State.wr_scrub (s : State) (pa n v : Nat) : (s.wr pa n v).scrub = s.scrub := rfl
@[simp] theorem State.wr_scrubAt (s : State) (pa n v : Nat) : (s.wr pa n v).scrubAt = s.scrubAt := rfl
@[simp] theorem State.wr_counts (s : State) (pa n v : Nat) : (s.wr pa n v).counts = s.counts := rfl
@[simp] theorem State.wr_obsFrom (s : State) (pa n v : Nat) : (s.wr pa n v).obsFrom = s.obsFrom := rfl
@[simp] theorem State.wr_obsTick (s : State) (pa n v : Nat) : (s.wr pa n v).obsTick = s.obsTick := rfl
@[simp] theorem State.wr_linksLost (s : State) (pa n v : Nat) : (s.wr pa n v).linksLost = s.linksLost := rfl
@[simp] theorem State.wr_iommuq (s : State) (pa n v : Nat) : (s.wr pa n v).iommuq = s.iommuq := rfl
@[simp] theorem State.wr_halted (s : State) (pa n v : Nat) : (s.wr pa n v).halted = s.halted := rfl
@[simp] theorem State.wr_booted (s : State) (pa n v : Nat) : (s.wr pa n v).booted = s.booted := rfl
@[simp] theorem State.wr_cur (s : State) (pa n v : Nat) : (s.wr pa n v).cur = s.cur := rfl
@[simp] theorem State.wr_ev (s : State) (pa n v : Nat) : (s.wr pa n v).ev = s.ev := rfl
@[simp] theorem State.wr_agenda (s : State) (pa n v : Nat) : (s.wr pa n v).agenda = s.agenda := rfl
@[simp] theorem State.wr_inbox (s : State) (pa n v : Nat) : (s.wr pa n v).inbox = s.inbox := rfl
@[simp] theorem State.wr_irqs (s : State) (pa n v : Nat) : (s.wr pa n v).irqs = s.irqs := rfl
@[simp] theorem State.wr_outbox (s : State) (pa n v : Nat) : (s.wr pa n v).outbox = s.outbox := rfl
@[simp] theorem State.wr_replies (s : State) (pa n v : Nat) : (s.wr pa n v).replies = s.replies := rfl
@[simp] theorem State.wr_tickets (s : State) (pa n v : Nat) : (s.wr pa n v).tickets = s.tickets := rfl
@[simp] theorem State.wr_free (s : State) (pa n v : Nat) : (s.wr pa n v).free = s.free := rfl
/-! #### poisonRange -/

@[simp] theorem State.poisonRange_clock (s : State) (pa n : Nat) : (s.poisonRange pa n).clock = s.clock := rfl
@[simp] theorem State.poisonRange_cores (s : State) (pa n : Nat) : (s.poisonRange pa n).cores = s.cores := rfl
@[simp] theorem State.poisonRange_mem (s : State) (pa n : Nat) : (s.poisonRange pa n).mem = s.mem := rfl
@[simp] theorem State.poisonRange_hbmBad (s : State) (pa n : Nat) : (s.poisonRange pa n).hbmBad = s.hbmBad := rfl
@[simp] theorem State.poisonRange_reqs (s : State) (pa n : Nat) : (s.poisonRange pa n).reqs = s.reqs := rfl
@[simp] theorem State.poisonRange_nextId (s : State) (pa n : Nat) : (s.poisonRange pa n).nextId = s.nextId := rfl
@[simp] theorem State.poisonRange_ctxs (s : State) (pa n : Nat) : (s.poisonRange pa n).ctxs = s.ctxs := rfl
@[simp] theorem State.poisonRange_tlb (s : State) (pa n : Nat) : (s.poisonRange pa n).tlb = s.tlb := rfl
@[simp] theorem State.poisonRange_walkc (s : State) (pa n : Nat) : (s.poisonRange pa n).walkc = s.walkc := rfl
@[simp] theorem State.poisonRange_large (s : State) (pa n : Nat) : (s.poisonRange pa n).large = s.large := rfl
@[simp] theorem State.poisonRange_thrash (s : State) (pa n : Nat) : (s.poisonRange pa n).thrash = s.thrash := rfl
@[simp] theorem State.poisonRange_spare (s : State) (pa n : Nat) : (s.poisonRange pa n).spare = s.spare := rfl
@[simp] theorem State.poisonRange_fills (s : State) (pa n : Nat) : (s.poisonRange pa n).fills = s.fills := rfl
@[simp] theorem State.poisonRange_fillq (s : State) (pa n : Nat) : (s.poisonRange pa n).fillq = s.fillq := rfl
@[simp] theorem State.poisonRange_fillBad (s : State) (pa n : Nat) : (s.poisonRange pa n).fillBad = s.fillBad := rfl
@[simp] theorem State.poisonRange_migr (s : State) (pa n : Nat) : (s.poisonRange pa n).migr = s.migr := rfl
@[simp] theorem State.poisonRange_seqs (s : State) (pa n : Nat) : (s.poisonRange pa n).seqs = s.seqs := rfl
@[simp] theorem State.poisonRange_recs (s : State) (pa n : Nat) : (s.poisonRange pa n).recs = s.recs := rfl
@[simp] theorem State.poisonRange_lowSent (s : State) (pa n : Nat) : (s.poisonRange pa n).lowSent = s.lowSent := rfl
@[simp] theorem State.poisonRange_ticq (s : State) (pa n : Nat) : (s.poisonRange pa n).ticq = s.ticq := rfl
@[simp] theorem State.poisonRange_join (s : State) (pa n : Nat) : (s.poisonRange pa n).join = s.join := rfl
@[simp] theorem State.poisonRange_joinSeen (s : State) (pa n : Nat) : (s.poisonRange pa n).joinSeen = s.joinSeen := rfl
@[simp] theorem State.poisonRange_lotid (s : State) (pa n : Nat) : (s.poisonRange pa n).lotid = s.lotid := rfl
@[simp] theorem State.poisonRange_lotRec (s : State) (pa n : Nat) : (s.poisonRange pa n).lotRec = s.lotRec := rfl
@[simp] theorem State.poisonRange_launches (s : State) (pa n : Nat) : (s.poisonRange pa n).launches = s.launches := rfl
@[simp] theorem State.poisonRange_lots (s : State) (pa n : Nat) : (s.poisonRange pa n).lots = s.lots := rfl
@[simp] theorem State.poisonRange_parked (s : State) (pa n : Nat) : (s.poisonRange pa n).parked = s.parked := rfl
@[simp] theorem State.poisonRange_saved (s : State) (pa n : Nat) : (s.poisonRange pa n).saved = s.saved := rfl
@[simp] theorem State.poisonRange_trot (s : State) (pa n : Nat) : (s.poisonRange pa n).trot = s.trot := rfl
@[simp] theorem State.poisonRange_admitting (s : State) (pa n : Nat) : (s.poisonRange pa n).admitting = s.admitting := rfl
@[simp] theorem State.poisonRange_standNo (s : State) (pa n : Nat) : (s.poisonRange pa n).standNo = s.standNo := rfl
@[simp] theorem State.poisonRange_groups (s : State) (pa n : Nat) : (s.poisonRange pa n).groups = s.groups := rfl
@[simp] theorem State.poisonRange_landing (s : State) (pa n : Nat) : (s.poisonRange pa n).landing = s.landing := rfl
@[simp] theorem State.poisonRange_dests (s : State) (pa n : Nat) : (s.poisonRange pa n).dests = s.dests := rfl
@[simp] theorem State.poisonRange_dir (s : State) (pa n : Nat) : (s.poisonRange pa n).dir = s.dir := rfl
@[simp] theorem State.poisonRange_dregs (s : State) (pa n : Nat) : (s.poisonRange pa n).dregs = s.dregs := rfl
@[simp] theorem State.poisonRange_mrs (s : State) (pa n : Nat) : (s.poisonRange pa n).mrs = s.mrs := rfl
@[simp] theorem State.poisonRange_mrLocked (s : State) (pa n : Nat) : (s.poisonRange pa n).mrLocked = s.mrLocked := rfl
@[simp] theorem State.poisonRange_ras (s : State) (pa n : Nat) : (s.poisonRange pa n).ras = s.ras := rfl
@[simp] theorem State.poisonRange_scrub (s : State) (pa n : Nat) : (s.poisonRange pa n).scrub = s.scrub := rfl
@[simp] theorem State.poisonRange_scrubAt (s : State) (pa n : Nat) : (s.poisonRange pa n).scrubAt = s.scrubAt := rfl
@[simp] theorem State.poisonRange_counts (s : State) (pa n : Nat) : (s.poisonRange pa n).counts = s.counts := rfl
@[simp] theorem State.poisonRange_obsFrom (s : State) (pa n : Nat) : (s.poisonRange pa n).obsFrom = s.obsFrom := rfl
@[simp] theorem State.poisonRange_obsTick (s : State) (pa n : Nat) : (s.poisonRange pa n).obsTick = s.obsTick := rfl
@[simp] theorem State.poisonRange_linksLost (s : State) (pa n : Nat) : (s.poisonRange pa n).linksLost = s.linksLost := rfl
@[simp] theorem State.poisonRange_iommuq (s : State) (pa n : Nat) : (s.poisonRange pa n).iommuq = s.iommuq := rfl
@[simp] theorem State.poisonRange_halted (s : State) (pa n : Nat) : (s.poisonRange pa n).halted = s.halted := rfl
@[simp] theorem State.poisonRange_booted (s : State) (pa n : Nat) : (s.poisonRange pa n).booted = s.booted := rfl
@[simp] theorem State.poisonRange_cur (s : State) (pa n : Nat) : (s.poisonRange pa n).cur = s.cur := rfl
@[simp] theorem State.poisonRange_ev (s : State) (pa n : Nat) : (s.poisonRange pa n).ev = s.ev := rfl
@[simp] theorem State.poisonRange_agenda (s : State) (pa n : Nat) : (s.poisonRange pa n).agenda = s.agenda := rfl
@[simp] theorem State.poisonRange_inbox (s : State) (pa n : Nat) : (s.poisonRange pa n).inbox = s.inbox := rfl
@[simp] theorem State.poisonRange_irqs (s : State) (pa n : Nat) : (s.poisonRange pa n).irqs = s.irqs := rfl
@[simp] theorem State.poisonRange_outbox (s : State) (pa n : Nat) : (s.poisonRange pa n).outbox = s.outbox := rfl
@[simp] theorem State.poisonRange_replies (s : State) (pa n : Nat) : (s.poisonRange pa n).replies = s.replies := rfl
@[simp] theorem State.poisonRange_tickets (s : State) (pa n : Nat) : (s.poisonRange pa n).tickets = s.tickets := rfl
@[simp] theorem State.poisonRange_free (s : State) (pa n : Nat) : (s.poisonRange pa n).free = s.free := rfl
/-! #### setDreg -/

@[simp] theorem State.setDreg_clock (s : State) (off : Nat) (v : W64) : (s.setDreg off v).clock = s.clock := rfl
@[simp] theorem State.setDreg_cores (s : State) (off : Nat) (v : W64) : (s.setDreg off v).cores = s.cores := rfl
@[simp] theorem State.setDreg_mem (s : State) (off : Nat) (v : W64) : (s.setDreg off v).mem = s.mem := rfl
@[simp] theorem State.setDreg_poison (s : State) (off : Nat) (v : W64) : (s.setDreg off v).poison = s.poison := rfl
@[simp] theorem State.setDreg_hbmBad (s : State) (off : Nat) (v : W64) : (s.setDreg off v).hbmBad = s.hbmBad := rfl
@[simp] theorem State.setDreg_reqs (s : State) (off : Nat) (v : W64) : (s.setDreg off v).reqs = s.reqs := rfl
@[simp] theorem State.setDreg_nextId (s : State) (off : Nat) (v : W64) : (s.setDreg off v).nextId = s.nextId := rfl
@[simp] theorem State.setDreg_ctxs (s : State) (off : Nat) (v : W64) : (s.setDreg off v).ctxs = s.ctxs := rfl
@[simp] theorem State.setDreg_tlb (s : State) (off : Nat) (v : W64) : (s.setDreg off v).tlb = s.tlb := rfl
@[simp] theorem State.setDreg_walkc (s : State) (off : Nat) (v : W64) : (s.setDreg off v).walkc = s.walkc := rfl
@[simp] theorem State.setDreg_large (s : State) (off : Nat) (v : W64) : (s.setDreg off v).large = s.large := rfl
@[simp] theorem State.setDreg_thrash (s : State) (off : Nat) (v : W64) : (s.setDreg off v).thrash = s.thrash := rfl
@[simp] theorem State.setDreg_spare (s : State) (off : Nat) (v : W64) : (s.setDreg off v).spare = s.spare := rfl
@[simp] theorem State.setDreg_fills (s : State) (off : Nat) (v : W64) : (s.setDreg off v).fills = s.fills := rfl
@[simp] theorem State.setDreg_fillq (s : State) (off : Nat) (v : W64) : (s.setDreg off v).fillq = s.fillq := rfl
@[simp] theorem State.setDreg_fillBad (s : State) (off : Nat) (v : W64) : (s.setDreg off v).fillBad = s.fillBad := rfl
@[simp] theorem State.setDreg_migr (s : State) (off : Nat) (v : W64) : (s.setDreg off v).migr = s.migr := rfl
@[simp] theorem State.setDreg_seqs (s : State) (off : Nat) (v : W64) : (s.setDreg off v).seqs = s.seqs := rfl
@[simp] theorem State.setDreg_recs (s : State) (off : Nat) (v : W64) : (s.setDreg off v).recs = s.recs := rfl
@[simp] theorem State.setDreg_lowSent (s : State) (off : Nat) (v : W64) : (s.setDreg off v).lowSent = s.lowSent := rfl
@[simp] theorem State.setDreg_ticq (s : State) (off : Nat) (v : W64) : (s.setDreg off v).ticq = s.ticq := rfl
@[simp] theorem State.setDreg_join (s : State) (off : Nat) (v : W64) : (s.setDreg off v).join = s.join := rfl
@[simp] theorem State.setDreg_joinSeen (s : State) (off : Nat) (v : W64) : (s.setDreg off v).joinSeen = s.joinSeen := rfl
@[simp] theorem State.setDreg_lotid (s : State) (off : Nat) (v : W64) : (s.setDreg off v).lotid = s.lotid := rfl
@[simp] theorem State.setDreg_lotRec (s : State) (off : Nat) (v : W64) : (s.setDreg off v).lotRec = s.lotRec := rfl
@[simp] theorem State.setDreg_launches (s : State) (off : Nat) (v : W64) : (s.setDreg off v).launches = s.launches := rfl
@[simp] theorem State.setDreg_lots (s : State) (off : Nat) (v : W64) : (s.setDreg off v).lots = s.lots := rfl
@[simp] theorem State.setDreg_parked (s : State) (off : Nat) (v : W64) : (s.setDreg off v).parked = s.parked := rfl
@[simp] theorem State.setDreg_saved (s : State) (off : Nat) (v : W64) : (s.setDreg off v).saved = s.saved := rfl
@[simp] theorem State.setDreg_trot (s : State) (off : Nat) (v : W64) : (s.setDreg off v).trot = s.trot := rfl
@[simp] theorem State.setDreg_admitting (s : State) (off : Nat) (v : W64) : (s.setDreg off v).admitting = s.admitting := rfl
@[simp] theorem State.setDreg_standNo (s : State) (off : Nat) (v : W64) : (s.setDreg off v).standNo = s.standNo := rfl
@[simp] theorem State.setDreg_groups (s : State) (off : Nat) (v : W64) : (s.setDreg off v).groups = s.groups := rfl
@[simp] theorem State.setDreg_landing (s : State) (off : Nat) (v : W64) : (s.setDreg off v).landing = s.landing := rfl
@[simp] theorem State.setDreg_dests (s : State) (off : Nat) (v : W64) : (s.setDreg off v).dests = s.dests := rfl
@[simp] theorem State.setDreg_dir (s : State) (off : Nat) (v : W64) : (s.setDreg off v).dir = s.dir := rfl
@[simp] theorem State.setDreg_mrs (s : State) (off : Nat) (v : W64) : (s.setDreg off v).mrs = s.mrs := rfl
@[simp] theorem State.setDreg_mrLocked (s : State) (off : Nat) (v : W64) : (s.setDreg off v).mrLocked = s.mrLocked := rfl
@[simp] theorem State.setDreg_ras (s : State) (off : Nat) (v : W64) : (s.setDreg off v).ras = s.ras := rfl
@[simp] theorem State.setDreg_scrub (s : State) (off : Nat) (v : W64) : (s.setDreg off v).scrub = s.scrub := rfl
@[simp] theorem State.setDreg_scrubAt (s : State) (off : Nat) (v : W64) : (s.setDreg off v).scrubAt = s.scrubAt := rfl
@[simp] theorem State.setDreg_counts (s : State) (off : Nat) (v : W64) : (s.setDreg off v).counts = s.counts := rfl
@[simp] theorem State.setDreg_obsFrom (s : State) (off : Nat) (v : W64) : (s.setDreg off v).obsFrom = s.obsFrom := rfl
@[simp] theorem State.setDreg_obsTick (s : State) (off : Nat) (v : W64) : (s.setDreg off v).obsTick = s.obsTick := rfl
@[simp] theorem State.setDreg_linksLost (s : State) (off : Nat) (v : W64) : (s.setDreg off v).linksLost = s.linksLost := rfl
@[simp] theorem State.setDreg_iommuq (s : State) (off : Nat) (v : W64) : (s.setDreg off v).iommuq = s.iommuq := rfl
@[simp] theorem State.setDreg_halted (s : State) (off : Nat) (v : W64) : (s.setDreg off v).halted = s.halted := rfl
@[simp] theorem State.setDreg_booted (s : State) (off : Nat) (v : W64) : (s.setDreg off v).booted = s.booted := rfl
@[simp] theorem State.setDreg_cur (s : State) (off : Nat) (v : W64) : (s.setDreg off v).cur = s.cur := rfl
@[simp] theorem State.setDreg_ev (s : State) (off : Nat) (v : W64) : (s.setDreg off v).ev = s.ev := rfl
@[simp] theorem State.setDreg_agenda (s : State) (off : Nat) (v : W64) : (s.setDreg off v).agenda = s.agenda := rfl
@[simp] theorem State.setDreg_inbox (s : State) (off : Nat) (v : W64) : (s.setDreg off v).inbox = s.inbox := rfl
@[simp] theorem State.setDreg_irqs (s : State) (off : Nat) (v : W64) : (s.setDreg off v).irqs = s.irqs := rfl
@[simp] theorem State.setDreg_outbox (s : State) (off : Nat) (v : W64) : (s.setDreg off v).outbox = s.outbox := rfl
@[simp] theorem State.setDreg_replies (s : State) (off : Nat) (v : W64) : (s.setDreg off v).replies = s.replies := rfl
@[simp] theorem State.setDreg_tickets (s : State) (off : Nat) (v : W64) : (s.setDreg off v).tickets = s.tickets := rfl
@[simp] theorem State.setDreg_free (s : State) (off : Nat) (v : W64) : (s.setDreg off v).free = s.free := rfl
/-! #### setUnit -/

@[simp] theorem State.setUnit_clock (s : State) (u : Nat) (x : JoinUnit) : (s.setUnit u x).clock = s.clock := rfl
@[simp] theorem State.setUnit_cores (s : State) (u : Nat) (x : JoinUnit) : (s.setUnit u x).cores = s.cores := rfl
@[simp] theorem State.setUnit_mem (s : State) (u : Nat) (x : JoinUnit) : (s.setUnit u x).mem = s.mem := rfl
@[simp] theorem State.setUnit_poison (s : State) (u : Nat) (x : JoinUnit) : (s.setUnit u x).poison = s.poison := rfl
@[simp] theorem State.setUnit_hbmBad (s : State) (u : Nat) (x : JoinUnit) : (s.setUnit u x).hbmBad = s.hbmBad := rfl
@[simp] theorem State.setUnit_reqs (s : State) (u : Nat) (x : JoinUnit) : (s.setUnit u x).reqs = s.reqs := rfl
@[simp] theorem State.setUnit_nextId (s : State) (u : Nat) (x : JoinUnit) : (s.setUnit u x).nextId = s.nextId := rfl
@[simp] theorem State.setUnit_ctxs (s : State) (u : Nat) (x : JoinUnit) : (s.setUnit u x).ctxs = s.ctxs := rfl
@[simp] theorem State.setUnit_tlb (s : State) (u : Nat) (x : JoinUnit) : (s.setUnit u x).tlb = s.tlb := rfl
@[simp] theorem State.setUnit_walkc (s : State) (u : Nat) (x : JoinUnit) : (s.setUnit u x).walkc = s.walkc := rfl
@[simp] theorem State.setUnit_large (s : State) (u : Nat) (x : JoinUnit) : (s.setUnit u x).large = s.large := rfl
@[simp] theorem State.setUnit_thrash (s : State) (u : Nat) (x : JoinUnit) : (s.setUnit u x).thrash = s.thrash := rfl
@[simp] theorem State.setUnit_spare (s : State) (u : Nat) (x : JoinUnit) : (s.setUnit u x).spare = s.spare := rfl
@[simp] theorem State.setUnit_fills (s : State) (u : Nat) (x : JoinUnit) : (s.setUnit u x).fills = s.fills := rfl
@[simp] theorem State.setUnit_fillq (s : State) (u : Nat) (x : JoinUnit) : (s.setUnit u x).fillq = s.fillq := rfl
@[simp] theorem State.setUnit_fillBad (s : State) (u : Nat) (x : JoinUnit) : (s.setUnit u x).fillBad = s.fillBad := rfl
@[simp] theorem State.setUnit_migr (s : State) (u : Nat) (x : JoinUnit) : (s.setUnit u x).migr = s.migr := rfl
@[simp] theorem State.setUnit_seqs (s : State) (u : Nat) (x : JoinUnit) : (s.setUnit u x).seqs = s.seqs := rfl
@[simp] theorem State.setUnit_recs (s : State) (u : Nat) (x : JoinUnit) : (s.setUnit u x).recs = s.recs := rfl
@[simp] theorem State.setUnit_lowSent (s : State) (u : Nat) (x : JoinUnit) : (s.setUnit u x).lowSent = s.lowSent := rfl
@[simp] theorem State.setUnit_ticq (s : State) (u : Nat) (x : JoinUnit) : (s.setUnit u x).ticq = s.ticq := rfl
@[simp] theorem State.setUnit_joinSeen (s : State) (u : Nat) (x : JoinUnit) : (s.setUnit u x).joinSeen = s.joinSeen := rfl
@[simp] theorem State.setUnit_lotid (s : State) (u : Nat) (x : JoinUnit) : (s.setUnit u x).lotid = s.lotid := rfl
@[simp] theorem State.setUnit_lotRec (s : State) (u : Nat) (x : JoinUnit) : (s.setUnit u x).lotRec = s.lotRec := rfl
@[simp] theorem State.setUnit_launches (s : State) (u : Nat) (x : JoinUnit) : (s.setUnit u x).launches = s.launches := rfl
@[simp] theorem State.setUnit_lots (s : State) (u : Nat) (x : JoinUnit) : (s.setUnit u x).lots = s.lots := rfl
@[simp] theorem State.setUnit_parked (s : State) (u : Nat) (x : JoinUnit) : (s.setUnit u x).parked = s.parked := rfl
@[simp] theorem State.setUnit_saved (s : State) (u : Nat) (x : JoinUnit) : (s.setUnit u x).saved = s.saved := rfl
@[simp] theorem State.setUnit_trot (s : State) (u : Nat) (x : JoinUnit) : (s.setUnit u x).trot = s.trot := rfl
@[simp] theorem State.setUnit_admitting (s : State) (u : Nat) (x : JoinUnit) : (s.setUnit u x).admitting = s.admitting := rfl
@[simp] theorem State.setUnit_standNo (s : State) (u : Nat) (x : JoinUnit) : (s.setUnit u x).standNo = s.standNo := rfl
@[simp] theorem State.setUnit_groups (s : State) (u : Nat) (x : JoinUnit) : (s.setUnit u x).groups = s.groups := rfl
@[simp] theorem State.setUnit_landing (s : State) (u : Nat) (x : JoinUnit) : (s.setUnit u x).landing = s.landing := rfl
@[simp] theorem State.setUnit_dests (s : State) (u : Nat) (x : JoinUnit) : (s.setUnit u x).dests = s.dests := rfl
@[simp] theorem State.setUnit_dir (s : State) (u : Nat) (x : JoinUnit) : (s.setUnit u x).dir = s.dir := rfl
@[simp] theorem State.setUnit_dregs (s : State) (u : Nat) (x : JoinUnit) : (s.setUnit u x).dregs = s.dregs := rfl
@[simp] theorem State.setUnit_mrs (s : State) (u : Nat) (x : JoinUnit) : (s.setUnit u x).mrs = s.mrs := rfl
@[simp] theorem State.setUnit_mrLocked (s : State) (u : Nat) (x : JoinUnit) : (s.setUnit u x).mrLocked = s.mrLocked := rfl
@[simp] theorem State.setUnit_ras (s : State) (u : Nat) (x : JoinUnit) : (s.setUnit u x).ras = s.ras := rfl
@[simp] theorem State.setUnit_scrub (s : State) (u : Nat) (x : JoinUnit) : (s.setUnit u x).scrub = s.scrub := rfl
@[simp] theorem State.setUnit_scrubAt (s : State) (u : Nat) (x : JoinUnit) : (s.setUnit u x).scrubAt = s.scrubAt := rfl
@[simp] theorem State.setUnit_counts (s : State) (u : Nat) (x : JoinUnit) : (s.setUnit u x).counts = s.counts := rfl
@[simp] theorem State.setUnit_obsFrom (s : State) (u : Nat) (x : JoinUnit) : (s.setUnit u x).obsFrom = s.obsFrom := rfl
@[simp] theorem State.setUnit_obsTick (s : State) (u : Nat) (x : JoinUnit) : (s.setUnit u x).obsTick = s.obsTick := rfl
@[simp] theorem State.setUnit_linksLost (s : State) (u : Nat) (x : JoinUnit) : (s.setUnit u x).linksLost = s.linksLost := rfl
@[simp] theorem State.setUnit_iommuq (s : State) (u : Nat) (x : JoinUnit) : (s.setUnit u x).iommuq = s.iommuq := rfl
@[simp] theorem State.setUnit_halted (s : State) (u : Nat) (x : JoinUnit) : (s.setUnit u x).halted = s.halted := rfl
@[simp] theorem State.setUnit_booted (s : State) (u : Nat) (x : JoinUnit) : (s.setUnit u x).booted = s.booted := rfl
@[simp] theorem State.setUnit_cur (s : State) (u : Nat) (x : JoinUnit) : (s.setUnit u x).cur = s.cur := rfl
@[simp] theorem State.setUnit_ev (s : State) (u : Nat) (x : JoinUnit) : (s.setUnit u x).ev = s.ev := rfl
@[simp] theorem State.setUnit_agenda (s : State) (u : Nat) (x : JoinUnit) : (s.setUnit u x).agenda = s.agenda := rfl
@[simp] theorem State.setUnit_inbox (s : State) (u : Nat) (x : JoinUnit) : (s.setUnit u x).inbox = s.inbox := rfl
@[simp] theorem State.setUnit_irqs (s : State) (u : Nat) (x : JoinUnit) : (s.setUnit u x).irqs = s.irqs := rfl
@[simp] theorem State.setUnit_outbox (s : State) (u : Nat) (x : JoinUnit) : (s.setUnit u x).outbox = s.outbox := rfl
@[simp] theorem State.setUnit_replies (s : State) (u : Nat) (x : JoinUnit) : (s.setUnit u x).replies = s.replies := rfl
@[simp] theorem State.setUnit_tickets (s : State) (u : Nat) (x : JoinUnit) : (s.setUnit u x).tickets = s.tickets := rfl
@[simp] theorem State.setUnit_free (s : State) (u : Nat) (x : JoinUnit) : (s.setUnit u x).free = s.free := rfl
/-! #### setDir -/

@[simp] theorem State.setDir_clock (s : State) (pl : Nat) (d : Nat × Nat × Nat) : (s.setDir pl d).clock = s.clock := rfl
@[simp] theorem State.setDir_cores (s : State) (pl : Nat) (d : Nat × Nat × Nat) : (s.setDir pl d).cores = s.cores := rfl
@[simp] theorem State.setDir_mem (s : State) (pl : Nat) (d : Nat × Nat × Nat) : (s.setDir pl d).mem = s.mem := rfl
@[simp] theorem State.setDir_poison (s : State) (pl : Nat) (d : Nat × Nat × Nat) : (s.setDir pl d).poison = s.poison := rfl
@[simp] theorem State.setDir_hbmBad (s : State) (pl : Nat) (d : Nat × Nat × Nat) : (s.setDir pl d).hbmBad = s.hbmBad := rfl
@[simp] theorem State.setDir_reqs (s : State) (pl : Nat) (d : Nat × Nat × Nat) : (s.setDir pl d).reqs = s.reqs := rfl
@[simp] theorem State.setDir_nextId (s : State) (pl : Nat) (d : Nat × Nat × Nat) : (s.setDir pl d).nextId = s.nextId := rfl
@[simp] theorem State.setDir_ctxs (s : State) (pl : Nat) (d : Nat × Nat × Nat) : (s.setDir pl d).ctxs = s.ctxs := rfl
@[simp] theorem State.setDir_tlb (s : State) (pl : Nat) (d : Nat × Nat × Nat) : (s.setDir pl d).tlb = s.tlb := rfl
@[simp] theorem State.setDir_walkc (s : State) (pl : Nat) (d : Nat × Nat × Nat) : (s.setDir pl d).walkc = s.walkc := rfl
@[simp] theorem State.setDir_large (s : State) (pl : Nat) (d : Nat × Nat × Nat) : (s.setDir pl d).large = s.large := rfl
@[simp] theorem State.setDir_thrash (s : State) (pl : Nat) (d : Nat × Nat × Nat) : (s.setDir pl d).thrash = s.thrash := rfl
@[simp] theorem State.setDir_spare (s : State) (pl : Nat) (d : Nat × Nat × Nat) : (s.setDir pl d).spare = s.spare := rfl
@[simp] theorem State.setDir_fills (s : State) (pl : Nat) (d : Nat × Nat × Nat) : (s.setDir pl d).fills = s.fills := rfl
@[simp] theorem State.setDir_fillq (s : State) (pl : Nat) (d : Nat × Nat × Nat) : (s.setDir pl d).fillq = s.fillq := rfl
@[simp] theorem State.setDir_fillBad (s : State) (pl : Nat) (d : Nat × Nat × Nat) : (s.setDir pl d).fillBad = s.fillBad := rfl
@[simp] theorem State.setDir_migr (s : State) (pl : Nat) (d : Nat × Nat × Nat) : (s.setDir pl d).migr = s.migr := rfl
@[simp] theorem State.setDir_seqs (s : State) (pl : Nat) (d : Nat × Nat × Nat) : (s.setDir pl d).seqs = s.seqs := rfl
@[simp] theorem State.setDir_recs (s : State) (pl : Nat) (d : Nat × Nat × Nat) : (s.setDir pl d).recs = s.recs := rfl
@[simp] theorem State.setDir_lowSent (s : State) (pl : Nat) (d : Nat × Nat × Nat) : (s.setDir pl d).lowSent = s.lowSent := rfl
@[simp] theorem State.setDir_ticq (s : State) (pl : Nat) (d : Nat × Nat × Nat) : (s.setDir pl d).ticq = s.ticq := rfl
@[simp] theorem State.setDir_join (s : State) (pl : Nat) (d : Nat × Nat × Nat) : (s.setDir pl d).join = s.join := rfl
@[simp] theorem State.setDir_joinSeen (s : State) (pl : Nat) (d : Nat × Nat × Nat) : (s.setDir pl d).joinSeen = s.joinSeen := rfl
@[simp] theorem State.setDir_lotid (s : State) (pl : Nat) (d : Nat × Nat × Nat) : (s.setDir pl d).lotid = s.lotid := rfl
@[simp] theorem State.setDir_lotRec (s : State) (pl : Nat) (d : Nat × Nat × Nat) : (s.setDir pl d).lotRec = s.lotRec := rfl
@[simp] theorem State.setDir_launches (s : State) (pl : Nat) (d : Nat × Nat × Nat) : (s.setDir pl d).launches = s.launches := rfl
@[simp] theorem State.setDir_lots (s : State) (pl : Nat) (d : Nat × Nat × Nat) : (s.setDir pl d).lots = s.lots := rfl
@[simp] theorem State.setDir_parked (s : State) (pl : Nat) (d : Nat × Nat × Nat) : (s.setDir pl d).parked = s.parked := rfl
@[simp] theorem State.setDir_saved (s : State) (pl : Nat) (d : Nat × Nat × Nat) : (s.setDir pl d).saved = s.saved := rfl
@[simp] theorem State.setDir_trot (s : State) (pl : Nat) (d : Nat × Nat × Nat) : (s.setDir pl d).trot = s.trot := rfl
@[simp] theorem State.setDir_admitting (s : State) (pl : Nat) (d : Nat × Nat × Nat) : (s.setDir pl d).admitting = s.admitting := rfl
@[simp] theorem State.setDir_standNo (s : State) (pl : Nat) (d : Nat × Nat × Nat) : (s.setDir pl d).standNo = s.standNo := rfl
@[simp] theorem State.setDir_groups (s : State) (pl : Nat) (d : Nat × Nat × Nat) : (s.setDir pl d).groups = s.groups := rfl
@[simp] theorem State.setDir_landing (s : State) (pl : Nat) (d : Nat × Nat × Nat) : (s.setDir pl d).landing = s.landing := rfl
@[simp] theorem State.setDir_dests (s : State) (pl : Nat) (d : Nat × Nat × Nat) : (s.setDir pl d).dests = s.dests := rfl
@[simp] theorem State.setDir_dregs (s : State) (pl : Nat) (d : Nat × Nat × Nat) : (s.setDir pl d).dregs = s.dregs := rfl
@[simp] theorem State.setDir_mrs (s : State) (pl : Nat) (d : Nat × Nat × Nat) : (s.setDir pl d).mrs = s.mrs := rfl
@[simp] theorem State.setDir_mrLocked (s : State) (pl : Nat) (d : Nat × Nat × Nat) : (s.setDir pl d).mrLocked = s.mrLocked := rfl
@[simp] theorem State.setDir_ras (s : State) (pl : Nat) (d : Nat × Nat × Nat) : (s.setDir pl d).ras = s.ras := rfl
@[simp] theorem State.setDir_scrub (s : State) (pl : Nat) (d : Nat × Nat × Nat) : (s.setDir pl d).scrub = s.scrub := rfl
@[simp] theorem State.setDir_scrubAt (s : State) (pl : Nat) (d : Nat × Nat × Nat) : (s.setDir pl d).scrubAt = s.scrubAt := rfl
@[simp] theorem State.setDir_counts (s : State) (pl : Nat) (d : Nat × Nat × Nat) : (s.setDir pl d).counts = s.counts := rfl
@[simp] theorem State.setDir_obsFrom (s : State) (pl : Nat) (d : Nat × Nat × Nat) : (s.setDir pl d).obsFrom = s.obsFrom := rfl
@[simp] theorem State.setDir_obsTick (s : State) (pl : Nat) (d : Nat × Nat × Nat) : (s.setDir pl d).obsTick = s.obsTick := rfl
@[simp] theorem State.setDir_linksLost (s : State) (pl : Nat) (d : Nat × Nat × Nat) : (s.setDir pl d).linksLost = s.linksLost := rfl
@[simp] theorem State.setDir_iommuq (s : State) (pl : Nat) (d : Nat × Nat × Nat) : (s.setDir pl d).iommuq = s.iommuq := rfl
@[simp] theorem State.setDir_halted (s : State) (pl : Nat) (d : Nat × Nat × Nat) : (s.setDir pl d).halted = s.halted := rfl
@[simp] theorem State.setDir_booted (s : State) (pl : Nat) (d : Nat × Nat × Nat) : (s.setDir pl d).booted = s.booted := rfl
@[simp] theorem State.setDir_cur (s : State) (pl : Nat) (d : Nat × Nat × Nat) : (s.setDir pl d).cur = s.cur := rfl
@[simp] theorem State.setDir_ev (s : State) (pl : Nat) (d : Nat × Nat × Nat) : (s.setDir pl d).ev = s.ev := rfl
@[simp] theorem State.setDir_agenda (s : State) (pl : Nat) (d : Nat × Nat × Nat) : (s.setDir pl d).agenda = s.agenda := rfl
@[simp] theorem State.setDir_inbox (s : State) (pl : Nat) (d : Nat × Nat × Nat) : (s.setDir pl d).inbox = s.inbox := rfl
@[simp] theorem State.setDir_irqs (s : State) (pl : Nat) (d : Nat × Nat × Nat) : (s.setDir pl d).irqs = s.irqs := rfl
@[simp] theorem State.setDir_outbox (s : State) (pl : Nat) (d : Nat × Nat × Nat) : (s.setDir pl d).outbox = s.outbox := rfl
@[simp] theorem State.setDir_replies (s : State) (pl : Nat) (d : Nat × Nat × Nat) : (s.setDir pl d).replies = s.replies := rfl
@[simp] theorem State.setDir_tickets (s : State) (pl : Nat) (d : Nat × Nat × Nat) : (s.setDir pl d).tickets = s.tickets := rfl
@[simp] theorem State.setDir_free (s : State) (pl : Nat) (d : Nat × Nat × Nat) : (s.setDir pl d).free = s.free := rfl
/-! #### setReq -/

@[simp] theorem State.setReq_clock (s : State) (id : Nat) (r : Req) : (s.setReq id r).clock = s.clock := rfl
@[simp] theorem State.setReq_cores (s : State) (id : Nat) (r : Req) : (s.setReq id r).cores = s.cores := rfl
@[simp] theorem State.setReq_mem (s : State) (id : Nat) (r : Req) : (s.setReq id r).mem = s.mem := rfl
@[simp] theorem State.setReq_poison (s : State) (id : Nat) (r : Req) : (s.setReq id r).poison = s.poison := rfl
@[simp] theorem State.setReq_hbmBad (s : State) (id : Nat) (r : Req) : (s.setReq id r).hbmBad = s.hbmBad := rfl
@[simp] theorem State.setReq_nextId (s : State) (id : Nat) (r : Req) : (s.setReq id r).nextId = s.nextId := rfl
@[simp] theorem State.setReq_ctxs (s : State) (id : Nat) (r : Req) : (s.setReq id r).ctxs = s.ctxs := rfl
@[simp] theorem State.setReq_tlb (s : State) (id : Nat) (r : Req) : (s.setReq id r).tlb = s.tlb := rfl
@[simp] theorem State.setReq_walkc (s : State) (id : Nat) (r : Req) : (s.setReq id r).walkc = s.walkc := rfl
@[simp] theorem State.setReq_large (s : State) (id : Nat) (r : Req) : (s.setReq id r).large = s.large := rfl
@[simp] theorem State.setReq_thrash (s : State) (id : Nat) (r : Req) : (s.setReq id r).thrash = s.thrash := rfl
@[simp] theorem State.setReq_spare (s : State) (id : Nat) (r : Req) : (s.setReq id r).spare = s.spare := rfl
@[simp] theorem State.setReq_fills (s : State) (id : Nat) (r : Req) : (s.setReq id r).fills = s.fills := rfl
@[simp] theorem State.setReq_fillq (s : State) (id : Nat) (r : Req) : (s.setReq id r).fillq = s.fillq := rfl
@[simp] theorem State.setReq_fillBad (s : State) (id : Nat) (r : Req) : (s.setReq id r).fillBad = s.fillBad := rfl
@[simp] theorem State.setReq_migr (s : State) (id : Nat) (r : Req) : (s.setReq id r).migr = s.migr := rfl
@[simp] theorem State.setReq_seqs (s : State) (id : Nat) (r : Req) : (s.setReq id r).seqs = s.seqs := rfl
@[simp] theorem State.setReq_recs (s : State) (id : Nat) (r : Req) : (s.setReq id r).recs = s.recs := rfl
@[simp] theorem State.setReq_lowSent (s : State) (id : Nat) (r : Req) : (s.setReq id r).lowSent = s.lowSent := rfl
@[simp] theorem State.setReq_ticq (s : State) (id : Nat) (r : Req) : (s.setReq id r).ticq = s.ticq := rfl
@[simp] theorem State.setReq_join (s : State) (id : Nat) (r : Req) : (s.setReq id r).join = s.join := rfl
@[simp] theorem State.setReq_joinSeen (s : State) (id : Nat) (r : Req) : (s.setReq id r).joinSeen = s.joinSeen := rfl
@[simp] theorem State.setReq_lotid (s : State) (id : Nat) (r : Req) : (s.setReq id r).lotid = s.lotid := rfl
@[simp] theorem State.setReq_lotRec (s : State) (id : Nat) (r : Req) : (s.setReq id r).lotRec = s.lotRec := rfl
@[simp] theorem State.setReq_launches (s : State) (id : Nat) (r : Req) : (s.setReq id r).launches = s.launches := rfl
@[simp] theorem State.setReq_lots (s : State) (id : Nat) (r : Req) : (s.setReq id r).lots = s.lots := rfl
@[simp] theorem State.setReq_parked (s : State) (id : Nat) (r : Req) : (s.setReq id r).parked = s.parked := rfl
@[simp] theorem State.setReq_saved (s : State) (id : Nat) (r : Req) : (s.setReq id r).saved = s.saved := rfl
@[simp] theorem State.setReq_trot (s : State) (id : Nat) (r : Req) : (s.setReq id r).trot = s.trot := rfl
@[simp] theorem State.setReq_admitting (s : State) (id : Nat) (r : Req) : (s.setReq id r).admitting = s.admitting := rfl
@[simp] theorem State.setReq_standNo (s : State) (id : Nat) (r : Req) : (s.setReq id r).standNo = s.standNo := rfl
@[simp] theorem State.setReq_groups (s : State) (id : Nat) (r : Req) : (s.setReq id r).groups = s.groups := rfl
@[simp] theorem State.setReq_landing (s : State) (id : Nat) (r : Req) : (s.setReq id r).landing = s.landing := rfl
@[simp] theorem State.setReq_dests (s : State) (id : Nat) (r : Req) : (s.setReq id r).dests = s.dests := rfl
@[simp] theorem State.setReq_dir (s : State) (id : Nat) (r : Req) : (s.setReq id r).dir = s.dir := rfl
@[simp] theorem State.setReq_dregs (s : State) (id : Nat) (r : Req) : (s.setReq id r).dregs = s.dregs := rfl
@[simp] theorem State.setReq_mrs (s : State) (id : Nat) (r : Req) : (s.setReq id r).mrs = s.mrs := rfl
@[simp] theorem State.setReq_mrLocked (s : State) (id : Nat) (r : Req) : (s.setReq id r).mrLocked = s.mrLocked := rfl
@[simp] theorem State.setReq_ras (s : State) (id : Nat) (r : Req) : (s.setReq id r).ras = s.ras := rfl
@[simp] theorem State.setReq_scrub (s : State) (id : Nat) (r : Req) : (s.setReq id r).scrub = s.scrub := rfl
@[simp] theorem State.setReq_scrubAt (s : State) (id : Nat) (r : Req) : (s.setReq id r).scrubAt = s.scrubAt := rfl
@[simp] theorem State.setReq_counts (s : State) (id : Nat) (r : Req) : (s.setReq id r).counts = s.counts := rfl
@[simp] theorem State.setReq_obsFrom (s : State) (id : Nat) (r : Req) : (s.setReq id r).obsFrom = s.obsFrom := rfl
@[simp] theorem State.setReq_obsTick (s : State) (id : Nat) (r : Req) : (s.setReq id r).obsTick = s.obsTick := rfl
@[simp] theorem State.setReq_linksLost (s : State) (id : Nat) (r : Req) : (s.setReq id r).linksLost = s.linksLost := rfl
@[simp] theorem State.setReq_iommuq (s : State) (id : Nat) (r : Req) : (s.setReq id r).iommuq = s.iommuq := rfl
@[simp] theorem State.setReq_halted (s : State) (id : Nat) (r : Req) : (s.setReq id r).halted = s.halted := rfl
@[simp] theorem State.setReq_booted (s : State) (id : Nat) (r : Req) : (s.setReq id r).booted = s.booted := rfl
@[simp] theorem State.setReq_cur (s : State) (id : Nat) (r : Req) : (s.setReq id r).cur = s.cur := rfl
@[simp] theorem State.setReq_ev (s : State) (id : Nat) (r : Req) : (s.setReq id r).ev = s.ev := rfl
@[simp] theorem State.setReq_agenda (s : State) (id : Nat) (r : Req) : (s.setReq id r).agenda = s.agenda := rfl
@[simp] theorem State.setReq_inbox (s : State) (id : Nat) (r : Req) : (s.setReq id r).inbox = s.inbox := rfl
@[simp] theorem State.setReq_irqs (s : State) (id : Nat) (r : Req) : (s.setReq id r).irqs = s.irqs := rfl
@[simp] theorem State.setReq_outbox (s : State) (id : Nat) (r : Req) : (s.setReq id r).outbox = s.outbox := rfl
@[simp] theorem State.setReq_replies (s : State) (id : Nat) (r : Req) : (s.setReq id r).replies = s.replies := rfl
@[simp] theorem State.setReq_tickets (s : State) (id : Nat) (r : Req) : (s.setReq id r).tickets = s.tickets := rfl
@[simp] theorem State.setReq_free (s : State) (id : Nat) (r : Req) : (s.setReq id r).free = s.free := rfl
/-! #### delReq -/

@[simp] theorem State.delReq_clock (s : State) (id : Nat) : (s.delReq id).clock = s.clock := rfl
@[simp] theorem State.delReq_cores (s : State) (id : Nat) : (s.delReq id).cores = s.cores := rfl
@[simp] theorem State.delReq_mem (s : State) (id : Nat) : (s.delReq id).mem = s.mem := rfl
@[simp] theorem State.delReq_poison (s : State) (id : Nat) : (s.delReq id).poison = s.poison := rfl
@[simp] theorem State.delReq_hbmBad (s : State) (id : Nat) : (s.delReq id).hbmBad = s.hbmBad := rfl
@[simp] theorem State.delReq_nextId (s : State) (id : Nat) : (s.delReq id).nextId = s.nextId := rfl
@[simp] theorem State.delReq_ctxs (s : State) (id : Nat) : (s.delReq id).ctxs = s.ctxs := rfl
@[simp] theorem State.delReq_tlb (s : State) (id : Nat) : (s.delReq id).tlb = s.tlb := rfl
@[simp] theorem State.delReq_walkc (s : State) (id : Nat) : (s.delReq id).walkc = s.walkc := rfl
@[simp] theorem State.delReq_large (s : State) (id : Nat) : (s.delReq id).large = s.large := rfl
@[simp] theorem State.delReq_thrash (s : State) (id : Nat) : (s.delReq id).thrash = s.thrash := rfl
@[simp] theorem State.delReq_spare (s : State) (id : Nat) : (s.delReq id).spare = s.spare := rfl
@[simp] theorem State.delReq_fills (s : State) (id : Nat) : (s.delReq id).fills = s.fills := rfl
@[simp] theorem State.delReq_fillq (s : State) (id : Nat) : (s.delReq id).fillq = s.fillq := rfl
@[simp] theorem State.delReq_fillBad (s : State) (id : Nat) : (s.delReq id).fillBad = s.fillBad := rfl
@[simp] theorem State.delReq_migr (s : State) (id : Nat) : (s.delReq id).migr = s.migr := rfl
@[simp] theorem State.delReq_seqs (s : State) (id : Nat) : (s.delReq id).seqs = s.seqs := rfl
@[simp] theorem State.delReq_recs (s : State) (id : Nat) : (s.delReq id).recs = s.recs := rfl
@[simp] theorem State.delReq_lowSent (s : State) (id : Nat) : (s.delReq id).lowSent = s.lowSent := rfl
@[simp] theorem State.delReq_ticq (s : State) (id : Nat) : (s.delReq id).ticq = s.ticq := rfl
@[simp] theorem State.delReq_join (s : State) (id : Nat) : (s.delReq id).join = s.join := rfl
@[simp] theorem State.delReq_joinSeen (s : State) (id : Nat) : (s.delReq id).joinSeen = s.joinSeen := rfl
@[simp] theorem State.delReq_lotid (s : State) (id : Nat) : (s.delReq id).lotid = s.lotid := rfl
@[simp] theorem State.delReq_lotRec (s : State) (id : Nat) : (s.delReq id).lotRec = s.lotRec := rfl
@[simp] theorem State.delReq_launches (s : State) (id : Nat) : (s.delReq id).launches = s.launches := rfl
@[simp] theorem State.delReq_lots (s : State) (id : Nat) : (s.delReq id).lots = s.lots := rfl
@[simp] theorem State.delReq_parked (s : State) (id : Nat) : (s.delReq id).parked = s.parked := rfl
@[simp] theorem State.delReq_saved (s : State) (id : Nat) : (s.delReq id).saved = s.saved := rfl
@[simp] theorem State.delReq_trot (s : State) (id : Nat) : (s.delReq id).trot = s.trot := rfl
@[simp] theorem State.delReq_admitting (s : State) (id : Nat) : (s.delReq id).admitting = s.admitting := rfl
@[simp] theorem State.delReq_standNo (s : State) (id : Nat) : (s.delReq id).standNo = s.standNo := rfl
@[simp] theorem State.delReq_groups (s : State) (id : Nat) : (s.delReq id).groups = s.groups := rfl
@[simp] theorem State.delReq_landing (s : State) (id : Nat) : (s.delReq id).landing = s.landing := rfl
@[simp] theorem State.delReq_dests (s : State) (id : Nat) : (s.delReq id).dests = s.dests := rfl
@[simp] theorem State.delReq_dir (s : State) (id : Nat) : (s.delReq id).dir = s.dir := rfl
@[simp] theorem State.delReq_dregs (s : State) (id : Nat) : (s.delReq id).dregs = s.dregs := rfl
@[simp] theorem State.delReq_mrs (s : State) (id : Nat) : (s.delReq id).mrs = s.mrs := rfl
@[simp] theorem State.delReq_mrLocked (s : State) (id : Nat) : (s.delReq id).mrLocked = s.mrLocked := rfl
@[simp] theorem State.delReq_ras (s : State) (id : Nat) : (s.delReq id).ras = s.ras := rfl
@[simp] theorem State.delReq_scrub (s : State) (id : Nat) : (s.delReq id).scrub = s.scrub := rfl
@[simp] theorem State.delReq_scrubAt (s : State) (id : Nat) : (s.delReq id).scrubAt = s.scrubAt := rfl
@[simp] theorem State.delReq_counts (s : State) (id : Nat) : (s.delReq id).counts = s.counts := rfl
@[simp] theorem State.delReq_obsFrom (s : State) (id : Nat) : (s.delReq id).obsFrom = s.obsFrom := rfl
@[simp] theorem State.delReq_obsTick (s : State) (id : Nat) : (s.delReq id).obsTick = s.obsTick := rfl
@[simp] theorem State.delReq_linksLost (s : State) (id : Nat) : (s.delReq id).linksLost = s.linksLost := rfl
@[simp] theorem State.delReq_iommuq (s : State) (id : Nat) : (s.delReq id).iommuq = s.iommuq := rfl
@[simp] theorem State.delReq_halted (s : State) (id : Nat) : (s.delReq id).halted = s.halted := rfl
@[simp] theorem State.delReq_booted (s : State) (id : Nat) : (s.delReq id).booted = s.booted := rfl
@[simp] theorem State.delReq_cur (s : State) (id : Nat) : (s.delReq id).cur = s.cur := rfl
@[simp] theorem State.delReq_ev (s : State) (id : Nat) : (s.delReq id).ev = s.ev := rfl
@[simp] theorem State.delReq_agenda (s : State) (id : Nat) : (s.delReq id).agenda = s.agenda := rfl
@[simp] theorem State.delReq_inbox (s : State) (id : Nat) : (s.delReq id).inbox = s.inbox := rfl
@[simp] theorem State.delReq_irqs (s : State) (id : Nat) : (s.delReq id).irqs = s.irqs := rfl
@[simp] theorem State.delReq_outbox (s : State) (id : Nat) : (s.delReq id).outbox = s.outbox := rfl
@[simp] theorem State.delReq_replies (s : State) (id : Nat) : (s.delReq id).replies = s.replies := rfl
@[simp] theorem State.delReq_tickets (s : State) (id : Nat) : (s.delReq id).tickets = s.tickets := rfl
@[simp] theorem State.delReq_free (s : State) (id : Nat) : (s.delReq id).free = s.free := rfl
/-! #### grant -/

@[simp] theorem State.grant_clock (s : State) (core : Nat) : (s.grant core).clock = s.clock := rfl
@[simp] theorem State.grant_cores (s : State) (core : Nat) : (s.grant core).cores = s.cores := rfl
@[simp] theorem State.grant_mem (s : State) (core : Nat) : (s.grant core).mem = s.mem := rfl
@[simp] theorem State.grant_poison (s : State) (core : Nat) : (s.grant core).poison = s.poison := rfl
@[simp] theorem State.grant_hbmBad (s : State) (core : Nat) : (s.grant core).hbmBad = s.hbmBad := rfl
@[simp] theorem State.grant_reqs (s : State) (core : Nat) : (s.grant core).reqs = s.reqs := rfl
@[simp] theorem State.grant_nextId (s : State) (core : Nat) : (s.grant core).nextId = s.nextId := rfl
@[simp] theorem State.grant_ctxs (s : State) (core : Nat) : (s.grant core).ctxs = s.ctxs := rfl
@[simp] theorem State.grant_tlb (s : State) (core : Nat) : (s.grant core).tlb = s.tlb := rfl
@[simp] theorem State.grant_walkc (s : State) (core : Nat) : (s.grant core).walkc = s.walkc := rfl
@[simp] theorem State.grant_large (s : State) (core : Nat) : (s.grant core).large = s.large := rfl
@[simp] theorem State.grant_thrash (s : State) (core : Nat) : (s.grant core).thrash = s.thrash := rfl
@[simp] theorem State.grant_spare (s : State) (core : Nat) : (s.grant core).spare = s.spare := rfl
@[simp] theorem State.grant_fills (s : State) (core : Nat) : (s.grant core).fills = s.fills := rfl
@[simp] theorem State.grant_fillq (s : State) (core : Nat) : (s.grant core).fillq = s.fillq := rfl
@[simp] theorem State.grant_fillBad (s : State) (core : Nat) : (s.grant core).fillBad = s.fillBad := rfl
@[simp] theorem State.grant_migr (s : State) (core : Nat) : (s.grant core).migr = s.migr := rfl
@[simp] theorem State.grant_seqs (s : State) (core : Nat) : (s.grant core).seqs = s.seqs := rfl
@[simp] theorem State.grant_recs (s : State) (core : Nat) : (s.grant core).recs = s.recs := rfl
@[simp] theorem State.grant_lowSent (s : State) (core : Nat) : (s.grant core).lowSent = s.lowSent := rfl
@[simp] theorem State.grant_ticq (s : State) (core : Nat) : (s.grant core).ticq = s.ticq := rfl
@[simp] theorem State.grant_join (s : State) (core : Nat) : (s.grant core).join = s.join := rfl
@[simp] theorem State.grant_joinSeen (s : State) (core : Nat) : (s.grant core).joinSeen = s.joinSeen := rfl
@[simp] theorem State.grant_lotid (s : State) (core : Nat) : (s.grant core).lotid = s.lotid := rfl
@[simp] theorem State.grant_lotRec (s : State) (core : Nat) : (s.grant core).lotRec = s.lotRec := rfl
@[simp] theorem State.grant_launches (s : State) (core : Nat) : (s.grant core).launches = s.launches := rfl
@[simp] theorem State.grant_lots (s : State) (core : Nat) : (s.grant core).lots = s.lots := rfl
@[simp] theorem State.grant_parked (s : State) (core : Nat) : (s.grant core).parked = s.parked := rfl
@[simp] theorem State.grant_saved (s : State) (core : Nat) : (s.grant core).saved = s.saved := rfl
@[simp] theorem State.grant_trot (s : State) (core : Nat) : (s.grant core).trot = s.trot := rfl
@[simp] theorem State.grant_admitting (s : State) (core : Nat) : (s.grant core).admitting = s.admitting := rfl
@[simp] theorem State.grant_standNo (s : State) (core : Nat) : (s.grant core).standNo = s.standNo := rfl
@[simp] theorem State.grant_groups (s : State) (core : Nat) : (s.grant core).groups = s.groups := rfl
@[simp] theorem State.grant_landing (s : State) (core : Nat) : (s.grant core).landing = s.landing := rfl
@[simp] theorem State.grant_dests (s : State) (core : Nat) : (s.grant core).dests = s.dests := rfl
@[simp] theorem State.grant_dir (s : State) (core : Nat) : (s.grant core).dir = s.dir := rfl
@[simp] theorem State.grant_dregs (s : State) (core : Nat) : (s.grant core).dregs = s.dregs := rfl
@[simp] theorem State.grant_mrs (s : State) (core : Nat) : (s.grant core).mrs = s.mrs := rfl
@[simp] theorem State.grant_mrLocked (s : State) (core : Nat) : (s.grant core).mrLocked = s.mrLocked := rfl
@[simp] theorem State.grant_ras (s : State) (core : Nat) : (s.grant core).ras = s.ras := rfl
@[simp] theorem State.grant_scrub (s : State) (core : Nat) : (s.grant core).scrub = s.scrub := rfl
@[simp] theorem State.grant_scrubAt (s : State) (core : Nat) : (s.grant core).scrubAt = s.scrubAt := rfl
@[simp] theorem State.grant_obsFrom (s : State) (core : Nat) : (s.grant core).obsFrom = s.obsFrom := rfl
@[simp] theorem State.grant_obsTick (s : State) (core : Nat) : (s.grant core).obsTick = s.obsTick := rfl
@[simp] theorem State.grant_linksLost (s : State) (core : Nat) : (s.grant core).linksLost = s.linksLost := rfl
@[simp] theorem State.grant_iommuq (s : State) (core : Nat) : (s.grant core).iommuq = s.iommuq := rfl
@[simp] theorem State.grant_halted (s : State) (core : Nat) : (s.grant core).halted = s.halted := rfl
@[simp] theorem State.grant_booted (s : State) (core : Nat) : (s.grant core).booted = s.booted := rfl
@[simp] theorem State.grant_cur (s : State) (core : Nat) : (s.grant core).cur = s.cur := rfl
@[simp] theorem State.grant_ev (s : State) (core : Nat) : (s.grant core).ev = s.ev := rfl
@[simp] theorem State.grant_agenda (s : State) (core : Nat) : (s.grant core).agenda = s.agenda := rfl
@[simp] theorem State.grant_inbox (s : State) (core : Nat) : (s.grant core).inbox = s.inbox := rfl
@[simp] theorem State.grant_irqs (s : State) (core : Nat) : (s.grant core).irqs = s.irqs := rfl
@[simp] theorem State.grant_outbox (s : State) (core : Nat) : (s.grant core).outbox = s.outbox := rfl
@[simp] theorem State.grant_replies (s : State) (core : Nat) : (s.grant core).replies = s.replies := rfl
@[simp] theorem State.grant_tickets (s : State) (core : Nat) : (s.grant core).tickets = s.tickets := rfl
@[simp] theorem State.grant_free (s : State) (core : Nat) : (s.grant core).free = s.free := rfl

/-! ### Cores, gangs, crews -/

@[simp] theorem State.core_setCore_self (s : State) (c : Nat) (k : Core) : (s.setCore c k).core c = k := by
  simp [State.core, State.setCore]
theorem State.core_setCore_ne (s : State) {c d : Nat} (k : Core) (h : d ≠ c) : (s.setCore c k).core d = s.core d := by
  simp [State.core, State.setCore, mget_mset_ne _ _ _ h]
theorem State.core_setCore (s : State) (c d : Nat) (k : Core) : (s.setCore c k).core d = if d = c then k else s.core d := by
  simp [State.core, State.setCore, mget_mset]
@[simp] theorem State.setGang_core_self (s : State) (c g : Nat) (x : Gang) :
    (s.setGang c g x).core c = { s.core c with gangs := mset (s.core c).gangs g x } := by simp [State.setGang]
theorem State.setGang_core_ne (s : State) {c d : Nat} (g : Nat) (x : Gang) (h : d ≠ c) : (s.setGang c g x).core d = s.core d := by
  simp [State.setGang, State.core_setCore_ne _ _ h]
@[simp] theorem State.setCrew_core_self (s : State) (c k : Nat) (x : Crew) :
    (s.setCrew c k x).core c = { s.core c with crews := mset (s.core c).crews k x } := by simp [State.setCrew]
theorem State.setCrew_core_ne (s : State) {c d : Nat} (k : Nat) (x : Crew) (h : d ≠ c) : (s.setCrew c k x).core d = s.core d := by
  simp [State.setCrew, State.core_setCore_ne _ _ h]
@[simp] theorem State.gang?_setGang_self (s : State) (c g : Nat) (x : Gang) : (s.setGang c g x).gang? c g = some x := by
  simp [State.gang?]
@[simp] theorem State.gang_setGang_self (s : State) (c g : Nat) (x : Gang) : (s.setGang c g x).gang c g = x := by
  simp [State.gang]
theorem State.gang?_setGang_ne (s : State) {c g c' g' : Nat} (x : Gang) (h : c' ≠ c ∨ g' ≠ g) :
    (s.setGang c g x).gang? c' g' = s.gang? c' g' := by
  by_cases hc : c' = c
  · subst hc
    simp [State.gang?, mget?_mset_ne _ _ (h.resolve_left (by simp))]
  · simp [State.gang?, State.setGang_core_ne _ _ _ hc]
theorem State.gang_setGang_ne (s : State) {c g c' g' : Nat} (x : Gang) (h : c' ≠ c ∨ g' ≠ g) :
    (s.setGang c g x).gang c' g' = s.gang c' g' := by
  have := State.gang?_setGang_ne s x h
  simp only [State.gang?, State.gang, mget] at this ⊢
  rw [this]
@[simp] theorem State.crew_setCrew_self (s : State) (c k : Nat) (x : Crew) : (s.setCrew c k x).crew c k = x := by
  simp [State.crew]
theorem State.crew_setCrew_ne (s : State) {c k c' k' : Nat} (x : Crew) (h : c' ≠ c ∨ k' ≠ k) :
    (s.setCrew c k x).crew c' k' = s.crew c' k' := by
  by_cases hc : c' = c
  · subst hc
    simp [State.crew, mget_mset_ne _ _ _ (h.resolve_left (by simp))]
  · simp [State.crew, State.setCrew_core_ne _ _ _ hc]
@[simp] theorem State.crew_setGang (s : State) (c g c' k' : Nat) (x : Gang) : (s.setGang c g x).crew c' k' = s.crew c' k' := by
  by_cases hc : c' = c
  · subst hc; simp [State.crew]
  · simp [State.crew, State.setGang_core_ne _ _ _ hc]
@[simp] theorem State.gang?_setCrew (s : State) (c k c' g' : Nat) (x : Crew) : (s.setCrew c k x).gang? c' g' = s.gang? c' g' := by
  by_cases hc : c' = c
  · subst hc; simp [State.gang?]
  · simp [State.gang?, State.setCrew_core_ne _ _ _ hc]
@[simp] theorem State.gang_setCrew (s : State) (c k c' g' : Nat) (x : Crew) : (s.setCrew c k x).gang c' g' = s.gang c' g' := by
  by_cases hc : c' = c
  · subst hc; simp [State.gang]
  · simp [State.gang, State.setCrew_core_ne _ _ _ hc]
@[simp] theorem State.me_setMe (s : State) (g : Gang) : (s.setMe g).me = g := by simp [State.me, State.setMe]
@[simp] theorem State.setMe_crew (s : State) (g : Gang) (c k : Nat) : (s.setMe g).crew c k = s.crew c k := by simp [State.setMe]
@[simp] theorem State.bump_core (s : State) (c : Nat) : s.bump.core c = s.core c := rfl
@[simp] theorem State.power_core (s : State) (a j d c : Nat) : (s.power a j d).core c = s.core c := rfl
@[simp] theorem State.observe_core (s : State) (a i j d c : Nat) : (s.observe a i j d).core c = s.core c := rfl
@[simp] theorem State.later_core (s : State) (op : Instr) (a : Event) (c : Nat) : (s.later op a).core c = s.core c := rfl
@[simp] theorem State.bump_me (s : State) : s.bump.me = s.me := rfl
@[simp] theorem State.power_me (s : State) (a j d : Nat) : (s.power a j d).me = s.me := rfl
@[simp] theorem State.observe_me (s : State) (a i j d : Nat) : (s.observe a i j d).me = s.me := rfl
@[simp] theorem State.later_me (s : State) (op : Instr) (a : Event) : (s.later op a).me = s.me := rfl

/-! ### Counters -/

/-- A crew's counter changes nothing but the cores, and there only that crew's counters. -/
theorem State.pmcAdd_eq (s : State) (c k n d : Nat) : s.pmcAdd c k n d = { s with cores := (s.pmcAdd c k n d).cores } := by
  unfold State.pmcAdd; split <;> rfl
@[simp] theorem State.pmcAdd_cur (s : State) (c k n d : Nat) : (s.pmcAdd c k n d).cur = s.cur := by rw [State.pmcAdd_eq]
@[simp] theorem State.pmcAdd_clock (s : State) (c k n d : Nat) : (s.pmcAdd c k n d).clock = s.clock := by rw [State.pmcAdd_eq]
@[simp] theorem State.pmcAdd_mem (s : State) (c k n d : Nat) : (s.pmcAdd c k n d).mem = s.mem := by rw [State.pmcAdd_eq]
@[simp] theorem State.pmcAdd_free (s : State) (c k n d : Nat) : (s.pmcAdd c k n d).free = s.free := by rw [State.pmcAdd_eq]
@[simp] theorem State.pmcAdd_gang? (s : State) (c k n d c' g : Nat) : (s.pmcAdd c k n d).gang? c' g = s.gang? c' g := by
  unfold State.pmcAdd; split <;> simp
@[simp] theorem State.pmcAdd_gang (s : State) (c k n d c' g : Nat) : (s.pmcAdd c k n d).gang c' g = s.gang c' g := by
  unfold State.pmcAdd; split <;> simp
@[simp] theorem State.pmcAdd_me (s : State) (c k n d : Nat) : (s.pmcAdd c k n d).me = s.me := by simp [State.me]
@[simp] theorem State.pmc_me (s : State) (n d : Nat) : (s.pmc n d).me = s.me := by simp [State.pmc]
@[simp] theorem State.pmc_cur (s : State) (n d : Nat) : (s.pmc n d).cur = s.cur := by simp [State.pmc]
@[simp] theorem State.pmc_clock (s : State) (n d : Nat) : (s.pmc n d).clock = s.clock := by simp [State.pmc]
@[simp] theorem State.pmc_mem (s : State) (n d : Nat) : (s.pmc n d).mem = s.mem := by simp [State.pmc]
@[simp] theorem State.pmc_free (s : State) (n d : Nat) : (s.pmc n d).free = s.free := by simp [State.pmc]

end Sys2Proof.Machine
end

