-- ==== Sys2Proof/Laws/Operands.lean ====
section
/-! SUPPORT. Laws of the operands: what a slot reads depends on the issuing gang, the clock, the free-value counter and the bundle
being issued alone, so counting an instruction changes none of it. -/

namespace Sys2Proof.Machine
open Sys2Proof

/-- Two states in which the issuing bundle reads the same operands. -/
structure SameIssue (s t : State) : Prop where
  me : t.me = s.me
  clock : t.clock = s.clock
  free : t.free = s.free
  cur : t.cur = s.cur

variable {s t : State}

theorem SameIssue.unmerged (h : SameIssue s t) : t.unmerged = s.unmerged := by
  funext d k
  simp only [State.unmerged, h.me, h.cur]
theorem SameIssue.srcLane (h : SameIssue s t) : t.srcLane = s.srcLane := by
  funext sel pos l
  simp only [State.srcLane, State.vregLane, State.sregNow, State.latchLane, State.lx1Lane, State.special, State.undef32, h.unmerged, h.me,
    h.clock, h.free, h.cur]
theorem SameIssue.srcScalar (h : SameIssue s t) : t.srcScalar = s.srcScalar := by
  funext sel pos
  simp only [State.srcScalar, State.sregNow, State.special, h.unmerged, h.me, h.clock, h.free, h.cur]
theorem SameIssue.aLane (h : SameIssue s t) : t.aLane = s.aLane := by funext o l; simp only [State.aLane, h.srcLane]
theorem SameIssue.bLane (h : SameIssue s t) : t.bLane = s.bLane := by funext o l; simp only [State.bLane, h.srcLane]
theorem SameIssue.cLane (h : SameIssue s t) : t.cLane = s.cLane := by funext o l; simp only [State.cLane, h.srcLane]
theorem SameIssue.aScalar (h : SameIssue s t) : t.aScalar = s.aScalar := by funext o; simp only [State.aScalar, h.srcScalar]
theorem SameIssue.bScalar (h : SameIssue s t) : t.bScalar = s.bScalar := by funext o; simp only [State.bScalar, h.srcScalar]
theorem SameIssue.cScalar (h : SameIssue s t) : t.cScalar = s.cScalar := by funext o; simp only [State.cScalar, h.srcScalar]
theorem SameIssue.src64Lane (h : SameIssue s t) : t.src64Lane = s.src64Lane := by
  funext sel pos l
  simp only [State.src64Lane, State.vregLane, State.sregNow, State.undef32, h.srcLane, h.unmerged, h.me, h.clock, h.free, h.cur]
theorem SameIssue.sregNow (h : SameIssue s t) : t.sregNow = s.sregNow := by
  funext n pos
  simp only [State.sregNow, h.unmerged, h.me, h.clock, h.free, h.cur]
theorem SameIssue.vregLane (h : SameIssue s t) : t.vregLane = s.vregLane := by
  funext n pos l
  simp only [State.vregLane, State.undef32, h.unmerged, h.me, h.clock, h.free, h.cur]
theorem SameIssue.ofsLane (h : SameIssue s t) : t.ofsLane = s.ofsLane := by
  funext sel l
  simp only [State.ofsLane, h.srcLane, h.sregNow]
theorem SameIssue.dataLane (h : SameIssue s t) : t.dataLane = s.dataLane := by
  funext sel g l
  simp only [State.dataLane, h.srcLane, h.sregNow, h.vregLane]
theorem SameIssue.predLane (h : SameIssue s t) : t.predLane = s.predLane := by
  funext n l
  simp only [State.predLane, h.unmerged, h.me, h.clock, h.free, h.cur]
theorem SameIssue.guardLane (h : SameIssue s t) : t.guardLane = s.guardLane := by
  funext g l
  simp only [State.guardLane, h.predLane]
theorem SameIssue.activeLanes (h : SameIssue s t) : t.activeLanes = s.activeLanes := by
  simp only [State.activeLanes, h.me, h.cur]
theorem SameIssue.vLanes (h : SameIssue s t) : t.vLanes = s.vLanes := by
  funext o
  simp only [State.vLanes, h.activeLanes, h.guardLane]
theorem SameIssue.mLanes (h : SameIssue s t) : t.mLanes = s.mLanes := by
  funext o
  have hg : t.mGuard = s.mGuard := by
    funext gm l
    simp only [State.mGuard, h.predLane]
  simp only [State.mLanes, h.activeLanes, hg]
theorem SameIssue.baseReg (h : SameIssue s t) : t.baseReg = s.baseReg := by funext o; simp only [State.baseReg, h.sregNow]
theorem SameIssue.addr (h : SameIssue s t) : t.addr = s.addr := by funext o z l; simp only [State.addr, h.baseReg, h.ofsLane]
theorem SameIssue.draw (h : SameIssue s t) : t.draw = s.draw := by funext l k; simp only [State.draw, h.me]

theorem SameIssue.pmcAdd (s : State) (c k n d : Nat) : SameIssue s (s.pmcAdd c k n d) := ⟨by simp, by simp, by simp, by simp⟩
theorem SameIssue.pmc (s : State) (n d : Nat) : SameIssue s (s.pmc n d) := SameIssue.pmcAdd s _ _ n d
theorem SameIssue.countV (s : State) (ls : List Nat) : SameIssue s (s.countV ls) :=
  ⟨by simp [State.countV], by simp [State.countV], by simp [State.countV], by simp [State.countV]⟩

@[simp] theorem State.countV_me (s : State) (ls : List Nat) : (s.countV ls).me = s.me := (SameIssue.countV s ls).me
@[simp] theorem State.countV_clock (s : State) (ls : List Nat) : (s.countV ls).clock = s.clock := (SameIssue.countV s ls).clock
@[simp] theorem State.countV_free (s : State) (ls : List Nat) : (s.countV ls).free = s.free := (SameIssue.countV s ls).free
@[simp] theorem State.countV_cur (s : State) (ls : List Nat) : (s.countV ls).cur = s.cur := (SameIssue.countV s ls).cur
@[simp] theorem State.countV_mem (s : State) (ls : List Nat) : (s.countV ls).mem = s.mem := by simp [State.countV]
@[simp] theorem State.countV_vLanes (s : State) (ls : List Nat) : (s.countV ls).vLanes = s.vLanes := (SameIssue.countV s ls).vLanes
@[simp] theorem State.countV_activeLanes (s : State) (ls : List Nat) : (s.countV ls).activeLanes = s.activeLanes :=
  (SameIssue.countV s ls).activeLanes
@[simp] theorem State.countV_guardLane (s : State) (ls : List Nat) : (s.countV ls).guardLane = s.guardLane :=
  (SameIssue.countV s ls).guardLane
@[simp] theorem State.countV_predLane (s : State) (ls : List Nat) : (s.countV ls).predLane = s.predLane :=
  (SameIssue.countV s ls).predLane
@[simp] theorem State.countV_aLane (s : State) (ls : List Nat) : (s.countV ls).aLane = s.aLane := (SameIssue.countV s ls).aLane
@[simp] theorem State.countV_bLane (s : State) (ls : List Nat) : (s.countV ls).bLane = s.bLane := (SameIssue.countV s ls).bLane
@[simp] theorem State.countV_cLane (s : State) (ls : List Nat) : (s.countV ls).cLane = s.cLane := (SameIssue.countV s ls).cLane
@[simp] theorem State.countV_aScalar (s : State) (ls : List Nat) : (s.countV ls).aScalar = s.aScalar := (SameIssue.countV s ls).aScalar
@[simp] theorem State.countV_bScalar (s : State) (ls : List Nat) : (s.countV ls).bScalar = s.bScalar := (SameIssue.countV s ls).bScalar
@[simp] theorem State.countV_cScalar (s : State) (ls : List Nat) : (s.countV ls).cScalar = s.cScalar := (SameIssue.countV s ls).cScalar
@[simp] theorem State.countV_src64Lane (s : State) (ls : List Nat) : (s.countV ls).src64Lane = s.src64Lane :=
  (SameIssue.countV s ls).src64Lane
@[simp] theorem State.countV_draw (s : State) (ls : List Nat) : (s.countV ls).draw = s.draw := (SameIssue.countV s ls).draw

/-- A legal V-slot operation counts and has its effect. -/
theorem vRun_legal {i : Instr} {o : VOp} {eff : State → State} {s : State} (h : opLegal i s.me.regs = true) :
    vRun i o eff s = .next (eff (s.countV (s.vLanes o))) := by simp [vRun, guarded, illegalTrap, h]

/-- An illegal one traps (R218). -/
theorem vRun_illegal {i : Instr} {o : VOp} {eff : State → State} {s : State} (h : opLegal i s.me.regs = false) :
    vRun i o eff s = .next (s.takeTrap (illegal .v)) := by simp [vRun, guarded, illegalTrap, h]

end Sys2Proof.Machine
end

