-- ==== Sys2Proof/Certificates/Slice0/Obligations.lean ====
section
/-! DEFINITION. Obligations: the statements about the machine. Each names the rules it states; predicates that several statements share
stand before them. -/

/-! ### The V slot (R231 to R260) -/

namespace Sys2Proof.Machine

/-- What a V-slot instruction leaves as it is: memory, every other gang, every crew but its counters, and of the issuing gang all
but the writes it puts in flight and the marks of pending destinations; of the machine's other state only the event counts,
and of the bundle being issued only the latch result and the generators it leaves. -/
structure VFrame (s t : State) : Prop where
  mem : ∀ a, Mem.read t.mem a = Mem.read s.mem a
  rest : t = { s with cores := t.cores, counts := t.counts, cur := t.cur }
  issue : t.cur = { s.cur with latch := t.cur.latch, rng := t.cur.rng }
  cores : ∀ c, t.core c = { s.core c with gangs := (t.core c).gangs, crews := (t.core c).crews }
  gangs : ∀ c g, c ≠ s.cur.core ∨ g ≠ s.cur.slot → t.gang? c g = s.gang? c g
  crews : ∀ c k, t.crew c k = { s.crew c k with pmc := (t.crew c k).pmc }
  gang : t.me = { s.me with pend := t.me.pend, marks := t.me.marks }

/-- The writes a bundle's slot puts in flight (R211), each of which taints a variable-latency write pending on its register
(R213); and nothing else in flight changes. -/
def Writes (s t : State) (ws : List Pend) : Prop :=
  t.me.pend = s.me.pend ++ ws ∧
    t.me.marks = s.me.marks.map (fun m => if ws.any (fun p => p.dest == m.dest) then { m with tainted := true } else m)

/-- A vector result with its latch entry (R211, R214): in the lanes of P, at clock + latency; 0xFF writes the latches only. -/
def VResult (s t : State) (o : VOp) (lat : Nat) (lanes : List Nat) (f : Nat → W32) (more : List Pend) : Prop :=
  t.cur.latch = some ⟨s.clock + lat, maskOf lanes, lanesOf f⟩ ∧
    Writes s t ((if selV o.d then [⟨s.clock + lat, s.clock, .v o.d.toNat, maskOf lanes, lanesOf f, 0⟩] else []) ++ more)

/-- A scalar result (R232): its latch entry takes bits [31:0] in every lane (R214). -/
def SResult (s t : State) (o : VOp) (lat : Nat) (x : W64) : Prop :=
  t.cur.latch = some ⟨s.clock + lat, BitVec.allOnes 32, lanesOf (fun _ => x.setWidth 32)⟩ ∧
    Writes s t [⟨s.clock + lat, s.clock, .s (o.d.toNat - 0x80), 0, [], x⟩]

/-- A predicate result in some lanes; its latch entry is undefined in every lane (R214). -/
def PResult (s t : State) (o : VOp) (lat : Nat) (lanes : List Nat) (f : Nat → Bool) : Prop :=
  t.cur.latch = some ⟨s.clock + lat, 0, []⟩ ∧
    Writes s t [⟨s.clock + lat, s.clock, .p o.d.toNat, maskOf lanes, [], (maskOf (lanes.filter f)).setWidth 64⟩]

/-- A V-slot instruction counts itself and its lanes on its crew (Table 19-8: PMC1 and PMC2). -/
def VCounted (s t : State) (lanes : List Nat) : Prop :=
  ∀ n, mget 0 t.myCrew.pmc n = mget 0 s.myCrew.pmc n +
    (if n = 1 then 1 else if n = 2 then BitVec.ofNat 64 lanes.length else 0)

/-- The operands of a lane, and of a scalar form. -/
def State.opA (s : State) (o : VOp) (l : Nat) : W32 := BitVec.ofNat 32 (s.aLane o l)
def State.opB (s : State) (o : VOp) (l : Nat) : W32 := BitVec.ofNat 32 (s.bLane o l)
def State.opC (s : State) (o : VOp) (l : Nat) : W32 := BitVec.ofNat 32 (s.cLane o l)
def State.opA64 (s : State) (o : VOp) : W64 := BitVec.ofNat 64 (s.aScalar o)
def State.opB64 (s : State) (o : VOp) : W64 := BitVec.ofNat 64 (s.bScalar o)
def State.opC64 (s : State) (o : VOp) : W64 := BitVec.ofNat 64 (s.cScalar o)

/-- An instruction of Table 7-13 with its latency and its result as an operation on words of `w` bits. -/
structure IntRow where
  op : VOp → Instr
  lat : Nat
  f : (w : Nat) → BitVec w → BitVec w → BitVec w → BitVec w

/-- Position and length of the field that word b names, the length cut at the top bit (R238). -/
def fieldPos {w : Nat} (b : BitVec w) : Nat := b.toNat % 256
def fieldLen {w : Nat} (b : BitVec w) : Nat := min (b.toNat / 256 % 256) (w - fieldPos b)
/-- The bits of that field. -/
def fieldMask {w : Nat} (b : BitVec w) : BitVec w := ((BitVec.allOnes (fieldLen b)).setWidth w) <<< fieldPos b
/-- The shift that word b names (R236): its low 8 bits. -/
def shiftOf {w : Nat} (b : BitVec w) : Nat := b.toNat % 256

/-- The integer instructions whose result is one function of a, b and c (R236 to R239). -/
def intRows : List IntRow :=
  [⟨.imul, 6, fun _ a b _ => a * b⟩,
   ⟨.imulhS32, 6, fun w a b _ => BitVec.ofInt w (a.toInt * b.toInt / 2 ^ w)⟩,
   ⟨.imulhN32, 6, fun w a b _ => BitVec.ofNat w (a.toNat * b.toNat / 2 ^ w)⟩,
   ⟨.imad, 6, fun _ a b c => a * b + c⟩,
   ⟨.iminS32, 4, fun _ a b _ => if a.slt b then a else b⟩,
   ⟨.iminN32, 4, fun _ a b _ => if a.ult b then a else b⟩,
   ⟨.imaxS32, 4, fun _ a b _ => if a.slt b then b else a⟩,
   ⟨.imaxN32, 4, fun _ a b _ => if a.ult b then b else a⟩,
   ⟨.iabs, 4, fun _ a _ _ => if a.msb then -a else a⟩,
   ⟨.ineg, 4, fun _ a _ _ => -a⟩,
   ⟨.mov, 4, fun _ a _ _ => a⟩,
   ⟨.movi, 4, fun _ _ b _ => b⟩] ++
  [⟨.and, 4, fun _ a b _ => a &&& b⟩,
   ⟨.or, 4, fun _ a b _ => a ||| b⟩,
   ⟨.xor, 4, fun _ a b _ => a ^^^ b⟩,
   ⟨.andn, 4, fun _ a b _ => a &&& ~~~b⟩,
   ⟨.shl, 4, fun _ a b _ => a <<< shiftOf b⟩,
   ⟨.shr, 4, fun _ a b _ => a >>> shiftOf b⟩,
   ⟨.sar, 4, fun _ a b _ => a.sshiftRight (shiftOf b)⟩,
   ⟨.shfL, 4, fun w a b c => ((c ++ a) <<< min (shiftOf b) w).extractLsb' w w⟩,
   ⟨.shfR, 4, fun w a b c => ((c ++ a) >>> min (shiftOf b) w).setWidth w⟩,
   ⟨.popc, 4, fun w a _ _ => BitVec.ofNat w ((List.range w).filter a.getLsbD).length⟩,
   ⟨.clz, 4, fun _ a _ _ => a.clz⟩,
   ⟨.brev, 4, fun _ a _ _ => a.reverse⟩,
   ⟨.bfxN32, 4, fun w a b _ => ((a >>> fieldPos b).setWidth (fieldLen b)).setWidth w⟩,
   ⟨.bfxS32, 4, fun w a b _ => ((a >>> fieldPos b).setWidth (fieldLen b)).signExtend w⟩,
   ⟨.bfi, 4, fun _ a b c => (c &&& ~~~fieldMask b) ||| (a <<< fieldPos b &&& fieldMask b)⟩]

end Sys2Proof.Machine

open Sys2Proof Sys2Proof.Machine

/-- R236 to R239, vector form: each integer instruction completes, and register D takes its function of the lanes' operands in the
participating lanes after its latency; nothing else changes. -/
def Sys2Proof.Machine.IntegerLaneResults : Prop :=
  ∀ q ∈ intRows, ∀ (o : VOp) (s : State), opLegal (q.op o) s.me.regs = true → selS o.d = false →
    ∃ t, exec (q.op o) s = .next t ∧ VFrame s t ∧ VCounted s t (s.vLanes o) ∧ t.cur.rng = s.cur.rng ∧
      VResult s t o q.lat (s.vLanes o) (fun l => q.f 32 (s.opA o l) (s.opB o l) (s.opC o l)) []

/-- R232: the scalar form computes on 64 bits with latency 4 into a scalar register. -/
def Sys2Proof.Machine.IntegerScalarResults : Prop :=
  ∀ q ∈ intRows, ∀ (o : VOp) (s : State), opLegal (q.op o) s.me.regs = true → selS o.d = true →
    ∃ t, exec (q.op o) s = .next t ∧ VFrame s t ∧ VCounted s t (s.vLanes o) ∧ t.cur.rng = s.cur.rng ∧
      SResult s t o 4 (q.f 64 (s.opA64 o) (s.opB64 o) (s.opC64 o))

/-- The integer instructions of Table 7-13 with one result, in their vector form (from R236 to R239) and in their scalar form (R232). -/
def Obligations.IntegerResults : Prop := IntegerLaneResults ∧ IntegerScalarResults

/-- R236, R215: IADD and ISUB, vector form: the sum or difference in D, and the carry or borrow of the unsigned operation in lx1, both
in the participating lanes after 4 clocks; scalar form: 64 bits, lx1 unchanged. -/
def Sys2Proof.Machine.AddSubResults : Prop :=
  ∀ (add : Bool) (o : VOp) (s : State), let i : Instr := if add then .iadd o else .isub o
    opLegal i s.me.regs = true →
    ∃ t, exec i s = .next t ∧ VFrame s t ∧ VCounted s t (s.vLanes o) ∧
      (selS o.d = false →
        VResult s t o 4 (s.vLanes o) (fun l => if add then s.opA o l + s.opB o l else s.opA o l - s.opB o l)
          [⟨s.clock + 4, s.clock, .lx1, maskOf (s.vLanes o), [],
            (maskOf ((s.vLanes o).filter (fun l =>
              if add then BitVec.uaddOverflow (s.opA o l) (s.opB o l) else BitVec.usubOverflow (s.opA o l) (s.opB o l)))).setWidth 64⟩]) ∧
      (selS o.d = true → SResult s t o 4 (if add then s.opA64 o + s.opB64 o else s.opA64 o - s.opB64 o))

/-- R237: IADD64 leaves the low and high words of the 64-bit sum of its sources in the pair D, D + 1 and the carry out of 64 bits in
lx1, in the participating lanes after 4 clocks; the latch takes the low word. -/
def Sys2Proof.Machine.Iadd64Result : Prop :=
  ∀ (o : VOp) (s : State), opLegal (.iadd64 o) s.me.regs = true →
    ∃ t, exec (.iadd64 o) s = .next t ∧ VFrame s t ∧ VCounted s t (s.vLanes o) ∧
      let a (l : Nat) : W64 := BitVec.ofNat 64 (s.src64Lane o.a 0 l)
      let b (l : Nat) : W64 := if o.immB then o.imm.signExtend 64 else BitVec.ofNat 64 (s.src64Lane o.b 1 l)
      VResult s t o 4 (s.vLanes o) (fun l => (a l + b l).setWidth 32)
        ([⟨s.clock + 4, s.clock, .lx1, maskOf (s.vLanes o), [],
            (maskOf ((s.vLanes o).filter (fun l => BitVec.uaddOverflow (a l) (b l)))).setWidth 64⟩] ++
          (if selV o.d then [⟨s.clock + 4, s.clock, .v (o.d.toNat + 1), maskOf (s.vLanes o),
            lanesOf (fun l => ((a l + b l) >>> 32).setWidth 32), 0⟩] else []))

/-- IADD and ISUB with lx1, and IADD64 (from R215, R236, R237). -/
def Obligations.AdditionResults : Prop := AddSubResults ∧ Iadd64Result

/-- R241: SEL is never guarded: it writes a where the guard holds and b elsewhere, in every active lane; the scalar form reads the
guard of one lane, the lowest active lane of the part, or the lowest lane of its lowest slice when none is active. -/
def Obligations.SelResult : Prop :=
  ∀ (o : VOp) (s : State), opLegal (.sel o) s.me.regs = true →
    ∃ t, exec (.sel o) s = .next t ∧ VFrame s t ∧ VCounted s t s.activeLanes ∧
      (selS o.d = false → VResult s t o 4 s.activeLanes (fun l => if s.guardLane o.g l then s.opA o l else s.opB o l) []) ∧
      (selS o.d = true → SResult s t o 4 (if s.guardLane o.g ((s.activeLanes.head?).getD (4 * s.cur.lead)) then s.opA64 o else s.opB64 o))

namespace Sys2Proof.Machine

/-- The integer compares with the relation each tests (R240). -/
def icmpRows : List ((VOp → Instr) × ((w : Nat) → BitVec w → BitVec w → Bool)) :=
  [(.icmpEq, fun _ a b => a == b), (.icmpNe, fun _ a b => a != b),
   (.icmpLtS32, fun _ a b => a.slt b), (.icmpLeS32, fun _ a b => a.sle b),
   (.icmpGtS32, fun _ a b => b.slt a), (.icmpGeS32, fun _ a b => b.sle a),
   (.icmpLtN32, fun _ a b => a.ult b), (.icmpLeN32, fun _ a b => a.ule b),
   (.icmpGtN32, fun _ a b => b.ult a), (.icmpGeN32, fun _ a b => b.ule a)]

/-- The float compares, on F32 patterns (R244). -/
def fcmpRows : List ((VOp → Instr) × (Nat → Nat → Bool)) :=
  [(.fcmpEq, Alu.feq), (.fcmpNe, fun a b => !Alu.feq a b), (.fcmpLt, Alu.flt), (.fcmpLe, Alu.fle),
   (.fcmpGt, fun a b => Alu.flt b a), (.fcmpGe, fun a b => Alu.fle b a),
   (.fcmpNum, fun a b => !Alu.fnan a b), (.fcmpNan, Alu.fnan)]

/-- Predicate logic (R259). -/
def predRows : List ((VOp → Instr) × (Bool → Bool → Bool)) :=
  [(.pand, fun a b => a && b), (.por, fun a b => a || b), (.pxor, fun a b => a != b), (.pnot, fun a _ => !a)]

end Sys2Proof.Machine

/-- R240, R259: an integer compare writes its predicate after 4 clocks: the vector form each participating lane's own outcome, the
scalar form the one 64-bit outcome to every lane of the gang; predicate logic combines predicates lane by lane. -/
def Obligations.PredicateResults : Prop :=
  (∀ q ∈ icmpRows, ∀ (o : VOp) (s : State), opLegal (q.1 o) s.me.regs = true →
    ∃ t, exec (q.1 o) s = .next t ∧ VFrame s t ∧ VCounted s t (s.vLanes o) ∧
      (o.icmpScalar = false → PResult s t o 4 (s.vLanes o) (fun l => q.2 32 (s.opA o l) (s.opB o l))) ∧
      (o.icmpScalar = true → PResult s t o 4 (List.range (4 * s.me.nsl)) (fun _ => q.2 64 (s.opA64 o) (s.opB64 o)))) ∧
  (∀ q ∈ predRows, ∀ (o : VOp) (s : State), opLegal (q.1 o) s.me.regs = true →
    ∃ t, exec (q.1 o) s = .next t ∧ VFrame s t ∧ VCounted s t (s.vLanes o) ∧
      PResult s t o 4 (s.vLanes o) (fun l => q.2 (s.predLane (o.a.toNat % 8) l) (s.predLane (o.b.toNat % 8) l)))

/-- R244: each float compare completes and writes its predicate after 6 clocks, in each participating lane the outcome of its condition
on the lane's two operands. -/
def Sys2Proof.Machine.FloatCompareResults : Prop :=
  ∀ q ∈ fcmpRows, ∀ (o : VOp) (s : State), opLegal (q.1 o) s.me.regs = true →
    ∃ t, exec (q.1 o) s = .next t ∧ VFrame s t ∧ VCounted s t (s.vLanes o) ∧
      PResult s t o 6 (s.vLanes o) (fun l => q.2 (s.aLane o l) (s.bLane o l))

/-- The value of an F32 pattern that is no NaN, in steps of 2^-149: exact for a finite one, an infinity beyond every finite value; both
zeros are 0. -/
def Sys2Proof.Machine.f32Steps (x : W32) : Int :=
  let e : Nat := x.toNat / 2 ^ 23 % 256
  let m : Nat := x.toNat % 2 ^ 23
  let a : Nat := if e = 0 then m else (2 ^ 23 + m) * 2 ^ (e - 1)
  if x.msb then -(a : Int) else (a : Int)

/-- R244: the order the conditions test: with a NaN among the operands no relation holds, in either order of the operands; otherwise less
and equal are those of the operands' values, less-or-equal is less or equal, and +0 equals -0. -/
def Sys2Proof.Machine.FloatCompareOrder : Prop :=
  ∀ a b : W32,
    (let nan (x : W32) : Prop := x.toNat / 2 ^ 23 % 256 = 255 ∧ x.toNat % 2 ^ 23 ≠ 0
     (Alu.fnan a.toNat b.toNat = true ↔ nan a ∨ nan b)) ∧
    (Alu.fnan a.toNat b.toNat = true →
      Alu.feq a.toNat b.toNat = false ∧ Alu.flt a.toNat b.toNat = false ∧ Alu.flt b.toNat a.toNat = false ∧
        Alu.fle a.toNat b.toNat = false ∧ Alu.fle b.toNat a.toNat = false) ∧
    (Alu.fnan a.toNat b.toNat = false →
      (Alu.flt a.toNat b.toNat = true ↔ f32Steps a < f32Steps b) ∧ (Alu.feq a.toNat b.toNat = true ↔ f32Steps a = f32Steps b)) ∧
    Alu.fle a.toNat b.toNat = (Alu.flt a.toNat b.toNat || Alu.feq a.toNat b.toNat) ∧
    Alu.feq 0 0x80000000 = true ∧ Alu.feq 0x80000000 0 = true

/-- The float compares and the order they test (R244). -/
def Obligations.FloatCompareOutcomes : Prop := FloatCompareResults ∧ FloatCompareOrder

namespace Sys2Proof.Machine
open Sys2Proof.Num

/-- A float instruction with its latency, the draws it takes in each lane under RS, and its result (R242 to R253). -/
structure FloatRow where
  op : VOp → Instr
  lat : Nat
  draws : Nat
  f : VOp → (Nat → Nat) → Nat → Nat → Nat → Nat

/-- A source of a paired operation: a float constant is rounded to the format, in both halves (R247). -/
def pairA (fmt : Fmt) (o : VOp) (x : Nat) : Nat := pairConst fmt o.a false x
def pairB (fmt : Fmt) (o : VOp) (x : Nat) : Nat := pairConst fmt o.b o.immB x
def pairC (fmt : Fmt) (o : VOp) (x : Nat) : Nat := pairConst fmt (if o.long then o.c else o.d) false x
/-- Element i of a word of four bytes. -/
def byteAt (x i : Nat) : Nat := x / 256 ^ i % 256
/-- The two halves of a word computed apart, the low one first. -/
def halves (f : Nat → Nat → Nat) (x y : Nat) : Nat := f (x % 65536) (y % 65536) + 65536 * f (x / 65536 % 65536) (y / 65536 % 65536)
/-- FDOT4 (R248): the exact sum of c and four products, rounded once. -/
def dot4 (fa fb : Fmt) (o : VOp) (r : Nat → Nat) (a b c : Nat) : Nat :=
  round f32 false o.mode (r 0)
    (groupSum (decode f32 c :: (List.range 4).map (fun i => (decode fa (byteAt a i)).mul (decode fb (byteAt b i)))))

/-- F32 arithmetic, square root, reciprocal and the functions of Table 8-4. -/
def f32Rows : List FloatRow :=
  [⟨.fadd, 6, 1, fun o r a b _ => fadd f32 o.mode (r 0) a b⟩,
   ⟨.fsub, 6, 1, fun o r a b _ => fsub f32 o.mode (r 0) a b⟩,
   ⟨.fmul, 6, 1, fun o r a b _ => fmul f32 o.mode (r 0) a b⟩,
   ⟨.ffma, 6, 1, fun o r a b c => ffma f32 o.mode (r 0) a b c⟩,
   ⟨.fmin, 6, 0, fun _ _ a b _ => fmin f32 a b⟩,
   ⟨.fmax, 6, 0, fun _ _ a b _ => fmax f32 a b⟩,
   ⟨.frcp, 14, 1, fun o r a _ _ => round f32 false o.mode (r 0) (decode f32 a).recip⟩,
   ⟨.fsqrt, 14, 1, fun o r a _ _ => round f32 false o.mode (r 0) (decode f32 a).sqrt⟩,
   ⟨.frsq, 14, 0, fun _ _ a _ _ => round f32 false 0 0 (decode f32 a).rsqrt⟩,
   ⟨.fexp2, 14, 0, fun _ _ a _ _ => fexp2 a⟩,
   ⟨.flog2, 14, 0, fun _ _ a _ _ => flog2 a⟩,
   ⟨.fsin, 14, 0, fun _ _ a _ _ => fsin a⟩,
   ⟨.fcos, 14, 0, fun _ _ a _ _ => fcos a⟩]

/-- Paired 16-bit arithmetic, dot products and conversions. -/
def narrowRows : List FloatRow :=
  [⟨.hadd2F16, 6, 2, fun o r a b _ => fadd f16 o.mode (r 0) (pairA f16 o a % 65536) (pairB f16 o b % 65536) +
      65536 * fadd f16 o.mode (r 1) (pairA f16 o a / 65536 % 65536) (pairB f16 o b / 65536 % 65536)⟩,
   ⟨.hmul2F16, 6, 2, fun o r a b _ => fmul f16 o.mode (r 0) (pairA f16 o a % 65536) (pairB f16 o b % 65536) +
      65536 * fmul f16 o.mode (r 1) (pairA f16 o a / 65536 % 65536) (pairB f16 o b / 65536 % 65536)⟩,
   ⟨.hfma2F16, 6, 2, fun o r a b c => ffma f16 o.mode (r 0) (pairA f16 o a % 65536) (pairB f16 o b % 65536) (pairC f16 o c % 65536) +
      65536 * ffma f16 o.mode (r 1) (pairA f16 o a / 65536 % 65536) (pairB f16 o b / 65536 % 65536) (pairC f16 o c / 65536 % 65536)⟩,
   ⟨.hmin2F16, 6, 0, fun o _ a b _ => halves (fmin f16) (pairA f16 o a) (pairB f16 o b)⟩,
   ⟨.hmax2F16, 6, 0, fun o _ a b _ => halves (fmax f16) (pairA f16 o a) (pairB f16 o b)⟩,
   ⟨.hadd2Bf16, 6, 2, fun o r a b _ => fadd bf16 o.mode (r 0) (pairA bf16 o a % 65536) (pairB bf16 o b % 65536) +
      65536 * fadd bf16 o.mode (r 1) (pairA bf16 o a / 65536 % 65536) (pairB bf16 o b / 65536 % 65536)⟩,
   ⟨.hmul2Bf16, 6, 2, fun o r a b _ => fmul bf16 o.mode (r 0) (pairA bf16 o a % 65536) (pairB bf16 o b % 65536) +
      65536 * fmul bf16 o.mode (r 1) (pairA bf16 o a / 65536 % 65536) (pairB bf16 o b / 65536 % 65536)⟩,
   ⟨.hfma2Bf16, 6, 2, fun o r a b c => ffma bf16 o.mode (r 0) (pairA bf16 o a % 65536) (pairB bf16 o b % 65536) (pairC bf16 o c % 65536) +
      65536 * ffma bf16 o.mode (r 1) (pairA bf16 o a / 65536 % 65536) (pairB bf16 o b / 65536 % 65536) (pairC bf16 o c / 65536 % 65536)⟩,
   ⟨.hmin2Bf16, 6, 0, fun o _ a b _ => halves (fmin bf16) (pairA bf16 o a) (pairB bf16 o b)⟩,
   ⟨.hmax2Bf16, 6, 0, fun o _ a b _ => halves (fmax bf16) (pairA bf16 o a) (pairB bf16 o b)⟩] ++
  [⟨.fdot4E4m3E4m3, 6, 1, dot4 e4m3 e4m3⟩, ⟨.fdot4E4m3E5m2, 6, 1, dot4 e4m3 e5m2⟩,
   ⟨.fdot4E5m2E4m3, 6, 1, dot4 e5m2 e4m3⟩, ⟨.fdot4E5m2E5m2, 6, 1, dot4 e5m2 e5m2⟩,
   ⟨.cvt, 6, 1, fun o r a _ _ => cvt (o.b.toNat / 16) (o.b.toNat % 16) o.mode o.sat o.inf (r 0) a⟩,
   ⟨.k4dec, 6, 0, fun _ _ a b _ => k4ToF32 (b % 256) (a / 16 ^ (b / 256 % 8) % 16)⟩]

/-- The generators a bundle leaves: under RS (mode 4), each participating lane has taken the draws (R96). -/
def Drew (s t : State) (o : VOp) (lanes : List Nat) (n : Nat) : Prop :=
  t.cur.rng = if o.mode = 4 then some (rngAfter s.me.rng lanes n) else s.cur.rng

end Sys2Proof.Machine

/-- R242, R243, R245, R246: F32 arithmetic completes: each participating lane takes the exact result rounded once under the mode (RS
draws from the lane's generator), after 6 clocks, or 14 for the functions of Table 8-4. -/
def Sys2Proof.Machine.FloatResults : Prop :=
  ∀ q ∈ f32Rows, ∀ (o : VOp) (s : State), opLegal (q.op o) s.me.regs = true →
    ∃ t, exec (q.op o) s = .next t ∧ VFrame s t ∧ VCounted s t (s.vLanes o) ∧ Drew s t o (s.vLanes o) q.draws ∧
      VResult s t o q.lat (s.vLanes o) (fun l => BitVec.ofNat 32 (q.f o (s.draw l) (s.aLane o l) (s.bLane o l) (s.cLane o l))) []

/-- R247 to R249, R253: paired 16-bit arithmetic works on the two halves apart, a float constant counting as the format's value in
both; FDOT4 rounds the exact sum of c and the four products once; CVT and K4DEC convert one element; all after 6 clocks. -/
def Sys2Proof.Machine.NarrowFloatResults : Prop :=
  ∀ q ∈ narrowRows, ∀ (o : VOp) (s : State), opLegal (q.op o) s.me.regs = true →
    ∃ t, exec (q.op o) s = .next t ∧ VFrame s t ∧ VCounted s t (s.vLanes o) ∧ Drew s t o (s.vLanes o) q.draws ∧
      VResult s t o q.lat (s.vLanes o) (fun l => BitVec.ofNat 32 (q.f o (s.draw l) (s.aLane o l) (s.bLane o l) (s.cLane o l))) []

/-- F32 arithmetic and the functions, and the narrow formats (from R242 to R249, R253). -/
def Obligations.FloatOutcomes : Prop := FloatResults ∧ NarrowFloatResults

/-- R251, R252: PACK puts the k = 32/w narrowed elements of k consecutive registers side by side, element i at bit w i; K4ENC leaves
the sixteen codes of each block in its first two lanes and the scale byte in its third; both after 6 clocks. -/
def Obligations.PackResults : Prop :=
  (∀ (o : VOp) (s : State), opLegal (.pack o) s.me.regs = true →
    ∃ t, exec (.pack o) s = .next t ∧ VFrame s t ∧ VCounted s t (s.vLanes o) ∧
      let w := tyWidth (o.b.toNat / 16)
      Drew s t o (s.vLanes o) (32 / w) ∧
      ∃ x : Nat → W32, VResult s t o 6 (s.vLanes o) x [] ∧
        ∀ l, l < 32 → ∀ i, i < 32 / w →
          (x l).toNat / 2 ^ (w * i) % 2 ^ w =
            Num.cvt (o.b.toNat / 16) (o.b.toNat % 16) o.mode o.sat o.inf (s.draw l i)
              (s.vregLane (o.a.toNat + i) (20 + i) l).toNat % 2 ^ w) ∧
  (∀ (o : VOp) (s : State), opLegal (.k4enc o) s.me.regs = true →
    ∃ t, exec (.k4enc o) s = .next t ∧ VFrame s t ∧ VCounted s t (s.vLanes o) ∧ Drew s t o (s.vLanes o) 1 ∧
      ∃ x : Nat → W32, VResult s t o 6 (s.vLanes o) x [] ∧
        ∀ l, l < 32 →
          let ps := (s.vLanes o).filter (fun k => k / 16 == l / 16)
          let b := s.bLane o (ps.head?.getD l)
          let sc := Num.k4Scale (b / 64 % 4) (b % 64)
            ((ps.map (fun k => Num.decode Num.f32 (s.aLane o k))).filter (fun v => !v.isNan && !v.isInf))
          (l % 16 = 2 → x l = BitVec.ofNat 32 sc) ∧ (3 ≤ l % 16 → x l = 0) ∧
          (l % 16 < 2 → ∀ i, i < 8 →
            let k := 16 * (l / 16) + 8 * (l % 16) + i
            (x l).toNat / 16 ^ i % 16 =
              (if ps.contains k then Num.k4Encode o.mode (s.draw k 0) sc (Num.decode Num.f32 (s.aLane o k)) % 16 else 0)))

namespace Sys2Proof.Machine

/-- The group of lanes a shuffle works in: b names its width 2, 4, 8 or 16, else all 32 lanes (R255). -/
def shuffleWidth (b : Nat) : Nat :=
  match b / 256 % 8 with
  | 1 => 2
  | 2 => 4
  | 3 => 8
  | 4 => 16
  | _ => 32

/-- The lane a shuffle reads (R255): the group's lane n, or the own lane when it would leave the group. -/
def shuffleFrom (kind l b : Nat) : Nat :=
  let w := shuffleWidth b
  let base := l / w * w
  let n := b % 32
  match kind with
  | 0 => base + n % w
  | 1 => if n ≤ l % w then l - n else l
  | 2 => if l % w + n < w then l + n else l
  | _ => base + (l % w ^^^ n % w)

/-- The shuffles by kind. -/
def shflRows : List ((VOp → Instr) × Nat) := [(.shflIdx, 0), (.shflUp, 1), (.shflDown, 2), (.shflXor, 3)]

/-- The reductions that combine lanes with one function in ascending lane order (R257). -/
def lredRows : List ((VOp → Instr) × (W32 → W32 → W32)) :=
  [(.lredAddN32, fun a b => a + b),
   (.lredMinF32, fun a b => BitVec.ofNat 32 (Num.fmin Num.f32 a.toNat b.toNat)),
   (.lredMaxF32, fun a b => BitVec.ofNat 32 (Num.fmax Num.f32 a.toNat b.toNat)),
   (.lredMinS32, fun a b => if a.slt b then a else b), (.lredMaxS32, fun a b => if a.slt b then b else a),
   (.lredMinN32, fun a b => if a.ult b then a else b), (.lredMaxN32, fun a b => if a.ult b then b else a),
   (.lredAnd, fun a b => a &&& b), (.lredOr, fun a b => a ||| b), (.lredXor, fun a b => a ^^^ b)]

/-- A level of the reduction tree (R108), from the nodes of the level below, each with its lowest present lane, and the generators left
so far: in ascending order a node with two present children is their sum rounded under the mode, by a draw from the generator of its
lowest present lane under RS; one with an absent child is the other child. -/
def sumLevel (mode : Nat) (p : List (Option (Nat × Nat)) × Lanes) : List (Option (Nat × Nat)) × Lanes :=
  (List.range (p.1.length / 2)).foldl (fun (a : List (Option (Nat × Nat)) × Lanes) (i : Nat) =>
    match p.1.getD (2 * i) none, p.1.getD (2 * i + 1) none with
    | some (l, x), some (_, y) =>
      (a.1 ++ [some (l, Num.fadd Num.f32 mode (if mode = 4 then drawAt a.2 l 0 else 0) x y)], if mode = 4 then rngAfter a.2 [l] 1 else a.2)
    | some u, none => (a.1 ++ [some u], a.2)
    | none, v => (a.1 ++ [v], a.2)) ([], p.2)

/-- The sum over the lane positions, absent where the lane does not participate, and the generators it leaves (R108). -/
def sumTree (mode : Nat) (g : Lanes) (lanes : List Nat) (x : Nat → Nat) : Nat × Lanes :=
  let r := sumLevel mode (sumLevel mode (sumLevel mode (sumLevel mode (sumLevel mode
    ((List.range 32).map (fun l => if l ∈ lanes then some (l, x l) else none), g)))))
  (match r.1 with | some u :: _ => u.2 | _ => 0, r.2)

end Sys2Proof.Machine

/-- R255: a shuffle gives each participating lane source a as it stood in the lane that b names, or in the own lane where that lane
is not of the gang, after 8 clocks. -/
def Obligations.ShuffleResults : Prop :=
  ∀ q ∈ shflRows, ∀ (o : VOp) (s : State), opLegal (q.1 o) s.me.regs = true →
    ∃ t, exec (q.1 o) s = .next t ∧ VFrame s t ∧ VCounted s t (s.vLanes o) ∧ t.cur.rng = s.cur.rng ∧
      VResult s t o 8 (s.vLanes o)
        (fun l => let m := shuffleFrom q.2 l (s.bLane o l)
          s.opA o (if m < 4 * s.me.nsl then m else l)) []

/-- R257, R108: a reduction completes and gives every participating lane the values of all of them combined, after 8 clocks: integer,
logic and float minimum or maximum in ascending lane order; the F32 sum by the five-level tree over the 32 lane positions, each node
rounded under the mode, with the draws of RS, and +0 for no lane. -/
def Sys2Proof.Machine.ReductionResults : Prop :=
  (∀ q ∈ lredRows, ∀ (o : VOp) (s : State), opLegal (q.1 o) s.me.regs = true →
    ∃ t, exec (q.1 o) s = .next t ∧ VFrame s t ∧ VCounted s t (s.vLanes o) ∧ t.cur.rng = s.cur.rng ∧
      VResult s t o 8 (s.vLanes o)
        (fun _ => match (s.vLanes o).map (s.opA o) with | [] => 0 | x :: xs => xs.foldl q.2 x) []) ∧
  (∀ (o : VOp) (s : State), opLegal (.lredAddF32 o) s.me.regs = true →
    ∃ t, exec (.lredAddF32 o) s = .next t ∧ VFrame s t ∧ VCounted s t (s.vLanes o) ∧
      let x := sumTree o.mode s.me.rng (s.vLanes o) (s.aLane o)
      VResult s t o 8 (s.vLanes o) (fun _ => BitVec.ofNat 32 x.1) [] ∧ t.cur.rng = if o.mode = 4 then some x.2 else s.cur.rng)

/-- R256, R258: VOTE.ALL and VOTE.ANY give every participating lane whether the predicate holds in all or in some of them, VOTE.BAL
the mask of the lanes where it holds; MOVS reads source a in the lane b names, 0 where the gang has no such lane, into a scalar
register; all after 8 clocks. -/
def Sys2Proof.Machine.VoteResults : Prop :=
  ∀ (o : VOp) (s : State),
    let holds (l : Nat) : Bool := s.predLane (o.a.toNat % 8) l
    (opLegal (.voteAll o) s.me.regs = true → ∃ t, exec (.voteAll o) s = .next t ∧ VFrame s t ∧ VCounted s t (s.vLanes o) ∧
      PResult s t o 8 (s.vLanes o) (fun _ => (s.vLanes o).all holds)) ∧
    (opLegal (.voteAny o) s.me.regs = true → ∃ t, exec (.voteAny o) s = .next t ∧ VFrame s t ∧ VCounted s t (s.vLanes o) ∧
      PResult s t o 8 (s.vLanes o) (fun _ => (s.vLanes o).any holds)) ∧
    (opLegal (.voteBal o) s.me.regs = true → ∃ t, exec (.voteBal o) s = .next t ∧ VFrame s t ∧ VCounted s t (s.vLanes o) ∧
      ∃ x : W32, VResult s t o 8 (s.vLanes o) (fun _ => x) [] ∧
        ∀ l, l < 32 → x.getLsbD l = ((s.vLanes o).contains l && holds l)) ∧
    (opLegal (.movs o) s.me.regs = true → ∃ t, exec (.movs o) s = .next t ∧ VFrame s t ∧ VCounted s t (s.vLanes o) ∧
      let n := s.bScalar o % 32
      SResult s t o 8 (if n < 4 * s.me.nsl then (s.opA o n).setWidth 64 else 0))

/-- Reductions, votes and MOVS (from R108, R256 to R258). -/
def Obligations.ReductionVoteResults : Prop := ReductionResults ∧ VoteResults

/-- R206: opcode 0 is the no-operation of every slot, whatever the word's other fields; a bundle of 128 zero bits is four of them with
gap 0; and a no-operation changes nothing. -/
def Obligations.NopChangesNothing : Prop :=
  (∀ (k : NopSlot) (s : State), exec (.nopSlot k) s = .next s ∧ exec .nopX32 s = .next s) ∧
    (∀ w, w < 2 ^ 28 → decodeV36 w = .ok (.nopSlot .v36)) ∧ (∀ w, w < 2 ^ 68 → decodeV76 w = .ok (.nopSlot .v76)) ∧
    (∀ w, w < 2 ^ 34 → decodeM40 w = .ok (.nopSlot .m40)) ∧ (∀ w, w < 2 ^ 26 → decodeX32 w = .ok .nopX32) ∧
    (∀ w, w < 2 ^ 64 → decodeX72 w = .ok (.nopSlot .x72)) ∧ (∀ w, w < 2 ^ 8 → decodeC12 w = .ok (.nopSlot .c12)) ∧
    (∀ w, w < 2 ^ 36 → decodeC44 w = .ok (.nopSlot .c44)) ∧
    decodeBundle 0#128 = .ok ⟨0, [(.v, .op (.nopSlot .v36)), (.m, .op (.nopSlot .m40)), (.x, .op .nopX32), (.c, .op (.nopSlot .c12))]⟩

/-- R260: CHPOP of a chute that the crew holds and whose next unit is available takes exactly one unit of 128 bytes, whose words go
to the participating lanes after 8 clocks; an entry leaves with its last unit; a poisoned word is undefined. -/
def Sys2Proof.Machine.ChpopResult : Prop :=
  ∀ (o : VOp) (s : State) (e : ChuteEntry) (es : List ChuteEntry) (u : List Byte) (us : List (List Byte)),
    let n := o.a.toNat % 8
    opLegal (.chpop o) s.me.regs = true → (s.chute n).holder = some s.me.cslot →
    (s.chute n).entries = e :: es → e.ready = true → e.units = u :: us →
    ∃ t, exec (.chpop o) s = .next t ∧ VCounted s t (s.vLanes o) ∧ (∀ a, Mem.read t.mem a = Mem.read s.mem a) ∧
      t = { s with cores := t.cores, counts := t.counts, cur := t.cur, free := t.free } ∧
      t.me = { s.me with pend := t.me.pend, marks := t.me.marks } ∧ t.cur = { s.cur with latch := t.cur.latch } ∧
      (∀ c, t.core c = { s.core c with gangs := (t.core c).gangs, crews := (t.core c).crews, chutes := (t.core c).chutes }) ∧
      (∀ c g, c ≠ s.cur.core ∨ g ≠ s.cur.slot → t.gang? c g = s.gang? c g) ∧ (∀ c k, t.crew c k = { s.crew c k with pmc := (t.crew c k).pmc }) ∧
      (∀ c, c ≠ s.cur.core → t.core c = s.core c) ∧ (∀ m, m ≠ n → t.chute m = s.chute m) ∧
      (let left := if us = [] then es else { e with units := us, bad := e.bad.tail, first := e.first + 1 } :: es
       t.chute n = { s.chute n with entries := left, holder := if left = [] ∧ (s.chute n).drains = 0 then none else some s.me.cslot }) ∧
      ∃ x : Nat → W32, VResult s t o 8 (s.vLanes o) x [] ∧
        ∀ l, l < 32 → (e.bad.headD []).any (fun b => b / 4 == l) = false →
          x l = BitVec.ofNat 32 (ofBytesLE ((u.drop (4 * l)).take 4))

/-! ### The M slot (R261 to R295) -/

namespace Sys2Proof.Machine

/-- What issuing a memory, engine or join operation leaves as it is: every byte of memory, every register, every other gang, every
crew but its counters; of the issuing gang only flags, pending destinations and the queues of its accesses change, and of the
machine's other state only the requests. -/
structure QFrame (s t : State) : Prop where
  mem : ∀ a, Mem.read t.mem a = Mem.read s.mem a
  rest : t = { s with cores := t.cores, reqs := t.reqs, nextId := t.nextId, free := t.free }
  cores : ∀ c, t.core c = { s.core c with gangs := (t.core c).gangs, crews := (t.core c).crews, chutes := (t.core c).chutes }
  gangs : ∀ c g, c ≠ s.cur.core ∨ g ≠ s.cur.slot → t.gang? c g = s.gang? c g
  crews : ∀ c k, t.crew c k = { s.crew c k with pmc := (t.crew c k).pmc }
  gang : t.me = { s.me with flags := t.me.flags, marks := t.me.marks, loadQ := t.me.loadQ, storeQ := t.me.storeQ, barQ := t.me.barQ,
                            barS := t.me.barS, heldQ := t.me.heldQ, markQ := t.me.markQ }

/-- One more operation counts on a flag (R217), and no other flag changes. -/
def FlagCounts (s t : State) (f : Nat) : Prop :=
  t.me.flag f = { s.me.flag f with count := (s.me.flag f).count + 1 } ∧ ∀ n, n ≠ f → t.me.flag n = s.me.flag n

/-- The variable-latency destinations a request will write, in the lanes of a mask (R213): pending until its flag is observed, tainted
where a fixed-latency write is in flight. -/
def MarksDests (s t : State) (f : Nat) (ds : List Dest) (mask : BitVec 32 := BitVec.allOnes 32) : Prop :=
  t.me.marks = s.me.marks ++ ds.map (fun d => ⟨d, f, s.clock, s.me.pend.any (fun p => p.dest == d), 0, mask⟩)

/-- A counter of the issuing gang's crew rises by one, and no other (Table 19-8). -/
def Counts1 (s t : State) (n : Nat) : Prop :=
  ∀ m, mget 0 t.myCrew.pmc m = mget 0 s.myCrew.pmc m + (if m = n then 1 else 0)

/-- A request of an M-slot operation, as R262 to R266 have it captured at issue: its policy register's value, its destination, its
pieces and their paths; it waits for what its order names, for the reasons that order gives and towards the observers it concerns
(R113, R124). -/
def mRequest (s : State) (o : MOp) (opc : Nat) (k : ReqKind) (group z : Nat) (words : List W64) (lanes : List LaneAcc) : Req :=
  let r : Req := { kind := k, core := s.cur.core, slot := s.cur.slot, ctx := s.myCrew.ctx, flag := o.flag.toNat,
                   pol := s.me.mpreg o.pol.toNat, dest := o.data.toNat, group := group, opc := opc, z := z, lanes := lanes,
                   words := words, born := s.clock, paths0 := (lanes.map (fun p => p.path)).eraseDups }
  { r with deps := s.orderDeps s.me s.myCrew.ctx r,
           scopes := (s.orderDeps s.me s.myCrew.ctx r).map (s.depScope s.me r),
           why := (s.orderDeps s.me s.myCrew.ctx r).map (s.depWhy s.me s.myCrew.ctx r) }

/-- The request enters under the next number, joins the gang's queues (R112) and counts on its flag; an acquire, and a QPOP or QTRY,
whose record brings one (R134), hold back every later access. -/
def Enters (s t : State) (f : Nat) (r : Req) : Prop :=
  t.reqs = mset s.reqs s.nextId r ∧ t.nextId = s.nextId + 1 ∧ FlagCounts s t f ∧
    t.me.loadQ = s.me.loadQ ++ (if inLoadQ r.opc then [s.nextId] else []) ∧
    t.me.storeQ = s.me.storeQ ++ (if inStoreQ r.opc then [s.nextId] else []) ∧
    (let takes : Bool := r.opc == 0x34 || r.opc == 0x35
     let acq : Bool := (inLoadQ r.opc && r.pol.getLsbD 6) || takes
     t.me.barQ = s.me.barQ ++ (if acq then [s.nextId] else []) ∧
       t.me.barS = (if acq then mset s.me.barS s.nextId (if takes then 7 else r.scope) else s.me.barS)) ∧
    t.me.heldQ = s.me.heldQ ∧ t.me.markQ = s.me.markQ

/-- The instruction is legal and its flag has room. -/
def MReady (i : Instr) (o : MOp) (s : State) : Prop := opLegal i s.me.regs = true ∧ (s.me.flag o.flag.toNat).count < 63

/-- The state with the instruction counted on its crew (PMC3), which its address lookup reads. -/
def State.counted (s : State) : State := s.pmc 3 1

/-- The pieces of the participating lanes: `n` bytes at base + offset times scale (R264, R270). -/
def State.pieceList (s : State) (o : MOp) (lanes : List Nat) (n scale z : Nat) (wr : Bool) (data : Nat → Nat) (paths : List Nat) :
    List LaneAcc :=
  lanes.flatMap (fun l => s.counted.lanePieces s.cur.core s.me.cslot s.myCrew.ctx
    ((s.baseReg o + s.ofsLane o.ofs l * scale) % 2 ^ 64) n wr z l (data l) paths)

/-- A vector load or store: opcode, kind of request, bytes of a lane's element, scale of the offset. -/
structure MemRow where
  op : MOp → Instr
  opc : Nat
  kind : ReqKind
  bytes : Nat
  scale : Nat

/-- The vector loads (R267, R270). -/
def loadRows : List MemRow :=
  [⟨.ldB8, 0x01, .load, 1, 1⟩, ⟨.ldB8Sx, 0x02, .load, 1, 1⟩, ⟨.ldB16, 0x03, .load, 2, 1⟩, ⟨.ldB16Sx, 0x04, .load, 2, 1⟩,
   ⟨.ldB32, 0x05, .load, 4, 1⟩, ⟨.ldB64, 0x06, .load, 8, 1⟩, ⟨.ldB128, 0x07, .load, 16, 1⟩,
   ⟨.ldrawB8, 0x10, .rawLoad, 1, 1⟩, ⟨.ldrawB16, 0x11, .rawLoad, 2, 2⟩, ⟨.ldrawB32, 0x12, .rawLoad, 4, 4⟩,
   ⟨.ldrawB64, 0x13, .rawLoad, 8, 8⟩]

/-- The vector stores (R269, R270). -/
def storeRows : List MemRow :=
  [⟨.stB8, 0x0A, .store, 1, 1⟩, ⟨.stB16, 0x0B, .store, 2, 1⟩, ⟨.stB32, 0x0C, .store, 4, 1⟩, ⟨.stB64, 0x0D, .store, 8, 1⟩,
   ⟨.stB128, 0x0E, .store, 16, 1⟩,
   ⟨.strawB8, 0x14, .rawStore, 1, 1⟩, ⟨.strawB16, 0x15, .rawStore, 2, 2⟩, ⟨.strawB32, 0x16, .rawStore, 4, 4⟩,
   ⟨.strawB64, 0x17, .rawStore, 8, 8⟩]

/-- The atomics: with a result (R277), without one (R278). -/
def atomRows : List MemRow :=
  [⟨.atomN32, 0x20, .atom, 4, 1⟩, ⟨.atomS32, 0x21, .atom, 4, 1⟩, ⟨.atomN64, 0x22, .atom, 8, 1⟩, ⟨.atomF32, 0x23, .atom, 4, 1⟩]
def redmRows : List MemRow :=
  [⟨.redmN32, 0x24, .redm, 4, 1⟩, ⟨.redmS32, 0x25, .redm, 4, 1⟩, ⟨.redmN64, 0x26, .redm, 8, 1⟩, ⟨.redmF32, 0x27, .redm, 4, 1⟩]
def casRows : List MemRow := [⟨.atomcasB32, 0x28, .cas, 4, 1⟩, ⟨.atomcasB64, 0x29, .cas, 8, 1⟩]

/-- The address of a lane (R264). -/
def State.laneAt (s : State) (o : MOp) (l : Nat) : Nat := (s.baseReg o + s.ofsLane o.ofs l) % 2 ^ 64
/-- The lanes of ATOMCAS that act: the even ones (R279). -/
def State.evenLanes (s : State) (o : MOp) : List Nat := (s.mLanes o).filter (fun l => l % 2 == 0)

/-- The group of vector registers from DATA. -/
def destGroup (o : MOp) (g : Nat) : List Dest := (List.range g).map (fun i => .v (o.data.toNat + i))

/-- An operation enters one request: frame, count, request, pending destinations. -/
def MIssues (s : State) (i : Instr) (o : MOp) (r : Req) (ds : List Dest) (mask : BitVec 32 := BitVec.allOnes 32) : Prop :=
  ∃ t, exec i s = .next t ∧ QFrame s t ∧ t.free = s.free ∧ (∀ c, (t.core c).chutes = (s.core c).chutes) ∧ Counts1 s t 3 ∧
    Enters s t o.flag.toNat r ∧ MarksDests s t o.flag.toNat ds mask

/-- Both lanes of the ATOMCAS pairs whose even lane acts (R279). -/
def State.pairLanes (s : State) (o : MOp) : List Nat := (s.evenLanes o).flatMap (fun l => [l, l + 1])

end Sys2Proof.Machine

/-- R262 to R270: a vector load or store completes by entering one request with the pieces of its participating lanes, at base plus
(scaled) offset, ordered in the gang's queues and counted once on its flag; a load's register group is pending; no byte and no
register changes yet. An 8-byte store may go to a port (PATH 4). -/
def Sys2Proof.Machine.LoadStoreIssue : Prop :=
  (∀ q ∈ loadRows, ∀ (o : MOp) (s : State), MReady (q.op o) o s →
    MIssues s (q.op o) o (mRequest s o q.opc q.kind (mGroup q.opc) o.z.toNat []
        (s.pieceList o (s.mLanes o) q.bytes q.scale o.z.toNat false (fun _ => 0) [0, 1, 2, 3, 6])) (destGroup o (mGroup q.opc))
        (maskOf (s.mLanes o))) ∧
  (∀ q ∈ storeRows, ∀ (o : MOp) (s : State), MReady (q.op o) o s →
    MIssues s (q.op o) o (mRequest s o q.opc q.kind (mGroup q.opc) o.z.toNat []
        (s.pieceList o (s.mLanes o) q.bytes q.scale o.z.toNat true (s.dataLane o.data (mGroup q.opc))
          ((if q.bytes = 8 then [4] else []) ++ [0, 1, 2, 3, 6]))) [])

/-- R277 to R279: an atomic whose lanes are all aligned completes by entering one request: ATOM and ATOMCAS with their register group
pending; of ATOMCAS the even participating lanes act, each with the odd neighbour's data as the value compared. -/
def Obligations.AtomicIssue : Prop :=
  (∀ q ∈ atomRows, ∀ (o : MOp) (s : State), MReady (q.op o) o s → (∀ l ∈ s.mLanes o, s.laneAt o l % q.bytes = 0) →
    MIssues s (q.op o) o (mRequest s o q.opc q.kind (mGroup q.opc) o.z.toNat []
        (s.pieceList o (s.mLanes o) q.bytes 1 0 true (s.dataLane o.data (mGroup q.opc)) [0, 1, 2, 3, 6])) (destGroup o (mGroup q.opc))
        (maskOf (s.mLanes o))) ∧
  (∀ q ∈ redmRows, ∀ (o : MOp) (s : State), MReady (q.op o) o s → (∀ l ∈ s.mLanes o, s.laneAt o l % q.bytes = 0) →
    MIssues s (q.op o) o (mRequest s o q.opc q.kind (mGroup q.opc) o.z.toNat []
        (s.pieceList o (s.mLanes o) q.bytes 1 0 true (s.dataLane o.data (mGroup q.opc)) [0, 1, 2, 3, 6])) []) ∧
  (∀ q ∈ casRows, ∀ (o : MOp) (s : State), MReady (q.op o) o s → (∀ l ∈ s.evenLanes o, s.laneAt o l % q.bytes = 0) →
    MIssues s (q.op o) o (mRequest s o q.opc q.kind (mGroup q.opc) o.z.toNat []
        ((s.pieceList o (s.evenLanes o) q.bytes 1 0 true (s.dataLane o.data (mGroup q.opc)) [0, 1, 2, 3, 6]).map
          (fun p => { p with cmp := s.dataLane o.data (mGroup q.opc) (p.lane + 1) }))) (destGroup o (mGroup q.opc)) (maskOf (s.pairLanes o)))

namespace Sys2Proof.Machine

/-- A descriptor as LDX and STX read it: words EXTENT, strides and control, with BASE (Table 9-2). -/
def State.dWidth (s : State) (n : Nat) : Nat := 2 ^ (s.descWord n 3 / 2 ^ 59 % 4)
def State.dMode (s : State) (n : Nat) : Nat := s.descWord n 3 / 2 ^ 61
def State.dCount (s : State) (n : Nat) : Nat := s.descWord n 3 % 2 ^ 32
def State.dReserved (s : State) (n : Nat) : Nat := s.descWord n 3 / 2 ^ 32 % 2 ^ 26
/-- The element index of an offset: X its low 16 bits, clamped to COUNT - 1 in mode 2, Y the next 16. -/
def State.dX (s : State) (n off : Nat) : Nat :=
  if s.dMode n = 2 ∧ 0 < s.dCount n then min (off % 65536) (s.dCount n - 1) else off % 65536
/-- Its signed distance from BASE. -/
def State.dDist (s : State) (n off : Nat) : Int :=
  (s.dX n off : Int) * Sys2Proof.sextInt (s.descWord n 2 % 2 ^ 32) 32 + ((off / 65536 % 65536 : Nat) : Int) * Sys2Proof.sextInt (s.descWord n 2 / 2 ^ 32) 32
/-- Whether the element lies in bounds (R273). -/
def State.dInside (s : State) (n off : Nat) : Prop :=
  s.dX n off < s.dCount n ∧ 0 ≤ s.dDist n off ∧ s.dDist n off + (s.dWidth n : Int) ≤ (s.descWord n 1 : Int)

/-- The descriptor is one that an LDX or STX with this data register may use. -/
def State.dUsable (s : State) (o : MOp) : Prop :=
  let n := o.base.toNat
  s.dMode n < 4 ∧ s.dReserved n = 0 ∧
    (s.dWidth n = 8 → selS o.data = true ∨ (selV o.data = true ∧ o.data.toNat % 2 = 0 ∧ o.data.toNat + 1 < s.me.regs)) ∧
    (s.dMode n = 3 → ∀ l ∈ s.mLanes o, s.dInside n (s.ofsLane o.ofs l))

end Sys2Proof.Machine

/-- R268, R272: a scalar load enters a request of 4 or 8 bytes at one address with its scalar register pending; LDC of an address
that is a multiple of 32 one of 32 bytes with its descriptor pending. -/
def Sys2Proof.Machine.ScalarLoadIssue : Prop :=
  (∀ (wide : Bool) (o : MOp) (s : State), let i : Instr := if wide then .ldB64S o else .ldB32S o
    MReady i o s →
    MIssues s i o (mRequest s o (if wide then 0x09 else 0x08) .loadS (mGroup (if wide then 0x09 else 0x08)) o.z.toNat []
        (s.counted.lanePieces s.cur.core s.me.cslot s.myCrew.ctx ((s.baseReg o + s.ofsScalar o.ofs) % 2 ^ 64)
          (if wide then 8 else 4) false o.z.toNat 0 0 [0, 1, 2, 3, 6])) [.s (o.data.toNat - 0x80)]) ∧
  (∀ (o : MOp) (s : State), MReady (.ldc o) o s → (s.baseReg o + s.ofsScalar o.ofs) % 32 = 0 →
    MIssues s (.ldc o) o (mRequest s o 0x1A .ldc (mGroup 0x1A) o.z.toNat []
        (s.counted.lanePieces s.cur.core s.me.cslot s.myCrew.ctx ((s.baseReg o + s.ofsScalar o.ofs) % 2 ^ 64) 32 false 0 0 0
          [0, 1, 2, 3, 6])) [.d o.data.toNat])

/-- Vector loads and stores, scalar loads and LDC at issue (from R262 to R270, R272). -/
def Obligations.LoadAndStoreIssue : Prop := LoadStoreIssue ∧ ScalarLoadIssue

/-- R273: LDX and STX with a usable descriptor enter a request, of LDX with the element's width and sign extension, whose lane accesses the element at BASE plus its distance where it is
in bounds or the mode is 0, and no memory at all out of bounds in modes 1 and 2; LDX writes one register, or two for 8 bytes. -/
def Obligations.DescriptorIssue : Prop :=
  ∀ (st : Bool) (o : MOp) (s : State), let i : Instr := if st then .stx o else .ldx o
    MReady i o s → s.dUsable o →
    let n := o.base.toNat
    let g := if s.dWidth n = 8 then 2 else 1
    ∃ (t : State) (ls : List LaneAcc), exec i s = .next t ∧ QFrame s t ∧ (∀ c, (t.core c).chutes = (s.core c).chutes) ∧ Counts1 s t 3 ∧
      Enters s t o.flag.toNat (if st then mRequest s o 0x19 .stx (mGroup 0x19) o.z.toNat [] ls
        else mRequest s o 0x18 .ldx g ((if (s.descWord n 3).testBit 58 then 8 else 0) + s.descWord n 3 / 2 ^ 59 % 4) [] ls) ∧
      (st = false → MarksDests s t o.flag.toNat (destGroup o g) (maskOf (s.mLanes o))) ∧ (st = true → t.me.marks = s.me.marks) ∧
      (∀ l ∈ s.mLanes o, (s.dInside n (s.ofsLane o.ofs l) ∨ s.dMode n = 0) →
        ls.filter (fun p => p.lane == l) =
          s.counted.lanePieces s.cur.core s.me.cslot s.myCrew.ctx
            (((s.descWord n 0 : Int) + s.dDist n (s.ofsLane o.ofs l)) % 2 ^ 64).toNat (s.dWidth n) st o.z.toNat l
            (if st then s.dataLane o.data g l else 0) [0, 1, 2, 3, 6]) ∧
      (∀ l ∈ s.mLanes o, ¬ s.dInside n (s.ofsLane o.ofs l) → s.dMode n ≠ 0 →
        ∀ p ∈ ls, p.lane = l → p.stage = 2 ∧ p.path = 9) ∧
      ∀ p ∈ ls, p.lane ∈ s.mLanes o

namespace Sys2Proof.Machine

/-- The crew whose tiles ACCST and ACCLD with PEER clear reach: the own one, or the one a supervisor has selected (R411). -/
def State.tileOwner (s : State) (o : MOp) : Nat :=
  if (s.baseReg o).testBit 15 then s.me.cslot else s.ownSlot s.cur.core s.me.cslot
/-- The accumulator element a lane names: element OFS of tile BASE[10:0] (R280). -/
def State.tileElem (s : State) (o : MOp) (l : Nat) : Nat := s.baseReg o % 2048 * 256 + s.ofsLane o.ofs l % 2 ^ 32
/-- Every participating lane's tile is inside the allocation. -/
def State.tilesInside (s : State) (o : MOp) : Prop :=
  ∀ l ∈ s.mLanes o, s.tileElem o l / 256 < (s.crew s.cur.core (s.tileOwner o)).tiles
/-- The piece of an accumulator access in a lane; a stand position with no crew is cause 0x07 (R281). -/
def State.tilePiece (s : State) (o : MOp) (data : Nat → Nat) (l : Nat) : LaneAcc :=
  let tgt := if (s.baseReg o).testBit 15 then s.counted.standPeer s.cur.core s.me.cslot (s.baseReg o / 4096 % 8)
    else some (s.cur.core, s.tileOwner o)
  match tgt with
  | none => { lane := l, path := 8, size := 4, stage := 4, cause := 0x07 }
  | some (c, k) => { lane := l, path := 8, core := c, cslot := k, stand := (s.counted.crew c k).stand, size := 4,
                     data := data l % 2 ^ 32, stage := 1, pa := s.tileElem o l }

/-- The address of an STG lane: bits [53:0] of BASE plus the offset (R290). -/
def State.groupAddr (s : State) (o : MOp) (l : Nat) : Nat := (s.baseReg o % 2 ^ 54 + s.ofsLane o.ofs l) % 2 ^ 64
/-- The group an STG names: bits [63:54] of BASE. -/
def State.groupNamed (s : State) (o : MOp) : Nat := s.baseReg o / 2 ^ 54 % 1024

/-- The address of a uniform operation (R264). -/
def State.oneAt (s : State) (o : MOp) : Nat := (s.baseReg o + s.ofsScalar o.ofs) % 2 ^ 64
/-- The path code of an address: of its window, whatever that window's rights and aperture; with split paths VA[56:54] (R17, R50).
An address without a window counts as path 0. -/
def State.pathAt (s : State) (a : Nat) : Nat :=
  if s.split s.myCrew.ctx then a % 2 ^ 57 / 2 ^ 54
  else match s.window s.cur.core s.myCrew.ctx (a % 2 ^ 57 / 4096) with
    | some n => s.ctxWord s.cur.core s.myCrew.ctx (2 * n) / 2 ^ 60 % 8
    | none => 0

/-- The piece that LBLK, BLKWB and BLKDROP act on: none on a path other than PATH 0 or without a window, a piece failed at issue for
a non-canonical address or a right that the window refuses, else the block (R61, R63, R147, R274, R275). -/
def State.stashPiece (s : State) (o : MOp) : List LaneAcc :=
  let v := s.look s.cur.core s.myCrew.ctx (s.oneAt o) false
  if canonical (s.oneAt o) = true ∧ (s.pathAt (s.oneAt o) ≠ 0 ∨ v.cause = 0x01) then []
  else if v.cause ≠ 0 then [{ lane := 0, ia := v.ia, stage := 4, cause := v.cause }]
  else [{ lane := 0, ia := v.ia, size := 128, stage := 1 }]

/-- The piece of a port or queue operation at a PATH 4 address; QPOP and QTRY reach only the own device (R284, R287). -/
def State.queuePiece (s : State) (o : MOp) (wr home : Bool) : List LaneAcc :=
  let v := s.look s.cur.core s.myCrew.ctx (s.oneAt o) wr
  if v.cause ≠ 0 then [{ lane := 0, ia := v.ia, path := v.path, stage := 4, cause := v.cause }]
  else if v.path = 4 ∧ v.ofs < 2 ^ 32 ∧ (home = true → v.peer = 0) then
    [{ lane := 0, ia := v.ia, path := 4, peer := v.peer, size := 8, stage := 1, pa := v.ofs }]
  else [{ lane := 0, ia := v.ia, path := v.path, stage := 4, cause := 0x02 }]

/-- The scalar registers of a record. -/
def recordRegs (n : Nat) : List Dest := (List.range 8).map (fun i => .s (n + i))

/-- Every access of the gang in progress. -/
def Gang.inProgress (g : Gang) : List Nat := (g.loadQ ++ g.storeQ).eraseDups

end Sys2Proof.Machine

/-- R280, R281: ACCST and ACCLD of tiles inside the allocation complete by entering one request for the lanes' elements; ACCLD reads
only the own tiles and has its register pending. -/
def Sys2Proof.Machine.AccumulatorIssue : Prop :=
  (∀ (ow : Bool) (o : MOp) (s : State), let i : Instr := if ow then .accstOvw o else .accstAdd o
    MReady i o s → s.tilesInside o →
    MIssues s i o (mRequest s o (if ow then 0x2D else 0x2C) .accst 1 o.z.toNat []
      ((s.mLanes o).map (s.tilePiece o (s.dataLane o.data 1)))) []) ∧
  (∀ (o : MOp) (s : State), MReady (.accld o) o s → s.tilesInside o → (s.baseReg o).testBit 15 = false →
    MIssues s (.accld o) o (mRequest s o 0x2E .accld 1 o.z.toNat [] ((s.mLanes o).map (s.tilePiece o (fun _ => 0))))
      (destGroup o 1) (maskOf (s.mLanes o)))

/-- R282: STCH takes exactly one unit from a chute its crew holds and enters one request that stores the unit's words from the
participating lanes; an entry leaves with its last unit, and an empty chute with no drain pending is released. -/
def Sys2Proof.Machine.ChuteStoreIssue : Prop :=
  ∀ (o : MOp) (s : State) (e : ChuteEntry) (es : List ChuteEntry) (u : List Byte) (us : List (List Byte)),
    let n := o.data.toNat % 8
    MReady (.stch o) o s → (s.chute n).holder = some s.me.cslot →
    (s.chute n).entries = e :: es → e.ready = true → e.units = u :: us →
    let bad := e.bad.headD []
    let left := if us = [] then es else { e with units := us, bad := e.bad.tail, first := e.first + 1 } :: es
    ∃ t, exec (.stch o) s = .next t ∧ QFrame s t ∧ t.free = s.free ∧ Counts1 s t 3 ∧
      t.chute n = { s.chute n with entries := left, holder := if left = [] ∧ (s.chute n).drains = 0 then none else some s.me.cslot } ∧
      (∀ c m, c ≠ s.cur.core ∨ m ≠ n → mget {} (t.core c).chutes m = mget {} (s.core c).chutes m) ∧
      Enters s t o.flag.toNat (mRequest s o 0x2F .stch 1 o.z.toNat []
        ((s.pieceList o (s.mLanes o) 4 1 o.z.toNat true (fun l => ofBytesLE ((u.drop (4 * l)).take 4)) [0, 1, 2, 3, 6]).map
          (fun p => { p with undef := bad.any (fun b => b / 4 == p.lane) }))) ∧
      t.me.marks = s.me.marks

/-- A chute operation takes exactly one unit: CHPOP into registers, STCH as a store (from R260, R282). -/
def Obligations.ChuteResults : Prop := ChpopResult ∧ ChuteStoreIssue

/-- R290, R291: STG of an open group with aligned lanes completes by entering one request: a lane whose 54-bit address is valid and
whose window is PATH 5 goes to the aperture's device with its data; with split paths the address names its aperture itself (R50); on
a group already failed nothing is sent. -/
def Sys2Proof.Machine.GroupStoreIssue : Prop :=
  ∀ (wide : Bool) (o : MOp) (s : State), let i : Instr := if wide then .stgB64 o else .stgB32 o
    let w := if wide then 8 else 4
    MReady i o s → s.groupCopy s.cur.core s.myCrew.ctx (s.groupNamed o) = 1 →
    (∀ l ∈ s.mLanes o, s.groupAddr o l % w = 0) →
    let x := mget {} s.groups (1024 * s.myCrew.ctx + s.groupNamed o)
    ∃ ls : List LaneAcc,
      MIssues s i o (mRequest s o (if wide then 0x37 else 0x36) .stg (if wide then 2 else 1) (s.groupNamed o) [] ls) [] ∧
      (x.opened = true → x.failed = true → ls = []) ∧
      (x.opened = false ∨ x.failed = false →
        ls.map (·.lane) = s.mLanes o ∧
        ∀ p ∈ ls,
          (2 ^ 54 ≤ s.groupAddr o p.lane % 2 ^ 57 ∨ canonical (s.groupAddr o p.lane) = false → p.stage = 4 ∧ p.cause = 0x06) ∧
          (s.groupAddr o p.lane < 2 ^ 54 → s.split s.myCrew.ctx = false →
            let v := s.look s.cur.core s.myCrew.ctx (s.groupAddr o p.lane) true
            (v.cause ≠ 0 → p.stage = 4 ∧ p.cause = v.cause) ∧
            (v.cause = 0 → v.path ≠ 5 → p.stage = 4 ∧ p.cause = 0x02) ∧
            (v.cause = 0 → v.path = 5 → p.stage = 1 ∧ p.ia = v.ia ∧ p.peer = v.peer ∧
              p.data = s.dataLane o.data (if wide then 2 else 1) p.lane % 256 ^ w)) ∧
          (s.groupAddr o p.lane < 2 ^ 54 → s.split s.myCrew.ctx = true →
            let a := s.groupAddr o p.lane
            let n := a / 2 ^ 48
            let word : W64 := BitVec.ofNat 64 (s.ctxWord s.cur.core s.myCrew.ctx (64 + n))
            (n ≠ 0 → word.getLsbD 63 = false → p.stage = 4 ∧ p.cause = 0x05) ∧
            ((n = 0 ∨ word.getLsbD 63 = true) → p.stage = 1 ∧ p.peer = (if n = 0 then 0 else word) ∧
              p.ia = BitVec.ofNat 64 ((if n = 0 then 74 else n) * 2 ^ 57 + a % 2 ^ 48) ∧
              p.data = s.dataLane o.data (if wide then 2 else 1) p.lane % 256 ^ w)))

/-- Accumulator accesses and STG at issue (from R280, R281, R290, R291). -/
def Obligations.TileAndGroupStoreIssue : Prop := AccumulatorIssue ∧ GroupStoreIssue

/-- R274 to R276: LBLK, BLKWB and BLKDROP complete by entering one request with the piece they act on: the block on PATH 0, a piece in
error where the address is not canonical or its PATH 0 window gives no right, none elsewhere; PREF enters one with the lanes whose
lookup succeeds on PATH 0 or PATH 6, and drops the others. The rights LBLK, BLKWB and BLKDROP need, and that PREF starts no fill, are
the model's reading (log entry 13). -/
def Sys2Proof.Machine.StashControlIssue : Prop :=
  (∀ q ∈ [(Instr.lblk, 0x1C, ReqKind.lblk), (.blkwb, 0x1D, .blkwb), (.blkdrop, 0x1E, .blkdrop)], ∀ (o : MOp) (s : State),
    MReady (q.1 o) o s → MIssues s (q.1 o) o (mRequest s o q.2.1 q.2.2 1 o.z.toNat [] (s.stashPiece o)) []) ∧
  (∀ (o : MOp) (s : State), MReady (.pref o) o s →
    ∃ ls : List LaneAcc, MIssues s (.pref o) o (mRequest s o 0x1F .pref 1 o.z.toNat [] ls) [] ∧
      ls.map (·.lane) = (s.mLanes o).filter (fun l =>
        let v := s.look s.cur.core s.myCrew.ctx ((s.baseReg o + s.ofsLane o.ofs l) % 2 ^ 64) false
        v.cause == 0 && (v.path == 0 || v.path == 6)) ∧
      ∀ p ∈ ls, p.ia = (s.look s.cur.core s.myCrew.ctx ((s.baseReg o + s.ofsLane o.ofs p.lane) % 2 ^ 64) false).ia ∧ p.cause = 0)

/-- R115, R116, R128, R129: MARK and FENCE complete by entering a request without accesses that waits for every access of the gang in
progress, FENCE for the writes known through barriers too (R133); a FENCE adds them to what every later access waits for, within the
fence's scope at least, a MARK notes them for the accesses after it. Which later accesses a MARK makes wait is settled by the model
(log entry 12). -/
def Sys2Proof.Machine.MarkFenceIssue : Prop :=
  ∀ (fence : Bool) (o : MOp) (s : State), let i : Instr := if fence then .fence o else .mark o
    MReady i o s →
    ∃ t r, exec i s = .next t ∧ QFrame s t ∧ t.free = s.free ∧ (∀ c, (t.core c).chutes = (s.core c).chutes) ∧ Counts1 s t 3 ∧
      t.reqs = mset s.reqs s.nextId r ∧ t.nextId = s.nextId + 1 ∧ FlagCounts s t o.flag.toNat ∧
      r.kind = (if fence then .fence else .mark) ∧ r.core = s.cur.core ∧ r.slot = s.cur.slot ∧ r.flag = o.flag.toNat ∧
      r.lanes = [] ∧ r.born = s.clock ∧
      r.deps = (if fence then (s.me.loadQ ++ s.me.storeQ ++ s.me.barQ).eraseDups else s.me.inProgress) ∧
      t.me.loadQ = s.me.loadQ ∧ t.me.storeQ = s.me.storeQ ∧ t.me.marks = s.me.marks ∧
      (fence = true → (∀ id, id ∈ t.me.barQ ↔ id ∈ s.me.barQ ∨ id ∈ s.me.inProgress) ∧ t.me.markQ = s.me.markQ ∧
        (∀ id, id ∈ t.me.heldQ ↔ id ∈ s.me.heldQ ∨ id ∈ s.me.inProgress ∨ id ∈ s.me.barQ) ∧
        ∀ id ∈ t.me.barQ, max 1 o.z.toNat ≤ mget 7 t.me.barS id) ∧
      (fence = false → t.me.barQ = s.me.barQ ∧ t.me.barS = s.me.barS ∧ t.me.heldQ = s.me.heldQ ∧
        t.me.markQ = s.me.markQ ++ (if s.me.inProgress = [] then [] else [(s.nextId, s.me.inProgress)]))

/-- The stash controls, MARK and FENCE at issue (from R115, R116, R128, R129, R274 to R276). -/
def Obligations.StashAndOrderIssue : Prop := StashControlIssue ∧ MarkFenceIssue

/-- R284 to R287: SEND carries one scalar register and QPUSH eight to the port or queue its PATH 4 address names; QPOP and QTRY ask a
queue of the own device for a record with its eight registers pending, QTRY with its predicate too. -/
def Sys2Proof.Machine.QueueIssue : Prop :=
  (∀ (o : MOp) (s : State), MReady (.send o) o s →
    MIssues s (.send o) o (mRequest s o 0x32 .send 1 o.z.toNat [s.sregNow (o.data.toNat - 0x80) 10] (s.queuePiece o true false)) []) ∧
  (∀ (o : MOp) (s : State), MReady (.qpush o) o s →
    MIssues s (.qpush o) o (mRequest s o 0x33 .qpush 1 o.z.toNat
      ((List.range 8).map (fun i => s.sregNow (o.data.toNat - 0x80 + i) (10 + i))) (s.queuePiece o true false)) []) ∧
  (∀ (o : MOp) (s : State), MReady (.qpop o) o s →
    MIssues s (.qpop o) o (mRequest s o 0x34 .qpop 1 o.z.toNat [] (s.queuePiece o false true)) (recordRegs (o.data.toNat - 0x80))) ∧
  (∀ (o : MOp) (s : State), MReady (.qtry o) o s →
    MIssues s (.qtry o) o (mRequest s o 0x35 .qtry 1 o.z.toNat [] (s.queuePiece o false true))
      (recordRegs (o.data.toNat % 32) ++ [.p (o.data.toNat / 32)]))

namespace Sys2Proof.Machine
/-- The M-slot operations (Table 9-5). -/
def mOps : List (MOp → Instr) :=
  (loadRows ++ storeRows ++ atomRows ++ redmRows ++ casRows).map (·.op) ++
    [.ldB32S, .ldB64S, .ldx, .stx, .ldc, .lblk, .blkwb, .blkdrop, .pref, .accstAdd, .accstOvw, .accld, .stch, .mark, .fence, .send,
     .qpush, .qpop, .qtry, .stgB32, .stgB64]
/-- Where an acting lane's address is no multiple of the width, the bundle traps with 0x63, the lanes in INFO (R265). -/
def MisalignedTraps (s : State) (i : Instr) (o : MOp) (lanes : List Nat) (w : Nat) : Prop :=
  (∃ l ∈ lanes, s.laneAt o l % w ≠ 0) →
    ∃ m : BitVec 32, exec i s = .next (s.takeTrap { tcause := 0x63, slot := 1, info := m.toNat }) ∧
      ∀ l, l < 32 → m.getLsbD l = (lanes.contains l && decide (s.laneAt o l % w ≠ 0))
end Sys2Proof.Machine

/-- R217, R265, R266, R273, R281: an M-slot operation that is not legal traps with 0x61, one whose flag is at 63 with 0x64; after these a
misaligned acting lane of an atomic, and a misaligned LDC, with 0x63, a tile beyond the allocation with 0x61, an LDX or STX of a
reserved descriptor, or of 8 bytes with neither a scalar register nor an even pair of registers for them, with 0x61, one of an
element out of bounds in mode 3 with 0x6A, and an STG of a group not open with 0x61, of a misaligned lane with 0x63; INFO holds the
lanes. The bundle takes the trap and nothing else. Which of several conditions of class 4 comes first is the model's reading (log entry
23). -/
def Sys2Proof.Machine.MemoryTraps : Prop :=
  (∀ q ∈ mOps, ∀ (o : MOp) (s : State),
    (opLegal (q o) s.me.regs = false → exec (q o) s = .next (s.takeTrap { tcause := 0x61, slot := 1 })) ∧
    (opLegal (q o) s.me.regs = true → 63 ≤ (s.me.flag o.flag.toNat).count →
      exec (q o) s = .next (s.takeTrap { tcause := 0x64, slot := 1 }))) ∧
  (∀ q ∈ atomRows ++ redmRows, ∀ (o : MOp) (s : State), MReady (q.op o) o s → MisalignedTraps s (q.op o) o (s.mLanes o) q.bytes) ∧
  (∀ q ∈ casRows, ∀ (o : MOp) (s : State), MReady (q.op o) o s → MisalignedTraps s (q.op o) o (s.evenLanes o) q.bytes) ∧
  (∀ (o : MOp) (s : State), MReady (.ldc o) o s → s.oneAt o % 32 ≠ 0 → exec (.ldc o) s = .next (s.takeTrap { tcause := 0x63, slot := 1 })) ∧
  (∀ (ld ow : Bool) (o : MOp) (s : State),
    let i : Instr := if ld then .accld o else if ow then .accstOvw o else .accstAdd o
    MReady i o s → (¬ s.tilesInside o ∨ (ld = true ∧ (s.baseReg o).testBit 15 = true)) →
    exec i s = .next (s.takeTrap { tcause := 0x61, slot := 1 })) ∧
  (∀ (st : Bool) (o : MOp) (s : State), let i : Instr := if st then .stx o else .ldx o
    MReady i o s → (4 ≤ s.dMode o.base.toNat ∨ s.dReserved o.base.toNat ≠ 0 ∨
      (s.dWidth o.base.toNat = 8 ∧ selS o.data = false ∧
        ¬ (selV o.data = true ∧ o.data.toNat % 2 = 0 ∧ o.data.toNat + 1 < s.me.regs))) →
    exec i s = .next (s.takeTrap { tcause := 0x61, slot := 1 })) ∧
  (∀ (st : Bool) (o : MOp) (s : State), let i : Instr := if st then .stx o else .ldx o
    MReady i o s → s.dMode o.base.toNat = 3 → s.dReserved o.base.toNat = 0 →
    (s.dWidth o.base.toNat = 8 → selS o.data = true ∨ (selV o.data = true ∧ o.data.toNat % 2 = 0 ∧ o.data.toNat + 1 < s.me.regs)) →
    ¬ s.dUsable o →
    ∃ m : BitVec 32, exec i s = .next (s.takeTrap { tcause := 0x6A, slot := 1, info := m.toNat }) ∧
      ∀ l, l < 32 → (m.getLsbD l = true ↔ l ∈ s.mLanes o ∧ ¬ s.dInside o.base.toNat (s.ofsLane o.ofs l))) ∧
  (∀ (wide : Bool) (o : MOp) (s : State), let i : Instr := if wide then .stgB64 o else .stgB32 o
    let w := if wide then 8 else 4
    MReady i o s →
    (s.groupCopy s.cur.core s.myCrew.ctx (s.groupNamed o) ≠ 1 → exec i s = .next (s.takeTrap { tcause := 0x61, slot := 1 })) ∧
    (s.groupCopy s.cur.core s.myCrew.ctx (s.groupNamed o) = 1 → (∃ l ∈ s.mLanes o, s.groupAddr o l % w ≠ 0) →
      ∃ m : BitVec 32, exec i s = .next (s.takeTrap { tcause := 0x63, slot := 1, info := m.toNat }) ∧
        ∀ l, l < 32 → (m.getLsbD l = true ↔ l ∈ s.mLanes o ∧ s.groupAddr o l % w ≠ 0)))

/-! ### The X slot (R294 to R326) -/

namespace Sys2Proof.Machine

/-- What issuing an engine operation leaves as it is: every byte of memory and of the scratchpads, every register, every other core
and gang, every crew but its counters; of the issuing gang only flags, pending destinations, the part's mill wait and what its
copies and stores still owe the mill change. -/
structure XFrame (s t : State) : Prop where
  mem : ∀ a, Mem.read t.mem a = Mem.read s.mem a
  rest : t = { s with cores := t.cores, reqs := t.reqs, nextId := t.nextId, agenda := t.agenda, free := s.free + 1 }
  others : ∀ c, c ≠ s.cur.core → t.core c = s.core c
  core : t.core s.cur.core =
    { s.core s.cur.core with
      gangs := (t.core s.cur.core).gangs
      crews := (t.core s.cur.core).crews
      chutes := (t.core s.cur.core).chutes
      skid := (t.core s.cur.core).skid
      mill := (t.core s.cur.core).mill
      groups := (t.core s.cur.core).groups }
  gangs : ∀ g, g ≠ s.cur.slot → t.gang? s.cur.core g = s.gang? s.cur.core g
  crews : ∀ k, t.crew s.cur.core k = { s.crew s.cur.core k with pmc := (t.crew s.cur.core k).pmc }
  gang : t.me = { s.me with flags := t.me.flags, marks := t.me.marks, parts := t.me.parts, unready := t.me.unready }

/-- The operation is legal and its flag has room. -/
def XReady (i : Instr) (f : BitVec 5) (s : State) : Prop := opLegal i s.me.regs = true ∧ (s.me.flag f.toNat).count < 63

/-- The state with the operation counted on its crew (PMC4), which the sides of a copy are resolved in. -/
def State.countedX (s : State) : State := s.pmc 4 1

/-- The cause of a side that failed. -/
def badCause {α : Type} : Except Nat α → Option Nat
  | .error c => some c
  | .ok _ => none
/-- The side, where it did not. -/
def goodSide : Except Nat Side → Side
  | .ok a => a
  | .error _ => {}
def goodNote : Except Nat (Option (Nat × W64 × W64)) → Option (Nat × W64 × W64)
  | .ok a => a
  | .error _ => none

/-- A copy enters the entry `e` of the skidder (R296, R297): with what it captured, its sides as resolved at issue, behind what a fence
or a barrier puts before it, and noting the accesses a MARK covers; a side or message that failed ends it with that cause, of several
that of the source, then the destination, the indices, the message (the model's reading, log entry 22). -/
def CopyEnters (s : State) (i : Instr) (f : BitVec 5) (e : Nat) (k : Skid) (src dst idx : Except Nat Side)
    (note : Except Nat (Option (Nat × W64 × W64))) : Prop :=
  ∃ t, exec i s = .next t ∧ XFrame s t ∧ Counts1 s t 4 ∧ FlagCounts s t f.toNat ∧ t.reqs = s.reqs ∧ t.nextId = s.nextId ∧
    t.agenda = s.agenda ∧ t.me.marks = s.me.marks ∧ t.me.parts = s.me.parts ∧ t.me.unready = s.me.unready ∧
    (t.core s.cur.core).mill = (s.core s.cur.core).mill ∧ (t.core s.cur.core).groups = (s.core s.cur.core).groups ∧
    let base : Skid := { k with slot := s.cur.slot, flag := f.toNat, born := s.clock,
                                deps := s.me.heldQ, marked := (s.me.markQ.flatMap (·.2)).eraseDups,
                                phase := if k.kind = .gather then 0 else 1 }
    (t.core s.cur.core).skid = mset (s.core s.cur.core).skid e
      (match [badCause src, badCause dst, badCause idx, badCause note].findSome? id with
       | some c => { base with err := c, failed := true, aux := none }
       | none => { base with src := goodSide src, dst := goodSide dst, idx := goodSide idx, note := goodNote note })

/-- The entry an operation takes: its gang's own where free, else the lowest free shared one (R296). -/
def State.skidEntry (s : State) (e : Nat) : Prop :=
  let k := (s.core s.cur.core).skid
  (mget? k s.cur.slot = none ∧ e = s.cur.slot) ∨
    (mget? k s.cur.slot ≠ none ∧ 64 ≤ e ∧ e < 96 ∧ mget? k e = none ∧ ∀ j, 64 ≤ j → j < e → mget? k j ≠ none)

/-- No side. -/
def noSide : Except Nat Side := .ok {}

/-- The reach of rows of `n` bytes at the given pitch about the first row. -/
def rowReach (rows n : Nat) (pitch : Int) : Int × Int :=
  let x := ((rows - 1 : Nat) : Int) * pitch
  (min 0 x, max 0 x + (n : Int) - 1)

end Sys2Proof.Machine

/-- R294 to R297, R303, R305, R306: CPY, CPYFILL, CPYT and CPYG with a free entry complete by entering the skidder with the bytes,
rows, pitches, pattern and sides that their scalar registers give (Table 10-1). That a count of zero names no side is the model's
reading (log entry 22). -/
def Sys2Proof.Machine.CopyIssue : Prop :=
  ∀ (s : State) (e : Nat), s.skidEntry e →
    let u := s.countedX
    (∀ (f : BitVec 5) (pol : BitVec 3) (sd ss sn : BitVec 5) (z : BitVec 3), XReady (.cpy f pol sd ss sn z) f s →
      let c := s.xReg sn 2
      let n := c % 2 ^ 32
      CopyEnters s (.cpy f pol sd ss sn z) f e
        { kind := .cpy, pol := s.me.mpreg pol.toNat, bytes := n, rows := 1, sgran := c / 2 ^ 32 % 128, sslot := c / 2 ^ 39 % 8 }
        (if n = 0 then noSide else u.side (s.xReg ss 1) 0 ((n : Int) - 1) false z.toNat)
        (if n = 0 then noSide else u.side (s.xReg sd 0) 0 ((n : Int) - 1) true z.toNat) noSide (.ok none)) ∧
    (∀ (f : BitVec 5) (pol : BitVec 3) (sd sv sn : BitVec 5) (z : BitVec 3), XReady (.cpyfill f pol sd sv sn z) f s →
      let c := s.xReg sn 2
      let n := c % 2 ^ 32
      CopyEnters s (.cpyfill f pol sd sv sn z) f e
        { kind := .fill, pol := s.me.mpreg pol.toNat, bytes := n, rows := 1, sgran := c / 2 ^ 32 % 128, sslot := c / 2 ^ 39 % 8,
          pattern := s.sregNow sv.toNat 31 }
        noSide (if n = 0 then noSide else u.side (s.xReg sd 0) 0 ((n : Int) - 1) true z.toNat) noSide (.ok none)) ∧
    (∀ (o : CpytOp), XReady (.cpyt o) o.f s →
      let g := s.xReg o.sg 2
      let rows := g % 65536
      let rb := g / 65536 % 65536
      let sp := sextInt (s.xReg o.sp 3) 32
      let dp := sextInt (s.xReg o.sp 3 / 2 ^ 32) 32
      let none_ := rows = 0 ∨ rb = 0
      CopyEnters s (.cpyt o) o.f e
        { kind := .rows, pol := s.me.mpreg o.pol.toNat, bytes := rb, rows := rows, spitch := sp, dpitch := dp,
          sgran := g / 2 ^ 32 % 128, sslot := g / 2 ^ 39 % 8 }
        (if none_ then noSide else u.side (s.xReg o.ss 1) (rowReach rows rb sp).1 (rowReach rows rb sp).2 false o.zs.toNat)
        (if none_ then noSide else u.side (s.xReg o.sd 0) (rowReach rows rb dp).1 (rowReach rows rb dp).2 true o.zd.toNat)
        noSide (u.copyNote o.nt o.sm)) ∧
    (∀ (o : CpygOp), XReady (.cpyg o) o.f s →
      let g := s.xReg o.sg 2
      let rows := g % 65536
      let rb := g / 65536 % 65536
      let sp := sextInt (s.xReg o.sp 3) 32
      let dp := sextInt (s.xReg o.sp 3 / 2 ^ 32) 32
      let none_ := rows = 0 ∨ rb = 0
      CopyEnters s (.cpyg o) o.f e
        { kind := .gather, pol := s.me.mpreg o.pol.toNat, bytes := rb, rows := rows, spitch := sp, dpitch := dp,
          sgran := g / 2 ^ 32 % 128, sslot := g / 2 ^ 39 % 8 }
        (if none_ then noSide else u.side (s.xReg o.ss 1) 0 0 false o.zs.toNat)
        (if none_ then noSide else u.side (s.xReg o.sd 0) (rowReach rows rb dp).1 (rowReach rows rb dp).2 true o.zd.toNat)
        (if none_ then noSide else u.side (s.xReg o.si 4) 0 (4 * (rows : Int) - 1) false 0) (u.copyNote o.nt o.sm))

namespace Sys2Proof.Machine
/-- The cause of a position of CPYMC (R307): 0x07 with no crew there, 0x04 where the bytes end beyond its allocation, else 0. -/
def State.spotCause (s : State) (ofs n p : Nat) : Nat :=
  match s.standPeer s.cur.core s.me.cslot p with
  | none => 0x07
  | some (a, b) => if ofs + n ≤ 4096 * (s.crew a b).granules.length then 0 else 0x04
end Sys2Proof.Machine

/-- R307 to R309: CPYMC enters with those stand positions of its mask that have a crew with room for the bytes, noting the first
failing cause (0x07 absent, 0x04 beyond the allocation); CPYCH takes n ready entries from a chute its crew holds; WBLD of slots
inside the allocation enters with its slots, format and sparsity, its source 512 bytes a slot where the attribute at its first byte
is known to be K4 or not known yet, else 1,024. CPYCH's destination is resolved over every row of its entries, entry e and row i at e
times the entry pitch and i times the row pitch. The split of 512 and 1,024 bytes, the first failing position of CPYMC and a zero
count or mask that names no side are the model's reading (log entry 22). -/
def Sys2Proof.Machine.WideCopyIssue : Prop :=
  ∀ (s : State) (e : Nat), s.skidEntry e →
    let u := s.countedX
    (∀ (o : CpymcOp), XReady (.cpymc o) o.f s →
      let c := s.xReg o.sn 2
      let n := c % 2 ^ 32
      let ofs := s.xReg o.sd 0 % 2 ^ 19
      let moves := n ≠ 0 ∧ o.mask ≠ 0
      ∃ (ts : List (Nat × Nat × Alloc)) (cause : Nat),
        CopyEnters s (.cpymc o) o.f e
          { kind := .multicast, pol := s.me.mpreg o.pol.toNat, bytes := if ts = [] then 0 else n, rows := 1, sgran := c / 2 ^ 32 % 128,
            sslot := c / 2 ^ 39 % 8, targets := ts, err := if moves then cause else 0 }
          (if moves then u.side (s.xReg o.ss 1) 0 ((n : Int) - 1) false o.zs.toNat else noSide)
          (if moves then .ok { path := 1, ofs := ofs, z := o.zd.toNat } else noSide) noSide (u.copyNote o.nt o.sm) ∧
        (∀ x, x ∈ ts ↔ ∃ p : Nat, p < 8 ∧ o.mask.getLsbD p = true ∧ u.spotCause ofs n p = 0 ∧
          u.standPeer s.cur.core s.me.cslot p = some (x.1, x.2.1) ∧ x.2.2 = (u.crew x.1 x.2.1).alloc) ∧
        ((∀ p : Nat, p < 8 → o.mask.getLsbD p = true → u.spotCause ofs n p = 0) → cause = 0) ∧
        (∀ p : Nat, p < 8 → o.mask.getLsbD p = true → u.spotCause ofs n p ≠ 0 →
          (∀ j, j < p → o.mask.getLsbD j = true → u.spotCause ofs n j = 0) → cause = u.spotCause ofs n p)) ∧
    (∀ (o : CpychOp), XReady (.cpych o) o.f s →
      let ch := s.chute o.ch.toNat
      let n := o.n.toNat + 1
      ch.holder = some s.me.cslot → n ≤ ch.entries.length → (∀ x ∈ ch.entries.take n, x.ready = true) →
      let rp := sextInt (s.xReg o.sp 3) 32
      let st := sextInt (s.xReg o.sp 3 / 2 ^ 32) 32
      let row (e i : Nat) : Int := (e : Int) * st + (i : Int) * rp
      ∃ lo hi : Int,
        CopyEnters s (.cpych o) o.f e
          { kind := .chute, pol := s.me.mpreg o.pol.toNat, rows := n, spitch := rp, dpitch := st, sgran := o.sgran.toNat,
            sslot := o.sslot.toNat, entries := ch.entries.take n }
          noSide (u.side (s.xReg o.sd 0) lo hi true o.zd.toNat) noSide (u.copyNote o.nt o.sm) ∧
        (∀ (e i : Nat) (x : ChuteEntry), (ch.entries.take n)[e]? = some x → x.row0 ≤ i → i < 16 →
          lo ≤ row e i ∧ row e i + (rowBytes x.df : Int) ≤ hi + 1) ∧
        lo ≤ 0 ∧ 0 ≤ hi ∧ (lo = 0 ∨ ∃ (e i : Nat) (x : ChuteEntry), (ch.entries.take n)[e]? = some x ∧ x.row0 ≤ i ∧ i < 16 ∧ lo = row e i) ∧
        (hi = 0 ∨ ∃ (e i : Nat) (x : ChuteEntry), (ch.entries.take n)[e]? = some x ∧ x.row0 ≤ i ∧ i < 16 ∧ hi + 1 = row e i + (rowBytes x.df : Int)) ∧
        ∀ t, exec (.cpych o) s = .next t → (t.chute o.ch.toNat).entries = ch.entries.drop n) ∧
    (∀ (o : WbldOp), XReady (.wbld o) o.f s →
      let n := o.n.toNat + 1
      o.w.toNat + n ≤ s.myCrew.wslots →
      let src (b : Nat) := u.side (s.xReg o.ss 0) 0 ((b * n : Nat) - 1) false o.zs.toNat
      ∃ b : Nat, (b = 512 ∨ b = 1024) ∧
        CopyEnters s (.wbld o) o.f e
          { kind := .wbld, pol := s.me.mpreg o.pol.toNat, rows := n, wslot := o.w.toNat, rf := o.rf.toNat, sparse := o.sparse == 1 }
          (src b) noSide noSide (u.copyNote o.nt o.sm) ∧
        ∀ d, src 512 = .ok d → (b = 512 ↔ u.peekAttr s.myCrew.ctx d 0 = none ∨ u.peekAttr s.myCrew.ctx d 0 = some 1))

/-- Table 10-2: a side fails with the cause of its lookup, 0x02 on a path copies may not take, 0x01 where its bytes leave the window,
0x07 at a stand position with no crew, 0x04 beyond the allocation; otherwise it is the place the window gives, swizzled only
in a scratchpad. -/
def Sys2Proof.Machine.CopySide : Prop :=
  ∀ (s : State) (a : Nat) (lo hi : Int) (dst : Bool) (z : Nat),
    let v := s.look s.cur.core s.myCrew.ctx a dst
    let r := s.side a lo hi dst z
    let reach := s.windowReach s.cur.core s.myCrew.ctx a v
    (v.cause ≠ 0 → r = .error v.cause) ∧
    (v.cause = 0 → (v.path = 4 ∨ v.path = 5 ∨ (v.path = 6 ∧ dst = true)) → r = .error 0x02) ∧
    (v.cause = 0 → (v.path < 4 ∨ (v.path = 6 ∧ dst = false)) → (lo < reach.1 ∨ reach.2 < hi) → r = .error 0x01) ∧
    (v.cause = 0 → reach.1 ≤ lo → hi ≤ reach.2 → (v.path = 0 ∨ v.path = 3 ∨ (v.path = 6 ∧ dst = false)) →
      r = .ok { path := v.path, tag := v.tag, va := v.va, ofs := v.ofs, peer := v.peer, lo := reach.1, hi := reach.2 }) ∧
    (v.cause = 0 → reach.1 ≤ lo → hi ≤ reach.2 → v.path = 2 → s.standPeer s.cur.core s.me.cslot v.pos = none → r = .error 0x07) ∧
    (∀ tc tk, v.cause = 0 → reach.1 ≤ lo → hi ≤ reach.2 →
      ((v.path = 1 ∧ tc = s.cur.core ∧ tk = s.ownSlot s.cur.core s.me.cslot) ∨
        (v.path = 2 ∧ s.standPeer s.cur.core s.me.cslot v.pos = some (tc, tk))) →
      ((v.ofs + lo < 0 ∨ 4096 * (s.crew tc tk).granules.length ≤ v.ofs + hi) → r = .error 0x04) ∧
      ((0 ≤ v.ofs + lo ∧ v.ofs + hi < 4096 * (s.crew tc tk).granules.length) →
        r = .ok { path := v.path, tag := v.tag, va := v.va, ofs := v.ofs, core := tc, cslot := tk, alloc := (s.crew tc tk).alloc, z := z,
                  lo := reach.1, hi := reach.2 }))

/-- The skidder operations of both X slots at issue, and the sides their words name (from R294 to R310). -/
def Obligations.CopyOperationIssue : Prop := CopyIssue ∧ WideCopyIssue ∧ CopySide

namespace Sys2Proof.Machine

/-- Ids of the MREADYs of the issuing gang in the queue. -/
def State.openReadies (s : State) : List Nat :=
  (s.mill.queue.filter (fun x => x.slot == s.cur.slot && (match x.op with | .mready _ => true | _ => false))).map (·.id)

/-- A command enters the mill's queue behind its gang's MREADYs (R311, R313) and counts on its flag; the last batch closed and the
commands issued since are as given (R314). -/
def MillEnters (s : State) (i : Instr) (f : BitVec 5) (q : MillCmd) (closed issued : Nat) : Prop :=
  ∃ t, exec i s = .next t ∧ XFrame s t ∧ Counts1 s t 4 ∧ FlagCounts s t f.toNat ∧ t.reqs = s.reqs ∧ t.nextId = s.nextId + 1 ∧
    t.agenda = s.agenda ∧ t.me.marks = s.me.marks ∧ t.me.parts = s.me.parts ∧
    (t.core s.cur.core).skid = (s.core s.cur.core).skid ∧ (t.core s.cur.core).groups = (s.core s.cur.core).groups ∧
    t.mill = { s.mill with queue := t.mill.queue, uses := t.mill.uses, closed := closed, issued := issued } ∧
    t.mill.queue = s.mill.queue ++
      [{ q with op := i, slot := s.cur.slot, flag := f.toNat, id := s.nextId, born := s.clock, deps := q.deps ++ s.openReadies }]

/-- The issuing gang owns the mill. -/
def State.ownsMill (s : State) : Prop := s.mill.owner = some s.cur.slot

/-- Operand A of MMA and MLDT: offset and pitch of its register, and the bytes the matrix ends at. -/
def State.millFits (s : State) (x rows rowBytes : Nat) : Prop :=
  x % 2 ^ 19 + (rows - 1) * (x / 2 ^ 32 % 65536) + rowBytes ≤ 4096 * s.myCrew.granules.length
def millAligned (x : Nat) : Prop := x % 2 ^ 19 % 16 = 0 ∧ x / 2 ^ 32 % 65536 % 16 = 0

/-- Every weight slot that the command reads is sparse, or none is (R315). -/
def State.slotsSparse (s : State) (o : MmaOp) (fb : Nat) (sp : Bool) : Prop :=
  ∀ n, o.w.toNat ≤ n → n < o.w.toNat + 2 ^ o.ns.toNat * ((16 * (o.ks.toNat + 1) + kslot fb sp - 1) / kslot fb sp) →
    (mget 0 s.myCrew.wstag n).getLsbD 12 = sp

/-- The conditions under which MMA and MMAS execute (R315 to R317): format of A from its granule's tag, of B from its slot's, each
named by AF or WF where RAW; a pair and K that Table 10-9 permits; operands and tiles inside the allocation; sparse slots alone for
MMAS, dense ones alone for MMA. -/
def MmaExecutes (s : State) (o : MmaOp) (sp : Bool) : Prop :=
  let x := s.xReg o.sa 0
  let fa := (s.mmaFmts o).1
  let fb := (s.mmaFmts o).2.1
  s.ownsMill ∧ o.ms ≠ 3 ∧ s.millFits x (16 * 2 ^ o.ms.toNat) (16 * (o.ks.toNat + 1) * millBits fa / 8) ∧
    o.t.toNat + 2 ^ o.ms.toNat * 2 ^ o.ns.toNat ≤ s.myCrew.tiles ∧
    o.w.toNat + 2 ^ o.ns.toNat * ((16 * (o.ks.toNat + 1) + kslot fb sp - 1) / kslot fb sp) ≤ s.myCrew.wslots ∧ millAligned x ∧
    (∃ kc step, millPair fa fb sp = some (kc, step) ∧ 16 * (o.ks.toNat + 1) % step = 0) ∧
    s.slotsSparse o fb sp

end Sys2Proof.Machine

/-- R311 to R322: each mill command completes by entering the queue under the conditions the rules give: MMA and MMAS with the
formats, offset and pitch read at issue; MZERO, MLDT and MDRAIN of tiles inside the allocation; MFENCE with the next batch
number, which of an empty batch completes apart from the queue; MREADY behind its gang's stores in progress. -/
def Sys2Proof.Machine.MillIssue : Prop :=
  ∀ s : State,
    (∀ (sp : Bool) (o : MmaOp), let i : Instr := if sp then .mmas o else .mma o
      XReady i o.f s → MmaExecutes s o sp →
      let x := s.xReg o.sa 0
      MillEnters s i o.f { op := i, fa := (s.mmaFmts o).1, fb := (s.mmaFmts o).2.1, ta := (s.mmaFmts o).2.2.1, tb := (s.mmaFmts o).2.2.2,
                           ofs := x % 2 ^ 19, pitch := x / 2 ^ 32 % 65536 } s.mill.closed (s.mill.issued + 1)) ∧
    (∀ (f : BitVec 5) (t : BitVec 11) (n : BitVec 7), XReady (.mzero f t n) f s → s.ownsMill →
      t.toNat + n.toNat + 1 ≤ s.myCrew.tiles → MillEnters s (.mzero f t n) f { op := .mzero f t n } s.mill.closed (s.mill.issued + 1)) ∧
    (∀ o : MldtOp, XReady (.mldt o) o.f s → s.ownsMill → o.t.toNat + o.n.toNat + 1 ≤ s.myCrew.tiles →
      s.millFits (s.xReg o.sa 0) (16 * (o.n.toNat + 1)) (16 * (if o.sf = 0 then 4 else 2)) → millAligned (s.xReg o.sa 0) →
      MillEnters s (.mldt o) o.f { op := .mldt o, ofs := s.xReg o.sa 0 % 2 ^ 19, pitch := s.xReg o.sa 0 / 2 ^ 32 % 65536 } s.mill.closed
        (s.mill.issued + 1)) ∧
    (∀ o : MdrainOp, XReady (.mdrain o) o.f s → s.ownsMill → o.t.toNat + o.n.toNat + 1 ≤ s.myCrew.tiles →
      ((s.chute o.ch.toNat).holder = none ∨ (s.chute o.ch.toNat).holder = some s.me.cslot) →
      MillEnters s (.mdrain o) o.f { op := .mdrain o } s.mill.closed (s.mill.issued + 1) ∧
        ∀ t, exec (.mdrain o) s = .next t → t.chute o.ch.toNat =
          { s.chute o.ch.toNat with holder := some s.me.cslot, drains := (s.chute o.ch.toNat).drains + 1 }) ∧
    (∀ f : BitVec 5, XReady (.mfence f) f s → s.ownsMill →
      let n := (s.mill.closed + 1) % 65536
      (s.mill.issued ≠ 0 → MillEnters s (.mfence f) f { op := .mfence f, ofs := n } n 0) ∧
      (s.mill.issued = 0 → ∃ t r, exec (.mfence f) s = .next t ∧ XFrame s t ∧ Counts1 s t 4 ∧ FlagCounts s t f.toNat ∧
        t.me.marks = s.me.marks ∧ t.me.parts = s.me.parts ∧ t.mill = { s.mill with closed := n, uses := t.mill.uses } ∧
        t.reqs = mset s.reqs s.nextId r ∧ r.kind = .mrel ∧ r.flag = f.toNat ∧ r.lanes = [])) ∧
    (∀ f : BitVec 5, XReady (.mready f) f s →
      ∃ ds : List Nat, MillEnters s (.mready f) f { op := .mready f, deps := ds } s.mill.closed
          (s.mill.issued + if s.mill.owner = some s.cur.slot then 1 else 0) ∧
        (∀ id, id ∈ ds ↔ id ∈ s.me.inProgress ∧ ∃ r, mget? s.reqs id = some r ∧
          r.kind ∈ [.store, .rawStore, .stx, .stch, .atom, .redm, .cas, .accst]) ∧
        ∀ t, exec (.mready f) s = .next t → t.me.unready = [])

/-- R312, R323: MACQ of a gang that does not own the mill joins the queue of owners and its part waits, of the owner it enters a request
that completes at once; MREL by the owner leaves the mill without one, by another gang the mill is unchanged; both and MSTAT count
on their flag, MSTAT with its scalar register pending. -/
def Sys2Proof.Machine.MillOwnership : Prop :=
  ∀ (s : State) (f : BitVec 5),
    (XReady (.macq f) f s → s.mill.owner ≠ some s.cur.slot →
      ∃ t, exec (.macq f) s = .next t ∧ XFrame s t ∧ Counts1 s t 4 ∧ FlagCounts s t f.toNat ∧ t.reqs = s.reqs ∧ t.me.marks = s.me.marks ∧
        t.me.parts = mset s.me.parts s.cur.lead { s.me.part s.cur.lead with macq := true } ∧
        t.mill = { s.mill with waiters := t.mill.waiters } ∧
        ((∀ w ∈ s.mill.waiters, w.1 ≠ s.cur.slot) → t.mill.waiters = s.mill.waiters ++ [(s.cur.slot, [f.toNat])]) ∧
        ((∃ w ∈ s.mill.waiters, w.1 = s.cur.slot) → t.mill.waiters =
          s.mill.waiters.map (fun w => if w.1 = s.cur.slot then (w.1, w.2 ++ [f.toNat]) else w))) ∧
    (XReady (.macq f) f s → s.mill.owner = some s.cur.slot →
      ∃ t r, exec (.macq f) s = .next t ∧ XFrame s t ∧ Counts1 s t 4 ∧ FlagCounts s t f.toNat ∧ t.me.marks = s.me.marks ∧
        t.me.parts = s.me.parts ∧ t.mill = s.mill ∧ t.reqs = mset s.reqs s.nextId r ∧ r.kind = .mrel ∧ r.flag = f.toNat ∧ r.lanes = []) ∧
    (XReady (.mrel f) f s →
      ∃ t r, exec (.mrel f) s = .next t ∧ XFrame s t ∧ Counts1 s t 4 ∧ FlagCounts s t f.toNat ∧ t.me.marks = s.me.marks ∧
        t.me.parts = s.me.parts ∧ t.mill = { s.mill with owner := if s.mill.owner = some s.cur.slot then none else s.mill.owner } ∧
        t.reqs = mset s.reqs s.nextId r ∧ r.kind = .mrel ∧ r.flag = f.toNat ∧ r.lanes = []) ∧
    (∀ sd : BitVec 5, XReady (.mstat f sd) f s →
      ∃ t r, exec (.mstat f sd) s = .next t ∧ XFrame s t ∧ Counts1 s t 4 ∧ FlagCounts s t f.toNat ∧ MarksDests s t f.toNat [.s sd.toNat] ∧
        t.me.parts = s.me.parts ∧ t.mill = s.mill ∧ t.reqs = mset s.reqs s.nextId r ∧ r.kind = .mstat ∧ r.flag = f.toNat ∧
        r.dest = sd.toNat ∧ r.lanes = [])

/-- The mill's commands at issue, and MACQ, MREL, MREADY, MFENCE and MSTAT (from R311 to R323). -/
def Obligations.MillOperationIssue : Prop := MillIssue ∧ MillOwnership

/-- R325, R326: GOPEN of a group this core sees as not open, GCOMMIT and GABORT of an open one and GQUERY complete by sending a request
to the origin table; the core sees the group open, or in exchange, from the next bundle on; GQUERY's register is pending. -/
def Obligations.GroupIssue : Prop :=
  ∀ (s : State) (f : BitVec 5) (g : BitVec 10), let key := 1024 * s.myCrew.ctx + g.toNat
    (XReady (.gopen f g) f s → s.groupCopy s.cur.core s.myCrew.ctx g.toNat = 0 →
      ∃ t r, exec (.gopen f g) s = .next t ∧ XFrame s t ∧ Counts1 s t 4 ∧ FlagCounts s t f.toNat ∧ t.me.marks = s.me.marks ∧
        t.reqs = mset s.reqs s.nextId r ∧ r.kind = .gopen ∧ r.z = g.toNat ∧ r.flag = f.toNat ∧
        (t.core s.cur.core).groups = mset (s.core s.cur.core).groups key 1 ∧
        t.agenda = s.agenda ++ [{ op := .gopenAtTable, arg := .group s.myCrew.ctx g.toNat s.nextId }]) ∧
    (∀ abort : Bool, let i : Instr := if abort then .gabort f g else .gcommit f g
      XReady i f s → s.groupCopy s.cur.core s.myCrew.ctx g.toNat = 1 →
      ∃ t r, exec i s = .next t ∧ XFrame s t ∧ Counts1 s t 4 ∧ FlagCounts s t f.toNat ∧ t.me.marks = s.me.marks ∧
        t.reqs = mset s.reqs s.nextId r ∧ r.kind = .gend ∧ r.z = g.toNat ∧ r.flag = f.toNat ∧ r.dest = (if abort then 1 else 0) ∧
        (∀ id, id ∈ r.deps ↔ id ∈ s.me.loadQ ∨ id ∈ s.me.storeQ ∨ id ∈ s.me.barQ) ∧
        (t.core s.cur.core).groups = mset (s.core s.cur.core).groups key 2 ∧
        t.agenda = s.agenda ++ [{ op := .gcommitAtTable, arg := .group s.myCrew.ctx g.toNat s.nextId }]) ∧
    (∀ sd : BitVec 5, XReady (.gquery f g sd) f s →
      ∃ t r, exec (.gquery f g sd) s = .next t ∧ XFrame s t ∧ Counts1 s t 4 ∧ FlagCounts s t f.toNat ∧ MarksDests s t f.toNat [.s sd.toNat] ∧
        t.reqs = mset s.reqs s.nextId r ∧ r.kind = .gquery ∧ r.z = g.toNat ∧ r.flag = f.toNat ∧ r.dest = sd.toNat ∧
        (t.core s.cur.core).groups = (s.core s.cur.core).groups ∧ t.agenda = s.agenda)

namespace Sys2Proof.Machine
/-- The flag that an X-slot operation counts on (Table 10-14). -/
def xFlag : Instr → Option (BitVec 5)
  | .cpy f _ _ _ _ _ | .cpyfill f _ _ _ _ _ | .macq f | .mrel f | .mready f | .mfence f | .mzero f _ _ | .mstat f _ => some f
  | .gopen f _ | .gcommit f _ | .gabort f _ | .gquery f _ _ => some f
  | .cpyt o => some o.f
  | .cpyg o => some o.f
  | .cpymc o => some o.f
  | .cpych o => some o.f
  | .wbld o => some o.f
  | .mma o | .mmas o => some o.f
  | .mldt o => some o.f
  | .mdrain o => some o.f
  | _ => none
/-- The operation traps with a cause, from the X slot, and its bundle has no other effect. -/
def XTraps (s : State) (i : Instr) (cause : Nat) : Prop := exec i s = .next (s.takeTrap { tcause := cause, slot := 2 })
end Sys2Proof.Machine

/-- R217, R260, R282, R294, R308, R309, R311, R315 to R317, R319 to R321, R325: an X-slot operation that is not legal traps with 0x61, one whose
flag is at 63 with 0x64; after these 0x61 for a mill command by a gang that does not own the mill, for tiles, bytes or weight slots
beyond the allocation, for a chute of another crew and for a group in the wrong state, 0x63 for an MMA or MLDT operand that is no
multiple of 16, 0x65 for a pair, shape or sparsity that is not permitted, 0x68 for a chute
without the entries, as of CHPOP and STCH, an entry not yet ready counting as absent. Which of several conditions of class 4 comes
first (the owner, then places and chutes, then alignment and formats) is the model's reading (log entry 23). -/
def Sys2Proof.Machine.EngineTraps : Prop :=
  ∀ s : State,
    (∀ (i : Instr) (f : BitVec 5), xFlag i = some f →
      (opLegal i s.me.regs = false → XTraps s i 0x61) ∧
      (opLegal i s.me.regs = true → 63 ≤ (s.me.flag f.toNat).count → XTraps s i 0x64)) ∧
    (∀ (f : BitVec 5), XReady (.mfence f) f s → ¬ s.ownsMill → XTraps s (.mfence f) 0x61) ∧
    (∀ o : WbldOp, XReady (.wbld o) o.f s → s.myCrew.wslots < o.w.toNat + o.n.toNat + 1 → XTraps s (.wbld o) 0x61) ∧
    (∀ o : CpychOp, XReady (.cpych o) o.f s →
      let ch := s.chute o.ch.toNat
      (ch.holder ≠ some s.me.cslot → XTraps s (.cpych o) 0x61) ∧
      (ch.holder = some s.me.cslot →
        (ch.entries.length < o.n.toNat + 1 ∨ ∃ x ∈ ch.entries.take (o.n.toNat + 1), x.ready = false) → XTraps s (.cpych o) 0x68)) ∧
    (∀ o : VOp, opLegal (.chpop o) s.me.regs = true →
      let ch := s.chute (o.a.toNat % 8)
      (ch.holder ≠ some s.me.cslot → exec (.chpop o) s = .next (s.takeTrap { tcause := 0x61 })) ∧
      (ch.holder = some s.me.cslot → (ch.entries = [] ∨ ∃ e es, ch.entries = e :: es ∧ (e.ready = false ∨ e.units = [])) →
        exec (.chpop o) s = .next (s.takeTrap { tcause := 0x68 }))) ∧
    (∀ o : MOp, MReady (.stch o) o s →
      let ch := s.chute (o.data.toNat % 8)
      (ch.holder ≠ some s.me.cslot → exec (.stch o) s = .next (s.takeTrap { tcause := 0x61, slot := 1 })) ∧
      (ch.holder = some s.me.cslot → (ch.entries = [] ∨ ∃ e es, ch.entries = e :: es ∧ (e.ready = false ∨ e.units = [])) →
        exec (.stch o) s = .next (s.takeTrap { tcause := 0x68, slot := 1 }))) ∧
    (∀ o : MldtOp, XReady (.mldt o) o.f s →
      let inside := o.t.toNat + o.n.toNat + 1 ≤ s.myCrew.tiles ∧
        s.millFits (s.xReg o.sa 0) (16 * (o.n.toNat + 1)) (16 * (if o.sf = 0 then 4 else 2))
      (¬ s.ownsMill ∨ ¬ inside → XTraps s (.mldt o) 0x61) ∧
      (s.ownsMill → inside → ¬ millAligned (s.xReg o.sa 0) → XTraps s (.mldt o) 0x63)) ∧
    (∀ o : MdrainOp, XReady (.mdrain o) o.f s →
      (¬ s.ownsMill ∨ s.myCrew.tiles < o.t.toNat + o.n.toNat + 1 ∨
        ((s.chute o.ch.toNat).holder ≠ none ∧ (s.chute o.ch.toNat).holder ≠ some s.me.cslot)) → XTraps s (.mdrain o) 0x61) ∧
    (∀ (f : BitVec 5) (t : BitVec 11) (n : BitVec 7), XReady (.mzero f t n) f s → (¬ s.ownsMill ∨ s.myCrew.tiles < t.toNat + n.toNat + 1) →
      XTraps s (.mzero f t n) 0x61) ∧
    (∀ (sp : Bool) (o : MmaOp), let i : Instr := if sp then .mmas o else .mma o
      XReady i o.f s →
      let x := s.xReg o.sa 0
      let fa := (s.mmaFmts o).1
      let fb := (s.mmaFmts o).2.1
      let inside := s.millFits x (16 * 2 ^ o.ms.toNat) (16 * (o.ks.toNat + 1) * millBits fa / 8) ∧
        o.t.toNat + 2 ^ o.ms.toNat * 2 ^ o.ns.toNat ≤ s.myCrew.tiles ∧
        o.w.toNat + 2 ^ o.ns.toNat * ((16 * (o.ks.toNat + 1) + kslot fb sp - 1) / kslot fb sp) ≤ s.myCrew.wslots
      (¬ s.ownsMill → XTraps s i 0x61) ∧
      (s.ownsMill → o.ms = 3 → XTraps s i 0x65) ∧
      (s.ownsMill → o.ms ≠ 3 → ¬ inside → XTraps s i 0x61) ∧
      (s.ownsMill → o.ms ≠ 3 → inside → ¬ millAligned x → XTraps s i 0x63) ∧
      (s.ownsMill → o.ms ≠ 3 → inside → millAligned x →
        ¬ ((∃ kc step, millPair fa fb sp = some (kc, step) ∧ 16 * (o.ks.toNat + 1) % step = 0) ∧
            s.slotsSparse o fb sp) →
        XTraps s i 0x65)) ∧
    (∀ (f : BitVec 5) (g : BitVec 10), XReady (.gopen f g) f s → s.groupCopy s.cur.core s.myCrew.ctx g.toNat ≠ 0 →
      XTraps s (.gopen f g) 0x61) ∧
    (∀ (f : BitVec 5) (g : BitVec 10) (abort : Bool), let i : Instr := if abort then .gabort f g else .gcommit f g
      XReady i f s → s.groupCopy s.cur.core s.myCrew.ctx g.toNat ≠ 1 → XTraps s i 0x61)

/-- Precise conditions of the M slot and the X slot that trap (from R217, R260, R265, R273, R293, R294, R311, R316, R317, R325). -/
def Obligations.MemoryEngineTraps : Prop := MemoryTraps ∧ EngineTraps

/-! ### The C slot (R327 to R356) -/

namespace Sys2Proof.Machine

/-- What a C-slot operation of the issuing gang alone leaves as it is: every byte of memory, every other gang, every crew and core;
of the bundle being issued only where its slices go. -/
structure CFrame (s t : State) : Prop where
  mem : ∀ a, Mem.read t.mem a = Mem.read s.mem a
  rest : t = { s with cores := t.cores, cur := t.cur }
  issue : t.cur = { s.cur with next := t.cur.next, redirect := t.cur.redirect, jmpt := t.cur.jmpt }
  cores : ∀ c, t.core c = { s.core c with gangs := (t.core c).gangs }
  gangs : ∀ c g, c ≠ s.cur.core ∨ g ≠ s.cur.slot → t.gang? c g = s.gang? c g

/-- Where the slices of the part go, and whether one that goes on leaves the next bundle (R209). -/
def GoesTo (s t : State) (f : Nat → W64) : Prop :=
  (∀ k ∈ s.cur.slices, mget? t.cur.next k = some (f k)) ∧
    (t.cur.redirect = true ↔ ∃ k ∈ s.cur.slices, (t.me.slice k).ended = false ∧ f k ≠ s.cur.pc + 16)

/-- The part's slices are slices of the gang, each once. -/
def PartOk (s : State) : Prop := s.cur.slices.Nodup ∧ ∀ k ∈ s.cur.slices, k < s.me.slices.length

/-- The stack entry of a mask and an address (Table 11-9). -/
def stackEntry (pc : W64) (m : BitVec 4) : W64 := BitVec.ofNat 64 (m.toNat * 2 ^ 60) ||| pcBits pc

/-- The lanes of slice k among some lanes: bit j is lane 4k + j. -/
def lanesIn (ls : List Nat) (k : Nat) : BitVec 4 := BitVec.ofNat 4 ((List.range 4).foldl (fun a j => if (4 * k + j) ∈ ls then a + 2 ^ j else a) 0)

/-- The branch of R178: a slice all of whose active lanes branch goes to the target; one with none goes on; one that diverges saves
the others at P + 16 and continues with those that branch. -/
def Branched (s t : State) (ls : List Nat) (tgt : W64) : Prop :=
  GoesTo s t (fun k => if lanesIn ls k = (s.me.slice k).mask then tgt else if lanesIn ls k = 0 then s.cur.pc + 16 else tgt) ∧
    ∀ k, t.me.slice k =
      (if k ∈ s.cur.slices ∧ lanesIn ls k ≠ (s.me.slice k).mask ∧ lanesIn ls k ≠ 0 then
        { s.me.slice k with
          mask := lanesIn ls k
          depth := (s.me.slice k).depth + 1
          stack := mset (s.me.slice k).stack (s.me.slice k).depth (stackEntry (s.cur.pc + 16) ((s.me.slice k).mask &&& ~~~lanesIn ls k)) }
       else s.me.slice k)

/-- No slice that diverges has a full stack. -/
def StackRoom (s : State) (ls : List Nat) : Prop :=
  ∀ k ∈ s.cur.slices, lanesIn ls k ≠ (s.me.slice k).mask → lanesIn ls k ≠ 0 → (s.me.slice k).depth ≠ 8

/-- The bundle traps with 0x67, INFO naming the slices that would diverge with a full stack (R179). -/
def StackTraps (s : State) (i : Instr) (ls : List Nat) : Prop :=
  ∃ m : Nat, exec i s = .next (s.takeTrap { tcause := 0x67, slot := 3, info := m }) ∧
    ∀ k, m.testBit k = true ↔ k ∈ s.cur.slices ∧ lanesIn ls k ≠ (s.me.slice k).mask ∧ lanesIn ls k ≠ 0 ∧ (s.me.slice k).depth = 8

/-- The target of a branch (R205). -/
def targetOf (s : State) (tgt : BitVec 24) : W64 := s.cur.pc + BitVec.ofInt 64 (16 * tgt.toInt)
/-- The active lanes whose guard holds. -/
def guardedLanes (s : State) (g : BitVec 4) : List Nat := s.activeLanes.filter (s.guardLane g)

end Sys2Proof.Machine

/-- R178, R335, R336, R338: BRA, BRAP and CALL branch in the lanes whose guard (and condition) hold; CALL writes P + 16 to its scalar
register after 4 clocks where a lane branches. A diverging slice with a full stack raises 0x67 and nothing branches. -/
def Sys2Proof.Machine.BranchResults : Prop :=
  ∀ (s : State) (g : BitVec 4) (tgt : BitVec 24), PartOk s →
    (opLegal (.bra g tgt) s.me.regs = true → StackRoom s (guardedLanes s g) →
      ∃ t, exec (.bra g tgt) s = .next t ∧ CFrame s t ∧ t.me = { s.me with slices := t.me.slices } ∧
        Branched s t (guardedLanes s g) (targetOf s tgt)) ∧
    (∀ (neg : BitVec 1) (q : BitVec 3), opLegal (.brap g neg q tgt) s.me.regs = true →
      let ls := (guardedLanes s g).filter (fun l => xor (s.predLane q.toNat l) (neg == 1))
      StackRoom s ls →
      ∃ t, exec (.brap g neg q tgt) s = .next t ∧ CFrame s t ∧ t.me = { s.me with slices := t.me.slices } ∧
        Branched s t ls (targetOf s tgt)) ∧
    (∀ l : BitVec 5, opLegal (.call g l tgt) s.me.regs = true → StackRoom s (guardedLanes s g) →
      ∃ t, exec (.call g l tgt) s = .next t ∧ CFrame s t ∧
        t.me = { s.me with slices := t.me.slices, pend := t.me.pend, marks := t.me.marks } ∧
        Branched s t (guardedLanes s g) (targetOf s tgt) ∧
        Writes s t (if guardedLanes s g = [] then [] else [⟨s.clock + 4, s.clock, .s l.toNat, 0, [], s.cur.pc + 16⟩])) ∧
    (∀ i ∈ [Instr.bra g tgt] ++ (List.range 32).map (fun l => .call g (BitVec.ofNat 5 l) tgt),
      opLegal i s.me.regs = true → ¬ StackRoom s (guardedLanes s g) → StackTraps s i (guardedLanes s g)) ∧
    (∀ (neg : BitVec 1) (q : BitVec 3), opLegal (.brap g neg q tgt) s.me.regs = true →
      let ls := (guardedLanes s g).filter (fun l => xor (s.predLane q.toNat l) (neg == 1))
      ¬ StackRoom s ls → StackTraps s (.brap g neg q tgt) ls)

namespace Sys2Proof.Machine

/-- The part observes a flag at zero (R132, R213): what was pending on it is settled; a register changes only where a fixed-latency
write had met the pending one. -/
structure Observed (s t : State) (f : Nat) : Prop where
  marks : t.me.marks = s.me.marks.filter (fun m => !(m.flag == f && m.born < s.clock))
  flags : t.me.flags = s.me.flags
  v : ∀ n, (∀ m ∈ s.me.marks, m.flag = f → m.tainted = true → m.dest ≠ .v n) → t.me.vreg n = s.me.vreg n
  r : ∀ n, (∀ m ∈ s.me.marks, m.flag = f → m.tainted = true → m.dest ≠ .s n) → t.me.sreg n = s.me.sreg n
  slices : t.me.slices = s.me.slices
  parts : t.me.parts = s.me.parts
  p : ∀ n, (∀ m ∈ s.me.marks, m.flag = f → m.tainted = true → m.dest ≠ .p n) → t.me.preg n = s.me.preg n
  pend : ∀ d, (∀ m ∈ s.me.marks, m.flag = f → m.tainted = true → m.dest ≠ d) →
    t.me.pend.filter (fun w => w.dest == d) = s.me.pend.filter (fun w => w.dest == d)
  rest : t = { s with cores := t.cores, cur := t.cur, free := t.free }
  mem : ∀ a, Mem.read t.mem a = Mem.read s.mem a
  others : ∀ c g, c ≠ s.cur.core ∨ g ≠ s.cur.slot → t.gang? c g = s.gang? c g
  crews : ∀ c k, t.crew c k = s.crew c k

end Sys2Proof.Machine

/-- R332, R339: BRF.Z branches on a flag at zero and BRF.NZ on one that is not, and either observes a flag at zero; BRF.ERR branches
on the flag's error; RET goes to the address in its scalar register, and to none that is not a multiple of 16 (0x63). -/
def Sys2Proof.Machine.FlagBranchResults : Prop :=
  ∀ (s : State) (f : BitVec 5) (tgt : BitVec 24),
    let zero : Prop := (s.me.flag f.toNat).count = 0
    (opLegal (.brfZ f tgt) s.me.regs = true →
      ∃ t, exec (.brfZ f tgt) s = .next t ∧ (zero → GoesTo s t (fun _ => targetOf s tgt) ∧ Observed s t f.toNat) ∧ (¬ zero → t = s)) ∧
    (opLegal (.brfNz f tgt) s.me.regs = true →
      ∃ t, exec (.brfNz f tgt) s = .next t ∧ (zero → t.cur = s.cur ∧ Observed s t f.toNat) ∧
        (¬ zero → GoesTo s t (fun _ => targetOf s tgt) ∧ CFrame s t ∧ t.me = s.me)) ∧
    (opLegal (.brfErr f tgt) s.me.regs = true →
      ∃ t, exec (.brfErr f tgt) s = .next t ∧ CFrame s t ∧ t.me = s.me ∧
        ((s.me.flag f.toNat).err = true → GoesTo s t (fun _ => targetOf s tgt)) ∧ ((s.me.flag f.toNat).err = false → t = s)) ∧
    (∀ n : BitVec 5, opLegal (.ret n) s.me.regs = true →
      let x := s.sregNow n.toNat 20
      (x.toNat % 16 = 0 → ∃ t, exec (.ret n) s = .next t ∧ CFrame s t ∧ t.me = s.me ∧ GoesTo s t (fun _ => x)) ∧
      (x.toNat % 16 ≠ 0 → exec (.ret n) s = .next (s.takeTrap { tcause := 0x63, slot := 3 })))

/-- Branches on lanes, calls and returns, and branches on flags (from R178, R332 to R339). -/
def Obligations.TakenBranchResults : Prop := BranchResults ∧ FlagBranchResults

/-- R181, R182: RECONV takes the top entries at its own address into the mask, then exchanges the slice with the next entry, if any;
EXIT removes its lanes, and a slice with none left continues at its top entry or ends; with its last slice the gang ends, where it is
not the supervisor's, which may not (0x61). -/
def Obligations.ReconvExitResults : Prop :=
  ∀ s : State, PartOk s → (∀ k ∈ s.cur.slices, (s.me.slice k).depth ≤ 8) →
    (opLegal .reconv s.me.regs = true →
      ∃ t, exec .reconv s = .next t ∧ CFrame s t ∧ t.me = { s.me with slices := t.me.slices } ∧
        (∀ k, k ∉ s.cur.slices → t.me.slice k = s.me.slice k) ∧
        ∀ k ∈ s.cur.slices,
          let x := s.me.slice k
          let y := t.me.slice k
          let entry (i : Nat) : W64 := mget 0 x.stack (x.depth - 1 - i)
          ∃ j, j ≤ x.depth ∧ (∀ i, i < j → pcBits (entry i) = pcBits s.cur.pc) ∧ (j < x.depth → pcBits (entry j) ≠ pcBits s.cur.pc) ∧
            ∃ m : BitVec 4, (∀ b, b < 4 → (m.getLsbD b = true ↔ x.mask.getLsbD b = true ∨ ∃ i, i < j ∧ (entry i).getLsbD (60 + b) = true)) ∧
              (j = x.depth → y.mask = m ∧ y.depth = 0 ∧ mget? t.cur.next k = some (s.cur.pc + 16)) ∧
              (j < x.depth → y.depth = x.depth - j ∧ (∀ b, b < 4 → y.mask.getLsbD b = (entry j).getLsbD (60 + b)) ∧
                mget 0 y.stack (x.depth - 1 - j) = stackEntry s.cur.pc m ∧ mget? t.cur.next k = some (pcOf (entry j)))) ∧
    (∀ g : BitVec 4, opLegal (.exit g) s.me.regs = true →
      let out (k : Nat) : BitVec 4 := lanesIn (guardedLanes s g) k
      let stays (k : Nat) : Prop := k ∈ s.cur.slices ∧ (out k = 0 ∨ (s.me.slice k).mask &&& ~~~out k ≠ 0 ∨ (s.me.slice k).depth ≠ 0)
      (∃ k, k < s.me.nsl ∧ ((k ∉ s.cur.slices ∧ (s.me.slice k).ended = false) ∨ (stays k ∧ (s.me.slice k).ended = false))) →
      ∃ t, exec (.exit g) s = .next t ∧ CFrame s t ∧ t.me = { s.me with slices := t.me.slices } ∧
        (∀ k, k ∉ s.cur.slices → t.me.slice k = s.me.slice k) ∧
        ∀ k ∈ s.cur.slices,
          let x := s.me.slice k
          let left := x.mask &&& ~~~out k
          ((out k = 0 ∨ left ≠ 0) → t.me.slice k = { x with mask := left } ∧ mget? t.cur.next k = some (s.cur.pc + 16)) ∧
          (out k ≠ 0 → left = 0 → x.depth = 0 → t.me.slice k = { x with mask := 0, ended := true }) ∧
          (out k ≠ 0 → left = 0 → x.depth ≠ 0 →
            let e := mget 0 x.stack (x.depth - 1)
            (t.me.slice k).depth = x.depth - 1 ∧ (∀ b, b < 4 → (t.me.slice k).mask.getLsbD b = e.getLsbD (60 + b)) ∧
              mget? t.cur.next k = some (pcOf e))) ∧
    (∀ g : BitVec 4, opLegal (.exit g) s.me.regs = true →
      (∀ k, k < s.me.nsl → (s.me.slice k).ended = true ∨ (k ∈ s.cur.slices ∧ lanesIn (guardedLanes s g) k ≠ 0 ∧
        (s.me.slice k).mask &&& ~~~lanesIn (guardedLanes s g) k = 0 ∧ (s.me.slice k).depth = 0)) →
      (s.isSuper = true → exec (.exit g) s = .next (s.takeTrap { tcause := 0x61, slot := 3 })) ∧
      (s.isSuper = false → ∃ t, exec (.exit g) s = .next t ∧ t.me.ended = true ∧ t.me.parts = []))

/-- R180, R337: JMPT whose indices are all in the table and whose entries can be read sends each slice's participating lanes to P plus
16 times their entry, the others to P + 16, group by group of one target in ascending order of least index: the first group
continues and the others wait on the stack, the next one on top. An index beyond the table raises 0x66 with its lanes, an entry with a bit of
[31:24] set 0x61, groups that a slice's stack has no room for 0x67 with the slices, and a read of the table that fails the fetch-fault
trap with its cause. That the indices are checked before the table is read is the model's reading (log entry 20). -/
def Obligations.JumpTableResults : Prop :=
  ∀ (s : State) (g : BitVec 4) (x : BitVec 8) (tofs : BitVec 16) (n : BitVec 8), PartOk s → opLegal (.jmpt g x tofs n) s.me.regs = true →
    let ls := guardedLanes s g
    let idx (l : Nat) : Nat := (s.srcLane x 20 l).toNat
    let place (i : Nat) : Nat := (s.cur.pc + BitVec.ofInt 64 (16 * tofs.toInt)).toNat + 4 * i
    let goes (es : List (Nat × Nat)) (l : Nat) : W64 × Nat :=
      if l ∈ ls then (s.cur.pc + BitVec.ofInt 64 (16 * sextInt (((es.find? (fun e => e.1 == place (idx l))).map Prod.snd).getD 0) 24), idx l)
      else (s.cur.pc + 16, n.toNat + 1)
    let groups (es : List (Nat × Nat)) (k : Nat) : Nat :=
      (((s.activeLanes.filter (fun l => l / 4 == k)).map (fun l => (goes es l).1)).eraseDups).length
    let room (es : List (Nat × Nat)) (k : Nat) : Prop := (s.me.slice k).depth + (groups es k - 1) ≤ 8
    ((∃ l ∈ ls, n.toNat < idx l) →
      ∃ m : BitVec 32, exec (.jmpt g x tofs n) s = .next (s.takeTrap { tcause := 0x66, slot := 3, info := m.toNat }) ∧
        ∀ l, l < 32 → (m.getLsbD l = true ↔ l ∈ ls ∧ n.toNat < idx l)) ∧
    (∀ (u : State) (cause : Nat) (page : Option (Nat × Nat × Nat)), (∀ l ∈ ls, idx l ≤ n.toNat) → cause ≠ 0 →
      s.readTable s.myCrew.ctx (s.tableReads g x tofs n) = (u, .error (cause, page)) →
      let v := u.fetchRecord s.cur.core s.myCrew.ctx cause page
      exec (.jmpt g x tofs n) s = .next (v.1.takeTrap { tcause := 0x6B, slot := 4, dcause := cause, info := v.2, page := page })) ∧
    (∀ (u : State) (es : List (Nat × Nat)), (∀ l ∈ ls, idx l ≤ n.toNat) →
      s.readTable s.myCrew.ctx (s.tableReads g x tofs n) = (u, .ok es) →
      ((∃ e ∈ es, 2 ^ 24 ≤ e.2) → exec (.jmpt g x tofs n) s = .next (u.takeTrap { tcause := 0x61, slot := 3 })) ∧
      ((∀ e ∈ es, e.2 < 2 ^ 24) → (∃ k ∈ s.cur.slices, ¬ room es k) →
        ∃ m : Nat, exec (.jmpt g x tofs n) s = .next (u.takeTrap { tcause := 0x67, slot := 3, info := m }) ∧
          ∀ k, m.testBit k = true ↔ k ∈ s.cur.slices ∧ ¬ room es k)) ∧
    (∀ (u : State) (es : List (Nat × Nat)), (∀ l ∈ ls, idx l ≤ n.toNat) →
      s.readTable s.myCrew.ctx (s.tableReads g x tofs n) = (u, .ok es) →
      (∀ e ∈ es, e.2 < 2 ^ 24) → (∀ k ∈ s.cur.slices, room es k) → u.me = s.me → u.cur = s.cur →
      let dest := goes es
      ∃ t, exec (.jmpt g x tofs n) s = .next t ∧ CFrame u t ∧ t.me = { s.me with slices := t.me.slices } ∧ t.cur.jmpt = true ∧
        (∀ k, k ∉ s.cur.slices → t.me.slice k = s.me.slice k) ∧
        ∀ k ∈ s.cur.slices,
          let mine := s.activeLanes.filter (fun l => l / 4 == k)
          let y := t.me.slice k
          let d0 := (s.me.slice k).depth
          (mine = [] → y = s.me.slice k ∧ mget? t.cur.next k = some (s.cur.pc + 16)) ∧
          (mine ≠ [] → ∃ (h : W64 × Nat × BitVec 4) (rest : List (W64 × Nat × BitVec 4)),
            (h :: rest).Pairwise (fun a b => a.2.1 < b.2.1 ∧ a.1 ≠ b.1) ∧
            (∀ q ∈ h :: rest, q.2.2 = lanesIn (mine.filter (fun l => (dest l).1 == q.1)) k ∧ q.2.2 ≠ 0 ∧
              (∃ l ∈ mine, (dest l) = (q.1, q.2.1)) ∧ ∀ l ∈ mine, (dest l).1 = q.1 → q.2.1 ≤ (dest l).2) ∧
            (∀ l ∈ mine, ∃ q ∈ h :: rest, q.1 = (dest l).1) ∧
            y.mask = h.2.2 ∧ mget? t.cur.next k = some h.1 ∧ y.depth = d0 + rest.length ∧
            ∀ i, i < rest.length → (rest.reverse[i]?).map (fun q => stackEntry q.1 q.2.2) = some (mget 0 y.stack (d0 + i))))

namespace Sys2Proof.Machine

/-- The issuing part waits at its bundle: its slices stay, and its wait is set. -/
def PartWaits (s t : State) (w : WaitC) : Prop :=
  t.me.part s.cur.lead = { s.me.part s.cur.lead with wait := w } ∧ (∀ k, k ≠ s.cur.lead → t.me.part k = s.me.part k) ∧
    ∀ k ∈ s.cur.slices, mget? t.cur.next k = some s.cur.pc

/-- The other slices that have not ended all wait at a REGANG. -/
def OthersAtRegang (s : State) : Prop :=
  ∀ k, k < s.me.nsl → (s.me.slice k).ended = false → (s.me.slice k).lead ≠ s.cur.lead →
    ∃ n, (s.me.part (s.me.slice k).lead).wait = .regang n
/-- The slices that have not ended stand at one address. -/
def OneAddress (s : State) : Prop :=
  ∀ j k, j < s.me.nsl → k < s.me.nsl → (s.me.slice j).ended = false → (s.me.slice k).ended = false → (s.me.slice j).pc = (s.me.slice k).pc

end Sys2Proof.Machine

/-- R185, R331, R341: WAITF leaves the part waiting at its bundle, and so does REGANG, with its slices marked, unless the part already
holds every slice that has not ended: then it goes on; the last to arrive at another address raises 0x69. SLEEP and YIELD start a timer of
256 (N + 1) and 4 (N + 1) clocks. -/
def Sys2Proof.Machine.WaitIssue : Prop :=
  ∀ s : State, PartOk s →
    (∀ (ne : BitVec 1) (f : BitVec 5), opLegal (.waitf ne f) s.me.regs = true →
      ∃ t, exec (.waitf ne f) s = .next t ∧ CFrame s t ∧ t.me = { s.me with parts := t.me.parts } ∧
        PartWaits s t (.flag f.toNat (ne == 1))) ∧
    (∀ (sleep : Bool) (n : BitVec 8), let i : Instr := if sleep then .sleep n else .yield n
      opLegal i s.me.regs = true →
      ∃ t, exec i s = .next t ∧ (∀ a, Mem.read t.mem a = Mem.read s.mem a) ∧ t.cur = s.cur ∧ t.me = { s.me with parts := t.me.parts } ∧
        t = { s with cores := t.cores, agenda := t.agenda } ∧ (∀ c g, c ≠ s.cur.core ∨ g ≠ s.cur.slot → t.gang? c g = s.gang? c g) ∧
        t.me.part s.cur.lead = { s.me.part s.cur.lead with
          wait := .timer (s.clock + (if sleep then 256 else 4) * (n.toNat + 1)) (!sleep) } ∧
        t.agenda = s.agenda ++ [{ op := .waitTimerExpiry, arg := .part s.cur.core s.cur.slot s.cur.lead }]) ∧
    (opLegal .regang s.me.regs = true →
      ((OthersAtRegang s ∧ ¬ OneAddress s) → exec .regang s = .next (s.takeTrap { tcause := 0x69, slot := 3 })) ∧
      (¬ (OthersAtRegang s ∧ ¬ OneAddress s) →
        ((∀ k, k < s.me.nsl → (s.me.slice k).ended = false → k ∈ s.cur.slices) →
          ∃ t, exec .regang s = .next t ∧ CFrame s t ∧ t.cur = s.cur ∧ t.me = { s.me with foreign := t.me.foreign }) ∧
        ((∃ k, k < s.me.nsl ∧ (s.me.slice k).ended = false ∧ k ∉ s.cur.slices) →
          ∃ t, exec .regang s = .next t ∧ CFrame s t ∧ t.me = { s.me with parts := t.me.parts, slices := t.me.slices } ∧
            PartWaits s t (.regang s.clock) ∧
            ∀ k, t.me.slice k = if k ∈ s.cur.slices then { s.me.slice k with rgw := true } else s.me.slice k)))

namespace Sys2Proof.Machine

/-- A trap is taken by the gang in a slot (R401, R402): the gang freezes with its registers as they are; the frame records the cause,
the slot, the flag, the next bundle's address bits, INFO and the clock; its timers end; the crew's PMC13 counts it; nothing else
changes but the note of a bad word that its bundle has read (R80). -/
structure TrapTaken (s t : State) (c slot : Nat) (x : Trap) (next : W64) : Prop where
  gang : t.gang c slot = { s.gang c slot with frozen := true, frameOpen := true, limg0 := false, limgFlags := false,
                                              frame := (t.gang c slot).frame, parts := (t.gang c slot).parts,
                                              bad := (t.gang c slot).bad, asyncErr := (t.gang c slot).asyncErr }
  errors : (s.gang c slot).bad = false → (t.gang c slot).bad = false ∧ (t.gang c slot).asyncErr = (s.gang c slot).asyncErr
  tcause : (t.gang c slot).frame.tcause = x.tcause
  dcause : (t.gang c slot).frame.dcause = x.dcause
  slotNo : (t.gang c slot).frame.slot = x.slot
  flag : (t.gang c slot).frame.flag = x.flag
  next : (t.gang c slot).frame.next = next &&& 0x01FFFFFFFFFFFFF0
  info : (t.gang c slot).frame.info = BitVec.ofNat 64 x.info
  clock : (t.gang c slot).frame.clock = s.clock
  valid : ∀ k, k < 8 → ((t.gang c slot).frame.timing.getD k 0).getLsbD 15 = (decide (k < (s.gang c slot).nsl) && !((s.gang c slot).slice k).ended)
  timers : ∀ p ∈ (t.gang c slot).parts, ∀ u y, p.2.wait ≠ .timer u y
  counts : mget 0 (t.crew c (s.gang c slot).cslot).pmc 13 = mget 0 (s.crew c (s.gang c slot).cslot).pmc 13 + 1
  crews : ∀ d k, t.crew d k = { s.crew d k with pmc := (t.crew d k).pmc }
  others : ∀ d g, d ≠ c ∨ g ≠ slot → t.gang? d g = s.gang? d g
  mem : ∀ a, Mem.read t.mem a = Mem.read s.mem a
  rest : t = { s with cores := t.cores, cur := t.cur }

/-- A part's C-slot wait is tested in this clock: its gang runs, its stand is unparked, and ERET has not just entered the wait (R404). -/
def WaitTested (s : State) (c slot lead : Nat) : Prop :=
  let g := s.gang c slot
  (s.gang? c slot).isSome = true ∧ g.frozen = false ∧ (s.crew c g.cslot).phase ≠ .unparked ∧ (g.part lead).tests ≤ s.clock ∧
    ∀ k ∈ g.partSlices lead, k < g.slices.length

/-- No MACQ beside the wait is still ungranted (R457). -/
def MillIsOurs (s : State) (c slot lead : Nat) : Prop :=
  ((s.gang c slot).part lead).macq = true → (s.core c).mill.owner = some slot

/-- A part's wait has ended (R186, R209): its slices stand at the next bundle, which issues from the next clock on; the gang's other
parts and slices, the other gangs and memory are as before. -/
def WaitOver (s t : State) (c slot lead : Nat) : Prop :=
  let g := s.gang c slot
  let h := t.gang c slot
  h.part lead = { g.part lead with wait := .none, macq := false, next := max (g.part lead).next (s.clock + 1), fetched := none, fetchFault := none } ∧
    (∀ k, k ≠ lead → h.part k = g.part k) ∧
    (∀ k, h.slice k = if k ∈ g.partSlices lead then { g.slice k with pc := (g.slice k).pc + 16, rgw := false } else g.slice k) ∧
    (∀ d x, d ≠ c ∨ x ≠ slot → t.gang? d x = s.gang? d x) ∧ ∀ a, Mem.read t.mem a = Mem.read s.mem a

end Sys2Proof.Machine

/-- R331, R48, R132: a WAITF at a flag of count 0 ends and observes the flag, but where the flag's error is set and the form does not
ignore errors: then the gang takes 0x6C with the flag's cause; one at a flag still counting goes on waiting, or takes 0x6D where an
access counted on it waits for the supervisor. SLEEP and YIELD end when their time has come. -/
def Sys2Proof.Machine.WaitEnds : Prop :=
  ∀ (s : State) (c slot lead : Nat), WaitTested s c slot lead →
    let g := s.gang c slot
    let t := s.testPart c slot lead
    (∀ (f : Nat) (ne : Bool), (g.part lead).wait = .flag f ne →
      let x := g.flag f
      (x.count = 0 → (x.err = false ∨ ne = true) → MillIsOurs s c slot lead →
        WaitOver s t c slot lead ∧ (t.gang c slot).flags = g.flags ∧
          (t.gang c slot).marks = g.marks.filter (fun m => !(m.flag == f && m.born < s.clock))) ∧
      (x.count = 0 → x.err = true → ne = false →
        TrapTaken s t c slot { tcause := 0x6C, slot := 3, dcause := x.cause, flag := f } (g.slice lead).pc) ∧
      (∀ cause info, x.count ≠ 0 → s.faultOn c slot f = some (cause, info) →
        TrapTaken s t c slot { tcause := 0x6D, slot := 3, dcause := cause, flag := f, info := info } (g.slice lead).pc) ∧
      (x.count ≠ 0 → s.faultOn c slot f = none → t = s)) ∧
    (∀ (u : Nat) (y : Bool), (g.part lead).wait = .timer u y → s.ev = .part c slot lead → u ≤ s.clock →
      ∃ v, exec .waitTimerExpiry s = .next v ∧ ((v.gang c slot).part lead).wait = .none ∧
        (y = true → ((v.gang c slot).part lead).age = 0) ∧ (y = false → ((v.gang c slot).part lead).age = (g.part lead).age) ∧
        (v.gang c slot).slices = g.slices ∧ ∀ a, Mem.read v.mem a = Mem.read s.mem a)

/-- R185, R396: when every part of a gang waits at a REGANG, its slices merge where they stand at one address: into one part, under the
lowest of them, at the next bundle, of the largest AGE, which issues once every part's gap has passed and every fixed-latency result
is written; at two addresses the part that began to wait last takes 0x69. -/
def Sys2Proof.Machine.RegangMerges : Prop :=
  ∀ (s : State) (c slot : Nat), let g := s.gang c slot
    (s.gang? c slot).isSome = true → g.frozen = false → (s.crew c g.cslot).phase ≠ .unparked → g.parts ≠ [] →
    (∀ q ∈ g.parts, ∃ n, q.2.wait = .regang n ∧ q.2.tests ≤ s.clock) →
    let live (k : Nat) : Prop := k < g.nsl ∧ (g.slice k).ended = false
    let t := s.testRegang c slot
    let h := t.gang c slot
    ((∀ j k, live j → live k → (g.slice j).pc = (g.slice k).pc) →
      (∀ q ∈ g.parts, q.2.macq = true → (s.core c).mill.owner = some slot) →
      ∀ lead, live lead → (∀ k, live k → lead ≤ k) → (∀ k, live k → k < g.slices.length) →
        (∀ k, live k → h.slice k = { g.slice k with pc := (g.slice k).pc + 16, rgw := false, lead := lead }) ∧
        ∃ p, h.parts = [(lead, p)] ∧ p.wait = .none ∧ s.clock < p.next ∧
          (∀ q ∈ g.parts, q.2.next ≤ p.next ∧ q.2.age ≤ p.age) ∧ (∃ q ∈ g.parts, p.age = q.2.age) ∧ ∀ w ∈ g.pend, w.due ≤ p.next) ∧
    ((∃ j k, live j ∧ live k ∧ (g.slice j).pc ≠ (g.slice k).pc) →
      ∃ q ∈ g.parts, ∃ n, q.2.wait = .regang n ∧ (∀ x ∈ g.parts, ∀ m, x.2.wait = .regang m → m ≤ n) ∧
        TrapTaken s t c slot { tcause := 0x69, slot := 3 } (g.slice q.1).pc)

/-- The waits of the C slot and their ends (from R48, R185, R331, R341). -/
def Obligations.WaitResults : Prop := WaitIssue ∧ WaitEnds ∧ RegangMerges

namespace Sys2Proof.Machine

/-- The keys of a table rise. -/
def KeysRise {α : Type} (m : Map α) : Prop := m.Pairwise (fun a b => a.1 < b.1)

/-- The ring of checker records (R456): its bytes alone may change when the checker is on. -/
def State.inCheckerRing (s : State) (a : Nat) : Prop :=
  let ctl := s.dreg 0x3900
  ctl.getLsbD 63 = true ∧ bitsOf ctl.toNat 55 12 * 4096 ≤ a ∧ a < bitsOf ctl.toNat 55 12 * 4096 + 32 * 2 ^ (bitsOf ctl.toNat 59 56 + 6)

/-- What a barrier operation leaves as it is: memory but for the checker's ring (whose records an early load may read again), every
register of every gang (only the waits of the crew's parts change), and every crew but the barrier words of the issuing one. -/
structure BFrame (s t : State) : Prop where
  mem : ∀ a, ¬ s.inCheckerRing a → Mem.read t.mem a = Mem.read s.mem a
  rest : t = { s with cores := t.cores, mem := t.mem, poison := t.poison, dregs := t.dregs, reqs := t.reqs, cur := t.cur, agenda := t.agenda }
  issue : t.cur = { s.cur with next := t.cur.next }
  cores : ∀ c, c ≠ s.cur.core → t.core c = s.core c
  core : t.core s.cur.core = { s.core s.cur.core with gangs := (t.core s.cur.core).gangs, crews := (t.core s.cur.core).crews }
  gangs : ∀ g, t.gang? s.cur.core g = (s.gang? s.cur.core g).map (fun x => { x with parts := (t.gang s.cur.core g).parts })
  crews : ∀ k, k ≠ s.me.cslot → t.crew s.cur.core k = s.crew s.cur.core k
  crew : t.myCrew = { s.myCrew with bst := t.myCrew.bst, sbst := t.myCrew.sbst, barIds := t.myCrew.barIds, barDone := t.myCrew.barDone,
                                    sbarSent := t.myCrew.sbarSent, carrNext := t.myCrew.carrNext }

/-- Gangs of the issuing crew that have not ended, and those among some arrival bits [31:16] of a barrier word. -/
def State.liveGangs (s : State) : List (Nat × Gang) := (s.core s.cur.core).live s.me.cslot
def arrivedIn (b : W64) : Nat := ((List.range 16).filter (fun i => b.getLsbD (16 + i))).length
/-- Arrivals that complete a phase (R344): COUNT, or every gang where COUNT is 0 or more than there are. -/
def State.barNeed (s : State) (b : W64) : Nat :=
  let n := b.toNat / 2 ^ 56 % 32
  if n = 0 then s.liveGangs.length else min n s.liveGangs.length
/-- A barrier word with the gang's arrival: its DONE bit cleared, its ARR bit set. -/
def arriveWord (b : W64) (cg : Nat) : W64 := (b &&& ~~~(1#64 <<< cg)) ||| (1#64 <<< (16 + cg))
/-- A barrier word whose phase has completed: ARR moves to DONE, and the phase bit 62 changes. -/
def doneWord (b : W64) : W64 := ((b ||| (b >>> 16 &&& 0xFFFF)) &&& ~~~0xFFFF0000#64) ^^^ 0x4000000000000000#64
/-- The word of barrier n after the issuing gang's arrival. -/
def State.arrivedWord (s : State) (n : Nat) : W64 :=
  let b : W64 := mget 0 s.myCrew.bst n
  let a := if b.getLsbD (16 + s.me.cgang) then b else arriveWord b s.me.cgang
  if s.liveGangs ≠ [] ∧ s.barNeed a ≤ arrivedIn a then doneWord a else a
/-- What a gang's wait finds in a word: in an unfinished phase of its own it waits to clear DONE; with DONE set it clears it and the
wait is met; else it waits. -/
def waitFinds (n : Nat) (b : W64) (cg : Nat) : WaitC × W64 :=
  if b.getLsbD (16 + cg) then (.bar n true false, b)
  else if b.getLsbD cg then (.bar n false true, b &&& ~~~(1#64 <<< cg))
  else (.bar n false false, b)
/-- The stand barrier's word with the crew's position in CARR. -/
def carrWord (b : W64) (pos : Nat) : W64 := b ||| (1#64 <<< (48 + pos))

end Sys2Proof.Machine

/-- R343, R344: BARSET of a barrier no gang has arrived at sets it with its count. BARA arrives once in a phase, which completes
with the last gang it needs: the arrivals become DONE bits and the phase changes; BARW takes its gang's DONE bit or waits for it,
and BARAW does both. A barrier not set refuses them. -/
def Sys2Proof.Machine.BarrierResults : Prop :=
  ∀ (s : State) (b : BitVec 4), s.me.cgang < 16 → (s.gang? s.cur.core s.cur.slot).isSome = true →
    let n := b.toNat
    let w : W64 := mget 0 s.myCrew.bst n
    (∀ c : BitVec 5, opLegal (.barset c b) s.me.regs = true → w.toNat / 2 ^ 16 % 2 ^ 16 = 0 →
      ∃ t, exec (.barset c b) s = .next t ∧ BFrame s t ∧ t.me = s.me ∧ t.mem = s.mem ∧
        t.myCrew = { s.myCrew with bst := mset s.myCrew.bst n ((w &&& ~~~0x9F00000000000000#64) ||| 0x8000000000000000#64 |||
          (c.setWidth 64 <<< 56)) }) ∧
    (opLegal (.bara b) s.me.regs = true → w.getLsbD 63 = true →
      ∃ t, exec (.bara b) s = .next t ∧ BFrame s t ∧ t.cur = s.cur ∧ mget 0 t.myCrew.bst n = s.arrivedWord n ∧
        (∀ m, m ≠ n → mget 0 t.myCrew.bst m = mget 0 s.myCrew.bst m) ∧ t.myCrew.sbst = s.myCrew.sbst) ∧
    (opLegal (.barw b) s.me.regs = true → w.getLsbD 63 = true →
      ∃ t, exec (.barw b) s = .next t ∧ BFrame s t ∧ t.mem = s.mem ∧
        (t.me.part s.cur.lead).wait = (waitFinds n w s.me.cgang).1 ∧ mget 0 t.myCrew.bst n = (waitFinds n w s.me.cgang).2 ∧
        (∀ m, m ≠ n → mget 0 t.myCrew.bst m = mget 0 s.myCrew.bst m) ∧ ∀ k ∈ s.cur.slices, mget? t.cur.next k = some s.cur.pc) ∧
    (opLegal (.baraw b) s.me.regs = true → w.getLsbD 63 = true →
      ∃ t, exec (.baraw b) s = .next t ∧ BFrame s t ∧
        (t.me.part s.cur.lead).wait = (waitFinds n (s.arrivedWord n) s.me.cgang).1 ∧
        mget 0 t.myCrew.bst n = (waitFinds n (s.arrivedWord n) s.me.cgang).2 ∧
        (∀ m, m ≠ n → mget 0 t.myCrew.bst m = mget 0 s.myCrew.bst m) ∧ ∀ k ∈ s.cur.slices, mget? t.cur.next k = some s.cur.pc) ∧
    (w.getLsbD 63 = false → ∀ i ∈ [Instr.bara b, .barw b, .baraw b], opLegal i s.me.regs = true →
      exec i s = .next (s.takeTrap { tcause := 0x61, slot := 3 }))

/-- R345: SBAR.A sets its gang's arrival bit; with the crew's last arrival the crew's bit is sent to the other crews of the stand, and a
crew outside a stand lot completes the phase. SBAR.W takes its DONE bit or waits for it, and SBAR.AW does both. -/
def Sys2Proof.Machine.StandBarrierResults : Prop :=
  ∀ s : State, s.me.cgang < 16 → s.myCrew.spos < 8 → (s.gang? s.cur.core s.cur.slot).isSome = true → KeysRise (s.core s.cur.core).crews →
    let w : W64 := s.myCrew.sbst
    let cg := s.me.cgang
    let a := if w.getLsbD (16 + cg) then w else arriveWord w cg
    let last : Prop := s.myCrew.sbarSent = false ∧ s.liveGangs ≠ [] ∧ ∀ g ∈ s.liveGangs, a.getLsbD (16 + g.2.cgang) = true
    (opLegal .sbarA s.me.regs = true →
      ∃ t, exec .sbarA s = .next t ∧ BFrame s t ∧ t.cur = s.cur ∧ t.myCrew.bst = s.myCrew.bst ∧
        (¬ last → t.myCrew.sbst = a ∧ t.agenda = s.agenda) ∧
        (last → s.myCrew.standN = 0 → s.myCrew.carrNext = [] →
          t.myCrew.sbst = doneWord (carrWord a s.myCrew.spos) &&& ~~~0x00FF000000000000#64 ∧ t.myCrew.sbarSent = false) ∧
        (last → s.myCrew.standN ≠ 0 →
          (∀ p c k, s.standPeer s.cur.core s.me.cslot p = some (c, k) → p < 8 → ¬ (c = s.cur.core ∧ k = s.me.cslot) →
            ∃ ids, { op := .sbarCarrArrival, arg := .carr c k s.myCrew.stand s.myCrew.spos (w.getLsbD 62) ids : Pending } ∈ t.agenda))) ∧
    (opLegal .sbarW s.me.regs = true →
      ∃ t, exec .sbarW s = .next t ∧ BFrame s t ∧ t.mem = s.mem ∧ t.myCrew.bst = s.myCrew.bst ∧
        (∀ k ∈ s.cur.slices, mget? t.cur.next k = some s.cur.pc) ∧
        (w.getLsbD (16 + cg) = true → t.myCrew.sbst = w ∧ (t.me.part s.cur.lead).wait = .sbar true false) ∧
        (w.getLsbD (16 + cg) = false → w.getLsbD cg = true →
          t.myCrew.sbst = w &&& ~~~(1#64 <<< cg) ∧ (t.me.part s.cur.lead).wait = .sbar false true) ∧
        (w.getLsbD (16 + cg) = false → w.getLsbD cg = false → t.myCrew.sbst = w ∧ (t.me.part s.cur.lead).wait = .sbar false false)) ∧
    (opLegal .sbarAw s.me.regs = true →
      ∃ u t, exec .sbarA s = .next u ∧ exec .sbarAw s = .next t ∧ BFrame s t ∧ (∀ k ∈ s.cur.slices, mget? t.cur.next k = some s.cur.pc) ∧
        ((t.me.part s.cur.lead).wait = if u.myCrew.sbst.getLsbD (16 + cg) then .sbar true false
          else if u.myCrew.sbst.getLsbD cg then .sbar false true else .sbar false false))

namespace Sys2Proof.Machine

/-- The issuing gang's arrival at barrier n completes the phase (R344). -/
def State.lastArrival (s : State) (n : Nat) : Prop :=
  let b : W64 := mget 0 s.myCrew.bst n
  s.liveGangs ≠ [] ∧ s.barNeed (if b.getLsbD (16 + s.me.cgang) then b else arriveWord b s.me.cgang) ≤
    arrivedIn (if b.getLsbD (16 + s.me.cgang) then b else arriveWord b s.me.cgang)

end Sys2Proof.Machine

/-- R344, R345: the arrival that completes a phase meets the wait of every part of the crew that waits on the barrier, and so does the
last crew's bit at a crew of its stand; a wait that is met ends, clearing its gang's DONE bit where it waited for a phase of its
own, and its gang's later accesses come after those the arrivals covered (R133); one that is not met goes on. -/
def Sys2Proof.Machine.BarrierReleases : Prop :=
  (∀ (s t : State) (b : BitVec 4) (j k : Nat) (cl m : Bool) (g : Gang), exec (.bara b) s = .next t → opLegal (.bara b) s.me.regs = true →
    (mget 0 s.myCrew.bst b.toNat).getLsbD 63 = true → s.me.cgang < 16 → (s.gang? s.cur.core s.cur.slot).isSome = true →
    s.lastArrival b.toNat → s.gang? s.cur.core j = some g → g.cslot = s.me.cslot → (g.part k).wait = .bar b.toNat cl m →
    ((t.gang s.cur.core j).part k).wait = .bar b.toNat cl true) ∧
  (∀ (s : State) (c cs stand pos : Nat) (ph : Bool) (ids : List Nat) (w : Crew), s.ev = .carr c cs stand pos ph ids →
    mget? (s.core c).crews cs = some w → w.standN ≠ 0 → w.stand = stand → w.sbst.getLsbD 62 = ph → pos < 8 →
    (∀ p, p < 8 → s.standPeer c cs p ≠ none → p = pos ∨ w.sbst.getLsbD (48 + p) = true) →
    ∃ t, exec .sbarCarrArrival s = .next t ∧ (∀ a, Mem.read t.mem a = Mem.read s.mem a) ∧
      (w.carrNext = [] → (t.crew c cs).sbst = doneWord (carrWord w.sbst pos) &&& ~~~0x00FF000000000000#64) ∧
      ∀ (j k : Nat) (cl m : Bool) (g : Gang), s.gang? c j = some g → g.cslot = cs → (g.part k).wait = .sbar cl m →
        ((t.gang c j).part k).wait = .sbar cl true) ∧
  (∀ (s : State) (c slot lead n : Nat) (cl met stand : Bool), WaitTested s c slot lead → (s.gang c slot).cgang < 16 →
    ((s.gang c slot).part lead).wait = (if stand then .sbar cl met else .bar n cl met) →
    let g := s.gang c slot
    let w := s.crew c g.cslot
    let t := s.testPart c slot lead
    (met = false → t = s) ∧
    (met = true → MillIsOurs s c slot lead → WaitOver s t c slot lead ∧
      (∀ id, id ∈ (t.gang c slot).barQ ↔ id ∈ g.barQ ∨ id ∈ mget [] w.barDone (if stand then 16 else n)) ∧
      (stand = false → mget 0 (t.crew c g.cslot).bst n =
        if cl then mget 0 w.bst n &&& ~~~(1#64 <<< g.cgang) else mget 0 w.bst n) ∧
      (stand = true → (t.crew c g.cslot).sbst = if cl then w.sbst &&& ~~~(1#64 <<< g.cgang) else w.sbst)))

/-- Crew barriers, the stand barrier and the end of their waits (from R342 to R345). -/
def Obligations.BarrierOperationResults : Prop := BarrierResults ∧ StandBarrierResults ∧ BarrierReleases

/-- R218, R400 to R402: a precise trap freezes the issuing gang with the bundle itself as the next one and no other effect; a bad word
that the bundle's slots have read leaves its asynchronous error pending (R80). -/
def Sys2Proof.Machine.PreciseTrapTaken : Prop :=
  ∀ (s : State) (x : Trap), TrapTaken s (s.takeTrap x) s.cur.core s.cur.slot x s.cur.pc ∧ (s.takeTrap x).cur = { s.cur with trap := some x } ∧
    (s.me.bad = true → x.slot ≠ 4 → (s.takeTrap x).me.bad = false ∧ (s.takeTrap x).me.asyncErr = true)

/-- R218: an operation whose encoding or registers are not legal traps with 0x61 and has no other effect. -/
def Sys2Proof.Machine.VectorIllegal : Prop :=
  ∀ (i : Instr) (n : Nat) (o : VOp) (s : State), i.vView = some (n, o) → opLegal i s.me.regs = false →
    exec i s = .next (s.takeTrap { tcause := 0x61, slot := 0 })

/-- R346: TRAP, BKPT and SYSC freeze their gang after the bundle, with cause 0x70, 0x71 and 0x72, their operand in INFO and P + 16 as
the next bundle. -/
def Sys2Proof.Machine.SoftwareTrapResults : Prop :=
  ∀ s : State,
    (∀ n : BitVec 8, opLegal (.trap n) s.me.regs = true →
      ∃ t, exec (.trap n) s = .next t ∧ t.cur = s.cur ∧
        TrapTaken s t s.cur.core s.cur.slot { tcause := 0x70, slot := 3, info := n.toNat } (s.cur.pc + 16)) ∧
    (∀ n : BitVec 8, opLegal (.bkpt n) s.me.regs = true →
      ∃ t, exec (.bkpt n) s = .next t ∧ t.cur = s.cur ∧
        TrapTaken s t s.cur.core s.cur.slot { tcause := 0x71, slot := 3, info := n.toNat } (s.cur.pc + 16)) ∧
    (∀ n : BitVec 24, opLegal (.sysc n) s.me.regs = true →
      ∃ t, exec (.sysc n) s = .next t ∧ t.cur = s.cur ∧
        TrapTaken s t s.cur.core s.cur.slot { tcause := 0x72, slot := 3, info := n.toNat } (s.cur.pc + 16))

/-- Taking a trap: what every precise trap does, where an illegal vector operation traps, and the software traps (from R218, R346, R400 to R402). -/
def Obligations.TrapResults : Prop := PreciseTrapTaken ∧ VectorIllegal ∧ SoftwareTrapResults

/-- R347, R404: ERET by the supervisor of a frozen gang whose crew runs lets it run on: its latches and lx1 come from the frame, and after a
kind-0 LIMG the flags that its lines held; a part in a C-slot wait tests it again from the next clock, another issues after the time its
timing word leaves; a watchpoint's match not yet taken comes first (R400). Its registers stay. By another gang it is privileged (0x62); of
an empty slot, a gang not frozen, a supervisor, or one whose crew is stopped or parked it is refused (0x61). Latches left alone where the
frame is not yet written are the model's reading (log entry 19). -/
def Obligations.TrapReturnResults : Prop :=
  ∀ (s : State) (slot : BitVec 6), opLegal (.eret slot) s.me.regs = true →
    let c := s.cur.core
    (∀ g, s.isSuper = true → s.gang? c slot.toNat = some g → g.super = false → g.frozen = true →
      ((s.crew c g.cslot).phase = .running ∨ (s.crew c g.cslot).phase = .unparked) →
      (∃ k, k < g.nsl ∧ (g.slice k).ended = false) →
      ∃ t h, exec (.eret slot) s = .next t ∧ t.gang? c slot.toNat = some h ∧ (∀ a, Mem.read t.mem a = Mem.read s.mem a) ∧
        (∀ d x, d ≠ c ∨ x ≠ slot.toNat → t.gang? d x = s.gang? d x) ∧ (∀ d k, t.crew d k = s.crew d k) ∧
        h = { g with frozen := false, frameOpen := false, restored := false, limg0 := false, limgFlags := false,
                     lx1 := h.lx1, flags := h.flags, slices := h.slices, parts := h.parts, watchDue := g.watch.isSome } ∧
        (g.frameOpen = false → h.lx1 = g.frame.lx1 ∧ ∀ k j l, k < g.slices.length → j < 4 → l < 32 →
          (∃ e, (h.slice k).latches[j]? = some e ∧ e.ready ≤ s.clock ∧ e.mask.getLsbD l = true ∧ laneGet e.vals l = laneGet (g.frame.lv.getD j []) l)) ∧
        (g.limg0 = false ∨ g.limgFlags = true → h.flags = g.flags) ∧
        (g.limg0 = true → g.limgFlags = false → ∀ n, n < 32 →
          let w := (g.frame.flags.getD n 0).toNat
          h.flag n = if g.limgMask.getLsbD n then { count := w % 64, err := w.testBit 7, cause := w / 256 } else g.flag n) ∧
        (∀ k, (h.slice k).pc = (g.slice k).pc ∧ (h.slice k).mask = (g.slice k).mask ∧ (h.slice k).depth = (g.slice k).depth ∧
          (h.slice k).ended = (g.slice k).ended) ∧
        (∀ k p, mget? h.parts k = some p →
          let w := g.frame.timing.getD k 0
          (w.getLsbD 14 = true → p.wait.inside = true ∧ s.clock + 1 ≤ p.next ∧ p.tests = s.clock + 1) ∧
          (w.getLsbD 14 = false → p.wait = .none ∧ p.next = s.clock + 1 + w.toNat % 32 ∧ p.bankd = w.toNat / 2048 % 8))) ∧
    (s.isSuper = false → exec (.eret slot) s = .next (s.takeTrap { tcause := 0x62, slot := 3 })) ∧
    (s.isSuper = true → (s.gang? c slot.toNat = none ∨ ∃ g, s.gang? c slot.toNat = some g ∧ (g.super = true ∨ g.frozen = false ∨
        ((s.crew c g.cslot).phase ≠ .running ∧ (s.crew c g.cslot).phase ≠ .unparked))) →
      exec (.eret slot) s = .next (s.takeTrap { tcause := 0x61, slot := 3 }))

namespace Sys2Proof.Machine

/-- The scope of a register that an access by SELGANG may redirect. -/
def redirected (sc : SysScope) : Prop := sc = .gang ∨ sc = .crew ∨ sc = .context

/-- MFS of a register executes (R348, R349): the issuer may read it, and a selected gang is frozen. -/
def MfsExecutes (s : State) (sd : BitVec 5) (reg : BitVec 16) (r : SysRow) : Prop :=
  opLegal (.mfs sd reg) s.me.regs = true ∧ sysRow reg.toNat = some r ∧ (r.gangR = true ∨ s.isSuper = true) ∧
    (redirected r.scope → s.selectable false = true)

/-- MTS to a register executes: the issuer may write it, the gangs it touches are frozen where one is selected, and the value is one
the register takes (R55, R118, R351). -/
def MtsExecutes (s : State) (sa : BitVec 5) (reg : BitVec 16) (r : SysRow) : Prop :=
  opLegal (.mts sa reg) s.me.regs = true ∧ sysRow reg.toNat = some r ∧ (r.gangW = true ∨ s.isSuper = true) ∧
    (redirected r.scope → s.selectable (r.scope == .crew) = true) ∧
    let v := s.sregNow sa.toNat 20
    let w := s.crew s.cur.core (s.gang s.cur.core s.selected).cslot
    (0x28 ≤ reg.toNat → reg.toNat < 0x30 → policyOk (v.setWidth 8) = true) ∧
    (reg.toNat = 0x71 → ∀ k, k < 8 → v.toNat / 16 ^ k % 16 ≤ 8) ∧
    (0x100 ≤ reg.toNat → reg.toNat < 0x180 → reg.toNat - 0x100 < w.granules.length ∧ gtagBad v w.granules.length = false)

/-- What MFS returns of the register that Table 11-8 lists (R350); lx1 and predicates where no write of them is in flight and no other
part has written them, a descriptor where no LDC is still to write it. -/
structure MfsValue (s : State) (reg : Nat) (v : W64) : Prop where
  flag : reg < 0x20 → let f := (s.gang s.cur.core s.selected).flag reg
    v.toNat % 64 = f.count % 64 ∧ v.getLsbD 6 = (s.faultOn s.cur.core s.selected reg).isSome ∧ v.getLsbD 7 = f.err ∧ v.toNat / 256 = f.cause % 256
  carry : reg = 0x21 → (∀ l, l < 32 → (s.gang s.cur.core s.selected).carryOpen s.clock l = false) → s.cur.bad = false →
    (∀ k, s.unmerged .lx1 k = false) →
    v = (s.gang s.cur.core s.selected).lx1.setWidth 64
  ferr : reg = 0x20 → ∀ n, n < 32 → v.getLsbD n = ((s.gang s.cur.core s.selected).flag n).err
  policy : 0x28 ≤ reg → reg < 0x30 → v = ((s.gang s.cur.core s.selected).mpreg (reg - 0x28)).setWidth 64
  seed : reg = 0x30 → v = 0
  rng : 0x40 ≤ reg → reg < 0x60 → v = (laneGet (s.gang s.cur.core s.selected).rng (reg - 0x40)).setWidth 64
  pred : 0x60 ≤ reg → reg < 0x67 → (s.gang s.cur.core s.selected).busy s.clock (.p (reg - 0x60)) = false →
    (∀ k, s.unmerged (.p (reg - 0x60)) k = false) →
    v = ((s.gang s.cur.core s.selected).preg (reg - 0x60)).setWidth 64
  pc : 0x78 ≤ reg → reg < 0x80 → let x := (s.gang s.cur.core s.selected).slice (reg - 0x78)
    v.getLsbD 63 = x.ended ∧ v.getLsbD 62 = x.rgw ∧ v &&& 0x01FFFFFFFFFFFFF0 = x.pc &&& 0x01FFFFFFFFFFFFF0
  mask : reg = 0x70 → (s.gang s.cur.core s.selected).nsl ≤ 8 → ∀ k, k < (s.gang s.cur.core s.selected).nsl →
    v.toNat / 16 ^ k % 16 = ((s.gang s.cur.core s.selected).slice k).mask.toNat
  depth : reg = 0x71 → (s.gang s.cur.core s.selected).nsl ≤ 8 → (∀ k, ((s.gang s.cur.core s.selected).slice k).depth ≤ 8) →
    ∀ k, k < (s.gang s.cur.core s.selected).nsl → v.toNat / 16 ^ k % 16 = ((s.gang s.cur.core s.selected).slice k).depth
  part : reg = 0x72 → (s.gang s.cur.core s.selected).nsl ≤ 8 → ∀ k, k < (s.gang s.cur.core s.selected).nsl →
    v.toNat / 16 ^ k % 16 = ((s.gang s.cur.core s.selected).slice k).lead % 8
  stack : 0x80 ≤ reg → reg < 0xC0 → v = mget 0 ((s.gang s.cur.core s.selected).slice ((reg - 0x80) / 8)).stack ((reg - 0x80) % 8)
  gtag : 0x100 ≤ reg → reg < 0x180 → v =
    (match (s.crew s.cur.core (s.gang s.cur.core s.selected).cslot).granules[reg - 0x100]? with
      | some p => ((s.core s.cur.core).tag p).setWidth 64
      | none => 0)
  wstag : 0x180 ≤ reg → reg < 0x380 → let w := s.crew s.cur.core (s.gang s.cur.core s.selected).cslot
    v = if reg - 0x180 < w.wslots then (mget 0 w.wstag (reg - 0x180)).setWidth 64 else 0
  window : 0x460 ≤ reg → reg < 0x4C0 →
    v = (s.copy s.cur.core (s.ctxOf s.cur.core s.selected)).word s.clock (if reg < 0x480 then reg - 0x460 else reg - 0x440)
  cprog : 0x400 ≤ reg → reg < 0x460 →
    match mget? (s.core s.cur.core).skid (reg - 0x400) with
    | none => v = 0
    | some e => v.toNat / 2 ^ 62 = e.state % 4 ∧ v.toNat / 2 ^ 48 % 256 = e.cause % 256 ∧ v.toNat % 2 ^ 48 = e.done % 2 ^ 48
  mprog : reg = 0x385 → let m := (s.core s.cur.core).mill
    v.toNat / 2 ^ 62 = (if m.state = 2 then 2 else if m.queue = [] then 0 else 1) ∧ v.toNat / 2 ^ 32 % 256 = m.group % 256 ∧
      v.toNat / 2 ^ 24 % 256 = m.tile % 256 ∧ v.toNat / 2 ^ 12 % 4096 = m.queue.length % 4096
  engstop : reg = 0x386 → let e := (s.core s.cur.core).engstop
    v.getLsbD 59 = e.busy ∧ v.toNat / 16 % 16 = e.res % 16 ∧ v.getLsbD 1 = e.cstop ∧ v.getLsbD 0 = e.mstop
  desc : 0x500 ≤ reg → reg < 0x540 → (s.gang s.cur.core s.selected).busy s.clock (.d ((reg - 0x500) / 4)) = false → v = mget 0 (s.gang s.cur.core s.selected).desc (reg - 0x500)
  bar : 0xC0 ≤ reg → reg < 0xD0 → v = mget 0 (s.crew s.cur.core (s.gang s.cur.core s.selected).cslot).bst (reg - 0xC0)
  sbar : reg = 0xD0 → v = (s.crew s.cur.core (s.gang s.cur.core s.selected).cslot).sbst
  pmc : 0x600 ≤ reg → reg < 0x610 → s.selected = s.cur.slot → v = mget 0 s.cur.pmc (reg - 0x600)
  pmcOther : 0x600 ≤ reg → reg < 0x610 → s.selected ≠ s.cur.slot →
    v = mget 0 (s.crew s.cur.core (s.gang s.cur.core s.selected).cslot).pmc (reg - 0x600)
  pmcs : 0x610 ≤ reg → v = 0
  stale : reg = 0x380 → v = BitVec.ofNat 64 (s.core s.cur.core).scrstale
  dev : reg = 0x381 → v = BitVec.ofNat 64 s.devId
  ctx : reg = 0x382 → v = BitVec.ofNat 64 (s.ctxOf s.cur.core s.selected % 4096)
  clock : reg = 0x383 → v = BitVec.ofNat 64 s.clock
  sel : reg = 0x384 → v = (s.core s.cur.core).selgang

end Sys2Proof.Machine

/-- R348 to R350: MFS of a register its issuer may read writes its value to the scalar register after 4 clocks; a register granted
to the supervisor alone raises 0x62 in another gang. -/
def Sys2Proof.Machine.SystemReadResults : Prop :=
  ∀ (s : State) (sd : BitVec 5) (reg : BitVec 16) (r : SysRow),
    (MfsExecutes s sd reg r →
      ∃ t v, exec (.mfs sd reg) s = .next t ∧ CFrame s { t with free := s.free } ∧ t.cur = s.cur ∧
        t.me = { s.me with pend := t.me.pend, marks := t.me.marks } ∧
        Writes s t [⟨s.clock + 4, s.clock, .s sd.toNat, 0, [], v⟩] ∧ MfsValue s reg.toNat v) ∧
    (opLegal (.mfs sd reg) s.me.regs = true → sysRow reg.toNat = some r → r.gangR = false → s.isSuper = false →
      exec (.mfs sd reg) s = .next (s.takeTrap { tcause := 0x62, slot := 3 }))

/-- R348, R349, R351, R19: MTS to a register its issuer may write takes effect after 4 clocks: a window or aperture of the selected
context on this core, the event of a register that has one, else the register itself. MPSET writes a policy register, WINSET both
words of a window for the supervisor alone. -/
def Sys2Proof.Machine.SystemWriteResults : Prop :=
  (∀ (s : State) (sa : BitVec 5) (reg : BitVec 16) (r : SysRow), MtsExecutes s sa reg r →
    let v := s.sregNow sa.toNat 20
    ∃ t, exec (.mts sa reg) s = .next t ∧ t.cur = s.cur ∧ t.free = s.free + 1 ∧ (∀ a, Mem.read t.mem a = Mem.read s.mem a) ∧
      (∀ c k, t.crew c k = s.crew c k) ∧ (∀ c g, c ≠ s.cur.core ∨ g ≠ s.cur.slot → t.gang? c g = s.gang? c g) ∧
      (r.scope = .context →
        let ctx := s.ctxOf s.cur.core s.selected
        let n := if reg.toNat < 0x480 then reg.toNat - 0x460 else reg.toNat - 0x440
        let m : W64 := if 0x480 ≤ reg.toNat then 0x800FFFFFC0000000 else if reg.toNat % 2 = 0 then 0xFFFFFFFFFFFFFE00 else 0xFDFFFFFFFFFFF000
        t.me = s.me ∧ t.agenda = s.agenda ∧
          ((s.copy s.cur.core ctx).pend.Pairwise (fun a b => a.1 ≤ b.1) →
            ∀ i, (t.copy s.cur.core ctx).word (s.clock + 4) i =
              if i = n then v &&& m else (s.copy s.cur.core ctx).word (s.clock + 4) i) ∧
          (∀ i, (t.copy s.cur.core ctx).word s.clock i = (s.copy s.cur.core ctx).word s.clock i)) ∧
      (r.scope ≠ .context → sysEvents reg.toNat v ≠ [] → t.me = s.me ∧
        t.agenda = s.agenda ++ (sysEvents reg.toNat v).map (fun op => { op := op, arg := .sysw s.cur.core s.selected reg.toNat v, due := s.clock + 4 })) ∧
      (r.scope ≠ .context → sysEvents reg.toNat v = [] → t.agenda = s.agenda ∧
        t.me = { s.me with pend := t.me.pend, marks := t.me.marks } ∧
        Writes s t [⟨s.clock + 4, s.clock, .sys s.selected reg.toNat, 0, [], v⟩])) ∧
  (∀ (s : State) (n : BitVec 3) (v : BitVec 8), opLegal (.mpset n v) s.me.regs = true →
    ∃ t, exec (.mpset n v) s = .next t ∧ CFrame s t ∧ t.cur = s.cur ∧ t.me = { s.me with pend := t.me.pend, marks := t.me.marks } ∧
      Writes s t [⟨s.clock + 4, s.clock, .mp n.toNat, 0, [], v.setWidth 64⟩]) ∧
  (∀ (s : State) (a : BitVec 5) (n : BitVec 4), opLegal (.winset a n) s.me.regs = true →
    (s.isSuper = false → exec (.winset a n) s = .next (s.takeTrap { tcause := 0x62, slot := 3 })) ∧
    (s.isSuper = true → s.selectable false = true →
      (s.copy s.cur.core (s.ctxOf s.cur.core s.selected)).pend.Pairwise (fun a b => a.1 ≤ b.1) →
      let ctx := s.ctxOf s.cur.core s.selected
      ∃ t, exec (.winset a n) s = .next t ∧ t.cur = s.cur ∧ t.me = s.me ∧ (∀ x, Mem.read t.mem x = Mem.read s.mem x) ∧
        (∀ c k, t.crew c k = s.crew c k) ∧
        ∀ i, (t.copy s.cur.core ctx).word (s.clock + 4) i =
          (if i = 2 * n.toNat then s.sregNow a.toNat 20 &&& 0xFFFFFFFFFFFFFE00
           else if i = 2 * n.toNat + 1 then s.sregNow (a.toNat + 1) 21 &&& 0xFDFFFFFFFFFFF000
           else (s.copy s.cur.core ctx).word (s.clock + 4) i)))

/-- MFS and MTS, MPSET and WINSET (from R348 to R352). -/
def Obligations.SystemRegisterResults : Prop := SystemReadResults ∧ SystemWriteResults

namespace Sys2Proof.Machine

/-- A C-slot operation that enters one request (R353, R355). -/
def CIssues (s : State) (i : Instr) (f : BitVec 5) (r : Req) (ds : List Dest) : Prop :=
  ∃ t, exec i s = .next t ∧ QFrame s t ∧ t.free = s.free + 1 ∧ (∀ c, (t.core c).chutes = (s.core c).chutes) ∧
    (∀ c k, t.crew c k = s.crew c k) ∧
    (let q := { r with paths0 := (r.lanes.map (fun (p : LaneAcc) => p.path)).eraseDups }
     let ds := s.orderDeps s.me s.myCrew.ctx q
     Enters s t f.toNat { q with deps := ds, scopes := ds.map (s.depScope s.me q), why := ds.map (s.depWhy s.me s.myCrew.ctx q) }) ∧
    MarksDests s t f.toNat ds

/-- The operation is legal, its flag has room. -/
def CReady (i : Instr) (f : BitVec 5) (s : State) : Prop := opLegal i s.me.regs = true ∧ (s.me.flag f.toNat).count < 63

/-- A request of the C slot, under policy 0x23. -/
def cRequest (s : State) (k : ReqKind) (f : BitVec 5) (dest opc z : Nat) (words : List W64) (lanes : List LaneAcc) : Req :=
  { kind := k, core := s.cur.core, slot := s.cur.slot, ctx := s.myCrew.ctx, flag := f.toNat, pol := 0x23, dest := dest, opc := opc, z := z,
    words := words, lanes := lanes, born := s.clock }

/-- The scalar registers of a record from S, with the handle register's low 32 bits last. -/
def joinWords (s : State) (n : Nat) (sr h : BitVec 5) : List W64 :=
  (List.range n).map (fun i => s.sregNow (sr.toNat + i) (10 + i)) ++ [s.sregNow h.toNat 20 &&& 0xFFFFFFFF]
/-- The one access of a join-unit operation. -/
def joinLane : LaneAcc := { lane := 0, path := 4, size := 8, stage := 1 }

/-- The supervisor's gang is selected and frozen, and the image lies at a multiple of 128. -/
def ImageExecutes (s : State) (a : BitVec 5) : Prop :=
  s.isSuper = true ∧ s.selectable false = true ∧ (s.sregNow a.toNat 20).toNat % 128 = 0

/-- Bytes of an image (Table 11-12): latches, vector registers, scalar registers. -/
def imageBytes (kind regs : Nat) : Nat := if kind = 0 then 640 else if kind = 1 then 128 * regs else 256

/-- The pieces of an image: its lines, all on PATH 0 through the supervisor's windows, else one piece with the first cause. -/
def ImagePieces (s : State) (a n : Nat) (wr : Bool) (bs : List Byte) (ls : List LaneAcc) : Prop :=
  let look (i : Nat) : Look := s.look s.cur.core s.myCrew.ctx ((a + 128 * i) % 2 ^ 64) wr
  ((∀ i, i < n / 128 → (look i).cause = 0 ∧ (look i).path = 0) →
    ls = (List.range (n / 128)).map (fun i =>
      { lane := 0, off := 128 * i, ia := (look i).ia, size := 128, data := ofBytesLE ((bs.drop (128 * i)).take 128), stage := 0 })) ∧
  ((∃ i, i < n / 128 ∧ ¬ ((look i).cause = 0 ∧ (look i).path = 0)) → ∃ p, ls = [p] ∧ p.stage = 4 ∧ p.cause ≠ 0)

end Sys2Proof.Machine

/-- R353: PATSET, PORTCFG, QCREATE and QDESTROY send their record and the handle register's value to the join unit as one store-queue
access; the handle register of PORTCFG and QCREATE is pending. A flag at 63 raises 0x64. -/
def Sys2Proof.Machine.JoinOperationIssue : Prop :=
  ∀ (s : State) (sr h f : BitVec 5),
    (CReady (.patset sr h f) f s → CIssues s (.patset sr h f) f (cRequest s .join f h.toNat 0x42 0 (joinWords s 4 sr h) [joinLane]) []) ∧
    (CReady (.portcfg sr h f) f s →
      CIssues s (.portcfg sr h f) f (cRequest s .join f h.toNat 0x42 1 (joinWords s 2 sr h) [joinLane]) [.s h.toNat]) ∧
    (CReady (.qcreate sr h f) f s →
      CIssues s (.qcreate sr h f) f (cRequest s .join f h.toNat 0x42 2 (joinWords s 4 sr h) [joinLane]) [.s h.toNat]) ∧
    (CReady (.qdestroy sr h f) f s → CIssues s (.qdestroy sr h f) f (cRequest s .join f h.toNat 0x42 3 (joinWords s 0 sr h) [joinLane]) []) ∧
    (∀ i ∈ [Instr.patset sr h f, .portcfg sr h f, .qcreate sr h f, .qdestroy sr h f], opLegal i s.me.regs = true →
      63 ≤ (s.me.flag f.toNat).count → exec i s = .next (s.takeTrap { tcause := 0x64, slot := 3 }))

/-- SEND and the queue operations, and the join-unit operations of the C slot, at issue (from R284 to R287, R353). -/
def Obligations.QueueAndJoinIssue : Prop := QueueIssue ∧ JoinOperationIssue

/-- R354, R355: LIMG and SIMG by the supervisor of a frozen selected gang, at a multiple of 128, enter one request for the image: SIMG
with the gang's image as it stands, LIMG to fill it. Another gang raises 0x62, an address off 128 bytes 0x63. -/
def Obligations.ImageIssue : Prop :=
  ∀ (s : State) (a : BitVec 5) (kind : BitVec 3) (f : BitVec 5),
    let adr := (s.sregNow a.toNat 20).toNat
    let g := s.gang s.cur.core s.selected
    let n := imageBytes kind.toNat g.regs
    (CReady (.simg a kind f) f s → ImageExecutes s a →
      ∃ (bs : List Byte) (ls : List LaneAcc), bs.length = n ∧ ImagePieces s adr n true bs ls ∧
        CIssues s (.simg a kind f) f (cRequest s .simg f s.selected 0x41 kind.toNat [] ls) [] ∧
        (kind = 0 → (∀ j l, j < 4 → l < 32 → ofBytesLE ((bs.drop (128 * j + 4 * l)).take 4) = (laneGet (g.frame.lv.getD j []) l).toNat) ∧
          ofBytesLE ((bs.drop 0x240).take 4) = g.frame.lx1.toNat ∧ ofBytesLE ((bs.drop 0x248).take 8) = g.frame.next.toNat ∧
          ofBytesLE ((bs.drop 0x250).take 8) = g.frame.info.toNat) ∧
        (kind = 1 → ∀ r l, r < g.regs → l < 32 → ofBytesLE ((bs.drop (128 * r + 4 * l)).take 4) = (laneGet (g.vreg r) l).toNat) ∧
        (kind = 2 → ∀ r, r < 32 → ofBytesLE ((bs.drop (8 * r)).take 8) = (g.sreg r).toNat)) ∧
    (CReady (.limg a kind f) f s → ImageExecutes s a →
      ∃ ls : List LaneAcc, ImagePieces s adr n false [] ls ∧
        CIssues s (.limg a kind f) f (cRequest s .limg f s.selected 0x40 kind.toNat [] ls) []) ∧
    (∀ i ∈ [Instr.simg a kind f, .limg a kind f], opLegal i s.me.regs = true →
      (s.isSuper = false → exec i s = .next (s.takeTrap { tcause := 0x62, slot := 3 })) ∧
      (s.isSuper = true → s.selectable false = true → (s.me.flag f.toNat).count < 63 → adr % 128 ≠ 0 →
        exec i s = .next (s.takeTrap { tcause := 0x63, slot := 3 })))

/-! ### Accesses: performance, completion, translation, faults (R27, R37 to R49, R110, R131) -/

namespace Sys2Proof.Machine

/-- The event is about piece i of a request. -/
def PieceAt (s : State) (id i : Nat) (r : Req) (l : LaneAcc) : Prop :=
  s.ev = .req id i ∧ mget? s.reqs id = some r ∧ r.lanes[i]? = some l

/-- Every request but one is as before, but for a load performed early whose bytes are written now: it reads them again (R126). -/
def OtherReqsKept (s t : State) (id : Nat) : Prop :=
  ∀ j, j ≠ id →
    (mget? s.reqs j = none → mget? t.reqs j = none) ∧
    ∀ q : Req, mget? s.reqs j = some q → ∃ q' : Req, mget? t.reqs j = some q' ∧ q' = { q with lanes := q'.lanes } ∧ q'.lanes.length = q.lanes.length ∧
      ∀ (n : Nat) (p p' : LaneAcc), q.lanes[n]? = some p → q'.lanes[n]? = some p' → p' = p ∨ (p.early = true ∧ p' = p.again)

/-- The request afterwards, with piece i replaced; the others are kept. -/
def PieceBecomes (s t : State) (id i : Nat) (r : Req) (l : LaneAcc) : Prop :=
  mget? t.reqs id = some { r with lanes := r.lanes.set i l } ∧ OtherReqsKept s t id

/-- The turn of a piece has come (R110, R113, R160, R447): what it waits for is performed, its line and that of its scale byte are not
held by a prepared group, and its cluster's budget is not spent. -/
def InTurn (s : State) (r : Req) (l : LaneAcc) : Prop :=
  l.early = false ∧ (∀ d ∈ r.deps, s.settled d = true) ∧ s.lineHeld (l.pa / 128) = false ∧ s.budgetOk r.core = true ∧
    (l.sva ≠ none → l.scale = none → s.lineHeld (l.spa / 128) = false)

/-- A piece performed earlier, of a higher lane of the same instruction, lies over byte k of a piece (R59, R110). -/
def Req.coversByte (r : Req) (l : LaneAcc) (k : Nat) : Prop :=
  ∃ m ∈ r.lanes, (m.stage = 2 ∨ m.early = true) ∧ l.lane < m.lane ∧ ∃ a b, l.base? m = some (a, b) ∧ b ≤ a + k ∧ a + k < b + m.size

/-- No register of any gang and no crew changes. -/
def GangsKept (s t : State) : Prop := (∀ c g, t.gang? c g = s.gang? c g) ∧ ∀ c k, t.crew c k = s.crew c k

/-- Every byte of memory outside a range is as before. -/
def KeptOutside (s t : State) (lo n : Nat) : Prop := ∀ a, a < lo ∨ lo + n ≤ a → Mem.read t.mem a = Mem.read s.mem a
def MemKept (s t : State) : Prop := ∀ a, Mem.read t.mem a = Mem.read s.mem a

/-- Stores of a gang, a plain load, the atomics. -/
def plainStores : List ReqKind := [.store, .rawStore, .stx, .stch]
def plainLoads : List ReqKind := [.load, .rawLoad, .loadS, .ldx, .ldc, .limg]

/-- The new value an atomic writes over `old` (Table 9-3) by the operation in Z: ADD, MIN and MAX of F32, else of N32, S32 and N64. -/
def atomicValue (op : Nat) (signed float : Bool) (w old v : Nat) : Nat :=
  let a := BitVec.ofNat w old
  let b := BitVec.ofNat w v
  if float = true ∧ op = 0 then Num.fadd Num.f32 0 0 old v
  else if float = true ∧ op = 1 then Num.fmin Num.f32 old v
  else if float = true ∧ op = 2 then Num.fmax Num.f32 old v
  else match op with
  | 0 => (a + b).toNat
  | 1 => if (if signed then a.slt b else a.ult b) then a.toNat else b.toNat
  | 2 => if (if signed then a.slt b else a.ult b) then b.toNat else a.toNat
  | 3 => (a &&& b).toNat
  | 4 => (a ||| b).toNat
  | 5 => (a ^^^ b).toNat
  | _ => b.toNat

/-- The F32 value of a stored element (R97, R101): format 1 a K4 code, nibble `nib` of its byte, under its scale byte; 2 and 3 an FP8
byte; 4 a BF16 pair of bytes. -/
def elementValue (fmt x nib scale : Nat) : Nat :=
  match fmt with
  | 1 => Num.k4ToF32 scale (x / 16 ^ nib % 16)
  | 2 => Num.round Num.f32 false 0 0 (Num.decode Num.e4m3 (x % 256))
  | 3 => Num.round Num.f32 false 0 0 (Num.decode Num.e5m2 (x % 256))
  | _ => Num.round Num.f32 false 0 0 (Num.decode Num.bf16 (x % 65536))
/-- The bytes of a stored element: two of BF16, one else, which of K4 holds two elements. -/
def elementSize (fmt : Nat) : Nat := if fmt = 4 then 2 else 1
/-- Where element i of a lane whose first byte is at `a` lies (R101, R267). -/
def elementAt (fmt a i : Nat) : Nat := if fmt = 1 then a + i / 2 else if fmt = 4 then a / 2 * 2 + 2 * i else a + i

end Sys2Proof.Machine

/-- R110, R72, R79, R101, R267: an access on PATH 0 whose turn has come is performed. An element of a decoding load takes the value its
bytes have in the page's format, of K4 under its scale byte. A store writes its bytes at the place, but those a higher lane
of its instruction has already written, and no other byte; a load of the device's own takes the bytes, little-endian, or cause 0x20
where it consumes poison; an atomic writes the value its operation gives and ATOMCAS its data where the value compares equal, each
taking the old value. Line states that a store leaves at once are the model's (log entry 17). -/
def Sys2Proof.Machine.AccessPerform : Prop :=
  ∀ (s : State) (id i : Nat) (r : Req) (l : LaneAcc), PieceAt s id i r l → l.stage = 1 → l.path = 0 → InTurn s r l → r.opc ≠ 0x43 → r.opc ≠ 0x44 →
    Mem.wf s.mem = true → 0 < l.size → l.data < 256 ^ l.size → l.fmt = 0 →
    let bad := s.consumes r.core r.ctx (l.ia.toNat % 2 ^ 57 / 128) l.pa l.size
    (r.kind ∈ plainStores → l.undef = false →
      ∃ t, exec .memoryAccessPerform s = .next t ∧ KeptOutside s t l.pa l.size ∧ GangsKept s t ∧
        (∀ k, k < l.size → r.coversByte l k → Mem.read t.mem (l.pa + k) = Mem.read s.mem (l.pa + k)) ∧
        (∀ k, k < l.size → ¬ r.coversByte l k → Mem.read t.mem (l.pa + k) = BitVec.ofNat 8 (l.data / 256 ^ k)) ∧
        ∃ m, PieceBecomes s t id i r m ∧ m.stage = 2 ∧ m.cause = l.cause) ∧
    (r.kind ∈ plainLoads → (r.kind = .load → r.peer = none) →
      ∃ t m, exec .memoryAccessPerform s = .next t ∧ MemKept s t ∧ GangsKept s t ∧ PieceBecomes s t id i r m ∧ m.stage = 2 ∧
        (bad = false → m.out = ofBytesLE ((List.range l.size).map (fun k => Mem.read s.mem (l.pa + k))) ∧ m.cause = l.cause) ∧
        (bad = true → m.cause = 0x20 ∧ m.undef = true)) ∧
    ((r.kind = .atom ∨ r.kind = .redm) → l.undef = false → (l.size = 4 ∨ l.size = 8) → (r.opc % 4 = 3 → l.size = 4) → bad = false →
      let old := ofBytesLE ((List.range l.size).map (fun k => Mem.read s.mem (l.pa + k)))
      ∃ t m, exec .memoryAccessPerform s = .next t ∧ KeptOutside s t l.pa l.size ∧ GangsKept s t ∧ PieceBecomes s t id i r m ∧
        m.stage = 2 ∧ m.out = old ∧
        ofBytesLE ((List.range l.size).map (fun k => Mem.read t.mem (l.pa + k))) =
          atomicValue r.z (r.opc % 4 == 1) (r.opc % 4 == 3) (8 * l.size) old l.data) ∧
    (r.kind = .cas → l.undef = false → bad = false →
      let old := ofBytesLE ((List.range l.size).map (fun k => Mem.read s.mem (l.pa + k)))
      ∃ t m, exec .memoryAccessPerform s = .next t ∧ KeptOutside s t l.pa l.size ∧ GangsKept s t ∧ PieceBecomes s t id i r m ∧
        m.stage = 2 ∧ m.out = old ∧
        ∀ k, k < l.size → Mem.read t.mem (l.pa + k) = if old = l.cmp then BitVec.ofNat 8 (l.data / 256 ^ k) else Mem.read s.mem (l.pa + k))

/-- R101, R267: an element of a decoding load whose turn has come, of a page of format 1 (K4), 2 (E4M3), 3 (E5M2) or 4 (BF16), takes the
F32 value of its bytes, of K4 under its scale byte; with a poisoned byte or scale byte the cause 0x20. -/
def Sys2Proof.Machine.DecodedElements : Prop :=
  ∀ (s : State) (id i : Nat) (r : Req) (l : LaneAcc), PieceAt s id i r l → l.stage = 1 → l.path = 0 → InTurn s r l → r.opc ≠ 0x43 → r.opc ≠ 0x44 →
    r.kind = .load → r.peer = none → 1 ≤ l.fmt → l.fmt ≤ 4 → (l.fmt = 1 → l.scale ≠ none ∨ l.sva ≠ none) →
    let x := ofBytesLE ((List.range (elementSize l.fmt)).map (fun k => Mem.read s.mem (l.pa + k)))
    let scale := match l.scale with
      | some b => b
      | none => ((Mem.read s.mem l.spa).toNat, s.poisoned l.spa 1)
    let bad := s.consumes r.core r.ctx (l.ia.toNat % 2 ^ 57 / 128) l.pa (elementSize l.fmt) || (l.fmt == 1 && scale.2)
    ∃ t m, exec .memoryAccessPerform s = .next t ∧ MemKept s t ∧ GangsKept s t ∧ PieceBecomes s t id i r m ∧ m.stage = 2 ∧
      (bad = false → m.out = elementValue l.fmt x (l.off % 2) scale.1) ∧ (bad = true → m.cause = 0x20 ∧ m.undef = true)

/-- R54, R74, R75, R110: an access of a scratchpad or accumulator of the own core whose turn has come is performed there, and one of a
stand peer's on another core arrives there: a store reaches the granule it was issued for, or is discarded and counted in SCRSTALE
once that is another's; a raw or scalar load takes its bytes; a load from a tagged granule takes the lane's elements decoded, each at its
own swizzled place (R56, R59, R267); an atomic writes what its operation gives and takes the old value; ACCST.OVW writes the named
element and ACCST.ADD adds to it with one rounding (R281), or they are discarded and counted where the crew is not of the stand they were
issued for; ACCLD takes the element. HBM does not change. Poison cleared by a store of a whole 8-byte word is the model's reading (log
entry 9), and so is SCRSTALE's count of a store's pieces (log entry 46). -/
def Sys2Proof.Machine.ScratchAccessPerform : Prop :=
  ∀ (s : State) (id i : Nat) (r : Req) (l : LaneAcc) (peer : Bool), PieceAt s id i r l → l.stage = 1 →
    let op : Instr := if peer then .peerWriteArrival else .memoryAccessPerform
    (peer = true ↔ l.core ≠ r.core ∧ r.peer = none) → (peer = false → l.early = false ∧ ∀ d ∈ r.deps, s.settled d = true) →
    ((l.path = 1 ∨ l.path = 2) → r.kind ∈ plainStores → l.undef = false → r.lanes.all (fun m => m.stage != 2 && !m.early) = true →
      ∃ t m, exec op s = .next t ∧ MemKept s t ∧ PieceBecomes s t id i r m ∧ m.stage = 2 ∧
        ((s.core l.core).accepts l.alloc l.pa = false →
          (t.core l.core).scrstale = min (2 ^ 32 - 1) ((s.core l.core).scrstale + 1) ∧ (t.core l.core).scratch = (s.core l.core).scratch) ∧
        ((s.core l.core).accepts l.alloc l.pa = true → (t.core l.core).scrstale = (s.core l.core).scrstale ∧
          (t.core l.core).scratch = ((s.core l.core).swr l.alloc l.pa (bytesLE l.size l.data)).scratch)) ∧
    ((l.path = 1 ∨ l.path = 2) → r.kind ∈ [ReqKind.rawLoad, .loadS, .ldx] → (s.core l.core).accepts l.alloc l.pa = true →
      ∃ t m, exec op s = .next t ∧ MemKept s t ∧ GangsKept s t ∧ PieceBecomes s t id i r m ∧ m.stage = 2 ∧
        m.out = (s.core l.core).srd l.alloc l.pa l.size ∧ m.undef = (s.core l.core).spoison l.alloc l.pa l.size) ∧
    ((l.path = 1 ∨ l.path = 2) → r.kind = .load → l.fmt = 0 → l.off = 0 → (s.core l.core).accepts l.alloc l.pa = true →
      let k := s.core l.core
      let fmt := gtFmt (k.tagAt l.alloc l.ofs)
      gtFmt (k.tagAt l.alloc l.pa) ≠ 0 → 1 ≤ fmt → fmt ≤ 4 →
      ∃ t r', exec op s = .next t ∧ MemKept s t ∧ GangsKept s t ∧ mget? t.reqs id = some r' ∧
        ∀ j, j < r.group → ∃ m ∈ r'.lanes, m.lane = l.lane ∧ m.off = j ∧ m.stage = 2 ∧ m.fmt = fmt ∧
          (let a := elementAt fmt l.ofs j
           let p := swizzle r.z a
           let tag := k.tagAt l.alloc p
           m.out = elementValue fmt (k.srd l.alloc p (elementSize fmt)) (if fmt = 1 then j % 2 else 0)
             (k.srd l.alloc (gtSgran tag * 4096 + gtSslot tag * 512 + p % 4096 / 8) 1))) ∧
    ((l.path = 1 ∨ l.path = 2) → r.kind ∈ [ReqKind.atom, .redm, .cas] → l.undef = false → (l.size = 4 ∨ l.size = 8) → (r.opc % 4 = 3 → l.size = 4) →
      (s.core l.core).accepts l.alloc l.pa = true → (s.core l.core).spoison l.alloc l.pa l.size = false → l.data < 256 ^ l.size →
      let old := (s.core l.core).srd l.alloc l.pa l.size
      ∃ t m, exec op s = .next t ∧ MemKept s t ∧ PieceBecomes s t id i r m ∧ m.stage = 2 ∧ m.out = old ∧
        (t.core l.core).scratch = (if r.kind = .cas ∧ old ≠ l.cmp then (s.core l.core).scratch else
          ((s.core l.core).swr l.alloc l.pa (bytesLE l.size (if r.kind = .cas then l.data
            else atomicValue r.z (r.opc % 4 == 1) (r.opc % 4 == 3) (8 * l.size) old l.data))).scratch)) ∧
    (l.path = 8 → r.kind = .accld → (mget? (s.core l.core).crews l.cslot).isSome = true → (s.crew l.core l.cslot).stand = l.stand →
      ∃ t m, exec op s = .next t ∧ MemKept s t ∧ GangsKept s t ∧ PieceBecomes s t id i r m ∧ m.stage = 2 ∧
        m.out = (mget 0 (s.crew l.core l.cslot).acc l.pa).toNat ∧
        (l.pa ∈ (s.crew l.core l.cslot).accPoison → m.cause = 0x20 ∧ m.undef = true)) ∧
    (l.path = 8 → r.kind = .accst → r.opc = 0x2C → (mget? (s.core l.core).crews l.cslot).isSome = true → (s.crew l.core l.cslot).stand = l.stand →
      ∃ t m, exec op s = .next t ∧ MemKept s t ∧ PieceBecomes s t id i r m ∧ m.stage = 2 ∧
        (∀ c k, (c ≠ l.core ∨ k ≠ l.cslot) → t.crew c k = s.crew c k) ∧
        ∀ e, mget 0 (t.crew l.core l.cslot).acc e = if e = l.pa
          then BitVec.ofNat 32 (Num.fadd Num.f32 0 0 (mget 0 (s.crew l.core l.cslot).acc e).toNat l.data)
          else mget 0 (s.crew l.core l.cslot).acc e) ∧
    (l.path = 8 → r.kind = .accst → r.opc = 0x2D →
      ∃ t m, exec op s = .next t ∧ MemKept s t ∧ PieceBecomes s t id i r m ∧ m.stage = 2 ∧
        (∀ c k, (c ≠ l.core ∨ k ≠ l.cslot) → t.crew c k = s.crew c k) ∧
        (((mget? (s.core l.core).crews l.cslot).isSome = true ∧ (s.crew l.core l.cslot).stand = l.stand) →
          (t.core l.core).scrstale = (s.core l.core).scrstale ∧
          ∀ e, mget 0 (t.crew l.core l.cslot).acc e = if e = l.pa then BitVec.ofNat 32 l.data else mget 0 (s.crew l.core l.cslot).acc e) ∧
        (¬ ((mget? (s.core l.core).crews l.cslot).isSome = true ∧ (s.crew l.core l.cslot).stand = l.stand) →
          (t.core l.core).scrstale = min (2 ^ 32 - 1) ((s.core l.core).scrstale + 1) ∧ t.crew l.core l.cslot = s.crew l.core l.cslot))

/-- A piece of an access of HBM or of a scratchpad is performed (from R9, R10, R40, R72, R110, R123). -/
def Obligations.AccessResults : Prop := AccessPerform ∧ DecodedElements ∧ ScratchAccessPerform

namespace Sys2Proof.Machine

/-- A request leaves its gang (R131, R217): the flag counts one less and keeps the first error; the gang's queues no longer hold it. -/
structure Completes (s t : State) (id : Nat) (r : Req) : Prop where
  gone : t.reqs = mdel s.reqs id
  mem : MemKept s t
  others : ∀ c g, c ≠ r.core ∨ g ≠ r.slot → t.gang? c g = s.gang? c g
  flag : (t.gang r.core r.slot).flag r.flag =
    let f := (s.gang r.core r.slot).flag r.flag
    { count := f.count - 1, err := f.err || r.firstCause != 0, cause := if f.err then f.cause else if r.firstCause = 0 then f.cause else r.firstCause }
  flags : ∀ n, n ≠ r.flag → (t.gang r.core r.slot).flag n = (s.gang r.core r.slot).flag n
  loads : (t.gang r.core r.slot).loadQ = (s.gang r.core r.slot).loadQ.filter (· != id)
  stores : (t.gang r.core r.slot).storeQ = (s.gang r.core r.slot).storeQ.filter (· != id)
  bars : (t.gang r.core r.slot).barQ = (s.gang r.core r.slot).barQ.filter (· != id)
  held : (t.gang r.core r.slot).heldQ = (s.gang r.core r.slot).heldQ.filter (· != id)
  preds : r.kind ≠ .qtry → (t.gang r.core r.slot).p = (s.gang r.core r.slot).p
  scalars : r.kind ∉ [ReqKind.loadS, .qpop, .qtry, .gquery, .mstat, .join] → (t.gang r.core r.slot).s = (s.gang r.core r.slot).s

end Sys2Proof.Machine

/-- R131, R213, R217, R267, R323, R326: a completed request of a gang, but for LIMG's, is removed and counted off its flag; a load, atomic
or accumulator read writes its register group in the lanes none of whose pieces failed and leaves the others, and every other vector
register, as they are, both lanes of an ATOMCAS pair taking the even lane's value; register j of a decoding load takes element j of its
lane; a scalar load writes its register, GQUERY the
outcome record and MSTAT the mill's word. Which piece's cause a request reports is the model's choice (log entry 10). -/
def Obligations.CompletionResults : Prop :=
  ∀ (s : State) (id i : Nat) (r : Req), s.ev = .req id i → mget? s.reqs id = some r → r.peer = none →
    r.slot < 64 → (s.gang? r.core r.slot).isSome = true → r.kind ≠ .limg →
    ∃ t, exec .memoryOpComplete s = .next t ∧ Completes s t id r ∧
      (∀ n, (∀ j, j < r.group → n ≠ r.dest + j) ∨ r.kind ∉ [ReqKind.load, .rawLoad, .ldx, .atom, .cas, .accld] →
        (t.gang r.core r.slot).vreg n = (s.gang r.core r.slot).vreg n) ∧
      (r.kind ∈ [ReqKind.load, .rawLoad, .ldx, .atom, .cas, .accld] → ∀ j, j < r.group → ∀ lane, lane < 32 →
        let here := r.lanes.filter (fun p => p.lane == (if r.kind = .cas then lane / 2 * 2 else lane))
        let new := laneGet ((t.gang r.core r.slot).vreg (r.dest + j)) lane
        (here = [] ∨ (∃ p ∈ here, p.stage ≠ 2) → new = laneGet ((s.gang r.core r.slot).vreg (r.dest + j)) lane) ∧
        (here ≠ [] → (∀ p ∈ here, p.stage = 2 ∧ p.undef = false ∧ p.fmt = 0) →
          let x := here.foldl (fun a p => a + p.out * 256 ^ p.off) 0
          new = if r.kind = .load ∧ r.opc = 2 then (BitVec.ofNat 8 x).signExtend 32
            else if r.kind = .load ∧ r.opc = 4 then (BitVec.ofNat 16 x).signExtend 32
            else if r.kind = .ldx ∧ r.z = 8 then (BitVec.ofNat 8 x).signExtend 32
            else if r.kind = .ldx ∧ r.z = 9 then (BitVec.ofNat 16 x).signExtend 32
            else BitVec.ofNat 32 (x / 2 ^ (32 * j))) ∧
        (r.kind = .load → (∀ p ∈ here, p.stage = 2 ∧ p.undef = false) → ∀ p ∈ here, p.fmt ≠ 0 → p.fmt ≠ 14 → p.off = j →
          (∀ q ∈ here, q.fmt ≠ 0 → q.fmt ≠ 14 → q.off = j → q = p) → new = BitVec.ofNat 32 p.out)) ∧
      (r.kind = .loadS → (t.gang r.core r.slot).v = (s.gang r.core r.slot).v ∧
        ∀ n, (t.gang r.core r.slot).sreg n =
          if n = r.dest - 0x80 ∧ r.laneOk 0 = true ∧ r.laneUndef 0 = false then
            BitVec.ofNat 64 ((r.lanes.filter (fun p => p.lane == 0)).foldl (fun a p => if p.fmt = 0 then a + p.out * 256 ^ p.off else a) 0)
          else if n = r.dest - 0x80 ∧ r.laneOk 0 = true then (t.gang r.core r.slot).sreg n
          else (s.gang r.core r.slot).sreg n) ∧
      (r.kind = .gquery → r.firstCause = 0 →
        (t.gang r.core r.slot).sreg r.dest = (mget {} s.groups (1024 * r.ctx + r.z)).record) ∧
      (r.kind = .mstat → r.firstCause = 0 → (t.gang r.core r.slot).sreg r.dest = s.mstatWord r.core r.slot)

namespace Sys2Proof.Machine

/-- The table read `k` levels below the root of the first stage, and the entry it holds for a page (R26, R27). -/
def State.tableAt (s : State) (root vpn : Nat) : Nat → Nat
  | 0 => root
  | k + 1 => 4096 * ptePpn (s.rd (State.tableAt s root vpn k + 8 * vpnIdx vpn (4 - k)) 8)
def State.entryAt (s : State) (root vpn k : Nat) : Nat := s.tableAt root vpn k + 8 * vpnIdx vpn (4 - k)

/-- A table entry lies in HBM and holds no bad word, where it is read or beneath that (R79). -/
def State.sound (s : State) (a n : Nat) : Bool := inHbm a n && !s.poisoned a n && (wordsOf a n).all (fun w => !s.hbmBad.contains w)

/-- The frame a leaf at a level gives a page: its number's low bits are the page's, four of them for N at level 0 (Svnapot), nine for each
level above 0 (R27). -/
def framePage (e level vpn : Nat) : Nat :=
  let n := if e.testBit 63 then 16 else 512 ^ level
  ptePpn e / n * n + vpn % n

/-- No G-stage, no cached entry that serves the access, none of a table of the context, and a chain of pointers to the entry at `level`, all
readable, and its companion (R26 to R29, R33). -/
structure WalksTo (s : State) (ctx vpn acc level : Nat) : Prop where
  low : level ≤ 2
  bare : (s.ctx ctx).chgatp.toNat / 2 ^ 60 = 0
  miss : ∀ e, s.tlbFind ctx vpn = some e → e.serves acc = false
  cold : ∀ w ∈ s.walkc, w.ctx ≠ ctx
  readable : ∀ k, k ≤ 4 - level → s.sound (s.entryAt (4096 * ((s.ctx ctx).catp.toNat % 2 ^ 44)) vpn k) 8 = true
  pointers : ∀ k, k < 4 - level → pteKind (s.rd (s.entryAt (4096 * ((s.ctx ctx).catp.toNat % 2 ^ 44)) vpn k) 8) (4 - k) = .next
  companion : s.sound (s.entryAt (4096 * ((s.ctx ctx).catp.toNat % 2 ^ 44)) vpn (4 - level) + 4096) 8 = true

/-- The place of the entry of a page at a level. -/
def State.leafAt (s : State) (ctx vpn level : Nat) : Nat := s.entryAt (4096 * ((s.ctx ctx).catp.toNat % 2 ^ 44)) vpn (4 - level)

/-- The frame of a guest physical page and the leaf that gives it, by a walk of the G-stage from a table that finds every entry readable
and has none to change (R29); none where it does not reach a leaf that permits the access. -/
def State.gLeaf (s : State) (page acc : Nat) : Nat → Nat → Nat → Option (Nat × Nat)
  | 0, _, _ => none
  | n + 1, base, level =>
    let a := base + 8 * (if level = 4 then page / 512 ^ 4 else vpnIdx page level)
    let e := s.rd a 8
    if s.sound a 8 = false then none
    else match pteKind e level with
      | .next => State.gLeaf s page acc n (4096 * ptePpn e) (level - 1)
      | .leaf => if pteAllows e acc = true ∧ pteAD e acc = e then some (framePage e level page, e) else none
      | _ => none
def State.guest (s : State) (ctx gpa acc : Nat) : Option (Nat × Nat) :=
  if gpa < 2 ^ 59 then s.gLeaf (gpa / 4096) acc 5 (4096 * ((s.ctx ctx).chgatp.toNat % 2 ^ 44)) 4 else none

/-- The same as `WalksTo` under a G-stage: the table at step `k` is at guest address `tab k`, its entry for the page at `pa k`, and the
companion of the last at `cpa` (R29). -/
structure GuestWalksTo (s : State) (ctx vpn acc level : Nat) (tab pa : Nat → Nat) (cpa : Nat) : Prop where
  low : level ≤ 2
  staged : (s.ctx ctx).chgatp.toNat / 2 ^ 60 ≠ 0
  miss : ∀ e, s.tlbFind ctx vpn = some e → e.serves acc = false
  cold : ∀ w ∈ s.walkc, w.ctx ≠ ctx
  root : tab 0 = 4096 * ((s.ctx ctx).catp.toNat % 2 ^ 44)
  tables : ∀ k, k < 4 - level → tab (k + 1) = 4096 * ptePpn (s.rd (pa k) 8)
  mapped : ∀ k, k ≤ 4 - level → ∃ x, s.guest ctx (tab k + 8 * vpnIdx vpn (4 - k)) 0 = some x ∧
    pa k = 4096 * x.1 + (tab k + 8 * vpnIdx vpn (4 - k)) % 4096
  readable : ∀ k, k ≤ 4 - level → s.sound (pa k) 8 = true
  pointers : ∀ k, k < 4 - level → pteKind (s.rd (pa k) 8) (4 - k) = .next
  companion : s.sound cpa 8 = true ∧ ∃ x, s.guest ctx (tab (4 - level) + 8 * vpnIdx vpn level + 4096) 0 = some x ∧
    cpa = 4096 * x.1 + (tab (4 - level) + 8 * vpnIdx vpn level) % 4096

/-- A piece fails with an escalated cause and is bound to an open record of its page (R42, R43). -/
def Faulted (s t : State) (id i : Nat) (r : Req) (cause page : Nat) : Prop :=
  ∃ m rec, PieceBecomes s t id i r m ∧ m.stage = 3 ∧ m.cause = cause ∧ m.frec = some rec ∧
    ∃ x ∈ t.recs, (x.ring, x.seq) = rec ∧ x.ctx = r.ctx ∧ x.ia = page ∧ x.cause = cause ∧ x.answer = none

end Sys2Proof.Machine

/-- R26, R27, R29, R33, R37: an access that a cached entry serves is sent on at its physical address, and faults with 0x11 where the entry
forbids it; a missing root table gives 0x10; a walk, from the root or from the table that a level-1 walk-cache entry names, to a raw leaf,
of 4 KiB, 2 MiB or 1 GiB or an Svnapot one, that permits the access sets A, and D for a store or atomic, and no other byte; from the root
its translation is entered; a prepared entry starts a fill with the slice's spare frame and holds the access. Under a G-stage every
table, companion and page is found through it, and its missing root entry gives 0x16. Which translations a cache keeps is the model's
choice (log entry 8), that a cached entry's permission fault needs no walk its reading (log entry 16). -/
def Sys2Proof.Machine.TranslationResults : Prop :=
  ∀ (s : State) (id i : Nat) (r : Req) (l : LaneAcc), PieceAt s id i r l → l.stage = 0 → l.fmt = 0 → Mem.wf s.mem = true →
    r.kind ≠ .lblk → r.kind ≠ .pref → r.slot ≠ peekSlot →
    let va := l.ia.toNat % 2 ^ 57
    let vpn := va / 4096
    s.migrating r.ctx vpn = false →
    (∀ e, s.tlbFind r.ctx vpn = some e → e.serves r.acc = true →
      (pteAllows e.pte.toNat r.acc = true → bitsOf e.comp.toNat 63 61 = 0 →
        ∃ t m, exec .translateAccess s = .next t ∧ MemKept s t ∧ PieceBecomes s t id i r m ∧ m.stage = 1 ∧
          m.pa = 4096 * ptePpn e.pte.toNat + va % 4096 ∧ m.ia = l.ia ∧ m.cause = l.cause) ∧
      (pteAllows e.pte.toNat r.acc = false →
        ∃ t, exec .translateAccess s = .next t ∧ MemKept s t ∧ GangsKept s t ∧ Faulted s t id i r 0x11 (4096 * vpn))) ∧
    (let top := s.entryAt (4096 * ((s.ctx r.ctx).catp.toNat % 2 ^ 44)) vpn 0
     s.tlbFind r.ctx vpn = none → (∀ w ∈ s.walkc, w.ctx ≠ r.ctx) → (s.ctx r.ctx).chgatp.toNat / 2 ^ 60 = 0 → inHbm top 8 = true → s.poisoned top 8 = false →
       s.rd top 8 % 2 = 0 →
      ∃ t, exec .translateAccess s = .next t ∧ MemKept s t ∧ GangsKept s t ∧ Faulted s t id i r 0x10 (4096 * vpn)) ∧
    (∀ level, WalksTo s r.ctx vpn r.acc level →
      let e := s.rd (s.leafAt r.ctx vpn level) 8
      let c := s.rd (s.leafAt r.ctx vpn level + 4096) 8
      pteKind e level = .leaf → pteAllows e r.acc = true → compBad c level = false → bitsOf c 63 61 = 0 → ptePbmt e ≠ 2 →
        inHbm (4096 * framePage e level vpn) 4096 = true →
        ∃ t m, exec .translateAccess s = .next t ∧ KeptOutside s t (s.leafAt r.ctx vpn level) 8 ∧
          t.rd (s.leafAt r.ctx vpn level) 8 = pteAD e r.acc ∧ PieceBecomes s t id i r m ∧ m.stage = 1 ∧
          m.pa = 4096 * framePage e level vpn + va % 4096 ∧
          ∃ x, t.tlbFind r.ctx vpn = some x ∧ ptePpn x.pte.toNat = framePage e level vpn) ∧
    (∀ level tab pa cpa, GuestWalksTo s r.ctx vpn r.acc level tab pa cpa →
      let e := s.rd (pa (4 - level)) 8
      let c := s.rd cpa 8
      ∀ x, s.guest r.ctx (4096 * framePage e level vpn) r.acc = some x →
      pteKind e level = .leaf → pteAllows e r.acc = true → pteAD e r.acc = e → compBad c level = false → bitsOf c 63 61 = 0 →
        ptePbmt e ≠ 2 → (ptePbmt e = 0 → ptePbmt x.2 ≠ 2) → inHbm (4096 * x.1) 4096 = true →
        ∃ t m, exec .translateAccess s = .next t ∧ MemKept s t ∧ PieceBecomes s t id i r m ∧ m.stage = 1 ∧ m.pa = 4096 * x.1 + va % 4096) ∧
    (let top := s.entryAt (4096 * ((s.ctx r.ctx).catp.toNat % 2 ^ 44)) vpn 0
     let gtop := 4096 * ((s.ctx r.ctx).chgatp.toNat % 2 ^ 44) + 8 * (top / 4096 / 512 ^ 4)
     s.tlbFind r.ctx vpn = none → (∀ w ∈ s.walkc, w.ctx ≠ r.ctx) → (s.ctx r.ctx).chgatp.toNat / 2 ^ 60 ≠ 0 → s.sound gtop 8 = true →
       s.rd gtop 8 % 2 = 0 →
      ∃ t, exec .translateAccess s = .next t ∧ MemKept s t ∧ GangsKept s t ∧ Faulted s t id i r 0x16 (4096 * vpn)) ∧
    (WalksTo s r.ctx vpn r.acc 0 →
      let e := s.rd (s.leafAt r.ctx vpn 0) 8
      let c := s.rd (s.leafAt r.ctx vpn 0 + 4096) 8
      (pteKind e 0 = .absent → bitsOf e 63 54 ≠ 0x3FF → c.testBit 59 = true → compBad c 0 = false →
        s.filling r.ctx vpn = false → (∀ x ∈ s.fillBad, ¬(x.1 = r.ctx ∧ x.2.1 = vpn)) →
        (s.fills.filter (fun f => tslice f.ctx (4096 * f.vpn) == tslice r.ctx va)).length < 16 →
        ∀ f, mget? s.spare (4096 * tslice r.ctx va + r.ctx) = some f →
          ∃ t m, exec .translateAccess s = .next t ∧ MemKept s t ∧ GangsKept s t ∧ PieceBecomes s t id i r m ∧ m.stage = 5 ∧
            mget? t.spare (4096 * tslice r.ctx va + r.ctx) = none ∧
            t.fills = s.fills ++ [⟨r.ctx, vpn, f, s.leafAt r.ctx vpn 0, BitVec.ofNat 64 e, writesAcc r.acc⟩])) ∧
    (∀ w, s.tlbFind r.ctx vpn = none → (s.ctx r.ctx).chgatp.toNat / 2 ^ 60 = 0 → s.walkOf r.ctx vpn 1 = some w →
      let leaf := 4096 * ptePpn w.pte.toNat + 8 * vpnIdx vpn 0
      let e := s.rd leaf 8
      let c := s.rd (leaf + 4096) 8
      s.sound leaf 8 = true → s.sound (leaf + 4096) 8 = true → pteKind e 0 = .leaf → pteAllows e r.acc = true → compBad c 0 = false → bitsOf c 63 61 = 0 → ptePbmt e ≠ 2 →
      inHbm (4096 * framePage e 0 vpn) 4096 = true →
      ∃ t m, exec .translateAccess s = .next t ∧ KeptOutside s t leaf 8 ∧ t.rd leaf 8 = pteAD e r.acc ∧ PieceBecomes s t id i r m ∧
        m.stage = 1 ∧ m.pa = 4096 * framePage e 0 vpn + va % 4096)

namespace Sys2Proof.Machine

/-- What a fill's end makes of a piece that waits for its page, itself or with its scale byte (R37). -/
def LaneAcc.woken (l : LaneAcc) (vpn : Nat) : LaneAcc :=
  if l.stage = 5 ∧ (l.ia.toNat % 2 ^ 57 / 4096 = vpn ∨ l.sva.any (fun a => a / 4096 == vpn)) then { l with stage := 0 } else l

end Sys2Proof.Machine

/-- R37: a completed fill has zeroed its frame. Where the entry is unchanged it takes the frame with V and A, and D for a store, its other
bits kept by the model's choice (log entry 44); where it changed, the frame is the slice's spare and the entry stays. The accesses that wait for the page are translated again. No other
byte changes where no further fill waits at the slice. -/
def Sys2Proof.Machine.FillResults : Prop :=
  ∀ (s : State) (ctx vpn : Nat) (f : Fill), s.ev = .page ctx vpn → Mem.wf s.mem = true →
    s.fills.find? (fun x => x.ctx == ctx && x.vpn == vpn) = some f → f.frame % 128 = 0 →
    (f.pteAddr + 8 ≤ f.frame ∨ f.frame + 4096 ≤ f.pteAddr) →
    (∀ q ∈ s.fillq, tslice q.ctx (4096 * q.vpn) ≠ tslice ctx (4096 * vpn)) →
    ∃ t, exec .fillComplete s = .next t ∧ GangsKept s t ∧ t.fills = s.fills.erase f ∧
      (∀ k, k < 4096 → Mem.read t.mem (f.frame + k) = 0) ∧ t.poisoned f.frame 4096 = false ∧
      (∀ a, (a < f.frame ∨ f.frame + 4096 ≤ a) → (a < f.pteAddr ∨ f.pteAddr + 8 ≤ a) → Mem.read t.mem a = Mem.read s.mem a) ∧
      (s.rd f.pteAddr 8 = f.pte.toNat →
        t.rd f.pteAddr 8 = setBits f.pte.toNat 53 10 (f.frame / 4096) ||| (if f.store then 0xC1 else 0x41)) ∧
      (s.rd f.pteAddr 8 ≠ f.pte.toNat → t.rd f.pteAddr 8 = s.rd f.pteAddr 8 ∧
        mget? t.spare (4096 * tslice ctx (4096 * vpn) + ctx) = some f.frame) ∧
      ∀ id r, mget? s.reqs id = some r →
        mget? t.reqs id = some (if r.ctx = ctx then { r with lanes := r.lanes.map (fun l => l.woken vpn) } else r)

/-- Translations, walks and fills (from R25 to R27, R35 to R37). -/
def Obligations.PageResults : Prop := TranslationResults ∧ FillResults

namespace Sys2Proof.Machine

/-- The 64 bytes of a fault record (Table 1-17). -/
def FaultRec.bytes (r : FaultRec) : List Byte :=
  bytesLE 8 (r.seq + 2 ^ 32 * (r.ctx + if r.cause = 0x16 then 2 ^ 15 else 0) + 2 ^ 48 * r.cause + 2 ^ 56 * r.access) ++
    bytesLE 8 r.ia ++ bytesLE 8 r.gpa ++ bytesLE 8 r.core ++ bytesLE 8 r.time ++ bytesLE 24 0

/-- No piece of the request is an element of a decoding load (R267). -/
def Req.plain (r : Req) : Prop := r.kind = .load → ∀ l ∈ r.lanes, l.fmt = 0

/-- A piece made again. -/
def LaneAcc.fresh (l : LaneAcc) : LaneAcc := { l with stage := if l.path = 4 then 1 else 0, cause := 0 }

end Sys2Proof.Machine

/-- R42 to R46, R428: a record is written at the ring's TAIL, which advances, with its interrupt; the faulted lanes of one record become a
FAULTED log entry, the lowest that is free, and are counted (PMC12), waiting where the log is full, and the loads of the gang performed ahead of a
faulted load are to be performed again after it (R47); FRESOLVE with RETRY makes every
entry bound to the record READY and its faulted pieces, skidder operations and launches ready to be made again, with FAIL completes
them in error with the given cause, else the recorded one; a READY entry replays its lanes; a write of HEAD leaves TAIL. The access
kind recorded for a failed read of a table is the model's reading (log entry 16). -/
def Obligations.FaultResults : Prop :=
  ∀ (s : State),
    (∀ ring seq c r, s.ev = .fault ring seq c → ring < 16 → Mem.wf s.mem = true →
      s.recs.find? (fun x => x.ring == ring && x.seq == seq) = some r → r.seq < 2 ^ 32 → r.ctx < 4096 → r.cause < 256 → r.access < 256 →
      r.core < 2 ^ 16 →
      let frb := (s.dreg (0x100 + 16 * ring)).toNat
      let fri := (s.dreg (0x108 + 16 * ring)).toNat
      let a := bitsOf frb 55 12 * 4096 + 64 * (fri / 2 ^ 32 % 2 ^ (frb / 2 ^ 60 + 6))
      ∃ t, exec .faultRecordWrite s = .next t ∧ GangsKept s t ∧ KeptOutside s t a 64 ∧ t.rdBytes a 64 = r.bytes ∧
        (t.dreg (0x108 + 16 * ring)).toNat = (fri / 2 ^ 32 + 1) % 2 ^ 32 * 2 ^ 32 + fri % 2 ^ 32 ∧
        t.irqs = (s.irq ring).irqs ∧ ∃ x ∈ t.recs, x = { r with written := true }) ∧
    (∀ ring val, s.ev = .reg (0x108 + 16 * ring) val 8 →
      ∃ t, exec .faultRingHeadWrite s = .next t ∧ MemKept s t ∧ GangsKept s t ∧
        (t.dreg (0x108 + 16 * ring)).toNat = (s.dreg (0x108 + 16 * ring)).toNat / 2 ^ 32 * 2 ^ 32 + val.toNat % 2 ^ 32) ∧
    (∀ id i r l, PieceAt s id i r l → l.stage = 3 → id ∉ r.deps → (∀ p ∈ (s.core r.core).log, p.2.req ≠ id) →
      (∀ e, e < 256 → mget? (s.core r.core).log e = none → (∀ j, j < e → (mget? (s.core r.core).log j).isSome = true) →
        ∃ t x, exec .faultReturnToLog s = .next t ∧ MemKept s t ∧ (∀ c g, t.gang? c g = s.gang? c g) ∧
          mget? (t.core r.core).log e = some x ∧ x.state = 1 ∧ x.slot = r.slot ∧ x.flag = r.flag ∧ x.req = id ∧ x.cause = l.cause ∧
          x.record = l.frec ∧
          (∀ n, n < 32 → x.mask.getLsbD n = r.lanes.any (fun m => m.lane == n && m.stage == 3 && m.frec == l.frec)) ∧
          mget? t.reqs id = some { r with lanes := r.lanes.map (fun m =>
            if m.stage = 3 ∧ m.frec = l.frec then { m with stage := 7 } else m) } ∧
          (∀ j q, j ≠ id → mget? s.reqs j = some q → mget? t.reqs j = some (if inLoadQ r.opc = true ∧ q.writes = false ∧ id ∈ q.deps then
            { q with lanes := q.lanes.map (fun m => if m.early = true then m.again else m) } else q)) ∧
          ∀ n, mget 0 (t.crew r.core (s.gang r.core r.slot).cslot).pmc n =
            mget 0 (s.crew r.core (s.gang r.core r.slot).cslot).pmc n + if n = 12 then 1 else 0) ∧
      ((∀ e, e < 256 → (mget? (s.core r.core).log e).isSome = true) → exec .faultReturnToLog s = .next s)) ∧
    (∀ c e x r, s.ev = .entry c e → mget? (s.core c).log e = some x → x.state = 2 → x.held = false → mget? s.reqs x.req = some r → r.plain →
      ∃ t, exec .replay s = .next t ∧ MemKept s t ∧ GangsKept s t ∧
        mget? (t.core c).log e = some { x with state := 3, cause := 0 } ∧
        t.reqs = mset s.reqs x.req { r with lanes := r.lanes.map (fun m => if m.stage = 7 ∧ x.part m = true then m.fresh else m) }) ∧
    (∀ (v : W64) r, s.ev = .reg 0x30 v 8 →
      let ring := bitsOf v.toNat 35 32
      let seq := v.toNat % 2 ^ 32
      s.openRec ring seq = some r →
      (v.toNat / 2 ^ 62 = 0 → ∃ t, exec .fresolveRetry s = .next t ∧ MemKept s t ∧ GangsKept s t ∧
        (∀ c e x, mget? (s.core c).log e = some x → mget? (t.core c).log e =
          some (if x.state = 1 ∧ x.record = some (ring, seq) then { x with state := 2 } else x)) ∧
        (∀ c e x, mget? (s.core c).skid e = some x → x.state = 3 → x.record = some (ring, seq) →
          mget? (t.core c).skid e = some { x with state := 1, cause := 0, record := none }) ∧
        (∀ id q, mget? s.reqs id = some q → q.plain → mget? t.reqs id =
          some { q with lanes := q.lanes.map (fun l => if l.stage = 3 ∧ l.frec = some (ring, seq) then l.fresh else l) }) ∧
        (∀ x ∈ t.launches, x.faulted ≠ some (ring, seq)) ∧ ∃ x ∈ t.recs, x = { r with answer := some (0, 0) }) ∧
      (v.toNat / 2 ^ 62 = 1 →
       let given := bitsOf v.toNat 55 48
       let c := if given = 0 then r.cause else given
       ∃ t, exec .fresolveFail s = .next t ∧ MemKept s t ∧ GangsKept s t ∧
        (∀ k, ∀ p ∈ (t.core k).log, ¬(p.2.state = 1 ∧ p.2.record = some (ring, seq))) ∧
        (∀ id q, mget? s.reqs id = some q → ∃ q', mget? t.reqs id = some q' ∧ ∀ (i : Nat) (l : LaneAcc), q.lanes[i]? = some l →
          l.frec = some (ring, seq) →
          (l.stage = 3 ∨ l.stage = 7 ∧ ∃ k, ∃ p ∈ (s.core k).log, p.2.state = 1 ∧ p.2.record = some (ring, seq) ∧ p.2.req = id ∧ p.2.mask.getLsbD l.lane = true) →
          ∃ m : LaneAcc, q'.lanes[i]? = some m ∧ m.stage = 4 ∧ m.cause = c) ∧
        (∀ k e x, mget? (s.core k).skid e = some x → x.state = 3 → x.record = some (ring, seq) → x.err = 0 →
          ∃ y, mget? (t.core k).skid e = some y ∧ y.failed = true ∧ y.err = c) ∧
        (∀ x ∈ t.launches, x.faulted ≠ some (ring, seq)) ∧ ∃ x ∈ t.recs, x = { r with answer := some (1, c) }))

namespace Sys2Proof.Machine

/-- The L2 holds a line, or has a way free for it (R67, R144). -/
def State.l2Room (s : State) (pl : Nat) : Prop := s.l2.any (fun x => x.line == pl) = true ∨ (s.l2Mates pl).length < 12

end Sys2Proof.Machine

/-- R61, R63 to R71, R144, Table 2-5: a read makes the cluster, or the complex (128), a sharer and takes sole ownership from the owner,
whose dirty line stays with it as O, and a core's line is sent to it; where the L2's set is full its lowest-ranked line leaves;
ownership makes the requester sole owner in M, with no copy left but the requester's own; a dirty line its core writes back stays S in
it, or leaves it where some bytes were never valid; a recalled line is absent in its core; a line that its cluster still shares enters the
read-only L1 of 512 lines where PATH 6 loads wait for it, and, for others or where none waits, becomes present in its block in the
directory's state, or waits for room; one no longer shared enters nothing. Caches that carry no data of their own are the model's (log entry 17). -/
def Obligations.CoherenceResults : Prop :=
  ∀ (s : State) (c ctx line pl : Nat), s.ev = .line c ctx line pl → c ≤ 128 →
    let k := c / 8
    let m := (s.dirOf pl).1
    let o := (s.dirOf pl).2.1
    let sh := (s.dirOf pl).2.2
    let x := (s.core c).stLine ctx line
    (∃ t, exec .directoryRead s = .next t ∧ MemKept s t ∧ GangsKept s t ∧
      (∀ p ∈ t.cores, ∀ b ∈ p.2.blocks, ∀ y ∈ b.lines, y.pl = pl → y.st ≠ 2 ∧ y.st ≠ 4) ∧
      (c < 128 → ∃ p ∈ t.agenda, p.op = .stashLineFill ∧ p.arg = .line c ctx line pl) ∧
      t.l2.any (fun y => y.line == pl) = true ∧
      (s.l2Room pl →
        t.dirOf pl = (if m = 0 then (2, k, 2 ^ k) else if m = 2 then (1, 0, sh ||| 2 ^ k) else if m = 4 then (3, o, sh ||| 2 ^ k) else (m, o, sh ||| 2 ^ k)) ∧
        ∀ y, y ≠ pl → t.dirOf y = s.dirOf y) ∧
      (¬ s.l2Room pl → ∀ v, l2Victim (s.l2Mates pl) = some v → (∀ y ∈ s.l2Mates pl, v.rank ≤ y.rank) ∧ t.l2.any (fun y => y.line == v.line) = false)) ∧
    (c < 128 → KeysRise s.cores → ∃ t, exec .directoryOwnership s = .next t ∧ MemKept s t ∧ GangsKept s t ∧ t.dirOf pl = (4, k, 2 ^ k) ∧
      (∀ h ∈ t.holders pl, h = (c, ctx, line)) ∧ ∃ p ∈ t.agenda, p.op = .stashLineFill ∧ p.arg = .line c ctx line pl) ∧
    (c < 128 → x.pl = pl → 3 ≤ x.st → ∃ t, exec .directoryWriteback s = .next t ∧ MemKept s t ∧ GangsKept s t ∧
      (x.valid = fullLine → (t.core c).lineState ctx line = 1 ∧ t.dirOf pl = (if sh = 0 then (0, 0, 0) else (1, 0, sh)) ∧
        ∀ y, y ≠ pl → t.dirOf y = s.dirOf y) ∧
      (x.valid ≠ fullLine → (t.core c).lineState ctx line = 0)) ∧
    (c < 128 → (x.pl ≠ pl ∨ x.st < 3) → exec .directoryWriteback s = .next s) ∧
    (∃ t, exec .coherenceRecall s = .next t ∧ MemKept s t ∧ GangsKept s t ∧ (t.core c).lineState ctx line = 0 ∧
      (∀ y ∈ (t.core c).roL1, ¬(y.1 = ctx ∧ y.2.1 = line)) ∧ ∀ d, d ≠ c → t.core d = s.core d) ∧
    (∃ t, exec .stashLineFill s = .next t ∧ MemKept s t ∧ (∀ c g, t.gang? c g = s.gang? c g) ∧
      let asks := s.askers c ctx line
      (sh.testBit k = false → t = s) ∧ (∀ d, d ≠ c → t.core d = s.core d) ∧
      (sh.testBit k = true → roAsks asks ≠ [] → (ctx, line, pl) ∈ (t.core c).roL1 ∧ ((s.core c).roL1.length ≤ 512 → (t.core c).roL1.length ≤ 512)) ∧
      (sh.testBit k = true → roAsks asks = [] → (t.core c).roL1 = (s.core c).roL1) ∧
      (sh.testBit k = true → stashAsks asks = [] → asks ≠ [] → (t.core c).blocks = (s.core c).blocks) ∧
      (sh.testBit k = true → roAsks asks = [] → (s.core c).block? ctx line = none → (∀ u, s.stashRoom c ctx line 1 ≠ .ok u) →
        (t.core c).blocks = (s.core c).blocks ∧ ∃ p ∈ t.agenda, p.op = .stashLineFill ∧ p.arg = .line c ctx line pl) ∧
      (sh.testBit k = true → (stashAsks asks ≠ [] ∨ asks = []) → ((s.core c).block? ctx line).isSome = true →
        let st := if (m = 4 ∨ m = 2) ∧ o = k then m else 1
        (t.core c).stLine ctx line = ⟨st, pl, if st = 4 ∧ x.st = 0 then 0 else fullLine, []⟩))

namespace Sys2Proof.Machine

/-- Packets sent: those for the own device arrive here, the others leave (R24, R147). -/
def Sent (s t : State) (ps : List Packet) : Prop :=
  t.outbox = s.outbox ++ ps.filter (fun p => p.dev != s.devId) ∧
    t.agenda = s.agenda ++ (ps.filter (fun p => p.dev == s.devId)).map (fun p => { op := packetRow p.kind, arg := .packet p })

/-- The same where other pending events may leave the agenda. -/
def Sends (s t : State) (ps : List Packet) : Prop :=
  t.outbox = s.outbox ++ ps.filter (fun p => p.dev != s.devId) ∧
    ∀ p ∈ ps, p.dev = s.devId → ({ op := packetRow p.kind, arg := .packet p } : Pending) ∈ t.agenda

/-- A piece that a peer's answer `x` reaches: it takes the value, or fails with the cause (R148). -/
def TakesAnswer (x m : LaneAcc) : Prop :=
  m.cause = x.cause ∧ (x.cause = 0 ∨ x.cause = 0x20 → m.stage = 2 ∧ m.out = x.out ∧ m.undef = x.undef) ∧
    (x.cause ≠ 0 → x.cause ≠ 0x20 → m.stage = 4)

/-- The pieces that wait for the answer to the request piece i names, in order. -/
def Req.awaiting (r : Req) (l : LaneAcc) (i : Nat) : List Nat :=
  (List.range r.lanes.length).filter (fun j => (r.lanes[j]?).any (fun m => m.awaits l i))

/-- Every piece that waits for that answer fails with a cause. -/
def Req.failed (r : Req) (l : LaneAcc) (i cause : Nat) : Req :=
  { r with lanes := r.lanes.map (fun m => if m.awaits l i then { m with stage := 4, cause := cause } else m) }

end Sys2Proof.Machine

/-- R101, R148, R24, R164, R169: a peer's request is acknowledged at once and served as a request of the peer context, its pieces as they
were sent and not before it accesses that a migration held ahead of it, or refused with 0x17 where that context is not live; an
acknowledgement ends the timeout it names; the timeout fails with 0x17 every piece that waits for its request; a response gives each piece
of its request its value or cause, or fails them all with the response's own, and a lane of a decoding load its elements, decoded under
the attribute and scale byte that came with the bytes; one to a message ends that piece; a lost peer fails every piece that waits for it
with 0x17; of a lost origin only the prepared groups stay. -/
def Obligations.PeerServiceResults : Prop :=
  ∀ (s : State),
    (∀ p, s.ev = .packet p → (s.ctx p.ctx).live = true →
      ∃ t q, exec .remoteRequestArrival s = .next t ∧ MemKept s t ∧ GangsKept s t ∧
        Sent s t [{ kind := 1, dev := p.dev, ctx := p.peerCtx, tag := p.tag }] ∧ t.reqs = mset s.reqs s.nextId q ∧ t.nextId = s.nextId + 1 ∧
        q.kind = opcKind (p.a % 2 ^ 8) ∧ q.opc = p.a % 2 ^ 8 ∧ q.z = p.a / 2 ^ 8 % 2 ^ 8 ∧ q.pol = BitVec.ofNat 8 (p.a / 2 ^ 16) ∧
        q.group = p.a / 2 ^ 24 % 2 ^ 16 ∧ q.words = p.words ∧ q.ctx = p.ctx ∧ q.peer = some (p.dev, p.peerCtx, p.tag) ∧
        q.lanes.length = p.lanes.length ∧
        (∀ (n : Nat) (x m : LaneAcc), p.lanes[n]? = some x → q.lanes[n]? = some m → m.stage = 0 ∧ m.path = 0 ∧ m.fwds = p.fwd ∧ m.lane = x.lane ∧
          m.off = x.off ∧ m.ia.toNat = x.ia.toNat % 2 ^ 57 ∧ m.size = x.size ∧ m.data = x.data ∧ m.cmp = x.cmp ∧ m.fmt = x.fmt ∧ m.undef = x.undef) ∧
        (p.b ≠ 1 → q.deps = []) ∧
        (p.b = 1 → q.held = true ∧ ∀ id r, (id, r) ∈ s.reqs → r.held = true → (∃ x, r.peer = some (p.dev, x)) → r.ctx = p.ctx →
          (∃ m ∈ r.lanes, m.ia.toNat / 4096 = p.va / 4096) → id ∈ q.deps)) ∧
    (∀ p, s.ev = .packet p → (s.ctx p.ctx).live = false →
      ∃ t, exec .remoteRequestArrival s = .next t ∧ MemKept s t ∧ GangsKept s t ∧ t.reqs = s.reqs ∧
        Sent s t [{ kind := 1, dev := p.dev, ctx := p.peerCtx, tag := p.tag },
                  { kind := 2, dev := p.dev, ctx := p.peerCtx, peerCtx := p.ctx, tag := p.tag, a := 0x17 }]) ∧
    (∀ p, s.ev = .packet p → ∃ t, exec .remoteAckArrival s = .next t ∧ MemKept s t ∧ GangsKept s t ∧ t.reqs = s.reqs ∧
      ∀ x, x ∈ t.agenda ↔ x ∈ s.agenda ∧ ¬(x.op = .rsptoExpiry ∧ x.arg = .req (p.tag / 1024) (p.tag % 1024))) ∧
    (∀ id i r l, PieceAt s id i r l → ∃ t, exec .rsptoExpiry s = .next t ∧ MemKept s t ∧ GangsKept s t ∧
      t.reqs = mset s.reqs id (r.failed l i 0x17)) ∧
    (∀ p r l, s.ev = .packet p → mget? s.reqs (p.tag / 1024) = some r → r.lanes[p.tag % 1024]? = some l → l.stage = 6 → l.sent = p.tag % 1024 →
      (p.kind = 4 → ∃ t m, exec .memoryOpComplete s = .next t ∧ MemKept s t ∧ GangsKept s t ∧
        t.reqs = mset s.reqs (p.tag / 1024) { r with lanes := r.lanes.set (p.tag % 1024) m } ∧ m.cause = p.a ∧
        m.stage = (if p.a = 0 ∨ p.a = 0x20 then 2 else 4)) ∧
      (p.kind ≠ 4 → p.a ≠ 0 → ∃ t, exec .memoryOpComplete s = .next t ∧ MemKept s t ∧ GangsKept s t ∧
        t.reqs = mset s.reqs (p.tag / 1024) (r.failed l (p.tag % 1024) p.a)) ∧
      (p.kind ≠ 4 → p.a = 0 → r.kind ≠ .load → (∀ m ∈ r.lanes, m.fmt = 0) → p.lanes.length = (r.awaiting l (p.tag % 1024)).length →
        ∃ t q, exec .memoryOpComplete s = .next t ∧ MemKept s t ∧ GangsKept s t ∧ t.reqs = mset s.reqs (p.tag / 1024) q ∧
          (∀ j, j ∉ r.awaiting l (p.tag % 1024) → q.lanes[j]? = r.lanes[j]?) ∧
          ∀ (n : Nat) (j : Nat) (x : LaneAcc), (r.awaiting l (p.tag % 1024))[n]? = some j → p.lanes[n]? = some x →
            ∃ m : LaneAcc, q.lanes[j]? = some m ∧ TakesAnswer x m) ∧
      (∀ x, p.kind ≠ 4 → p.a = 0 → r.kind = .load → r.peer = none → r.lanes = [l] → l.off = 0 → l.fmt = 0 → l.path = 3 →
        l.ia.toNat + l.size ≤ 2 ^ 57 → p.lanes = [x] → x.cause = 0 → 1 ≤ x.attr → x.attr ≤ 4 →
        let whole := x.attr = 4 ∧ l.size = 1
        let lo := if whole then l.ia.toNat / 2 * 2 else l.ia.toNat
        let n := if whole then 2 else l.size
        ∃ t q, exec .memoryOpComplete s = .next t ∧ MemKept s t ∧ GangsKept s t ∧ t.reqs = mset s.reqs (p.tag / 1024) q ∧
          ∀ j, j < r.group → (let a := elementAt x.attr l.ia.toNat j
            lo ≤ a → a + elementSize x.attr ≤ lo + n →
            ∃ m ∈ q.lanes, m.lane = l.lane ∧ m.off = j ∧ m.fmt = x.attr ∧ m.stage = 2 ∧ m.cause = 0 ∧
              m.out = elementValue x.attr (x.out / 256 ^ (a - lo)) (if x.attr = 1 then j % 2 else 0) x.cmp))) ∧
    (∀ dev x, s.ev = .host dev x →
      ∃ t, exec .peerLostReport s = .next t ∧ MemKept s t ∧ (s.groups = [] → GangsKept s t) ∧
        (s.groups = [] → ∀ id r, mget? s.reqs id = some r → mget? t.reqs id = some { r with lanes := r.lanes.map (fun l =>
          if l.stage = 6 ∧ l.peer ≠ 0 ∧ aperDev l.peer = dev then { l with stage := 4, cause := 0x17 } else l) })) ∧
    (∀ dev x, s.ev = .host dev x →
      ∃ t, exec .originLostReport s = .next t ∧ MemKept s t ∧ GangsKept s t ∧
        (∀ d, d ∈ t.dests → d.odev = dev → d.prepared = true) ∧ ∀ d ∈ s.dests, d.odev ≠ dev → d ∈ t.dests)

/-- Table 2-5, R424, R434, R435, R440, R427, R441: an inbound PCIe access acts at the address the IOMMU gives it, or is refused, listed
in its queue and answered empty; a write to HBM stores its bytes, leaves its lines Invalid in the directory, and clears the poison of the
lines it writes whole, no other; a read of lines not held, of which no later store stands ahead of its turn, returns the bytes as they
stand where they are not poisoned, another waits without a reply; an 8-byte aligned write of the port aperture is a message of its source,
another is counted as stale, and so is a read, which returns zeros; a replayed link transfer is counted as corrected; a lost link is
listed, a restored one no longer; the scrubber takes the next unit when it is due, and nothing before. The order in which outside writes
arrive (log entry 28), what the IOMMU's tables hold (log entry 34) and the scrubber's order and pace (log entry 39) are the model's. -/
def Obligations.OutsideAccessResults : Prop :=
  ∀ (s : State),
    (∀ v bs n, s.ev = .mem v bs n → ∀ w ∈ [Instr.pcieWrite, .pcieRead],
      (∀ a, Config.iommu s.free v = some a → exec w s = .next (if w = .pcieWrite then s.pcieStore a bs else s.pcieLoad a n)) ∧
      (Config.iommu s.free v = none → ∃ t, exec w s = .next t ∧ MemKept s t ∧ GangsKept s t ∧ t.reqs = s.reqs ∧
        t.iommuq = s.iommuq ++ [v] ∧ t.replies = s.replies ++ [[]])) ∧
    (∀ a bs, inHbm a bs.length = true → Mem.wf s.mem = true →
      let t := s.pcieStore a bs
      GangsKept s t ∧ KeptOutside s t a bs.length ∧ (∀ k, k < bs.length → Mem.read t.mem (a + k) = bs.getD k 0) ∧
        (∀ w, w ∈ t.poison ↔ w ∈ s.poison ∧ ¬(a ≤ 128 * (w / 16) ∧ 128 * (w / 16) + 128 ≤ a + bs.length)) ∧
        ∀ pl, a / 128 ≤ pl → 128 * pl < a + bs.length → t.dirOf pl = (0, 0, 0)) ∧
    (∀ a n, inHbm a n = true →
      let t := s.pcieLoad a n
      let free := (linesOf a n).any s.lineHeld = false ∧ s.unseen .host a n = false
      (free → MemKept s t ∧ GangsKept s t ∧ ∃ rep, t.replies = s.replies ++ [rep] ∧ rep.length = n ∧
          ∀ k, k < n → s.poisoned (a + k) 1 = false → rep.getD k 0 = Mem.read s.mem (a + k)) ∧
      (¬free → MemKept s t ∧ GangsKept s t ∧ t.replies = s.replies ∧ ∃ q, t.reqs = mset s.reqs s.nextId q ∧
          q.kind = .rawLoad ∧ q.slot = pcieSlot ∧ q.lanes.map (fun (m : LaneAcc) => m.pa / 128) = linesOf a n)) ∧
    (∀ a bs n, s.ev = .mem a bs n → apertureBase ≤ a → a < apertureBase + 2 ^ 32 →
      let u := bitsOf ((a - apertureBase) % 2 ^ 32) 19 16
      (bs.length = 8 → a % 8 = 0 →
        ∃ t, exec .portApertureWrite s = .next t ∧ MemKept s t ∧ GangsKept s t ∧
          t.agenda = s.agenda ++ [{ op := .messageArrival, arg := .msg ⟨a - apertureBase, BitVec.ofNat 64 (ofBytesLE bs), n, 0, s.devId, 0, 0, 0⟩ }]) ∧
      (¬(bs.length = 8 ∧ a % 8 = 0) →
        ∃ t, exec .portApertureWrite s = .next t ∧ MemKept s t ∧ GangsKept s t ∧ t.agenda = s.agenda ∧
          (t.unit u).stalecnt = min (2 ^ 32 - 1) ((s.unit u).stalecnt + 1)) ∧
      (bs = [] → ∃ t, exec .portApertureRead s = .next t ∧ MemKept s t ∧ GangsKept s t ∧ t.replies = s.replies ++ [List.replicate n 0] ∧
        (t.unit u).stalecnt = min (2 ^ 32 - 1) ((s.unit u).stalecnt + 1))) ∧
    (∀ k loc, s.ev = .host k loc →
      (∃ t, exec .linkCrcReplay s = .next t ∧ MemKept s t ∧ GangsKept s t ∧ mget 0 t.ras (4 * k + 1) = BitVec.ofNat 64 loc ∧
        (mget 0 t.ras (4 * k)).toNat / 2 ^ 32 = (mget 0 s.ras (4 * k)).toNat / 2 ^ 32 ∧
        (mget 0 t.ras (4 * k)).toNat % 2 ^ 32 = min (2 ^ 32 - 1) ((mget 0 s.ras (4 * k)).toNat % 2 ^ 32 + 1)) ∧
      (∃ t, exec .ualinkLinkLoss s = .next t ∧ MemKept s t ∧ GangsKept s t ∧ ∀ p, p ∈ t.linksLost ↔ p = k ∨ p ∈ s.linksLost) ∧
      (∃ t, exec .ualinkLinkRestored s = .next t ∧ MemKept s t ∧ GangsKept s t ∧ ∀ p, p ∈ t.linksLost ↔ p ≠ k ∧ p ∈ s.linksLost)) ∧
    (s.scrubDue = true →
      ∃ t, exec .scrubUnitRead s = .next t ∧ MemKept s t ∧ GangsKept s t ∧ t.scrubAt = s.clock ∧
        t.scrub = if s.scrub + 1 < hbmSize / 256 then s.scrub + 1 else 0) ∧
    (s.scrubDue = false → exec .scrubUnitRead s = .next s)

namespace Sys2Proof.Machine

/-- A unit's answer has come back to a piece: 0 with a result, or the cause of its refusal (Table 12-1, R285). -/
def Answered (t : State) (id i cause out : Nat) : Prop :=
  ∃ q m, mget? t.reqs id = some q ∧ q.lanes[i]? = some m ∧ m.stage = (if cause = 0 then 2 else 4) ∧ m.cause = cause ∧ m.out = out

/-- A refusal changes no join unit. -/
def Refused (s t : State) (id i cause : Nat) : Prop := Answered t id i cause 0 ∧ t.join = s.join

/-- Nothing of a unit can fire, and no queue of it has a service to give (R368, R379). -/
structure Rests (x : JoinUnit) : Prop where
  patterns : ∀ p ∈ x.pats, p.2.claimed = false
  queues : ∀ q ∈ x.queues, q.2.popDue = false ∧ q.2.refillDue = false

end Sys2Proof.Machine

/-- R353, R354, R365, R367, R375, R376, R381: what a configuration event does where its record is valid and its object free, or
fresh and of the issuing context (for QDESTROY a queue with no push or pop waiting, whose bound patterns are disabled), and the cause it answers where the record is
invalid (0x45), no object is free (0x44), the handle is stale (0x40), or an object is another context's (0x43); a refused event changes
no join unit. -/
def Obligations.ConfigurationResults : Prop :=
  ∀ (s : State) (id i : Nat) (r : Req) (l : LaneAcc), PieceAt s id i r l → l.stage = 6 →
    let w := r.word 0
    -- PORTCFG OP 0
    (let valid := r.word 2 = 0 ∧ bitsOf w 50 3 = 0 ∧ (w.testBit 51 = true ∨ r.word 1 = 0)
     (¬valid → ∃ t, exec .portCreate s = .next t ∧ MemKept s t ∧ GangsKept s t ∧ Refused s t id i 0x45) ∧
     (valid → (∀ k, k < 256 → ((s.unit (bitsOf w 55 52)).port k).created = true) →
       ∃ t, exec .portCreate s = .next t ∧ MemKept s t ∧ GangsKept s t ∧ Refused s t id i 0x44) ∧
     (valid → ∀ k, k < 256 → ((s.unit (bitsOf w 55 52)).port k).created = false →
       (∀ j, j < k → ((s.unit (bitsOf w 55 52)).port j).created = true) →
       ∃ t, exec .portCreate s = .next t ∧ MemKept s t ∧ GangsKept s t ∧
         Answered t id i 0 (portHandle (bitsOf w 55 52) k ((s.unit (bitsOf w 55 52)).port k).gen) ∧
         let p := (t.unit (bitsOf w 55 52)).port k
         p.created = true ∧ p.gen = ((s.unit (bitsOf w 55 52)).port k).gen ∧ p.ctx = r.ctx ∧ p.depth = bitsOf w 59 56 ∧
           p.apcie = w.testBit 2 ∧ p.ahost = w.testBit 1 ∧ p.apeer = w.testBit 0 ∧ p.ovf = false ∧
           (Rests (s.unit (bitsOf w 55 52)) → p.msgs = if w.testBit 51 then [r.words.getD 1 0] else []))) ∧
    -- PORTCFG OP 1 and OP 2
    (¬(bitsOf w 50 3 = 0 ∧ r.word 1 = 0 ∧ bitsOf w 63 62 ≠ 3) →
      (∃ t, exec .portModify s = .next t ∧ MemKept s t ∧ GangsKept s t ∧ Refused s t id i 0x45) ∧
      ∃ t, exec .portDestroy s = .next t ∧ MemKept s t ∧ GangsKept s t ∧ Refused s t id i 0x45) ∧
    (bitsOf w 50 3 = 0 → r.word 1 = 0 → bitsOf w 63 62 ≠ 3 →
      (s.freshPort (r.word 2) = none →
        (∃ t, exec .portModify s = .next t ∧ MemKept s t ∧ GangsKept s t ∧ Refused s t id i 0x40) ∧
        ∃ t, exec .portDestroy s = .next t ∧ MemKept s t ∧ GangsKept s t ∧ Refused s t id i 0x40) ∧
      (∀ u k, s.freshPort (r.word 2) = some (u, k) → ((s.unit u).port k).ctx ≠ r.ctx →
        (∃ t, exec .portModify s = .next t ∧ MemKept s t ∧ GangsKept s t ∧ Refused s t id i 0x43) ∧
        ∃ t, exec .portDestroy s = .next t ∧ MemKept s t ∧ GangsKept s t ∧ Refused s t id i 0x43) ∧
      (∀ u k, s.freshPort (r.word 2) = some (u, k) → ((s.unit u).port k).ctx = r.ctx →
        (∃ t, exec .portModify s = .next t ∧ MemKept s t ∧ GangsKept s t ∧ Answered t id i 0 (r.word 2) ∧
          let p := (t.unit u).port k
          p.depth = bitsOf w 59 56 ∧ p.apcie = w.testBit 2 ∧ p.ahost = w.testBit 1 ∧ p.apeer = w.testBit 0 ∧
            (w.testBit 61 = true → p.ovf = false ∧ p.ovfcnt = 0) ∧ (w.testBit 60 = true → p.msgs = []) ∧
            p.gen = ((s.unit u).port k).gen) ∧
        (∃ t, exec .portDestroy s = .next t ∧ MemKept s t ∧ GangsKept s t ∧ Answered t id i 0 (r.word 2) ∧
          ((t.unit u).port k).created = false ∧ ((t.unit u).port k).gen = nextGen ((s.unit u).port k).gen ∧
          ∀ j, ((s.unit u).pat j).claimed = true → k ∈ listedPorts (((s.unit u).pat j).w 0) →
            ((t.unit u).pat j).en = false ∧ ((t.unit u).pat j).dis = true))) ∧
    -- PATSET OP 0
    (∀ u k, patternOf (r.word 4) = some (u, k) → handleGen (r.word 4) ≠ 0 → s.recordOk u r = true → s.recordForeign u r = false →
      (((s.unit u).pat k).claimed = true → ∃ t, exec .patternClaim s = .next t ∧ MemKept s t ∧ GangsKept s t ∧ Refused s t id i 0x44) ∧
      (((s.unit u).pat k).claimed = false → ∃ t, exec .patternClaim s = .next t ∧ MemKept s t ∧ GangsKept s t ∧ Answered t id i 0 0 ∧
        (t.unit u).pat k = { claimed := true, en := w.testBit 61, dis := false, gen := handleGen (r.word 4), ctx := r.ctx, words := r.words.take 4 })) ∧
    ((patternOf (r.word 4) = none ∨ handleGen (r.word 4) = 0 ∨ ∃ u k, patternOf (r.word 4) = some (u, k) ∧ s.recordOk u r = false) →
      ∃ t, exec .patternClaim s = .next t ∧ MemKept s t ∧ GangsKept s t ∧ Refused s t id i 0x45) ∧
    (∀ u k, patternOf (r.word 4) = some (u, k) → handleGen (r.word 4) ≠ 0 → s.recordOk u r = true → s.recordForeign u r = true →
      ∃ t, exec .patternClaim s = .next t ∧ MemKept s t ∧ GangsKept s t ∧ Refused s t id i 0x43) ∧
    -- PATSET OP 1 and OP 2
    (bitsOf w 63 62 = 3 ∨ s.recordOk (bitsOf (r.word 4) 19 16) r = false →
      ∃ t, exec .patternRewrite s = .next t ∧ MemKept s t ∧ GangsKept s t ∧ Refused s t id i 0x45) ∧
    (s.freshPattern (r.word 4) = none →
      (bitsOf w 63 62 ≠ 3 → s.recordOk (bitsOf (r.word 4) 19 16) r = true →
        ∃ t, exec .patternRewrite s = .next t ∧ MemKept s t ∧ GangsKept s t ∧ Refused s t id i 0x40) ∧
      ∃ t, exec .patternRelease s = .next t ∧ MemKept s t ∧ GangsKept s t ∧ Refused s t id i 0x40) ∧
    (∀ u k, s.freshPattern (r.word 4) = some (u, k) → ((s.unit u).pat k).ctx ≠ r.ctx →
      (bitsOf w 63 62 ≠ 3 → s.recordOk u r = true →
        ∃ t, exec .patternRewrite s = .next t ∧ MemKept s t ∧ GangsKept s t ∧ Refused s t id i 0x43) ∧
      ∃ t, exec .patternRelease s = .next t ∧ MemKept s t ∧ GangsKept s t ∧ Refused s t id i 0x43) ∧
    (∀ u k, s.freshPattern (r.word 4) = some (u, k) → ((s.unit u).pat k).ctx = r.ctx →
      (bitsOf w 63 62 ≠ 3 → s.recordOk u r = true → s.recordForeign u r = true →
        ∃ t, exec .patternRewrite s = .next t ∧ MemKept s t ∧ GangsKept s t ∧ Refused s t id i 0x43) ∧
      (bitsOf w 63 62 ≠ 3 → s.recordOk u r = true → s.recordForeign u r = false →
        ∃ t, exec .patternRewrite s = .next t ∧ MemKept s t ∧ GangsKept s t ∧ Answered t id i 0 0 ∧
          (t.unit u).pat k = { claimed := true, en := w.testBit 61, dis := false, gen := ((s.unit u).pat k).gen, ctx := r.ctx, words := r.words.take 4 }) ∧
      ∃ t, exec .patternRelease s = .next t ∧ MemKept s t ∧ GangsKept s t ∧ Answered t id i 0 0 ∧
        (t.unit u).pat k = { (s.unit u).pat k with claimed := false, en := false, dis := false }) ∧
    -- QCREATE and QDESTROY
    (let valid := bitsOf w 63 60 ≤ 11 ∧ bitsOf w 52 0 = 0 ∧ canonAligned (r.word 1) 12 = true ∧ r.word 2 = 0 ∧ r.word 3 = 0
     let u := bitsOf w 56 53
     (¬valid → ∃ t, exec .queueCreate s = .next t ∧ MemKept s t ∧ GangsKept s t ∧ Refused s t id i 0x45) ∧
     (valid → (∀ k, k < 64 → ((s.unit u).queue k).created = true) →
       ∃ t, exec .queueCreate s = .next t ∧ MemKept s t ∧ GangsKept s t ∧ Refused s t id i 0x44) ∧
     (valid → ∀ k, k < 64 → ((s.unit u).queue k).created = false → (∀ j, j < k → ((s.unit u).queue j).created = true) →
       ∃ t, exec .queueCreate s = .next t ∧ MemKept s t ∧ GangsKept s t ∧
         Answered t id i 0 (queueHandle u k ((s.unit u).queue k).gen) ∧
         let q := (t.unit u).queue k
         q.created = true ∧ q.ctx = r.ctx ∧ q.logn = bitsOf w 63 60 ∧ q.prio = bitsOf w 59 57 ∧ q.ring = r.words.getD 1 0 ∧
           q.gen = ((s.unit u).queue k).gen ∧ q.err = false)) ∧
    (s.freshQueue (r.word 0) = none →
      ∃ t, exec .queueDestroy s = .next t ∧ MemKept s t ∧ GangsKept s t ∧ Refused s t id i 0x40) ∧
    (∀ u k, s.freshQueue (r.word 0) = some (u, k) →
      (((s.unit u).queue k).ctx ≠ r.ctx → ∃ t, exec .queueDestroy s = .next t ∧ MemKept s t ∧ GangsKept s t ∧ Refused s t id i 0x43) ∧
      (((s.unit u).queue k).ctx = r.ctx → r.slot < 64 → ((s.unit u).queue k).pops = [] → ((s.unit u).queue k).spills = [] →
        ∃ t, exec .queueDestroy s = .next t ∧ MemKept s t ∧ GangsKept s t ∧ Answered t id i 0 0 ∧
          ((t.unit u).queue k).created = false ∧ ((t.unit u).queue k).gen = nextGen ((s.unit u).queue k).gen ∧
          (∀ j, ((s.unit u).pat j).claimed = true → ((s.unit u).pat j).bind = 2 → ((s.unit u).pat j).w 1 % 2 ^ 32 = queueHandle u k ((s.unit u).queue k).gen →
            ((t.unit u).pat j).en = false ∧ ((t.unit u).pat j).dis = true) ∧
          (Rests (s.unit u) → ((t.unit u).queue k).recs = [])))

/-- R363, R364, R368 to R371: a message, taken alone, at a fresh port that permits its source and has room is queued behind the port's
messages, where no pattern or queue of the unit is waiting to act; at a full port the messages stay and, but for SEND, OVF is set and
OVFCNT advances; a stale or forbidden one changes no unit or, where it has no flag, is counted. A sender that waits is told: 0x40,
0x41, or no error. The message that makes the one pattern of a unit, of one port, eligible fires it: the head is taken, FIRESEQ and
the rotation advance and the binding goes to the controller once the unit's clock has ended. That clock, and firings that follow at later
ones, are the model's reading (log entry 27). -/
def Obligations.ArrivalResults : Prop :=
  ∀ (s : State) (m : Msg), s.ev = .msg m → m.handle < 2 ^ 32 →
    let told (t : State) (cause : Nat) : Prop := ∀ (r : Req) (l : LaneAcc), mget? s.reqs m.req = some r → r.lanes[m.entry]? = some l → l.stage = 6 →
      Answered t m.req m.entry cause 0
    let flagless := m.source = 2 ∨ m.source = 3 ∨ m.source = 4
    (s.freshPort m.handle = none →
      ∃ t, exec .messageArrival s = .next t ∧ MemKept s t ∧ GangsKept s t ∧
        told t (if flagless then 0 else 0x40) ∧
        t.join = (if flagless then (s.countStale (bitsOf m.handle 19 16)).join else s.join)) ∧
    (∀ u k, s.freshPort m.handle = some (u, k) → ((s.unit u).port k).permits m s.devId = false →
      ∃ t, exec .messageArrival s = .next t ∧ MemKept s t ∧ GangsKept s t ∧
        told t (if flagless then 0 else 0x40) ∧
        t.join = (if flagless then (s.countStale (bitsOf m.handle 19 16)).join else s.join)) ∧
    (∀ u k, s.freshPort m.handle = some (u, k) → ((s.unit u).port k).permits m s.devId = true →
      let p := (s.unit u).port k
      (p.msgs.length ≤ p.depth → Rests (s.unit u) →
        ∃ t, exec .messageArrival s = .next t ∧ MemKept s t ∧ GangsKept s t ∧ t.agenda = s.agenda ∧
          told t 0 ∧ (t.unit u).port k = { p with msgs := p.msgs ++ [m.data] } ∧ (t.unit u).fireseq = (s.unit u).fireseq) ∧
      (p.depth < p.msgs.length →
        ∃ t, exec .messageArrival s = .next t ∧ MemKept s t ∧ GangsKept s t ∧ ((t.unit u).port k).msgs = p.msgs ∧ told t (if m.source = 0 then 0x41 else 0) ∧
          (m.source ≠ 0 → ((t.unit u).port k).ovf = true ∧ ((t.unit u).port k).ovfcnt = min 255 (p.ovfcnt + 1))) ∧
      (∀ i q, (s.unit u).pats = [(i, q)] → (s.unit u).queues = [] → i < 64 → q.claimed = true → q.en = true → q.bind = 0 →
        listedPorts (q.w 0) = [k] → (q.w 0).testBit 52 = false → p.msgs = [] → (∀ x ∈ (s.unit u).ports, x.1 ≠ k → x.2.msgs = []) →
        ∃ t, exec .messageArrival s = .next t ∧ MemKept s t ∧ GangsKept s t ∧
          told t 0 ∧ ((t.unit u).port k).msgs = [] ∧ (t.unit u).fireseq = ((s.unit u).fireseq + 1) % 2 ^ 32 ∧
          mget 0 (t.unit u).ptr q.prio = (i + 1) % 64 ∧
          t.agenda = s.agenda ++ [⟨.firingAtController,
            .fire 0 q.ctx (64 * u + i) (BitVec.ofNat 64 (q.w 1)) (BitVec.ofNat 64 (q.w 2)) [m.data, 0, 0, 0], 2 * (s.baseClock + 1)⟩]))

/-- R377 to R380, R286, R287: at a unit with nothing to fire or serve, of a queue where no pop waits, a push goes on-chip, or towards the
ring where records wait there, a refill runs or 32 are on-chip, or is refused with 0x42 where the ring is full too; where its ring is
empty a pop takes the head record or waits, and a try takes one or none; a stale handle answers 0x40 and a queue in error its cause; on
pages the unit can reach the ring write stores the record at its entry and completes the push, and a refill of sound lines that no group
holds brings its records on-chip in ring order. That a try, which R380 does not name, takes the cause of a queue in error is the model's
reading (log entry 27). -/
def Obligations.QueueResults : Prop :=
  ∀ (s : State),
    (∀ id i r l, PieceAt s id i r l → l.stage = 6 → l.pa < 2 ^ 32 → ∀ op ∈ [Instr.queuePush, .queuePopRequest, .queueTryRequest],
      (s.freshQueue l.pa = none → ∃ t, exec op s = .next t ∧ MemKept s t ∧ GangsKept s t ∧ Refused s t id i 0x40) ∧
      (∀ u k, s.freshQueue l.pa = some (u, k) → ((s.unit u).queue k).err = true → ((s.unit u).queue k).cause ≠ 0 →
        ∃ t, exec op s = .next t ∧ MemKept s t ∧ GangsKept s t ∧ Refused s t id i ((s.unit u).queue k).cause)) ∧
    (∀ id r l u k, PieceAt s id 0 r l → l.stage = 6 → l.pa < 2 ^ 32 → s.freshQueue l.pa = some (u, k) → Rests (s.unit u) →
      let q := (s.unit u).queue k
      q.err = false → q.pops = [] →
      (q.onChip = true → ∃ t, exec .queuePush s = .next t ∧ MemKept s t ∧ GangsKept s t ∧ Answered t id 0 0 0 ∧
        (t.unit u).queue k = { q with recs := q.recs ++ [r.words] }) ∧
      (q.onChip = false → q.rcnt < q.size → (q.rfl = true ∨ 24 < q.recs.length) →
        ∃ t, exec .queuePush s = .next t ∧ MemKept s t ∧ GangsKept s t ∧ t.reqs = s.reqs ∧
          (t.unit u).queue k = { q with spills := q.spills ++ [(q.rtail, r.words, id)], rtail := (q.rtail + 1) % 2 ^ 32 } ∧
          t.agenda = s.agenda ++ [{ op := .queueRingWriteDone, arg := .queue u k q.gen }]) ∧
      (q.onChip = false → q.size ≤ q.rcnt → ∃ t, exec .queuePush s = .next t ∧ MemKept s t ∧ GangsKept s t ∧ Refused s t id 0 0x42) ∧
      (∀ w ws, q.recs = w :: ws → q.rcnt = 0 → ∀ op ∈ [Instr.queuePopRequest, .queueTryRequest],
        ∃ t, exec op s = .next t ∧ MemKept s t ∧ GangsKept s t ∧ ((t.unit u).queue k).recs = ws ∧ ((t.unit u).queue k).pops = [] ∧
          ∃ q' m, mget? t.reqs id = some q' ∧ q'.words = w ∧ q'.lanes[0]? = some m ∧ m.stage = 2) ∧
      (q.recs = [] → q.rcnt = 0 →
        (∃ t, exec .queuePopRequest s = .next t ∧ MemKept s t ∧ GangsKept s t ∧ t.reqs = s.reqs ∧ (t.unit u).queue k = { q with pops := [id] }) ∧
        ∃ t, exec .queueTryRequest s = .next t ∧ MemKept s t ∧ GangsKept s t ∧ Answered t id 0 0 0 ∧ t.join = s.join ∧
          ∃ q', mget? t.reqs id = some q' ∧ q'.words = r.words)) ∧
    (∀ u k gen, s.ev = .queue u k gen → Rests (s.unit u) → (∀ r ∈ s.reqs, r.2.slot ≠ unitSlot) →
      let q := (s.unit u).queue k
      let at_ (i : Nat) : Nat := q.entryVa i % 2 ^ 57
      let mapped (i acc : Nat) : Prop := s.pageHeld q.ctx (at_ i / 4096) = false ∧
        ∃ e, s.tlbFind q.ctx (at_ i / 4096) = some e ∧ e.serves acc = true ∧ pteAllows e.pte.toNat acc = true
      let pa (i : Nat) : Nat := 4096 * ptePpn (((s.tlbFind q.ctx (at_ i / 4096)).map (·.pte.toNat)).getD 0) + at_ i % 4096
      q.created = true → q.gen = gen →
      (∀ j w id rest, q.spills = (j, w, id) :: rest → mapped j 1 → w.length = 8 → Mem.wf s.mem = true →
        ∃ t, exec .queueRingWriteDone s = .next t ∧ GangsKept s t ∧ KeptOutside s t (pa j) 64 ∧
          (∀ n, n < 8 → t.rd (pa j + 8 * n) 8 = (w.getD n 0).toNat) ∧ (t.unit u).queue k = { q with spills := rest } ∧
          (∀ r l, mget? s.reqs id = some r → r.lanes[0]? = some l → l.stage = 6 → Answered t id 0 0 0)) ∧
      (let i0 := (q.rhead + 2 ^ 32 - q.refillN) % 2 ^ 32
       q.rfl = true → q.pops = [] → q.rcnt = 0 → (∀ j, j < q.refillN → mapped (i0 + j) 0 ∧ s.sound (pa (i0 + j)) 64 = true ∧
         (linesOf (pa (i0 + j)) 64).any s.lineHeld = false) →
        let new : List (List W64) := (List.range q.refillN).map (fun j =>
          (List.range 8).map (fun n => BitVec.ofNat 64 (s.rd (pa (i0 + j) + 8 * n) 8)))
        ∃ t, exec .queueRefillDone s = .next t ∧ MemKept s t ∧ GangsKept s t ∧
          (t.unit u).queue k = { q with rfl := false, refillN := 0, recs := q.recs ++ new }))

namespace Sys2Proof.Machine

/-- The lines of HBM that a group's landing entries at one destination hold. -/
def State.landed (s : State) (dev octx g dctx : Nat) : List LandEntry := s.landing.filter (fun e => e.odev == dev && e.octx == octx && e.group == g && e.dctx == dctx)

/-- A group request completes on the flag of its gang with a cause (R158, R326). -/
def GroupEnds (s t : State) (id : Nat) (r : Req) (cause : Nat) : Prop :=
  t.reqs = mdel s.reqs id ∧ (∀ c g, c ≠ r.core ∨ g ≠ r.slot → t.gang? c g = s.gang? c g) ∧
    ∀ x, s.gang? r.core r.slot = some x → (t.gang r.core r.slot).flag r.flag =
      { count := (x.flag r.flag).count - 1, err := (x.flag r.flag).err || cause != 0,
        cause := if (x.flag r.flag).err then (x.flag r.flag).cause else if cause = 0 then (x.flag r.flag).cause else cause }

/-- Destinations of a group with one field of each set. -/
def acked (ds : List (Nat × Nat × Nat × Bool × Bool)) (dev dctx : Nat) : List (Nat × Nat × Nat × Bool × Bool) :=
  ds.map (fun d => if d.1 = dev ∧ d.2.1 = dctx then (d.1, d.2.1, d.2.2.1, d.2.2.2.1, true) else d)

end Sys2Proof.Machine

/-- R153, R158, R163, R164, R326, R447 at the origin: opening, refused for an open group (0x3A) and a 257th (0x39); an STG of one lane
counted and sent, made to wait where its cluster's budget is spent, or refused (0x3B for a group not open, 0x37 for a 65th destination or
a count at its end); the end of a group, at once where it touched no
destination; prepare, abort, answers, timeout and acknowledgements, with the packets they send, the outcome recorded and the cause the
flag takes; a destination lost before, during and after the decision. That every destination context is resolved is the model's
reading (log entry 25). -/
def Sys2Proof.Machine.GroupOriginResults : Prop :=
  ∀ (s : State) (ctx g : Nat),
    let key := 1024 * ctx + g
    let x := s.group key
    (∀ id r, s.ev = .group ctx g id → mget? s.reqs id = some r → r.kind = .gopen → r.peer = none → r.lanes = [] → r.slot < 64 →
      (x.opened = true → ∃ t, exec .gopenAtTable s = .next t ∧ MemKept s t ∧ GroupEnds s t id r 0x3A ∧ t.groups = s.groups) ∧
      (x.opened = false → 256 ≤ (s.groups.filter (fun y => y.2.opened)).length →
        ∃ t, exec .gopenAtTable s = .next t ∧ MemKept s t ∧ GroupEnds s t id r 0x39 ∧ t.groups = s.groups) ∧
      (x.opened = false → (s.groups.filter (fun y => y.2.opened)).length < 256 →
        ∃ t, exec .gopenAtTable s = .next t ∧ MemKept s t ∧ GroupEnds s t id r 0 ∧ t.group key = { opened := true } ∧
          ∀ y, y ≠ key → t.group y = s.group y)) ∧
    (∀ id n r l, s.ev = .req id n → mget? s.reqs id = some r → r.lanes = [l] → l.stage = 1 → r.ctx = ctx → r.z = g → s.budgetOk r.core = false →
      ∃ t q m, exec .stgAtTable s = .next t ∧ MemKept s t ∧ GangsKept s t ∧ t.groups = s.groups ∧ t.outbox = s.outbox ∧
        mget? t.reqs id = some q ∧ q.cause = r.cause ∧ q.words = r.words ∧ q.lanes = [m] ∧ m.stage = 1) ∧
    (∀ id n r l, s.ev = .req id n → mget? s.reqs id = some r → r.lanes = [l] → l.stage = 1 → r.ctx = ctx → r.z = g → s.budgetOk r.core = true →
      (x.opened = false ∨ x.phase ≠ 0 → ∃ t, exec .stgAtTable s = .next t ∧ MemKept s t ∧ GangsKept s t ∧ t.groups = s.groups ∧
        t.reqs = mset s.reqs id { r with cause := 0x3B, words := [1], lanes := [{ l with stage := 4, cause := 0x3B }] }) ∧
      (x.opened = true → x.phase = 0 → x.dests = [] →
        ∃ t, exec .stgAtTable s = .next t ∧ MemKept s t ∧ GangsKept s t ∧ t.reqs = mset s.reqs id { r with words := [0], lanes := [{ l with stage := 6, sent := 0 }] } ∧
          (t.group key).dests = [(if l.peer = 0 then s.devId else aperDev l.peer, if l.peer = 0 then ctx else aperCtx l.peer, 1, false, false)] ∧
          ∃ p : Packet, p.kind = 5 ∧ p.dev = (if l.peer = 0 then s.devId else aperDev l.peer) ∧ p.ctx = (if l.peer = 0 then ctx else aperCtx l.peer) ∧
            p.tag = 1024 * id ∧ (if p.dev = s.devId then ({ op := .stgLaneArrival, arg := .packet p } : Pending) ∈ t.agenda else p ∈ t.outbox)) ∧
      (x.opened = true → x.phase = 0 → x.failed = false →
        (let known := x.dests.find? (fun d => d.1 == (s.stgDest ctx l).1 && d.2.1 == (s.stgDest ctx l).2)
         (known = none ∧ 64 ≤ x.dests.length) ∨ ∃ d, known = some d ∧ 2 ^ 24 - 1 ≤ d.2.2.1) →
        ∃ t, exec .stgAtTable s = .next t ∧ MemKept s t ∧ GangsKept s t ∧
          t.reqs = mset s.reqs id { r with words := [0], lanes := [{ l with stage := 4, cause := 0x37 }] } ∧
          (t.group key).failed = true ∧ (t.group key).cause = 0x37 ∧ (t.group key).dests = x.dests)) ∧
    (∀ id r, s.ev = .group ctx g id → mget? s.reqs id = some r → r.kind = .gend → r.peer = none → r.lanes = [] → r.slot < 64 →
      (x.opened = false ∨ x.phase ≠ 0 → ∃ t, exec .gcommitAtTable s = .next t ∧ MemKept s t ∧ GroupEnds s t id r 0x3B ∧ t.groups = s.groups) ∧
      (x.opened = true → x.phase = 0 → x.dests = [] →
        ∃ t, exec .gcommitAtTable s = .next t ∧ MemKept s t ∧ GroupEnds s t id r (if r.dest = 1 then 0x30 else 0) ∧
          (t.group key).status = (if r.dest = 1 then 3 else 2) ∧ (t.group key).opened = false) ∧
      (x.opened = true → x.phase = 0 → x.dests ≠ [] →
        ∃ t, exec .gcommitAtTable s = .next t ∧ MemKept s t ∧ GangsKept s t ∧ t.reqs = s.reqs ∧
          t.group key = { x with status := 1, phase := 1, req := id, voluntary := r.dest == 1, waits := r.deps } ∧
          t.agenda = s.agenda ++ [{ op := .commitPrepareSend, arg := .group ctx g id }]) ∧
      (x.phase = 1 → x.req = id → x.voluntary = false → x.failed = false → (∀ d ∈ x.dests, d.1 ∉ x.gone) →
        ∃ t, exec .commitPrepareSend s = .next t ∧ MemKept s t ∧ GangsKept s t ∧ t.reqs = s.reqs ∧
          t.group key = { x with phase := 2, sent := s.clock } ∧
          t.outbox = s.outbox ++ (x.dests.filter (fun d => d.1 != s.devId)).map (fun d =>
            { kind := 7, dev := d.1, ctx := d.2.1, peerCtx := ctx, tag := g, b := d.2.2.1 }) ∧
          ⟨.preptoExpiry, .group ctx g id, s.clock + s.prepto⟩ ∈ t.agenda) ∧
      (x.phase = 1 → x.req = id → x.gone = [] → (x.voluntary = true ∨ x.failed = true) →
        ∃ t, exec .commitPrepareSend s = .next t ∧ MemKept s t ∧ GangsKept s t ∧ t.reqs = s.reqs ∧ (t.group key).phase = 4 ∧
          t.outbox = s.outbox ++ (x.dests.filter (fun d => d.1 != s.devId)).map (fun d =>
            { kind := 10, dev := d.1, ctx := d.2.1, peerCtx := ctx, tag := g, b := d.2.2.1 })) ∧
      (x.phase = 2 → x.req = id →
        ∃ t, exec .preptoExpiry s = .next t ∧ MemKept s t ∧ GangsKept s t ∧ t.reqs = s.reqs ∧ (t.group key).phase = 4 ∧ (t.group key).cause = 0x36 ∧
          ∀ d, x.dests.find? (fun d => !d.2.2.2.1) = some d → (t.group key).dev = d.1)) ∧
    (∀ p, s.ev = .packet p → p.ctx = ctx → p.tag = g →
      (x.phase = 2 → p.a ≠ 0 →
        ∃ t, exec .answerArrival s = .next t ∧ MemKept s t ∧ GangsKept s t ∧ t.reqs = s.reqs ∧ (t.group key).phase = 4 ∧
          (t.group key).cause = p.a ∧ (t.group key).dcause = p.b ∧ (t.group key).dev = p.dev) ∧
      (x.phase = 2 → p.a = 0 →
        let ds := x.dests.map (fun d => if d.1 = p.dev ∧ d.2.1 = p.peerCtx then (d.1, d.2.1, d.2.2.1, true, false) else d)
        ∃ t, exec .answerArrival s = .next t ∧ MemKept s t ∧ GangsKept s t ∧ t.reqs = s.reqs ∧
          t.group key = { x with dests := ds, phase := if ds.all (fun d => d.2.2.2.1) then 3 else 2 } ∧
          t.outbox = s.outbox ++ (if ds.all (fun d => d.2.2.2.1) then ds.filter (fun d => d.1 != s.devId) else []).map (fun d =>
            { kind := 9, dev := d.1, ctx := d.2.1, peerCtx := ctx, tag := g, b := d.2.2.1 })) ∧
      (x.phase = 3 ∨ x.phase = 4 → (acked x.dests p.dev p.peerCtx).all (fun d => d.2.2.2.2) = false →
        ∃ t, exec .groupAckArrival s = .next t ∧ MemKept s t ∧ GangsKept s t ∧ t.reqs = s.reqs ∧
          t.group key = { x with dests := acked x.dests p.dev p.peerCtx }) ∧
      (∀ r, x.phase = 3 ∨ x.phase = 4 → (acked x.dests p.dev p.peerCtx).all (fun d => d.2.2.2.2) = true → mget? s.reqs x.req = some r →
        r.kind = .gend → r.peer = none → r.lanes = [] → r.slot < 64 →
        ∃ t, exec .groupAckArrival s = .next t ∧ MemKept s t ∧
          GroupEnds s t x.req r (if x.phase = 3 then 0 else if x.voluntary then 0x30 else x.cause) ∧
          (t.group key).status = (if x.phase = 3 then 2 else 3) ∧ (t.group key).opened = false)) ∧
    (∀ dev n, s.ev = .host dev n → s.groups = [(key, x)] → x.dests.any (fun d => d.1 == dev) = true →
      (x.phase ≤ 1 → x.opened = true → ∃ t, exec .peerLostReport s = .next t ∧ MemKept s t ∧ GangsKept s t ∧ dev ∈ (t.group key).gone ∧
        (t.group key).dests = x.dests ∧ (t.group key).phase = x.phase) ∧
      (x.phase = 2 → x.voluntary = false → ∃ t, exec .peerLostReport s = .next t ∧ MemKept s t ∧ (t.group key).cause = 0x36 ∧
        (t.group key).dev = dev ∧ ((t.group key).phase = 4 ∨ (t.group key).phase = 5)) ∧
      (x.phase = 3 → x.dests.all (fun d => d.1 == dev || d.2.2.2.2) = true → x.dests.any (fun d => d.1 == dev && !d.2.2.2.2) = true →
        ∃ t, exec .peerLostReport s = .next t ∧ MemKept s t ∧ (t.group key).status = 2 ∧ (t.group key).lost = true ∧ (t.group key).opened = false))

namespace Sys2Proof.Machine

/-- Byte k of a landing record is valid (R155). -/
def State.landValid (s : State) (i k : Nat) : Bool := (s.rd (s.landRecord i + 128 + k / 8) 1).testBit (k % 8)

end Sys2Proof.Machine

/-- R154 to R161, R164 at the destination: a lane is acknowledged and served, or refused for a context not live; the first lane of a line
enters a new record of the landing, of which only its bytes are valid, or is refused with 0x31 where the landing is full, and with 0x32
where 256 other groups hold state; a prepare is
answered with 0x38 for a context not live or being unmade, 0x33 for a lane missing, 0x34 where an entry's page now forbids the write,
else the group is prepared; commit publishes the valid bytes of the group's lines, where they do not lie in the landing itself, and no
other, abort discards them, each acknowledged; a resolution ends a prepared group so too. That 0x31 comes before 0x32, and which bit of a
record's mask stands for which byte, is the model's reading (log entry 25). -/
def Sys2Proof.Machine.GroupDestinationResults : Prop :=
  ∀ (s : State),
    (∀ p, s.ev = .packet p →
      ((s.ctx p.ctx).live = true → ∃ t q, exec .stgLaneArrival s = .next t ∧ MemKept s t ∧ GangsKept s t ∧
        Sent s t [{ kind := 1, dev := p.dev, ctx := p.peerCtx, tag := p.tag }] ∧ t.reqs = mset s.reqs s.nextId q ∧
        q.kind = .stg ∧ q.ctx = p.ctx ∧ q.group = p.a ∧ q.peer = some (p.dev, p.peerCtx, p.tag)) ∧
      ((s.ctx p.ctx).live = false → ∃ t, exec .stgLaneArrival s = .next t ∧ MemKept s t ∧ GangsKept s t ∧ t.reqs = s.reqs ∧
        Sent s t [{ kind := 1, dev := p.dev, ctx := p.peerCtx, tag := p.tag },
                  { kind := 6, dev := p.dev, ctx := p.peerCtx, peerCtx := p.ctx, tag := p.tag, a := 0x17 }]) ∧
      (∃ t, exec .prepareArrival s = .next t ∧ MemKept s t ∧ GangsKept s t ∧ t.landing = s.landing ∧
        t.agenda = s.agenda ++ [{ op := .prepareAnswerSend, arg := .dest p }]) ∧
      (let mine := s.landed p.dev p.peerCtx p.tag p.ctx
       Mem.wf s.mem = true →
        ∃ t, exec .commitArrival s = .next t ∧ GangsKept s t ∧
          Sends s t [{ kind := 11, dev := p.dev, ctx := p.peerCtx, peerCtx := p.ctx, tag := p.tag }] ∧
          t.landed p.dev p.peerCtx p.tag p.ctx = [] ∧
          (∀ a, (∀ e ∈ mine, a / 128 ≠ e.pa) → Mem.read t.mem a = Mem.read s.mem a) ∧
          (mine.Pairwise (fun e f => e.pa ≠ f.pa) →
            (∀ e ∈ mine, ∀ f ∈ mine, 128 * e.pa + 128 ≤ s.landRecord f.idx ∨ s.landRecord f.idx + 256 ≤ 128 * e.pa) →
            ∀ e ∈ mine, ∀ k, k < 128 → Mem.read t.mem (128 * e.pa + k) =
              if s.landValid e.idx k = true then Mem.read s.mem (s.landRecord e.idx + k) else Mem.read s.mem (128 * e.pa + k))) ∧
      (∃ t, exec .abortArrival s = .next t ∧ MemKept s t ∧ GangsKept s t ∧ t.landed p.dev p.peerCtx p.tag p.ctx = [] ∧
        Sent s t [{ kind := 11, dev := p.dev, ctx := p.peerCtx, peerCtx := p.ctx, tag := p.tag }])) ∧
    (∀ id i r l dev octx tag, PieceAt s id i r l → l.stage = 1 → l.path = 0 → l.early = false → r.kind = .stg → r.deps = [] →
      r.peer = some (dev, octx, tag) → Mem.wf s.mem = true →
      let va := l.ia.toNat % 2 ^ 57
      let mine (d : DestGroup) : Prop := d.odev = dev ∧ d.octx = octx ∧ d.group = r.group ∧ d.dctx = r.ctx
      va % 128 + l.size ≤ 128 →
      (∀ e ∈ s.landing, ¬(e.odev = dev ∧ e.octx = octx ∧ e.group = r.group ∧ e.dctx = r.ctx ∧ e.va = va / 128 * 128)) →
      (262144 ≤ s.landing.length → ∃ t, exec .memoryAccessPerform s = .next t ∧ MemKept s t ∧ GangsKept s t ∧ t.landing = s.landing ∧
        t.dests = s.dests ∧ PieceBecomes s t id i r { l with stage := 4, cause := 0x31 }) ∧
      (s.landing.length < 262144 → (∀ d ∈ s.dests, ¬mine d) → (dev, octx, r.group) ∉ landGroups s.dests → 256 ≤ (landGroups s.dests).length →
        ∃ t, exec .memoryAccessPerform s = .next t ∧ MemKept s t ∧ GangsKept s t ∧ t.landing = s.landing ∧
          t.dests = s.dests ∧ PieceBecomes s t id i r { l with stage := 4, cause := 0x32 }) ∧
      (s.landing.length < 262144 → ((∃ d ∈ s.dests, mine d) ∨ (dev, octx, r.group) ∈ landGroups s.dests ∨ (landGroups s.dests).length < 256) →
        ∃ t k, exec .memoryAccessPerform s = .next t ∧ GangsKept s t ∧
        (∀ e ∈ s.landing, e.idx ≠ k) ∧ t.landing = s.landing ++ [⟨k, dev, octx, r.group, r.ctx, va / 128 * 128, l.pa / 128, false⟩] ∧
        (∀ d ∈ s.dests, mine d → { d with received := d.received + 1 } ∈ t.dests) ∧
        ((∀ d ∈ s.dests, ¬mine d) → { odev := dev, octx := octx, group := r.group, dctx := r.ctx, received := 1, prepared := false } ∈ t.dests) ∧
        KeptOutside s t (s.landRecord k) 256 ∧ PieceBecomes s t id i r { l with stage := 2, cause := 0 } ∧
        ∀ j, j < 128 → (t.landValid k j = true ↔ va % 128 ≤ j ∧ j < va % 128 + l.size ∧ l.cmp.testBit (j - va % 128) = true) ∧
          (t.landValid k j = true → Mem.read t.mem (s.landRecord k + j) = BitVec.ofNat 8 (l.data / 256 ^ (j - va % 128))))) ∧
    (∀ p, s.ev = .dest p →
      let mine (d : DestGroup) : Bool := d.odev == p.dev && d.octx == p.peerCtx && d.group == p.tag && d.dctx == p.ctx
      let answer (a : Nat) : Packet := { kind := 8, dev := p.dev, ctx := p.peerCtx, peerCtx := p.ctx, tag := p.tag, a := a }
      ((s.ctx p.ctx).live = false ∨ s.dying p.ctx = true → ∃ t, exec .prepareAnswerSend s = .next t ∧ MemKept s t ∧ GangsKept s t ∧ t.dests = s.dests ∧ Sent s t [answer 0x38]) ∧
      ((s.ctx p.ctx).live = true → s.dying p.ctx = false → ∀ d, s.dests.find? mine = some d →
        (d.received ≠ p.b → ∃ t, exec .prepareAnswerSend s = .next t ∧ MemKept s t ∧ GangsKept s t ∧ t.dests = s.dests ∧ Sent s t [answer 0x33]) ∧
        (d.received = p.b → (∀ e ∈ s.landed p.dev p.peerCtx p.tag p.ctx, e.stale = false) →
          ∃ t, exec .prepareAnswerSend s = .next t ∧ MemKept s t ∧ GangsKept s t ∧ Sends s t [answer 0] ∧ t.landing = s.landing ∧
            ∀ e ∈ t.dests, mine e = true → e.prepared = true) ∧
        (∀ e x, d.received = p.b → s.landed p.dev p.peerCtx p.tag p.ctx = [e] → e.stale = true → s.tlbFind e.dctx (e.va / 4096) = some x →
          x.serves 1 = true → pteAllows x.pte.toNat 1 = false →
          ∃ t, exec .prepareAnswerSend s = .next t ∧ MemKept s t ∧ GangsKept s t ∧ t.dests = s.dests ∧ Sent s t [{ answer 0x34 with b := 0x11 }]))) ∧
    (∀ off w d, s.ev = .reg off w 8 → s.dests = [d] → d.prepared = true → d.odev = bitsOf w.toNat 43 34 → d.octx = bitsOf w.toNat 33 22 →
      d.group = bitsOf w.toNat 21 12 →
      (∃ t, exec .gresolveAbort s = .next t ∧ MemKept s t ∧ GangsKept s t ∧ t.dests = [] ∧
        Sent s t [{ kind := 11, dev := d.odev, ctx := d.octx, peerCtx := d.dctx, tag := d.group }]) ∧
      (∃ t, exec .gresolveCommit s = .next t ∧ GangsKept s t ∧ t.dests = [] ∧ t.landed d.odev d.octx d.group d.dctx = [] ∧
        Sends s t [{ kind := 11, dev := d.odev, ctx := d.octx, peerCtx := d.dctx, tag := d.group }]))

/-- Commit groups at their origin and at a destination (from R151 to R164). -/
def Obligations.GroupResults : Prop := GroupOriginResults ∧ GroupDestinationResults

namespace Sys2Proof.Machine

/-- A cached translation of a context serves an access of a kind (0 load, 1 store) at an address, and permits it (R26). -/
def Cached (s : State) (ctx va acc pa : Nat) : Prop :=
  ∃ e, s.tlbFind ctx (va / 4096) = some e ∧ e.serves acc = true ∧ pteAllows e.pte.toNat acc = true ∧
    pa = 4096 * ptePpn e.pte.toNat + va % 4096

/-- No access that a unit has sent to a peer is under way. -/
def NoUnitReq (s : State) : Prop := ∀ r ∈ s.reqs, r.2.slot ≠ unitSlot

/-- All other gangs are as they were. -/
def OtherGangs (s t : State) (c slot : Nat) : Prop := ∀ c' g, c' ≠ c ∨ g ≠ slot → t.gang? c' g = s.gang? c' g

end Sys2Proof.Machine

/-- R384, R385, R388, R389, R393, R176, R20: a firing takes the next LOTID and an entry, or, where 4,096 are held, is dropped and counted in
LOVF, and of a lot the template's first word is read, whose port its completion message with the error goes to, or none where the read
fails; at its turn a lot whose template's record failed is dropped, one whose template lies on mapped pages of HBM has
it read and kept, or is refused with its completion message; a sole waiting handler's gang is placed on the core its rule names, in the
lowest free crew and gang slots, in the state of a gang's start; a window image read enters the core's copy, a window or aperture read
from a poisoned word with V = 0. That a copy takes effect 4 clocks on, and that no gang of its context issues before, is the model's
choice (log entry 44). -/
def Obligations.LaunchResults : Prop :=
  ∀ (s : State),
    (∀ kind ctx pattern w1 w2 pay, s.ev = .fire kind ctx pattern w1 w2 pay →
      let next := if (s.lotid + 1) % 2 ^ 32 = 0 then 1 else (s.lotid + 1) % 2 ^ 32
      (s.entries < 4096 →
        ∃ t x, exec .firingAtController s = .next t ∧ MemKept s t ∧ GangsKept s t ∧ t.lotid = next ∧ t.launches = s.launches ++ [x] ∧
          x.kind = kind ∧ x.ctx = ctx ∧ x.tenant = s.tenant ctx ∧ x.lotid = s.lotid ∧ x.payload = pay ∧ x.w1 = w1 ∧ x.w2 = w2 ∧ x.read = false) ∧
      (4096 ≤ s.entries →
        ∃ t, exec .firingAtController s = .next t ∧ MemKept s t ∧ GangsKept s t ∧ t.lotid = next ∧ t.launches = s.launches ∧
          (t.dreg 0x60).getLsbD 63 = true ∧ (t.dreg 0x60).toNat % 2 ^ 32 = min (2 ^ 32 - 1) ((s.dreg 0x60).toNat % 2 ^ 32 + 1) ∧
          (kind ≠ 1 → t.reqs = s.reqs) ∧
          (kind = 1 → ∃ q l, t.reqs = mset s.reqs s.nextId q ∧ q.kind = .rawLoad ∧ q.slot = peekSlot ∧ q.ctx = ctx ∧
            q.words = [BitVec.ofNat 64 s.lotid] ∧ q.lanes = [l] ∧ l.stage = 0 ∧ l.size = 8 ∧ l.ia = BitVec.ofNat 64 (w1.toNat % 2 ^ 57)))) ∧
    (∀ id i r l w, s.ev = .req id i → mget? s.reqs id = some r → r.peer = none → r.slot = peekSlot → r.kind = .rawLoad → r.words = [w] → r.lanes = [l] →
      (l.stage = 2 → l.undef = false → l.cause = 0 → ∃ t, exec .memoryOpComplete s = .next t ∧ MemKept s t ∧ GangsKept s t ∧ t.reqs = mdel s.reqs id ∧
        t.agenda = s.agenda ++ [⟨.messageArrival, .msg ⟨l.out % 2 ^ 32, completionWord true r.ctx w.toNat, 4, r.ctx, s.devId, 0, 0, 0⟩, 0⟩]) ∧
      (l.stage = 4 → ∃ t, exec .memoryOpComplete s = .next t ∧ MemKept s t ∧ GangsKept s t ∧ t.reqs = mdel s.reqs id ∧ t.agenda = s.agenda)) ∧
    (∀ tn l, s.ev = .launch tn → s.lotHead tn = some l → s.tmplDue tn = true → NoUnitReq s →
      (l.failed = true → ∃ t, exec .templateReadDone s = .next t ∧ MemKept s t ∧ GangsKept s t ∧ t.launches = s.launches.erase l ∧
        (t.dreg 0x60).getLsbD 63 = true) ∧
      (∀ pa : Nat → Nat, l.failed = false →
        (∀ i ∈ [0, 32, 64], Cached s l.ctx ((l.w1.toNat + i) % 2 ^ 57) 0 (pa i) ∧ s.sound (pa i) 32 = true) →
        let ws := [0, 32, 64].flatMap (fun i => (List.range 4).map (fun j => BitVec.ofNat 64 (s.rd (pa i + 8 * j) 8)))
        (s.tmplRefused l.ctx ws = true →
          ∃ t, exec .templateReadDone s = .next t ∧ MemKept s t ∧ GangsKept s t ∧ t.launches = s.launches.erase l ∧
            ⟨.messageArrival, .msg ⟨tmplPort ws, completionWord true l.ctx l.lotid, 4, l.ctx, s.devId, 0, 0, 0⟩, 0⟩ ∈ t.agenda) ∧
        (s.tmplRefused l.ctx ws = false →
          ∃ t, exec .templateReadDone s = .next t ∧ MemKept s t ∧ GangsKept s t ∧
            { l with tmpl := ws, read := true, lot := s.lotRec } ∈ t.launches ∧
            mget? t.lots s.lotRec = some { ctx := l.ctx, lotid := l.lotid, left := tmplMembers ws, cport := tmplPort ws }))) ∧
    (∀ l c cs, s.launches = [l] → l.kind = 0 → l.tenant < 16 → s.coreFor l.tenant (handlerPlan l.w1 l.w2) (some (l.pattern / 64)) = some c →
      (s.core c).freeCrew = some cs →
      let h := l.w2.toNat
      (∀ d, d < 128 → s.fits d l.tenant (handlerPlan l.w1 l.w2) = true → (d / 8 = l.pattern / 64 ∨ c / 8 ≠ l.pattern / 64) →
        (s.core c).gangs.length ≤ (s.core d).gangs.length) ∧
      ∃ t g slot, exec .admission s = .next t ∧ MemKept s t ∧ t.launches = [] ∧ t.admitting = false ∧ t.trot = (l.tenant + 1) % 16 ∧
        slot / 16 = cs % 4 ∧ s.gang? c slot = none ∧ (∀ j, 16 * (cs % 4) ≤ j → j < slot → (s.gang? c j).isSome = true) ∧
        t.gang? c slot = some g ∧ OtherGangs s t c slot ∧
        g.cslot = cs ∧ g.cgang = 0 ∧ g.nsl = bitsOf h 63 61 + 1 ∧ g.regs = 16 * (bitsOf h 60 58 + 1) ∧ g.prio = bitsOf h 57 55 ∧
        g.frozen = false ∧ g.ended = false ∧ (∀ n, g.vreg n = []) ∧ (∀ n, (g.flag n).count = 0) ∧
        (∀ n, n < 4 → g.sreg n = l.payload.getD n 0) ∧ g.sreg 4 = 0 ∧
        g.sreg 5 = BitVec.ofNat 64 (l.lotid % 2 ^ 32 * 2 ^ 32 + c * 2 ^ 12 + cs % 4 * 2 ^ 10 + g.nsl * 2 ^ 6 + cs * 4) ∧
        (∀ n, 5 < n → g.sreg n = 0) ∧
        (∀ k, k < g.nsl → (g.slice k).pc = l.w1 ∧ (g.slice k).mask = 0xF ∧ (g.slice k).depth = 0 ∧ (g.slice k).ended = false) ∧
        (t.crew c cs).ctx = l.ctx ∧ (t.crew c cs).lotid = l.lotid ∧ (t.crew c cs).tiles = 16 * bitsOf h 46 39 ∧
        (t.crew c cs).wslots = 16 * bitsOf h 38 33 ∧ (t.crew c cs).granules.length = bitsOf h 54 47) ∧
    (∀ c ctx w, s.ev = .entry c ctx → mget? (s.core c).copies ctx = some w → w.loading = true → inHbm (s.imagePa ctx) 1024 = true →
      ∃ t, exec .windowImageReadDone s = .next t ∧ MemKept s t ∧ GangsKept s t ∧ (t.copy c ctx).loading = false ∧
        (t.copy c ctx).from_ = s.clock + 4 ∧
        (∀ n, n < 16 → s.poisoned (s.imagePa ctx + 16 * n) 16 = true → ((t.copy c ctx).word t.clock (2 * n)).getLsbD 63 = false) ∧
        (∀ n, 0 < n → n < 64 → s.poisoned (s.imagePa ctx + 0x100 + 8 * n) 8 = true → ((t.copy c ctx).word t.clock (64 + n)).getLsbD 63 = false) ∧
        (∀ n, n < 16 → s.poisoned (s.imagePa ctx + 16 * n) 16 = false →
          (t.copy c ctx).word t.clock (2 * n) = BitVec.ofNat 64 (s.rd (s.imagePa ctx + 16 * n) 8) &&& 0xFFFFFFFFFFFFFE00 ∧
          (t.copy c ctx).word t.clock (2 * n + 1) = BitVec.ofNat 64 (s.rd (s.imagePa ctx + 16 * n + 8) 8) &&& 0xFDFFFFFFFFFFF000) ∧
        ∀ n, 0 < n → n < 64 → s.poisoned (s.imagePa ctx + 0x100 + 8 * n) 8 = false → (t.copy c ctx).word t.clock (64 + n) = BitVec.ofNat 64 (s.rd (s.imagePa ctx + 0x100 + 8 * n) 8) &&& 0x800FFFFFC0000000)

/-- R53, R189 to R192, R345: a gang that has ended is released once its flags are zero; the last release ends its crew: for one not of
a stand its granules retire, and it counts as a member of its lot, the last of which sends the completion message; a retired granule
with nothing inbound is zeroed and free; a crew's bit of the phase in progress enters CARR, and completes the phase where it is the
last, for every gang that has arrived; one of the next phase waits; one for a crew that has ended or is of another stand does nothing. -/
def Obligations.CrewEndResults : Prop :=
  ∀ (s : State),
    (∀ c slot g w, s.ev = .gang c slot → s.gang? c slot = some g → g.ended = true → (∀ f ∈ g.flags, f.2.count = 0) →
      mget? (s.core c).crews g.cslot = some w →
      let rel := w.released ||| 2 ^ g.cgang
      let err := w.errored || g.flags.any (fun f => f.2.err)
      (popNat 16 rel ≠ w.ngangs →
        ∃ t, exec .gangRelease s = .next t ∧ MemKept s t ∧ t.gang? c slot = none ∧ OtherGangs s t c slot ∧
          (t.crew c g.cslot).released = rel ∧ (t.crew c g.cslot).errored = err ∧ t.lots = s.lots ∧ t.agenda = s.agenda) ∧
      (popNat 16 rel = w.ngangs → w.standN = 0 →
        ∃ t, exec .gangRelease s = .next t ∧ MemKept s t ∧ t.gang? c slot = none ∧ OtherGangs s t c slot ∧
          mget? (t.core c).crews g.cslot = none ∧
          (∀ n, n ∈ w.granules → gtState ((s.core c).tag n) = 1 → gtState ((t.core c).tag n) = 2) ∧
          (∀ n, n ∉ w.granules → (t.core c).tag n = (s.core c).tag n) ∧
          (w.lot = 0 → t.lots = s.lots ∧ t.agenda = s.agenda) ∧
          ∀ l, w.lot ≠ 0 → mget? s.lots w.lot = some l →
            (l.left = 1 → mget? t.lots w.lot = none ∧ t.agenda = s.agenda ++ [⟨.messageArrival,
              .msg ⟨l.cport, completionWord (l.errored || err) l.ctx l.lotid, 4, l.ctx, s.devId, 0, 0, 0⟩, 0⟩]) ∧
            (1 < l.left → t.agenda = s.agenda ∧ mget? t.lots w.lot = some { l with left := l.left - 1, errored := l.errored || err }))) ∧
    (∀ c g, s.ev = .entry c g → (s.core c).zeroDue g = true →
      ∃ t, exec .granuleZeroed s = .next t ∧ MemKept s t ∧ GangsKept s t ∧ gtState ((t.core c).tag g) = 0 ∧
        (∀ b, b < 4096 → mget 0 (t.core c).scratch (4096 * g + b) = 0) ∧
        (∀ a, a / 4096 ≠ g → mget 0 (t.core c).scratch a = mget 0 (s.core c).scratch a) ∧ ∀ n, n ≠ g → (t.core c).tag n = (s.core c).tag n) ∧
    (∀ c cs stand pos ph ids, s.ev = .carr c cs stand pos ph ids →
      (∀ w, mget? (s.core c).crews cs = some w → w.standN = 0 ∨ w.stand ≠ stand) → exec .sbarCarrArrival s = .next s) ∧
    (∀ c cs stand pos ph ids w, s.ev = .carr c cs stand pos ph ids → mget? (s.core c).crews cs = some w → w.standN ≠ 0 → w.stand = stand →
      w.sbst.getLsbD 62 ≠ ph → ∃ t, exec .sbarCarrArrival s = .next t ∧ MemKept s t ∧ (∀ c' g, t.gang? c' g = s.gang? c' g) ∧
        t.crew c cs = { w with carrNext := w.carrNext ++ [(pos, ids)] }) ∧
    (∀ c cs stand pos ph ids w, s.ev = .carr c cs stand pos ph ids → pos < 8 → mget? (s.core c).crews cs = some w → w.standN ≠ 0 →
      w.stand = stand → w.sbst.getLsbD 62 = ph → w.carrNext = [] → KeysRise (s.core c).crews →
      let b := setBits (s.crew c cs).sbst.toNat (48 + pos) (48 + pos) 1
      ((s.standCrews c cs).all (fun p => b.testBit (48 + p.1)) = false →
        ∃ t, exec .sbarCarrArrival s = .next t ∧ MemKept s t ∧ (∀ c' g, t.gang? c' g = s.gang? c' g) ∧ (t.crew c cs).sbst.toNat = b) ∧
      ((s.standCrews c cs).all (fun p => b.testBit (48 + p.1)) = true →
        ∃ t, exec .sbarCarrArrival s = .next t ∧ MemKept s t ∧
          (let a := (t.crew c cs).sbst.toNat
           bitsOf a 55 48 = 0 ∧ bitsOf a 31 16 = 0 ∧ bitsOf a 15 0 = (bitsOf b 15 0 ||| bitsOf b 31 16) ∧ a.testBit 62 = !b.testBit 62)))

namespace Sys2Proof.Machine

/-- A write of ENGSTOP on a core that runs no command selects the gang in `slot`, of the crew in crew slot `cs` (R409, R411). -/
structure EngWrite (s : State) (c slot cs : Nat) (v : W64) : Prop where
  ev : ∃ x y, s.ev = .sysw c x y v
  idle : (s.core c).engstop.busy = false
  valid : (s.core c).selgang.getLsbD 63 = true
  sel : (s.core c).selgang.toNat % 64 = slot
  other : slot ≠ 63
  gang : ∃ g, s.gang? c slot = some g ∧ g.cslot = cs

/-- A command is under way, or about to finish with RES and a cause. -/
def EngRuns (t : State) (c cmd : Nat) : Prop := (t.core c).engstop.busy = true ∧ (t.core c).engstop.cmd = cmd
def EngEnds (t : State) (c cmd res cause : Nat) : Prop :=
  EngRuns t c cmd ∧ (t.core c).engstop.finished = true ∧ (t.core c).engstop.out = res ∧ (t.core c).engstop.cause = cause

/-- A crew without engine state and without weight slots (Table 14-9). -/
structure NoEngineState (s : State) (c cs : Nat) : Prop where
  reqs : ∀ r ∈ s.reqs, ¬(r.2.core = c ∧ r.2.peer = none ∧ s.inCrew c cs r.2.slot = true)
  log : ∀ e ∈ (s.core c).log, s.inCrew c cs e.2.slot = false
  skid : ∀ e ∈ (s.core c).skid, s.inCrew c cs e.2.slot = false
  chutes : ∀ x ∈ (s.core c).chutes, x.2.holder ≠ some cs
  queue : ∀ q ∈ (s.core c).mill.queue, s.inCrew c cs q.slot = false
  resume : ∀ x ∈ (s.core c).mill.resume, s.inCrew c cs x.slot = false
  waits : (s.crew c cs).queued = []
  slots : (s.crew c cs).wslots = 0

/-- The supervisor's area of a command lies on one cached page of HBM that its windows give, which nothing holds (R410). -/
structure AreaAt (s : State) (c : Nat) (v : W64) (acc pa : Nat) : Prop where
  look : (s.look c 0 (sext64 (engArea v).toNat 57) (acc == 1)).cause = 0 ∧ (s.look c 0 (sext64 (engArea v).toNat 57) (acc == 1)).path = 0
  page : Cached s 0 (engArea v).toNat acc pa
  quiet : s.pageHeld 0 ((engArea v).toNat / 4096) = false ∧ NoUnitReq s
  open_ : acc = 0 → s.lineHeld (pa / 128) = false ∧ s.sound pa 64 = true

end Sys2Proof.Machine

/-- R194, R324, R409, R410, R415, R416, R422: commands 1 to 5 end with RES 1 where no crew is selected, and a write while one is under way
does nothing. Of a crew not of a stand: quiesce freezes its gangs with 0x79 and stops its copies, and ends when it is drained; park of
a drained crew with no engine state but the mill's ownership writes the header of an empty area, with the owner in it, and frees the
mill; unpark from such an area sets a restoring crew whose flags are loaded running, its flags as they were where a park of it wrote the
area, else undefined; release frees a parked crew's slots and retires its granules; end ends the gangs of a running one and marks it
errored. A restore request with a live context queues a launch, or ends with RES 1 where its template is refused. A command's end clears
BUSY and pushes notice 0x7D, or holds it behind those the queue has refused. CSTOP and MSTOP stop and resume the selected gang's copies
and the mill. The bytes of a parked area are the model's (log entry 29). -/
def Obligations.PreemptionResults : Prop :=
  ∀ (s : State) (c : Nat),
    (∀ v x y, s.ev = .sysw c x y v → (s.core c).engstop.busy = false →
      ((s.core c).selgang.getLsbD 63 = false ∨ (s.core c).selgang.toNat % 64 = 63 ∨ s.gang? c ((s.core c).selgang.toNat % 64) = none) →
      ∀ row ∈ [(Instr.engstopQuiesce, 1), (.engstopPark, 2), (.engstopUnpark, 3), (.engstopRelease, 4), (.engstopEnd, 5)],
        ∃ t, exec row.1 s = .next t ∧ MemKept s t ∧ GangsKept s t ∧ EngEnds t c row.2 1 0) ∧
    (∀ v x y op, s.ev = .sysw c x y v → (s.core c).engstop.busy = true →
      op ∈ [Instr.engstopQuiesce, .engstopPark, .engstopUnpark, .engstopRelease, .engstopEnd, .engstopRestoreRequest] → exec op s = .next s) ∧
    (∀ v slot cs, EngWrite s c slot cs v → (s.crew c cs).phase = .running → (s.crew c cs).standN = 0 →
      ∃ t, exec .engstopQuiesce s = .next t ∧ MemKept s t ∧ EngRuns t c 1 ∧ (t.core c).engstop.finished = false ∧
        (t.crew c cs).phase = .quiescing ∧
        (∀ n g, s.gang? c n = some g → g.cslot = cs → g.frozen = false → g.ended = false →
          (t.gang c n).frozen = true ∧ (t.gang c n).frameOpen = true ∧ (t.gang c n).frame.tcause = 0x79 ∧ (t.gang c n).frame.slot = 4) ∧
        (KeysRise (s.core c).gangs → ∀ n g, s.gang? c n = some g → (g.cslot ≠ cs ∨ g.frozen = true ∨ g.ended = true) → t.gang? c n = some g) ∧
        (∀ n e, mget? (s.core c).skid n = some e → s.inCrew c cs e.slot = true → e.state = 1 → ∃ f, mget? (t.core c).skid n = some f ∧ f.state = 2)) ∧
    (∀ cs, s.ev = .core c → s.quiescing c = [(c, cs)] → s.quiesceDue c = true →
      ∃ t, exec .quiesceDrained s = .next t ∧ MemKept s t ∧ (∀ c' g, t.gang? c' g = s.gang? c' g) ∧
        (t.crew c cs).phase = .drained ∧ EngEnds t c 1 0 0) ∧
    (s.ev = .core c → (s.core c).engstop.busy = true → (s.core c).engstop.finished = true → (s.core c).engstop.began < s.clock →
      ((s.core c).notices = [] ∨ ∀ p ∈ s.agenda, ¬(p.op = .queuePush ∧ p.arg = .core c)) →
      ∃ t n, exec .engstopCommandDone s = .next t ∧ MemKept s t ∧ GangsKept s t ∧ (t.core c).engstop.busy = false ∧
        (t.core c).engstop.res = (s.core c).engstop.out ∧ n.code = 0x7D ∧
        n.words.getD 2 0 = BitVec.ofNat 64 ((s.core c).engstop.cause * 256 + (s.core c).engstop.out * 16 + (s.core c).engstop.cmd) ∧
        ((s.core c).notices ≠ [] → (t.core c).notices = (s.core c).notices ++ [n] ∧ t.join = s.join) ∧
        ((s.core c).notices = [] → s.supQueue c = none → (t.core c).notices = [n] ∧ t.join = s.join) ∧
        ∀ u k, (s.core c).notices = [] → s.supQueue c = some (u, k) →
          let q := (s.unit u).queue k
          (q.accepts = false → (q.err = true → q.cause ≠ 0) → (t.core c).notices = [n] ∧ t.join = s.join) ∧
          (Rests (s.unit u) → q.err = false → q.onChip = true → q.pops = [] →
            (t.core c).notices = [] ∧ (t.unit u).queue k = { q with recs := q.recs ++ [n.words] })) ∧
    (∀ v slot cs pa, EngWrite s c slot cs v → (s.crew c cs).phase = .drained → NoEngineState s c cs → s.openRecs ≤ 65536 →
      AreaAt s c v 1 pa → Mem.wf s.mem = true → (∀ o, (s.core c).mill.owner = some o → (s.gang c o).cgang < 16) →
      ∃ t, exec .engstopPark s = .next t ∧ (∀ c' n, c' ≠ c → t.gang? c' n = s.gang? c' n) ∧ KeptOutside s t pa 64 ∧ t.rd pa 8 = 64 ∧
        t.rd (pa + 8) 8 = (match (s.core c).mill.owner with
          | some o => if s.inCrew c cs o = true then 2 ^ 16 + 2 ^ 24 * (s.gang c o).cgang else 0
          | none => 0) ∧
        (∀ o, (t.core c).mill.owner = some o ↔ (s.core c).mill.owner = some o ∧ s.inCrew c cs o = false) ∧
        (t.crew c cs).phase = .parked ∧ EngEnds t c 2 0 0) ∧
    (∀ v slot cs pa, EngWrite s c slot cs v → (s.crew c cs).phase = .restoring → (s.crew c cs).standN = 0 → KeysRise (s.core c).gangs →
      (∀ g ∈ (s.core c).gangs, g.2.cslot = cs → g.2.limgFlags = true) → AreaAt s c v 0 pa → s.rd pa 8 ≤ 64 → (s.core c).log.length ≤ 256 →
      (s.findPark (s.crew c cs) (s.rdBytes pa 64) = none →
        ∃ t, exec .engstopUnpark s = .next t ∧ MemKept s t ∧ (t.crew c cs).phase = .running ∧ EngEnds t c 3 0 0 ∧
          (∀ c' n g, s.gang? c' n = some g → (c' ≠ c ∨ g.cslot ≠ cs) → t.gang? c' n = some g) ∧
          ∀ n g, s.gang? c n = some g → g.cslot = cs → ∃ f, t.gang? c n = some { g with flags := f }) ∧
      (∀ p, s.findPark (s.crew c cs) (s.rdBytes pa 64) = some p → p.log = [] → p.skid = [] → p.chutes = [] → p.reqs = [] →
        ∃ t, exec .engstopUnpark s = .next t ∧ MemKept s t ∧ (t.crew c cs).phase = .running ∧ EngEnds t c 3 0 0 ∧ t.parked = s.parked.erase p ∧
          ∀ n g, s.gang? c n = some g → ∃ h, t.gang? c n = some h ∧ h.flags = g.flags ∧ h.v = g.v ∧ h.s = g.s ∧ h.p = g.p ∧ h.frozen = g.frozen)) ∧
    (∀ v slot cs, EngWrite s c slot cs v → (s.crew c cs).phase = .parked →
      ∃ t, exec .engstopRelease s = .next t ∧ MemKept s t ∧ EngEnds t c 4 0 0 ∧ mget? (t.core c).crews cs = none ∧ t.agenda = s.agenda ∧
        (∀ g ∈ (t.core c).gangs, g.2.cslot ≠ cs) ∧ (∀ g ∈ (s.core c).gangs, g.2.cslot ≠ cs → g ∈ (t.core c).gangs) ∧
        (∀ n, n ∈ (s.crew c cs).granules → gtState ((s.core c).tag n) = 1 → gtState ((t.core c).tag n) = 2) ∧
        ∀ n, n ∉ (s.crew c cs).granules → (t.core c).tag n = (s.core c).tag n) ∧
    (∀ v slot cs, EngWrite s c slot cs v → (s.crew c cs).standN = 0 → (s.crew c cs).phase = .running → (s.crew c cs).queued = [] →
      ∃ t, exec .engstopEnd s = .next t ∧ MemKept s t ∧ EngEnds t c 5 0 0 ∧ (t.crew c cs).errored = true ∧
        (∀ n g, s.gang? c n = some g → g.cslot = cs → (t.gang c n).ended = true ∧ (t.gang c n).parts = [] ∧ (t.gang c n).frozen = false) ∧
        (∀ n g, s.gang? c n = some g → g.cslot ≠ cs → (s.inCrew c cs n = false) → t.gang? c n = some g) ∧
        (∀ p ∈ (t.core c).mill.waiters, s.inCrew c cs p.1 = false)) ∧
    (∀ v x y pa ws, s.ev = .sysw c x y v → (s.core c).engstop.busy = false → AreaAt s c v 0 pa →
      let ctx := bitsOf (s.rd (pa + 8) 8) 43 32
      (s.ctx ctx).live = true → s.dying ctx = false →
      (∀ tp : Nat → Nat, (∀ i ∈ [0, 32, 64], Cached s ctx ((s.rd pa 8 + i) % 2 ^ 57) 0 (tp i) ∧
          s.pageHeld ctx ((s.rd pa 8 + i) % 2 ^ 57 / 4096) = false ∧ s.sound (tp i) 32 = true ∧ (linesOf (tp i) 32).any s.lineHeld = false) →
        ws = [0, 32, 64].flatMap (fun i => (List.range 4).map (fun j => BitVec.ofNat 64 (s.rd (tp i + 8 * j) 8))) →
        (s.tmplRefused ctx ws = true →
          ∃ t, exec .engstopRestoreRequest s = .next t ∧ MemKept s t ∧ GangsKept s t ∧ t.launches = s.launches ∧ EngEnds t c 6 1 0) ∧
        (s.tmplRefused ctx ws = false →
          ∃ t l, exec .engstopRestoreRequest s = .next t ∧ MemKept s t ∧ GangsKept s t ∧ t.launches = s.launches ++ [l] ∧ EngEnds t c 6 0 0 ∧
            l.kind = 2 ∧ l.ctx = ctx ∧ l.lotid = s.rd (pa + 8) 8 % 2 ^ 32 ∧ l.spos = s.rd (pa + 16) 8 % 8 ∧ l.tmpl = ws ∧ l.tenant = s.tenant ctx))) ∧
    (∀ v x y, s.ev = .sysw c x y v →
      (∃ t, exec .engstopCstop s = .next t ∧ MemKept s t ∧ GangsKept s t ∧ (t.core c).engstop.cstop = v.getLsbD 1 ∧
        ∀ n e, mget? (s.core c).skid n = some e → (s.core c).selgang.getLsbD 63 = true → e.slot = (s.core c).selgang.toNat % 64 →
          ∃ f, mget? (t.core c).skid n = some f ∧
            (v.getLsbD 1 = true → f.state = if e.state = 1 then 2 else e.state) ∧
            (v.getLsbD 1 = false → (s.crew c (s.gang c e.slot).cslot).phase = .running → f.state = if e.state = 2 then 1 else e.state)) ∧
      (∃ t, exec .engstopMstop s = .next t ∧ MemKept s t ∧ GangsKept s t ∧ (t.core c).engstop.mstop = v.getLsbD 0 ∧
        (t.core c).mill.held = v.getLsbD 0 ∧ (v.getLsbD 0 = true → (t.core c).mill.state = 2) ∧
        (v.getLsbD 0 = false → s.millHeld c = false → (t.core c).mill.state = 0)))

namespace Sys2Proof.Machine

/-- An operation leaves a flag of a gang, the first error's cause kept (R217); the gang's other flags stay. -/
def FlagDown (s t : State) (c slot f cause : Nat) : Prop :=
  ∀ x, s.gang? c slot = some x → (∀ n, n ≠ f → (t.gang c slot).flag n = x.flag n) ∧ (t.gang c slot).flag f =
    { count := (x.flag f).count - 1, err := (x.flag f).err || cause != 0,
      cause := if (x.flag f).err then (x.flag f).cause else if cause = 0 then (x.flag f).cause else cause }

end Sys2Proof.Machine

/-- R298 to R303: a running CPY asks for its next piece of a source in memory; a fill of a scratchpad writes its pattern by address; an
answered write advances the units done, and cause 0x53 stops the operation there; a fault makes the entry FAULTED with its record; at
the end the flag is decremented, or the message is sent first. The order of a copy's pieces is the model's choice (log entry 22). -/
def Obligations.SkidderResults : Prop :=
  ∀ (s : State) (c e : Nat) (k : Skid), s.ev = .entry c e → mget? (s.core c).skid e = some k →
    (s.skidDue c e = true → k.aux = none → k.kind = .cpy → k.phase = 1 → k.src.path ≠ 1 → k.src.path ≠ 2 →
      ¬ (k.done = 0 ∧ k.sub = 0 ∧ (s.badScale c k = true ∨ (s.spotToProbe c k).isSome = true)) →
      ∃ t r, exec .skidderUnitDone s = .next t ∧ MemKept s t ∧ GangsKept s t ∧ t.reqs = mset s.reqs s.nextId r ∧ r.kind = .rawLoad ∧ r.core = c ∧
        r.slot = 64 + e ∧ r.ctx = s.ctxOf c k.slot ∧ r.pol = k.pol ∧ mget? (t.core c).skid e = some { k with aux := some s.nextId } ∧
        ∀ m ∈ r.lanes, m.path = k.src.path ∧ ∃ i : Nat, i + m.size ≤ k.size ∧
          m.ia = BitVec.ofNat 64 (k.src.tag * 2 ^ 57 + k.src.at ((k.done : Int) + (i : Int)) % 2 ^ 57)) ∧
    (s.skidDue c e = true → k.aux = none → k.kind = .fill → (k.dst.path = 1 ∨ k.dst.path = 2) → (s.core k.dst.core).accepts k.dst.alloc (swizzle k.dst.z (k.dst.at k.done)) = true →
      ∃ t k', exec .skidderUnitDone s = .next t ∧ MemKept s t ∧ t.reqs = s.reqs ∧ mget? (t.core c).skid e = some k' ∧
        k'.done = k.done + k.size ∧ k'.state = 1 ∧
        (t.core k.dst.core).scratch = ((s.core k.dst.core).swr k.dst.alloc (swizzle k.dst.z (k.dst.at k.done)) ((List.range k.size).map
          (fun i => BitVec.ofNat 8 (k.pattern.toNat / 256 ^ (k.dst.at ((k.done : Int) + (i : Int)) % 8))))).scratch) ∧
    (∀ id r, s.skidDue c e = true → k.aux = some id → mget? s.reqs id = some r → (k.kind = .cpy ∨ k.kind = .fill) → k.phase = 2 →
      (∀ m ∈ r.lanes, m.stage = 2) →
      ∃ t k', exec .skidderUnitDone s = .next t ∧ MemKept s t ∧ t.reqs = mdel s.reqs id ∧ mget? (t.core c).skid e = some k' ∧
        k'.done = k.done + k.size ∧ k'.aux = none ∧
        if r.lanes.any (fun m => m.cause == 0x53) then k'.failed = true ∧ k'.err = (if k.err = 0 then 0x53 else k.err)
        else k'.failed = k.failed ∧ k'.err = k.err) ∧
    (∀ id r rec m, s.skidDue c e = true → k.aux = some id → mget? s.reqs id = some r → r.lanes.find? (fun m => m.stage == 3) = some m → m.frec = some rec →
      ∃ t k', exec .skidderUnitDone s = .next t ∧ MemKept s t ∧ t.reqs = mdel s.reqs id ∧ mget? (t.core c).skid e = some k' ∧
        k'.state = 3 ∧ k'.cause = m.cause ∧ k'.record = some rec ∧ k'.done = k.done) ∧
    (s.skidEnding c e = true → k.aux = none → (k.note = none ∨ k.err ≠ 0) →
      ∃ t, exec .skidderComplete s = .next t ∧ MemKept s t ∧ t.reqs = s.reqs ∧ mget? (t.core c).skid e = none ∧ FlagDown s t c k.slot k.flag k.err) ∧
    (∀ n, s.skidEnding c e = true → k.aux = none → k.note = some n → k.err = 0 →
      ∃ t r m, exec .skidderComplete s = .next t ∧ MemKept s t ∧ GangsKept s t ∧ t.reqs = mset s.reqs s.nextId r ∧ r.kind = .send ∧
        r.words = [n.2.2] ∧ r.lanes = [m] ∧ m.path = 4 ∧ m.pa = n.1 ∧ m.peer = n.2.1 ∧
        mget? (t.core c).skid e = some { k with aux := some s.nextId, phase := 3 })

/-- R302, R324: CPROG stops a running entry, starts a stopped one and sets the units done of one that is stopped or FAULTED; MPROG stops
a running mill, sets group and tile of a stopped one that holds a command, whose tiles alone are then undefined, and, with state 1, sets
it going unless a stopped crew holds it. That GROUP and TILE name no step where no command is queued is the model's reading (log entry
23). -/
def Sys2Proof.Machine.ProgressWriteResults : Prop :=
  ∀ (s : State) (c x reg : Nat) (v : W64), s.ev = .sysw c x reg v →
    (∀ k, 0x400 ≤ reg → mget? (s.core c).skid (reg - 0x400) = some k →
      (k.state ≠ 1 → k.aux = none → v.toNat % 2 ^ 48 ≠ k.done → ∃ t k', exec .cprogWrite s = .next t ∧ MemKept s t ∧ GangsKept s t ∧ t.reqs = s.reqs ∧
        mget? (t.core c).skid (reg - 0x400) = some k' ∧ k'.done = v.toNat % 2 ^ 48 ∧ k'.sub = 0 ∧
        k'.state = if k.state = 2 ∧ v.toNat / 2 ^ 62 = 1 then 1 else k.state) ∧
      (k.state = 1 → v.toNat / 2 ^ 62 = 2 → ∃ t, exec .cprogWrite s = .next t ∧ MemKept s t ∧ GangsKept s t ∧
        mget? (t.core c).skid (reg - 0x400) = some { k with state := 2 }) ∧
      (k.state = 2 → v.toNat / 2 ^ 62 = 1 → v.toNat % 2 ^ 48 = k.done → ∃ t, exec .cprogWrite s = .next t ∧ MemKept s t ∧ GangsKept s t ∧
        mget? (t.core c).skid (reg - 0x400) = some { k with state := 1 })) ∧
    ((s.core c).mill.state ≠ 2 → ∃ t, exec .mprogWrite s = .next t ∧ MemKept s t ∧ GangsKept s t ∧
      (t.core c).mill = if v.toNat / 2 ^ 62 = 2 then { (s.core c).mill with state := 2, held := true } else (s.core c).mill) ∧
    ((s.core c).mill.state = 2 → ∃ t, exec .mprogWrite s = .next t ∧ MemKept s t ∧ (∀ c' g, t.gang? c' g = s.gang? c' g) ∧
      let m := (s.core c).mill
      let n := (t.core c).mill
      let g := bitsOf v.toNat 39 32
      let tl := bitsOf v.toNat 31 24
      n.queue = m.queue ∧ n.state = (if v.toNat / 2 ^ 62 = 1 ∧ s.millHeld c = false then 0 else 2) ∧
      (m.head = none → n.group = m.group ∧ n.tile = m.tile ∧ ∀ c' k, t.crew c' k = s.crew c' k) ∧
      ∀ q, m.head = some q → n.group = g ∧ n.tile = tl ∧
        (g = m.group → tl = m.tile → n.spoiled = m.spoiled ∧ ∀ c' k, t.crew c' k = s.crew c' k) ∧
        (¬(g = m.group ∧ tl = m.tile) → n.spoiled = true ∧ (∀ c' k, (c' ≠ c ∨ k ≠ (s.gang c q.slot).cslot) → t.crew c' k = s.crew c' k) ∧
          ∀ i, i / 256 ∉ q.tiles → mget 0 (t.crew c (s.gang c q.slot).cslot).acc i = mget 0 (s.crew c (s.gang c q.slot).cslot).acc i))

namespace Sys2Proof.Machine

/-- The entry a tile with elements `x` drains into (R322, Table 10-10): BF16, F16, E4M3 or E5M2 values, 128 bytes a unit, rounded as the
command says; or K4 codes, two a byte, under a scale byte for each row, in two units. -/
def DrainsTo (o : MdrainOp) (x : Nat → Nat) (e : ChuteEntry) : Prop :=
  let fin (i : Nat) : List Num.XR := ((List.range 16).map (fun j => Num.decode Num.f32 (x (16 * i + j)))).filter (fun v => !v.isNan && !v.isInf)
  let scale (i : Nat) : Nat := Num.k4Scale o.kt.toNat o.emin.toNat (fin i)
  let fmt := if o.df = 0 then Num.bf16 else if o.df = 1 then Num.f16 else if o.df = 2 then Num.e4m3 else Num.e5m2
  let wd := if o.df.toNat ≤ 1 then 2 else 1
  let byte (u b : Nat) : Nat := ((e.units.getD u []).getD b 0).toNat
  e.df = o.df.toNat ∧ e.ready = true ∧
    (o.df.toNat < 4 → ∀ k b, k < 256 → b < wd → byte (k * wd / 128) (k * wd % 128 + b) =
      Num.round fmt (decide (2 ≤ o.df.toNat) && o.inf == 0) o.mode.toNat 0 (Num.decode Num.f32 (x k)) / 256 ^ b % 256) ∧
    (o.df = 4 → (∀ i, i < 16 → byte 1 i = scale i) ∧
      ∀ k, k < 256 → byte 0 (k / 2) / 16 ^ (k % 2) % 16 = Num.k4Encode o.mode.toNat 0 (scale (k / 16)) (Num.decode Num.f32 (x k)))

end Sys2Proof.Machine

/-- R105, R136, R311 to R322: a grant gives the mill to the first gang in line and decrements its flag; MZERO clears its tiles; a step of
an MMA or MMAS whose operands lie under the tags it issued with adds to each of the tile's 256 elements the exact sum of its group's
products, of MMAS those its metadata select, rounded once, and its last step completes it; MLDT loads or adds the elements of its rows;
MDRAIN enters its tiles in the chute, converted, and a full chute discards them with cause 0x51; MFENCE completes its batch; MREADY
completes once the writes it orders are performed. That a tag that changes under a command leaves its elements undefined is the model's
reading (log entry 23). -/
def Obligations.MillResults : Prop :=
  ∀ (s : State) (c : Nat),
    (∀ slot fs, s.ev = .core c → (s.core c).mill.grantee = some (slot, fs) → (s.core c).mill.resume = [] →
      ∃ t, exec .millGrant s = .next t ∧ MemKept s t ∧ (t.core c).mill.owner = some slot ∧
        (t.core c).mill.waiters = (s.core c).mill.waiters.filter (fun w => w.1 != slot) ∧ (t.core c).mill.queue = (s.core c).mill.queue ∧
        OtherGangs s t c slot ∧ ∀ f, fs = [f] → FlagDown s t c slot f 0) ∧
    (∀ q, s.ev = .core c → (s.core c).mill.head = some q → s.millDue c = true → (s.core c).mill.spoiled = false →
      (∀ u ∈ (s.core c).mill.uses, u.id = q.id → u.spoilt = []) →
      let cs := (s.gang c q.slot).cslot
      (∀ f tl n, q.op = .mzero f tl n →
        ∃ t, exec .millCommandDone s = .next t ∧ MemKept s t ∧ OtherGangs s t c q.slot ∧ FlagDown s t c q.slot q.flag q.cause ∧
          (t.core c).mill.queue = (s.core c).mill.queue.filter (fun x => x.id != q.id) ∧
          ∀ i, mget 0 (t.crew c cs).acc i = if 256 * tl.toNat ≤ i ∧ i < 256 * (tl.toNat + n.toNat + 1) then 0 else mget 0 (s.crew c cs).acc i) ∧
      (∀ f, q.op = .mfence f →
        ∃ t, exec .millCommandDone s = .next t ∧ MemKept s t ∧ OtherGangs s t c q.slot ∧ FlagDown s t c q.slot q.flag (s.core c).mill.batchCause ∧
          (t.core c).mill.queue = (s.core c).mill.queue.filter (fun x => x.id != q.id) ∧ (t.core c).mill.doneBatch = q.ofs ∧
          (t.core c).mill.batchCause = 0) ∧
      (∀ o sp, q.op = (if sp = true then .mmas o else .mma o) → (s.core c).mill.tile < o.tiles → (s.core c).mill.group < o.k / 16 →
        let w := s.crew c cs
        let m := (s.core c).mill
        let tl := o.t.toNat + m.tile
        let ks := kslot q.fb sp
        let slot := o.w.toNat + m.tile % (o.ncols / 16) * o.panel ks + 16 * m.group / ks
        let a (i x : Nat) := (s.core c).millA w.alloc (q.ofs + (m.tile / (o.ncols / 16) * 16 + i) * q.pitch) o.z.toNat q.fa (16 * m.group + x)
        let last : Prop := o.k / 16 ≤ m.group + 1
        let ended : Prop := last ∧ o.tiles ≤ m.tile + 1
        (mget 0 w.wstag slot).toNat = q.tb → (∀ i x, i < 16 → x < 16 → (a i x).2.2 = q.ta) →
        ∃ t, exec .millCommandDone s = .next t ∧ MemKept s t ∧ OtherGangs s t c q.slot ∧
          (¬ended → (∀ c' g, t.gang? c' g = s.gang? c' g) ∧ (last → (t.core c).mill.group = 0 ∧ (t.core c).mill.tile = m.tile + 1) ∧
            (¬last → (t.core c).mill.group = m.group + 1 ∧ (t.core c).mill.tile = m.tile)) ∧
          (ended → (t.core c).mill.queue = m.queue.filter (fun x => x.id != q.id) ∧
            (slot ∉ w.wPoison → (∀ i x, i < 16 → x < 16 → (a i x).2.1 = false) → (∀ e ∈ w.accPoison, e / 256 ≠ tl) →
              FlagDown s t c q.slot q.flag q.cause)) ∧
          (∀ i j, i < 16 → j < 16 → mget 0 (t.crew c cs).acc (256 * tl + 16 * i + j) =
            BitVec.ofNat 32 (macGroup (mget 0 w.acc (256 * tl + 16 * i + j)).toNat (fun x => (a i x).1)
              (w.bGroup q.fb sp slot j (16 * m.group % ks / 16)))) ∧
          ∀ i, (i < 256 * tl ∨ 256 * (tl + 1) ≤ i) → mget 0 (t.crew c cs).acc i = mget 0 w.acc i) ∧
      (∀ o, q.op = .mldt o → o.sf.toNat < 3 →
        let w := s.crew c cs
        let wd := if o.sf = 0 then 4 else 2
        let place (x : Nat) : Nat := swizzle o.z.toNat (q.ofs + x / 16 * q.pitch + x % 16 * wd)
        let raw (x : Nat) : Nat := (s.core c).srd w.alloc (place x) wd
        let v (x : Nat) : Nat := if o.sf = 0 then raw x else Num.round Num.f32 false 0 0 (Num.decode (if o.sf = 1 then Num.f16 else Num.bf16) (raw x))
        let lo := 256 * o.t.toNat
        let n := 256 * (o.n.toNat + 1)
        ∃ t, exec .millCommandDone s = .next t ∧ MemKept s t ∧ OtherGangs s t c q.slot ∧
          (t.core c).mill.queue = (s.core c).mill.queue.filter (fun x => x.id != q.id) ∧
          (∀ x, x < n → mget 0 (t.crew c cs).acc (lo + x) =
            BitVec.ofNat 32 (if o.add = 1 then Num.fadd Num.f32 0 0 (mget 0 w.acc (lo + x)).toNat (v x) else v x)) ∧
          (∀ i, (i < lo ∨ lo + n ≤ i) → mget 0 (t.crew c cs).acc i = mget 0 w.acc i) ∧
          ((∀ x, x < n → (s.core c).spoison w.alloc (place x) wd = false ∧ (o.add = 1 → lo + x ∉ w.accPoison)) → FlagDown s t c q.slot q.flag q.cause)) ∧
      (∀ o, q.op = .mdrain o → o.df.toNat < 5 →
        let w := s.crew c cs
        let h := mget {} (s.core c).chutes o.ch.toNat
        let n := o.n.toNat + 1
        h.holder = some cs →
        (h.entries.length + n ≤ 16 →
          ∃ t es, exec .millCommandDone s = .next t ∧ MemKept s t ∧ OtherGangs s t c q.slot ∧
            (t.core c).mill.queue = (s.core c).mill.queue.filter (fun x => x.id != q.id) ∧ es.length = n ∧
            mget {} (t.core c).chutes o.ch.toNat = { h with entries := h.entries ++ es, drains := h.drains - 1 } ∧
            (∀ (i : Nat) (e : ChuteEntry), es[i]? = some e → DrainsTo o (fun k => (mget 0 w.acc (256 * (o.t.toNat + i) + k)).toNat) e) ∧
            (∀ k, k ≠ o.ch.toNat → mget {} (t.core c).chutes k = mget {} (s.core c).chutes k) ∧
            ∀ i, mget 0 (t.crew c cs).acc i = if o.zero = 1 ∧ 256 * o.t.toNat ≤ i ∧ i < 256 * (o.t.toNat + n) then 0 else mget 0 w.acc i) ∧
        (h.entries.length = 16 →
          ∃ t, exec .millCommandDone s = .next t ∧ MemKept s t ∧ OtherGangs s t c q.slot ∧ FlagDown s t c q.slot q.flag (if q.cause = 0 then 0x51 else q.cause) ∧
            (mget {} (t.core c).chutes o.ch.toNat).entries = h.entries ∧ ∀ i, mget 0 (t.crew c cs).acc i = mget 0 w.acc i))) ∧
    (∀ id q f, s.ev = .entry c id → (s.core c).mill.queue.find? (fun x => x.id == id) = some q → q.op = .mready f → s.mreadyDue c id = true →
      ∃ t, exec .mreadyDone s = .next t ∧ MemKept s t ∧ OtherGangs s t c q.slot ∧ FlagDown s t c q.slot q.flag 0 ∧
        (t.core c).mill.queue = (s.core c).mill.queue.filter (fun x => x.id != id))

/-- R30, R31, R28, R426, R390: a TIC command removes the translations it covers, and by OP 1 and 2 the walk caches, at once and waits; a
17th or reserved one is dropped with ERR; the last to finish clears BUSY; a context is made live with the words of its entry where
their MODEs are permitted, else REFUSED; unmaking it runs to its end once nothing of the context is left. What stays while a context
is unmade is the model's choice (log entry 35). -/
def Obligations.ContextResults : Prop :=
  ∀ (s : State),
    (∀ off v, s.ev = .reg off v 8 →
      let op : Instr := match v.toNat / 2 ^ 62 with | 0 => .ticOnePage | 1 => .ticOneContext | _ => .ticAllContexts
      (v.toNat / 2 ^ 62 < 3 → s.ticq.length < 16 →
        ∃ t, exec op s = .next t ∧ MemKept s t ∧ GangsKept s t ∧ t.ticq = s.ticq ++ [v] ∧ (t.dreg 0x28).getLsbD 0 = true ∧
          ∀ e, e ∈ t.tlb ↔ e ∈ s.tlb ∧ ¬(match v.toNat / 2 ^ 62 with
            | 0 => e.ctx = bitsOf v.toNat 61 50 ∧ e.vpn / 512 ^ e.level = v.toNat % 2 ^ 45 / 512 ^ e.level
            | 1 => e.ctx = bitsOf v.toNat 61 50
            | _ => True)) ∧
      (v.toNat / 2 ^ 62 < 3 → s.ticq.length < 16 → ∃ t, exec op s = .next t ∧
        ∀ w, w ∈ t.walkc ↔ w ∈ s.walkc ∧ ¬(v.toNat / 2 ^ 62 = 2 ∨ v.toNat / 2 ^ 62 = 1 ∧ w.ctx = bitsOf v.toNat 61 50)) ∧
      ((16 ≤ s.ticq.length ∨ v.toNat / 2 ^ 62 = 3) →
        ∃ t, exec op s = .next t ∧ MemKept s t ∧ GangsKept s t ∧ t.ticq = s.ticq ∧ t.tlb = s.tlb ∧ t.dreg 0x28 = s.dreg 0x28 ||| 2)) ∧
    (∀ w rest, s.ticq = w :: rest →
      ∃ t, exec .ticFinish s = .next t ∧ MemKept s t ∧ GangsKept s t ∧ t.ticq = rest ∧ (rest = [] → t.dreg 0x28 = s.dreg 0x28 &&& 2) ∧
        (rest ≠ [] → t.dreg 0x28 = s.dreg 0x28)) ∧
    (∀ v, s.ev = .reg 0x10 v 8 → (s.dreg 0x18).getLsbD 0 = false →
      let c := v.toNat % 4096
      let w (i : Nat) : W64 := BitVec.ofNat 64 (s.rd (s.ctxWordPa c i) 8)
      let ok := (w 0).toNat / 2 ^ 60 = 10 ∧ ((w 1).toNat / 2 ^ 60 = 0 ∨ (w 1).toNat / 2 ^ 60 = 10)
      ∃ t, exec .ctxMakeLive s = .next t ∧ MemKept s t ∧ GangsKept s t ∧
        ((t.ctx c).live = true ↔ ok) ∧ (t.ctx c).catp = w 0 ∧ (t.ctx c).chgatp = w 1 ∧ (t.ctx c).cxcfg = w 2 ∧ (t.ctx c).sched = w 7 ∧
        (∀ x, x ≠ c → t.ctx x = s.ctx x) ∧ ((t.dreg 0x18).getLsbD 2 = true ↔ ¬ok)) ∧
    (∀ v, s.ev = .reg 0x10 v 8 →
      ((s.dreg 0x18).getLsbD 0 = true ∨ v.toNat % 4096 = 0 →
        ∃ t, exec .ctxMakeNotLive s = .next t ∧ MemKept s t ∧ GangsKept s t ∧ t.dreg 0x18 = s.dreg 0x18 ||| 2) ∧
      ((s.dreg 0x18).getLsbD 0 = false → v.toNat % 4096 ≠ 0 →
        ∃ t, exec .ctxMakeNotLive s = .next t ∧ MemKept s t ∧ (t.dreg 0x18).getLsbD 0 = true ∧ t.dreg 0x10 = v ∧
          (∀ l ∈ t.launches, l.ctx ≠ v.toNat % 4096) ∧ ⟨.ctxNotLiveDone, .host (v.toNat % 4096) 0, 0⟩ ∈ t.agenda)) ∧
    (∀ ctx x, s.ev = .host ctx x → s.dying ctx = true → s.ctxIdle ctx = true →
      ∃ t, exec .ctxNotLiveDone s = .next t ∧ MemKept s t ∧ GangsKept s t ∧ (t.ctx ctx).live = false ∧ (t.dreg 0x18).getLsbD 0 = false ∧
        ∀ y, y ≠ ctx → t.ctx y = s.ctx y)

/-- R39, R167 to R170: an offered page that does not forward to its sender is declined; a declined exchange ends; the lines received
fill the frame, the entry becomes present with A set and the move is acknowledged; the acknowledgement returns the vacated frame
through the return ring; an accepted page becomes a forwarding entry without a cached translation; a throttle runs out. That the words
naming the return ring are read at each use is the model's reading (log entry 18). -/
def Obligations.MigrationResults : Prop :=
  ∀ (s : State),
    (∀ p, s.ev = .packet p →
      let vpn := p.va / 4096
      (s.leaf0 p.ctx vpn = none → ∃ t, exec .migrationOffer s = .next t ∧ MemKept s t ∧ GangsKept s t ∧ t.migr = s.migr ∧
        Sent s t [{ kind := 13, dev := p.dev, ctx := p.peerCtx, peerCtx := p.ctx, va := p.va }]) ∧
      (∀ pa e c f, s.leaf0 p.ctx vpn = some (pa, e, c) → e % 2 = 0 → bitsOf e 63 54 = 0x3FF →
        (s.imageAper p.ctx (bitsOf e 15 10)).getLsbD 63 = true → aperDev (s.imageAper p.ctx (bitsOf e 15 10)) = p.dev →
        aperCtx (s.imageAper p.ctx (bitsOf e 15 10)) = p.peerCtx → c.testBit 58 = true → (s.ctx p.ctx).live = true →
        mget? s.spare (4096 * tslice p.ctx p.va + p.ctx) = some f →
        ∃ t m, exec .migrationOffer s = .next t ∧ MemKept s t ∧ GangsKept s t ∧ t.migr = s.migr ++ [m] ∧ m.home = false ∧ m.ctx = p.ctx ∧ m.vpn = vpn ∧
          m.frame = f ∧ m.pteAddr = pa ∧ Sent s t [{ kind := 14, dev := p.dev, ctx := p.peerCtx, peerCtx := p.ctx, va := p.va }]) ∧
      (∀ m, s.migOf p.ctx vpn true = some m → ∃ t, exec .migrationDecline s = .next t ∧ MemKept s t ∧ GangsKept s t ∧ t.migr = s.migr.erase m ∧ t.tlb = s.tlb) ∧
      (∀ m pa e c n, s.migOf p.ctx vpn true = some m → m.step ≠ 9 → s.leaf0 p.ctx vpn = some (pa, e, c) →
        (∀ tr, s.tlbFind p.ctx vpn = some tr → leafFrame e 0 vpn = ptePpn tr.pte.toNat) →
        s.aperTo p.ctx p.dev p.peerCtx = some n → pteKind e 0 = .leaf → Mem.wf s.mem = true →
        ∃ t, exec .migrationAccept s = .next t ∧ GangsKept s t ∧ KeptOutside s t pa 8 ∧
          t.rd pa 8 = (0x3FF * 2 ^ 54 + n * 2 ^ 10 + e % 256 / 2 * 2) % 2 ^ 64 ∧ t.tlbFind p.ctx vpn = none) ∧
      (∀ m, s.migOf p.ctx vpn false = some m → s.migOf p.ctx vpn true = none → (m.pteAddr + 8 ≤ m.frame ∨ m.frame + 4096 ≤ m.pteAddr) → m.frame < hbmSize →
        p.words = [] → s.migr.filter (fun x => x.ctx == p.ctx && x.vpn == vpn) = [m] →
        s.rd m.pteAddr 8 = m.pte.toNat → p.bytes.length = 4096 → Mem.wf s.mem = true →
        ∃ t, exec .migrationLines s = .next t ∧ GangsKept s t ∧ t.migr = s.migr.erase m ∧
          (∀ k, k < 4096 → Mem.read t.mem (m.frame + k) = p.bytes.getD k 0) ∧
          t.rd m.pteAddr 8 = ((m.frame / 4096 * 2 ^ 10 + m.pte.toNat % 256 / 2 * 2) ||| 0x41) ∧
          (∀ a, (a < m.frame ∨ m.frame + 4096 ≤ a) → (a < m.pteAddr ∨ m.pteAddr + 8 ≤ a) → Mem.read t.mem a = Mem.read s.mem a)) ∧
      (∀ m, s.migOf p.ctx vpn true = some m → m.step ≠ 9 →
        let ring := s.rd (s.ctxWordPa p.ctx 5) 8
        let tail := s.rd (s.ctxWordPa p.ctx 6 + 4) 4
        let ea := bitsOf ring 55 12 * 4096 + 16 * (tail % 2 ^ (ring / 2 ^ 60 + 6))
        (ea + 16 ≤ s.ctxWordPa p.ctx 6 ∨ s.ctxWordPa p.ctx 6 + 8 ≤ ea) → Mem.wf s.mem = true →
        ∃ t, exec .migrationAck s = .next t ∧ GangsKept s t ∧ t.migr = s.migr.erase m ∧ t.rd ea 8 = m.frame % 2 ^ 64 ∧
          t.rd (ea + 8) 8 = 4096 * vpn % 2 ^ 64 ∧ t.rd (s.ctxWordPa p.ctx 6 + 4) 4 = (tail + 1) % 2 ^ 32 ∧
          t.irqs = (s.irq (bitsOf (s.ctx p.ctx).cxcfg.toNat 62 59)).irqs)) ∧
    (∀ ctx vpn, s.ev = .page ctx vpn → ∃ t, exec .throttleExpiry s = .next t ∧ MemKept s t ∧ GangsKept s t ∧
      ∀ x, x ∈ t.thrash ↔ x ∈ s.thrash ∧ ¬(x.ctx = ctx ∧ x.vpn = vpn))

/-- R55, R96, R334, R351: what a write of RNGSEED, FERR, SLDEPTH and GTAGn does to the gang or granule it reaches. -/
def Sys2Proof.Machine.GangRegisterEvents : Prop :=
  ∀ (s : State) (c slot reg : Nat) (v : W64) (g : Gang), s.ev = .sysw c slot reg v → s.gang? c slot = some g →
    (∃ t, exec .rngseedWrite s = .next t ∧ MemKept s t ∧ OtherGangs s t c slot ∧
      t.gang? c slot = some { g with rng := lanesOf (Num.rngSeed (v.setWidth 32)) }) ∧
    (∃ t h, exec .ferrClear s = .next t ∧ MemKept s t ∧ OtherGangs s t c slot ∧ t.gang? c slot = some h ∧ h = { g with flags := h.flags } ∧
      ∀ n, h.flag n = if v.getLsbD n then { g.flag n with err := false, cause := 0 } else g.flag n) ∧
    (∃ t h, exec .sldepthWrite s = .next t ∧ MemKept s t ∧ OtherGangs s t c slot ∧ t.gang? c slot = some h ∧ h = { g with slices := h.slices } ∧
      ∀ k, k < g.slices.length →
        let d := v.toNat / 16 ^ k % 16
        (h.slice k).depth = d ∧ (h.slice k).pc = (g.slice k).pc ∧ (h.slice k).mask = (g.slice k).mask ∧
          ∀ i, mget 0 (h.slice k).stack i = if d ≤ i ∧ i < (g.slice k).depth then 0 else mget 0 (g.slice k).stack i) ∧
    (∀ p, (s.crew c g.cslot).granules[reg - 0x100]? = some p →
      ∃ t, exec .gtagWrite s = .next t ∧ MemKept s t ∧ GangsKept s t ∧
        gtState ((t.core c).tag p) = gtState ((s.core c).tag p) ∧ gtGen ((t.core c).tag p) = gtGen ((s.core c).tag p) ∧
        gtFmt ((t.core c).tag p) = bitsOf v.toNat 17 15 ∧ gtSgran ((t.core c).tag p) = bitsOf v.toNat 13 7 ∧
        gtSslot ((t.core c).tag p) = bitsOf v.toNat 6 4 ∧ ∀ q, q ≠ p → (t.core c).tag q = (s.core c).tag q)

/-- Register writes that act through an event (from R55, R96, R302, R324, R334, R351). That MPROG, as MSTOP, holds the mill until it is
let go, and that a stopped crew keeps it so, is the model's reading (log entry 30). -/
def Obligations.RegisterWriteEvents : Prop := ProgressWriteResults ∧ GangRegisterEvents

/-- R405, R425, R431, R436 to R441, R444, R446, R451, R452: a register write of 8 aligned bytes changes the bits that are writable, or
clears those written 1, another changes nothing; RAS counts, SCRUBCFG, OBSCFG and OBSLOST take their writes; SUPGO starts a supervisor
in slot 63, SUPRES lets a frozen one run on, and a write of a word of its frame loads that word as a LIMG of kind 0 does; the mailbox
reads and extends a measurement register, refuses a number above 7 and the extend of a locked one, and completes with IRQT 146; SPDM answers with its code, and with the measurement asked
for; the end of a power interval reports the power and clears the counts; an observation tick writes its block alone; a base-die reset
release enters firmware where the image passes, else halts. The layout of the SPDM messages, the refusal of a register number above 7,
memory kept over a base-die reset, and that a mailbox read takes the register as the command starts, are the model's choices (log entries
32, 33, 44). -/
def Obligations.DeviceRegisterResults : Prop :=
  ∀ (s : State),
    (∀ off v size, s.ev = .reg off v size →
      (size ≠ 8 ∨ off % 8 ≠ 0 → exec .registerWrite s = .next s) ∧
      (∀ m, size = 8 → off % 8 = 0 → rwMask off = some m → ∃ t, exec .registerWrite s = .next t ∧ MemKept s t ∧ GangsKept s t ∧
        t.dreg off = (v &&& m) ||| (s.dreg off &&& ~~~m) ∧ ∀ o, o ≠ off → t.dreg o = s.dreg o) ∧
      (∀ m, size = 8 → off % 8 = 0 → rwMask off = none → w1cMask off = some m → ∃ t, exec .registerWrite s = .next t ∧ MemKept s t ∧ GangsKept s t ∧
        t.dreg off = s.dreg off &&& ~~~(v &&& m) ∧ ∀ o, o ≠ off → t.dreg o = s.dreg o)) ∧
    (∀ off v, s.ev = .reg off v 8 →
      (inRow off 0x2000 0x2200 32 = true → ∃ t, exec .rasCountClear s = .next t ∧ MemKept s t ∧ GangsKept s t ∧
        mget 0 t.ras ((off - 0x2000) / 8) = 0 ∧ ∀ n, n ≠ (off - 0x2000) / 8 → mget 0 t.ras n = mget 0 s.ras n) ∧
      (∃ t, exec .scrubcfgWrite s = .next t ∧ MemKept s t ∧ GangsKept s t ∧ t.dreg off = v &&& 0x800000000000FFFF) ∧
      (off = 0x3600 → ∃ t, exec .obscfgWrite s = .next t ∧ MemKept s t ∧ GangsKept s t ∧ t.dreg off = v &&& 0xFEFFFFFFFFFFC00F ∧
        t.counts.tick = [] ∧ t.obsFrom % 2 ^ t.obsK = 0 ∧ s.clock < t.obsFrom ∧ t.obsFrom ≤ s.clock + 2 ^ t.obsK) ∧
      (v = 0 → ∃ t, exec .obslostClear s = .next t ∧ MemKept s t ∧ GangsKept s t ∧ t.dreg off = 0) ∧
      (v ≠ 0 → exec .obslostClear s = .next s) ∧
      ((s.ctx 0).live = true → (s.dreg 0xC00).getLsbD 63 = true → v.getLsbD 63 = false → s.gang? (v.toNat % 128) 63 = none →
        mget? (s.core (v.toNat % 128)).crews 15 = none →
        ∃ t g, exec .supgoStart s = .next t ∧ MemKept s t ∧ OtherGangs s t (v.toNat % 128) 63 ∧ t.gang? (v.toNat % 128) 63 = some g ∧ g.cslot = 15 ∧
          g.nsl = 8 ∧ g.regs = 64 ∧ g.prio = 7 ∧ g.super = true ∧ g.frozen = false ∧ (∀ k, k < 8 → (g.slice k).pc = s.dreg 0xC00 &&& 0x01FFFFFFFFFFFFF0) ∧
          (t.crew (v.toNat % 128) 15).ctx = 0) ∧
      (∀ g, s.gang? (v.toNat % 128) 63 = some g → g.super = true → g.frozen = true → (∃ k, k < g.nsl ∧ (g.slice k).ended = false) → ∃ t, exec .supresResume s = .next t ∧ MemKept s t ∧
        OtherGangs s t (v.toNat % 128) 63 ∧ (t.gang (v.toNat % 128) 63).frozen = false) ∧
      (∀ c o g, frameOf off = some (c, o) → s.gang? c 63 = some g → g.super = true → g.frozen = true → off % 8 = 0 → o < 0x280 →
        ∃ t, exec .supervisorFrameWrite s = .next t ∧ MemKept s t ∧ OtherGangs s t c 63 ∧ (t.gang c 63).frozen = true ∧
          (0x200 ≤ o → o < 0x240 → (t.gang c 63).limg0 = true) ∧
          (o < 0x200 → g.frameOpen = false → laneGet ((t.gang c 63).frame.lv.getD (o / 128) []) (o % 128 / 4) = v.setWidth 32))) ∧
    (∀ off v, s.ev = .reg off v 8 → (s.dreg 0x1008).getLsbD 0 = false →
      (7 < v.toNat % 2 ^ 62 → (∃ t, exec .mailboxRead s = .next t ∧ MemKept s t ∧ GangsKept s t ∧ t.dreg 0x1008 = s.dreg 0x1008 ||| 4 ∧ t.mrs = s.mrs) ∧
        ∃ t, exec .mailboxExtend s = .next t ∧ MemKept s t ∧ GangsKept s t ∧ t.dreg 0x1008 = s.dreg 0x1008 ||| 4 ∧ t.mrs = s.mrs) ∧
      (v.toNat % 2 ^ 62 ≤ 7 → (s.mr (v.toNat % 8)).length = 32 →
        ∃ t, exec .mailboxRead s = .next t ∧ MemKept s t ∧ GangsKept s t ∧ t.mrs = s.mrs ∧ t.dreg 0x1008 = s.dreg 0x1008 ||| 1 ∧
          (List.range 4).flatMap (fun i => bytesLE 8 (t.dreg (0x1010 + 8 * i)).toNat) = s.mr (v.toNat % 8)) ∧
      (v.toNat % 2 ^ 62 ≤ 7 → v.toNat % 8 < 4 → s.mrLocked = true →
        ∃ t, exec .mailboxExtend s = .next t ∧ MemKept s t ∧ GangsKept s t ∧ t.dreg 0x1008 = s.dreg 0x1008 ||| 4 ∧ t.mrs = s.mrs) ∧
      (v.toNat % 2 ^ 62 ≤ 7 → (4 ≤ v.toNat % 8 ∨ s.mrLocked = false ∧ s.booted = false) →
        ∃ t, exec .mailboxExtend s = .next t ∧ MemKept s t ∧ GangsKept s t ∧ t.dreg 0x1008 = s.dreg 0x1008 ||| 1 ∧
          t.mr (v.toNat % 8) = Sha3.hash (s.mr (v.toNat % 8) ++ (List.range 4).flatMap (fun i => bytesLE 8 (s.dreg (0x1010 + 8 * i)).toNat)) ∧
          ∀ n, n ≠ v.toNat % 8 → t.mr n = s.mr n)) ∧
    ((s.dreg 0x1008).getLsbD 0 = true → ∃ t, exec .mailboxDone s = .next t ∧ MemKept s t ∧ GangsKept s t ∧
      t.dreg 0x1008 = (s.dreg 0x1008 &&& 6) ||| 2 ∧ t.irqs = (s.irq 146).irqs) ∧
    (∀ i x, s.ev = .host i x →
      (∃ t r, exec .spdmGetVersion s = .next t ∧ MemKept s t ∧ GangsKept s t ∧ t.replies = s.replies ++ [r] ∧ r.getD 1 0 = 0x04 ∧ r.getD 7 0 = 0x12) ∧
      (∃ t r, exec .spdmGetCapabilities s = .next t ∧ MemKept s t ∧ GangsKept s t ∧ t.replies = s.replies ++ [r] ∧ r.getD 1 0 = 0x61) ∧
      (∃ t r, exec .spdmNegotiateAlgorithms s = .next t ∧ MemKept s t ∧ GangsKept s t ∧ t.replies = s.replies ++ [r] ∧ r.getD 1 0 = 0x63) ∧
      (1 ≤ i → i ≤ 8 → (s.mr (i - 1)).length = 32 → ∃ t r, exec .spdmGetMeasurements s = .next t ∧ MemKept s t ∧ GangsKept s t ∧ t.replies = s.replies ++ [r] ∧
        r.getD 1 0 = 0x60 ∧ (r.drop 15).take 32 = s.mr (i - 1))) ∧
    (s.powerDue = true → ∃ t, exec .powerIntervalEnd s = .next t ∧ MemKept s t ∧ (∀ c g, t.gang? c g = s.gang? c g) ∧ t.counts.events = [] ∧ t.counts.lines = [] ∧
      (t.dreg 0x3008).toNat / 2 ^ 32 = (if s.powerCap * 1000 < s.devicePower then min (2 ^ 32 - 1) ((s.dreg 0x3008).toNat / 2 ^ 32 + 1)
        else (s.dreg 0x3008).toNat / 2 ^ 32) ∧
      (s.devicePower < 2 ^ 32 → (t.dreg 0x3008).toNat % 2 ^ 32 = s.devicePower)) ∧
    (s.obsDue = true → s.obsFrom ≠ s.clock →
      let idx := (s.dreg 0x3608).toNat
      let size := 2 ^ ((s.dreg 0x3600).toNat % 16)
      (idx / 2 ^ 32 + 2 ^ 32 - idx % 2 ^ 32) % 2 ^ 32 ≠ size →
        ∃ t, exec .obsTick s = .next t ∧ GangsKept s t ∧ t.counts.tick = [] ∧
          KeptOutside s t (bitsOf (s.dreg 0x3600).toNat 55 14 * 2 ^ 14 + 16384 * (idx / 2 ^ 32 % size)) 16384 ∧
          (t.dreg 0x3608).toNat = (idx / 2 ^ 32 + 1) % 2 ^ 32 * 2 ^ 32 + idx % 2 ^ 32) ∧
    (∀ image rom key svn dev land, s.ev = .boot image rom key svn dev land →
      ∃ t, exec .baseDieResetRelease s = .next t ∧ MemKept s t ∧ t.cores = [] ∧ t.ctxs = [] ∧ t.tlb = [] ∧ t.clock = 0 ∧ t.mr 0 = rom ∧
        t.devId = dev % 1024 ∧ (bootOk image key svn = true → t.booted = true ∧ t.halted = none ∧
          t.mr 1 = Sha3.hash (List.replicate 32 0 ++ bootDigest image)) ∧ (bootOk image key svn = false → t.booted = false ∧ t.halted ≠ none))

namespace Sys2Proof.Machine

/-- The operations of a bundle's slots run in slot order, each on what the one before left, and none of them traps. -/
inductive Runs : List (Slot × SlotCode) → State → State → Prop
  | done (s : State) : Runs [] s s
  | op {k : Slot} {i : Instr} {r : List (Slot × SlotCode)} {s t u : State} :
      exec i s = .next t → t.cur.trap = none → Runs r t u → Runs ((k, .op i) :: r) s u

/-- The earliest next clock of a part whose bundle issues now (R209): behind the bundle's gap, 3 clocks where it is redirected, 6 behind a
jump table. -/
def State.earliest (u : State) : Nat :=
  max (u.clock + u.cur.gap + 1) (max (if u.cur.redirect then u.clock + 3 else 0) (if u.cur.jmpt then u.clock + 6 else 0))

/-- What the end of a bundle's issue does (R183, R184, R201, R209, R214): every slice of the bundle that has not ended goes to its
address, the next bundle's unless an operation sent it elsewhere, and takes the latch result; where all go to one address the part
stays one, with its wait, free to issue from its next clock on; a bad word that the bundle has read is an error pending (R80); the
partition has issued; the counters take the bundle. -/
structure Closed (u t : State) : Prop where
  pcs : ∀ k ∈ u.cur.slices, (u.me.slice k).ended = false → k < u.me.slices.length → u.cur.slices.Nodup →
    (t.me.slice k).pc = mget (u.cur.pc + 16) u.cur.next k ∧
      (t.me.slice k).latches = (match u.cur.latch with | some e => (e :: (u.me.slice k).latches).take 4 | none => (u.me.slice k).latches)
  slices : ∀ k, k ∉ u.cur.slices ∨ (u.me.slice k).ended = true → t.me.slice k = u.me.slice k
  parts : ∀ k, k ≠ u.cur.lead → k ∉ u.cur.slices → mget? t.me.parts k = mget? u.me.parts k
  stays : ∀ pc, u.cur.slices.head? = some u.cur.lead → (∀ k ∈ u.cur.slices, (u.me.slice k).ended = false ∧ mget (u.cur.pc + 16) u.cur.next k = pc) →
    (t.me.part u.cur.lead).wait = (u.me.part u.cur.lead).wait ∧ (t.me.part u.cur.lead).age = 0 ∧
      (t.me.part u.cur.lead).next = max (u.me.part u.cur.lead).next u.earliest
  gang : t.me = { u.me with
    slices := t.me.slices, parts := t.me.parts, foreign := t.me.foreign, rng := (match u.cur.rng with | some r => r | none => u.me.rng),
    bad := u.me.bad && !u.cur.bad, asyncErr := u.me.asyncErr || u.cur.bad }
  issued : mget? (t.core u.cur.core).issued (partOf u.cur.slot) = some u.clock
  others : ∀ c g, c ≠ u.cur.core ∨ g ≠ u.cur.slot → t.gang? c g = u.gang? c g
  counter : mget 0 t.myCrew.pmc 0 = mget 0 u.myCrew.pmc 0 + 1
  crews : ∀ c k, t.crew c k = { u.crew c k with pmc := (t.crew c k).pmc }
  mem : ∀ a, Mem.read t.mem a = Mem.read u.mem a
  rest : t = { u with cores := t.cores }

/-- The other parts that could have issued in the partition have aged by the clock; all else stands (R396). -/
structure Aged (s v t : State) (c slot lead : Nat) : Prop where
  gangs : ∀ d x, t.gang d x = { v.gang d x with parts := (t.gang d x).parts }
  parts : ∀ d x k, (t.gang d x).part k = { (v.gang d x).part k with age := ((t.gang d x).part k).age }
  kept : ∀ d x k, d ≠ c ∨ (x, k) ∉ s.candidates c (partOf slot) ∨ (x, k) = (slot, lead) → ((t.gang d x).part k).age = ((v.gang d x).part k).age
  aged : ∀ x k, (x, k) ∈ s.candidates c (partOf slot) → (x, k) ≠ (slot, lead) → min 65535 (((v.gang c x).part k).age + 1) ≤ ((t.gang c x).part k).age
  crews : ∀ d k, t.crew d k = v.crew d k
  rest : t = { v with cores := t.cores }

/-- The bundle under issue as its slots see it. -/
def State.opened (s : State) (c slot lead gap : Nat) : Issue :=
  let g := s.gang c slot
  { core := c, slot := slot, lead := lead, slices := (List.range g.nsl).filter (fun k => (g.slice k).lead == lead && !(g.slice k).ended),
    pc := (g.slice lead).pc, gap := gap, bad := g.bad, pmc := (s.crew c g.cslot).pmc }

end Sys2Proof.Machine

/-- R201, R216, R218, R397, R399: the part its partition selects takes the trap of a fetch that failed (0x6B); else it serves the bank
delay it owes, in which its partition issues nothing; else its bundle issues: a bundle that does not decode traps with 0x60; the
operations of its slots run in the order V, M, X, C, the bundle ends and the other candidates age, or the first that traps leaves no
other effect. That order of the slots, and of the partitions of a core in one clock, is the model's (log entry 42). -/
def Sys2Proof.Machine.BundleIssueResults : Prop :=
  ∀ (s : State) (c slot lead : Nat), s.ev = .part c slot lead → s.select c (partOf slot) = some (slot, lead) →
    let g := s.gang c slot
    let p := g.part lead
    (∀ cause info, p.fetchFault = some (cause, info) →
      ∃ t, exec .bundleIssue s = .next t ∧ TrapTaken s t c slot { tcause := 0x6B, dcause := cause, info := info } (g.slice lead).pc) ∧
    let wide : Nat → Bool := g.wide s.clock s.free
    (∀ b, p.fetchFault = none → p.fetched = some ((g.slice lead).pc, b) →
      (0 < p.owed wide b →
        ∃ t, exec .bundleIssue s = .next t ∧ MemKept s t ∧ OtherGangs s t c slot ∧ mget? (t.core c).hold (partOf slot) = some (s.clock + p.owed wide b) ∧
          t.gang? c slot = some (g.setPart lead { p with bankPaid := true, bankd := p.owed wide b, next := s.clock + p.owed wide b })) ∧
      (p.owed wide b = 0 →
          (∀ e, decodeBundle b = .error e →
            ∃ t, exec .bundleIssue s = .next t ∧ TrapTaken s t c slot { tcause := 0x60 } (g.slice lead).pc) ∧
          ∀ k, decodeBundle b = .ok k →
            let s0 : State := { s with cur := s.opened c slot lead k.gap }
            (∀ u, Runs k.slots s0 u → ∃ v t, exec .bundleIssue s = .next t ∧ Closed u v ∧ Aged s v t c slot lead) ∧
            (∀ pre sl i post u v tr, k.slots = pre ++ (sl, .op i) :: post → Runs pre s0 u → exec i u = .next v → v.cur.trap = some tr → tr.page = none →
              ∃ t, exec .bundleIssue s = .next t ∧ TrapTaken s0 t c slot tr s0.cur.pc) ∧
            (∀ pre sl r post u, k.slots = pre ++ (sl, .bad r) :: post → Runs pre s0 u →
              ∃ t, exec .bundleIssue s = .next t ∧ TrapTaken s0 t c slot { tcause := 0x61, slot := slotNum sl } s0.cur.pc)))

/-- R6, R14, R399: the line of a part's bundle comes through the context's translation alone, and the bundle is at hand; at an address
that is not canonical the fetch has failed with 0x06. -/
def Sys2Proof.Machine.BundleFetchResults : Prop :=
  ∀ (s : State) (c slot lead : Nat) (g : Gang), s.ev = .part c slot lead → s.gang? c slot = some g → g.frozen = false →
    (g.part lead).wait = .none → (g.part lead).fetched = none → (g.part lead).fetchFault = none →
    let a := (g.slice lead).pc.toNat
    let va := a % 2 ^ 57
    let ctx := s.ctxOf c slot
    (∀ pa, canonical a = true → Cached s ctx va 3 pa → s.migrating ctx (va / 4096) = false →
      s.filling ctx (va / 4096) = false → s.lineHeld (pa / 128) = false → s.poisoned pa 16 = false →
        ∃ t, exec .bundleFetchReturn s = .next t ∧ MemKept s t ∧ OtherGangs s t c slot ∧
          t.gang? c slot = some (g.setPart lead { g.part lead with fetched := some ((g.slice lead).pc, BitVec.ofNat 128 (s.rd pa 16)) })) ∧
    (canonical a = false →
      ∃ t, exec .bundleFetchReturn s = .next t ∧ MemKept s t ∧ OtherGangs s t c slot ∧
        t.gang? c slot = some (g.setPart lead { g.part lead with fetchFault := some (0x06, 0) }))

/-- A bundle is fetched, and issues (from R6, R201, R216, R218, R397, R399). -/
def Obligations.BundleResults : Prop := BundleIssueResults ∧ BundleFetchResults

namespace Sys2Proof.Machine

/-- The part of a gang whose bundle would issue next (R397, R399): one that waits for nothing before one that waits, then the one that may
issue earliest, then by AGE. -/
def IssuesNext (g : Gang) (now k : Nat) (p : Part) : Prop :=
  let order (q : Part) : Nat := (if q.wait = .none ∧ q.macq = false then 0 else 2 ^ 80) + max now q.next * 2 ^ 16 + (65535 - q.age)
  (k, p) ∈ g.parts ∧ ∀ q ∈ g.parts, order p ≤ order q.2

end Sys2Proof.Machine

/-- R211, R341, R431, R401, R80, R454: a fixed-latency write reaches its register in its lanes; a timer runs out; the frame of a frozen
gang is written with its latches, and its supervisor, or for a supervisor the application cores, are told; an uncorrectable error of
gang state is noted for the gang's next bundle, whose results it leaves undefined, or, of a frozen gang, is pending; a pending one, and a
merged watchpoint match, trap at the next bundle boundary. Which bundle reads the bad word, and of which array it counts, is the model's
choice (log entry 45). -/
def Obligations.GangEventResults : Prop :=
  ∀ (s : State) (c slot : Nat) (g : Gang), s.gang? c slot = some g →
    (∀ p, s.ev = .gang c slot → g.pend = [p] → p.due ≤ s.clock →
      let ms := g.marks.map (fun (m : Mark) => if m.dest = p.dest then { m with lanes := m.lanes ||| p.mask } else m)
      (∀ n, p.dest = .v n → ∃ t h, exec .fixedLatencyWriteback s = .next t ∧ MemKept s t ∧ OtherGangs s t c slot ∧ t.gang? c slot = some h ∧
        h = { g with pend := [], v := h.v, marks := ms } ∧ (∀ m, m ≠ n → h.vreg m = g.vreg m) ∧
        ∀ l, l < 32 → laneGet (h.vreg n) l = if p.mask.getLsbD l then laneGet p.vals l else laneGet (g.vreg n) l) ∧
      (∀ n, p.dest = .s n → ∃ t, exec .fixedLatencyWriteback s = .next t ∧ MemKept s t ∧ OtherGangs s t c slot ∧
        t.gang? c slot = some { g with pend := [], s := mset g.s n p.word, marks := ms }) ∧
      (∀ n, p.dest = .p n → n ≠ 7 → ∃ t h, exec .fixedLatencyWriteback s = .next t ∧ MemKept s t ∧ OtherGangs s t c slot ∧ t.gang? c slot = some h ∧
        h = { g with pend := [], p := h.p, marks := ms } ∧ (∀ m, m ≠ n → h.preg m = g.preg m) ∧
        ∀ l, l < 32 → (h.preg n).getLsbD l = if p.mask.getLsbD l then p.word.getLsbD l else (g.preg n).getLsbD l) ∧
      (p.dest = .p 7 → ∃ t, exec .fixedLatencyWriteback s = .next t ∧ MemKept s t ∧ OtherGangs s t c slot ∧
        t.gang? c slot = some { g with pend := [], marks := ms }) ∧
      (∀ n, p.dest = .mp n → ∃ t, exec .fixedLatencyWriteback s = .next t ∧ MemKept s t ∧ OtherGangs s t c slot ∧
        t.gang? c slot = some { g with pend := [], marks := ms, mp := if n = 0 then g.mp else mset g.mp n (p.word.setWidth 8) })) ∧
    (∀ lead u y, s.ev = .part c slot lead → (g.part lead).wait = .timer u y → u ≤ s.clock →
      ∃ t, exec .waitTimerExpiry s = .next t ∧ MemKept s t ∧ OtherGangs s t c slot ∧
        t.gang? c slot = some (g.setPart lead { g.part lead with
          wait := .none
          macq := (g.part lead).macq && (s.core c).mill.owner != some slot
          next := max (g.part lead).next u
          age := if y then 0 else (g.part lead).age })) ∧
    (s.ev = .gang c slot → g.frozen = true → g.frameOpen = true → g.fixedDone s.clock = true →
      ∃ t h, exec .trapFrameWrite s = .next t ∧ MemKept s t ∧ OtherGangs s t c slot ∧ t.gang? c slot = some h ∧ h.frameOpen = false ∧
        h.frame = { g.frame with lv := h.frame.lv, lx1 := g.lx1 } ∧
        (∀ j l x, j < 4 → l < 32 → (g.slice (l / 4)).latches[j]? = some x → x.mask.getLsbD l = true →
          laneGet (h.frame.lv.getD j []) l = laneGet x.vals l) ∧
        (g.super = true → t.irqs = (s.irq (16 + c)).irqs) ∧
        (g.super = false → ∃ n, n ∈ (t.core c).notices ∧ n.slot = slot ∧ n.code = g.frame.tcause ∧ n.words.getD 1 0 = g.frame.next ∧
          n.words.getD 2 0 = g.frame.info ∧ n.words.getD 4 0 = BitVec.ofNat 64 g.frame.clock)) ∧
    (s.ev = .gang c slot → g.ended = false →
      (g.asyncErr = false → ∃ t, exec .asyncErrorTaken s = .next t ∧ MemKept s t ∧ OtherGangs s t c slot ∧
        t.gang? c slot = some (if g.frozen = true then { g with asyncErr := true } else { g with bad := true })) ∧
      (g.asyncErr = true → g.frozen = true → exec .asyncErrorTaken s = .next s) ∧
      (g.asyncErr = true → g.frozen = false → g.parts ≠ [] → ∃ t k p, exec .asyncErrorTaken s = .next t ∧ IssuesNext g s.clock k p ∧
        TrapTaken (s.setGang c slot { g with asyncErr := false }) t c slot { tcause := 0x78, dcause := 0x20 } (g.slice k).pc)) ∧
    (∀ i st n, s.ev = .gang c slot → g.ended = false → g.frozen = false → g.parts ≠ [] → g.watch = some (i, st, n) →
      ∃ t k p, exec .watchpointTrap s = .next t ∧ IssuesNext g s.clock k p ∧
        TrapTaken (s.setGang c slot { g with watch := none, watchDue := false }) t c slot
          { tcause := 0x73, info := i + (if st then 8 else 0) + n * 256 } (g.slice k).pc)

/-- R5, R6, R201, R436: one step of the machine. A halted base die takes none but a module reset that has arrived; a die below its fused
minimum supply none; otherwise the event chosen runs, its operands at hand, itself no longer pending and, for an event of a join unit or a
firing, its place in its clock's order noted; where nothing is left to do the clock ends. Where that event is the issue of a part whose
bundle decodes to operations that run, the step is their effects, one after another in slot order on the state of the issue, and the
bundle's end. The event taken where the spec leaves the order open is the model's free choice (log entry 38), and that order of slots its
reading (log entry 42). -/
def Obligations.StepRunsDecodedBundle : Prop :=
  ∀ s : State,
    let begun (p : Pending) (u : State) : Prop := u = { s with ev := p.arg, agenda := s.agenda.erase p, inbox := s.inbox.erase p, free := s.free + 1,
                                                               joinSeen := u.joinSeen, join := u.join }
    (∀ n, s.halted = some n → (∀ p ∈ s.inbox, p.op ≠ .baseDieResetRelease) → step s = .fault .bootHalted) ∧
    (∀ n p, s.halted = some n → s.inbox.find? (fun p => p.op == .baseDieResetRelease) = some p → ∃ u, begun p u ∧ step s = exec .baseDieResetRelease u) ∧
    (∀ d, s.halted = none → s.belowMinimum = some d → step s = .fault (.belowMinimum d)) ∧
    (s.halted = none → s.belowMinimum = none → s.nextMove = none → ∃ t, step s = .next t ∧ t.clock = s.clock + 1 ∧ MemKept s t) ∧
    (s.halted = none → s.belowMinimum = none → ∀ p, s.nextMove = some p →
      ∃ s1 : State, begun p s1 ∧ (∀ c slot lead, p.op = .bundleIssue → p.arg = .part c slot lead → s1.joinSeen = s.joinSeen ∧ s1.join = s.join) ∧
        step s = exec p.op s1 ∧
        ∀ c slot lead b k, p.op = .bundleIssue → p.arg = .part c slot lead → s1.select c (partOf slot) = some (slot, lead) →
          ((s.gang c slot).part lead).fetchFault = none → ((s.gang c slot).part lead).fetched = some (((s.gang c slot).slice lead).pc, b) →
          ((s.gang c slot).part lead).owed ((s.gang c slot).wide s1.clock s1.free) b = 0 → decodeBundle b = .ok k →
            let s0 : State := { s1 with cur := s1.opened c slot lead k.gap }
            (∀ i sl, k.slots = [(sl, .op i)] → ∀ u, exec i s0 = .next u → u.cur.trap = none →
              ∃ v t, step s = .next t ∧ Closed u v ∧ Aged s1 v t c slot lead) ∧
            ∀ u, Runs k.slots s0 u → ∃ v t, step s = .next t ∧ Closed u v ∧ Aged s1 v t c slot lead)

/-- R396, R401, R186: a partition issues only for a part whose time has come, that is inside no wait, whose gang is neither frozen nor
ended and whose crew runs, with its context's window image loaded; it issues once in a clock and nothing while a bank delay holds it.
That no gang issues on a window image in its first 4 clocks is the model's choice (log entry 44). -/
def Obligations.SelectionResults : Prop :=
  ∀ (s : State) (c q slot lead : Nat), s.select c q = some (slot, lead) →
    let g := s.gang c slot
    partOf slot = q ∧ (g.part lead).next ≤ s.clock ∧ (g.part lead).wait = .none ∧ (g.part lead).macq = false ∧ g.frozen = false ∧ g.ended = false ∧
      (s.crew c g.cslot).phase = .running ∧ (s.copy c (s.ctxOf c slot)).loading = false ∧
      (s.copy c (s.ctxOf c slot)).from_ ≤ s.clock ∧ mget? (s.core c).issued q ≠ some s.clock ∧ ∀ h, mget? (s.core c).hold q = some h → h ≤ s.clock

/-- R13, R200 to R206, R222: the bundles the spec writes out decode to the operations it names. -/
def Obligations.DecodedWords : Prop :=
  decodeBundle 0x10300401027142460E11000000000104#128 = .ok ⟨1, [
    (.v, .op (.fadd ⟨false, 0x04, 0x01, 0x02, 0x7, 0, 0⟩)), (.m, .op (.ldB32 ⟨0x09, 3, 0x07, 0, 2, 4, 0⟩)), (.x, .op .nopX32), (.c, .op (.waitf 0 4))]⟩ ∧
  decodeBundle 0x03661404FF7000000004000000000000#128 = .ok ⟨0, [
    (.v, .op (.k4enc ⟨true, 0x14, 0x04, 0xFF, 0x7, 0, 0x40⟩)), (.c, .op (.nopSlot .c44))]⟩ ∧
  decodeBundle 0x00000000000A02040C19C00000000000#128 = .ok ⟨0, [
    (.v, .op (.nopSlot .v36)), (.m, .op (.atomcasB32 ⟨0x08, 2, 0x06, 0, 3, 7, 0⟩)), (.x, .op .nopX32), (.c, .op (.nopSlot .c12))]⟩ ∧
  decodeBundle 0x02000000000481804010305300000000#128 = .ok ⟨0, [
    (.v, .op (.nopSlot .v36)), (.x, .op (.mma ⟨3, 32, 16, 6, 0, 1, 1, 3, 0, 0⟩)), (.c, .op (.nopSlot .c12))]⟩ ∧
  decodeBundle 0x01000000000000000000015050008704#128 = .ok ⟨0, [
    (.v, .op (.nopSlot .v36)), (.m, .op (.nopSlot .m40)), (.c, .op (.jmpt 7 0x05 8 4))]⟩ ∧
  decodeBundle 0x01030201C37000000000013000004700#128 = .ok ⟨0, [
    (.v, .op (.imul ⟨false, 0x02, 0x01, 0xC3, 0x7, 0, 0⟩)), (.m, .op (.nopSlot .m40)), (.c, .op (.bra 7 4))]⟩ ∧
  decodeBundle 0x04000000000000000000000000000000#128 = .error .reservedTemplate

/-- R53, R176, R208, R424, R426, R436, Tables 18-2 and 19-1: reset leaves clock 0, no gang, crew, request or context, every granule free,
memory with nothing listed, and of the device registers those of thrashing, timeouts, scrubbing, tenants, power, observation, CTXSTAT
and TICSTAT at the values the tables give. That memory nothing has written reads 0 is the model's choice (log entry 2). -/
def Obligations.ResetValues : Prop :=
  State.reset.clock = 0 ∧ (∀ c g, State.reset.gang? c g = none) ∧ (∀ c k, mget? (State.reset.core c).crews k = none) ∧
    (∀ c p, gtState ((State.reset.core c).tag p) = 0 ∧ gtGen ((State.reset.core c).tag p) = 0) ∧ (∀ x, (State.reset.ctx x).live = false) ∧
    State.reset.reqs = [] ∧ State.reset.tlb = [] ∧ State.reset.halted = none ∧ (∀ a, Mem.read State.reset.mem a = 0) ∧
    State.reset.dreg 0x38 = 0x003203E808000040#64 ∧ State.reset.dreg 0x40 = 0x006403E800000000#64 ∧ State.reset.dreg 0x70 = 0x8000000000000018#64 ∧
    (∀ t, t < 16 → State.reset.dreg (0x80 + 8 * t) = 0x0000000081008000#64) ∧ State.reset.dreg 0x3000 = 0x0A8C2EE1A4040040#64 ∧
    State.reset.dreg 0x3600 = 0x2000000000000000#64 ∧ State.reset.dreg 0x18 = 0 ∧ State.reset.dreg 0x28 = 0

/-- The memory of reset is in its canonical form. The form is the model's own (log entry 2). -/
def Obligations.MemoryFormAtReset : Prop := Mem.wf State.reset.mem = true

/-- R10: memory is bytes at physical addresses, each held once: every step keeps its canonical form. The form is the model's own (log
entry 2). -/
def Obligations.MemoryFormKept : Prop := ∀ s t : State, Mem.wf s.mem = true → step s = .next t → Mem.wf t.mem = true

/-- R202 to R206, R220 to R224: the word of every well-formed operation in every slot that has a form of it fits the slot and decodes to
that operation, with every operand at every value the encoding admits. -/
def Obligations.EncodeDecode : Prop :=
  ∀ (i : Instr) (w : Nat), i.wellFormed = true →
    (encodeV36 i = some w → w < 2 ^ 36 ∧ decodeV36 w = .ok i) ∧ (encodeV76 i = some w → w < 2 ^ 76 ∧ decodeV76 w = .ok i) ∧
      (encodeM40 i = some w → w < 2 ^ 40 ∧ decodeM40 w = .ok i) ∧ (encodeX32 i = some w → w < 2 ^ 32 ∧ decodeX32 w = .ok i) ∧
      (encodeX72 i = some w → w < 2 ^ 72 ∧ decodeX72 w = .ok i) ∧ (encodeC12 i = some w → w < 2 ^ 12 ∧ decodeC12 w = .ok i) ∧
      (encodeC44 i = some w → w < 2 ^ 44 ∧ decodeC44 w = .ok i)

/-- R206, R218, R222: what a slot word decodes to is well-formed, and but for the empty slot the word is the one its encoding gives: no
two words of a slot stand for one operation. -/
def Obligations.DecodeEncode : Prop :=
  ∀ (i : Instr) (w : Nat), (∀ k, i ≠ .nopSlot k) → i ≠ .nopX32 →
    (w < 2 ^ 36 → decodeV36 w = .ok i → i.wellFormed = true ∧ encodeV36 i = some w) ∧
      (w < 2 ^ 76 → decodeV76 w = .ok i → i.wellFormed = true ∧ encodeV76 i = some w) ∧
      (w < 2 ^ 40 → decodeM40 w = .ok i → i.wellFormed = true ∧ encodeM40 i = some w) ∧
      (w < 2 ^ 32 → decodeX32 w = .ok i → i.wellFormed = true ∧ encodeX32 i = some w) ∧
      (w < 2 ^ 72 → decodeX72 w = .ok i → i.wellFormed = true ∧ encodeX72 i = some w) ∧
      (w < 2 ^ 12 → decodeC12 w = .ok i → i.wellFormed = true ∧ encodeC12 i = some w) ∧
      (w < 2 ^ 44 → decodeC44 w = .ok i → i.wellFormed = true ∧ encodeC44 i = some w)
end

