-- ==== Sys2Proof/Safety.lean ====
section
/-! DEFINITION. Safety: a state from which the machine goes on. -/

namespace Sys2Proof.Machine

/-- The step from a state answers a next state. -/
def goesOn (s : State) : Prop := ∃ t, step s = .next t

end Sys2Proof.Machine
end

