-- ==== Sys2Proof/Tests/Slice0.lean ====
section
/-! SUPPORT. Tests: words written from the encoding tables, ill-formed operations, a state for the premises of each statement, and
single steps with results the spec writes out. -/

namespace Sys2Proof.Tests
open Sys2Proof Sys2Proof.Machine
-- One proof at a time: each is evaluated by the kernel.
set_option Elab.async false

/-- Words of the V36 slot written from its encoding tables. -/
theorem test_decode_v36_0 : [
    (0x11405469, (.iadd ⟨false, 20, 5, 70, 9, 0, 0⟩ : Instr)),
    (0x21405469, (.isub ⟨false, 20, 5, 70, 9, 0, 0⟩ : Instr)),
    (0x31405469, (.imul ⟨false, 20, 5, 70, 9, 0, 0⟩ : Instr)),
    (0x41405469, (.imulhS32 ⟨false, 20, 5, 70, 9, 0, 0⟩ : Instr)),
    (0x51405469, (.imulhN32 ⟨false, 20, 5, 70, 9, 0, 0⟩ : Instr)),
    (0x61405469, (.imad ⟨false, 20, 5, 70, 9, 0, 0⟩ : Instr)),
    (0x71405469, (.iminS32 ⟨false, 20, 5, 70, 9, 0, 0⟩ : Instr)),
    (0x81405469, (.iminN32 ⟨false, 20, 5, 70, 9, 0, 0⟩ : Instr)),
    (0x91405469, (.imaxS32 ⟨false, 20, 5, 70, 9, 0, 0⟩ : Instr)),
    (0xA1405469, (.imaxN32 ⟨false, 20, 5, 70, 9, 0, 0⟩ : Instr)),
    (0xB1405009, (.iabs ⟨false, 20, 5, 0, 9, 0, 0⟩ : Instr)),
    (0xC1405009, (.ineg ⟨false, 20, 5, 0, 9, 0, 0⟩ : Instr)),
    (0xD1406489, (.iadd64 ⟨false, 20, 6, 72, 9, 0, 0⟩ : Instr)),
    (0xE1405009, (.mov ⟨false, 20, 5, 0, 9, 0, 0⟩ : Instr)),
    (0x101405469, (.and ⟨false, 20, 5, 70, 9, 0, 0⟩ : Instr)),
    (0x111405469, (.or ⟨false, 20, 5, 70, 9, 0, 0⟩ : Instr)),
    (0x121405469, (.xor ⟨false, 20, 5, 70, 9, 0, 0⟩ : Instr)),
    (0x131405469, (.andn ⟨false, 20, 5, 70, 9, 0, 0⟩ : Instr)),
    (0x141405469, (.shl ⟨false, 20, 5, 70, 9, 0, 0⟩ : Instr)),
    (0x151405469, (.shr ⟨false, 20, 5, 70, 9, 0, 0⟩ : Instr)),
    (0x161405469, (.sar ⟨false, 20, 5, 70, 9, 0, 0⟩ : Instr)),
    (0x171405469, (.shfL ⟨false, 20, 5, 70, 9, 0, 0⟩ : Instr)),
    (0x181405469, (.shfR ⟨false, 20, 5, 70, 9, 0, 0⟩ : Instr)),
    (0x191405009, (.popc ⟨false, 20, 5, 0, 9, 0, 0⟩ : Instr)),
    (0x1A1405009, (.clz ⟨false, 20, 5, 0, 9, 0, 0⟩ : Instr)),
    (0x1B1405009, (.brev ⟨false, 20, 5, 0, 9, 0, 0⟩ : Instr)),
    (0x1C1405469, (.bfxS32 ⟨false, 20, 5, 70, 9, 0, 0⟩ : Instr))].all (fun p => SlotCode.of (decodeV36 p.1) == .op p.2) = true := by decide +kernel

/-- Words of the V36 slot written from its encoding tables. -/
theorem test_decode_v36_1 : [
    (0x1D1405469, (.bfxN32 ⟨false, 20, 5, 70, 9, 0, 0⟩ : Instr)),
    (0x1E1405469, (.bfi ⟨false, 20, 5, 70, 9, 0, 0⟩ : Instr)),
    (0x1F1405469, (.sel ⟨false, 20, 5, 70, 9, 0, 0⟩ : Instr)),
    (0x200305469, (.icmpEq ⟨false, 3, 5, 70, 9, 0, 0⟩ : Instr)),
    (0x210305469, (.icmpNe ⟨false, 3, 5, 70, 9, 0, 0⟩ : Instr)),
    (0x220305469, (.icmpLtS32 ⟨false, 3, 5, 70, 9, 0, 0⟩ : Instr)),
    (0x230305469, (.icmpLeS32 ⟨false, 3, 5, 70, 9, 0, 0⟩ : Instr)),
    (0x240305469, (.icmpGtS32 ⟨false, 3, 5, 70, 9, 0, 0⟩ : Instr)),
    (0x250305469, (.icmpGeS32 ⟨false, 3, 5, 70, 9, 0, 0⟩ : Instr)),
    (0x260305469, (.icmpLtN32 ⟨false, 3, 5, 70, 9, 0, 0⟩ : Instr)),
    (0x270305469, (.icmpLeN32 ⟨false, 3, 5, 70, 9, 0, 0⟩ : Instr)),
    (0x280305469, (.icmpGtN32 ⟨false, 3, 5, 70, 9, 0, 0⟩ : Instr)),
    (0x290305469, (.icmpGeN32 ⟨false, 3, 5, 70, 9, 0, 0⟩ : Instr)),
    (0x301405469, (.fadd ⟨false, 20, 5, 70, 9, 0, 0⟩ : Instr)),
    (0x311405469, (.fsub ⟨false, 20, 5, 70, 9, 0, 0⟩ : Instr)),
    (0x321405469, (.fmul ⟨false, 20, 5, 70, 9, 0, 0⟩ : Instr)),
    (0x331405469, (.ffma ⟨false, 20, 5, 70, 9, 0, 0⟩ : Instr)),
    (0x341405469, (.fmin ⟨false, 20, 5, 70, 9, 0, 0⟩ : Instr)),
    (0x351405469, (.fmax ⟨false, 20, 5, 70, 9, 0, 0⟩ : Instr)),
    (0x361405009, (.frcp ⟨false, 20, 5, 0, 9, 0, 0⟩ : Instr)),
    (0x371405009, (.frsq ⟨false, 20, 5, 0, 9, 0, 0⟩ : Instr)),
    (0x381405009, (.fsqrt ⟨false, 20, 5, 0, 9, 0, 0⟩ : Instr)),
    (0x391405009, (.fexp2 ⟨false, 20, 5, 0, 9, 0, 0⟩ : Instr)),
    (0x3A1405009, (.flog2 ⟨false, 20, 5, 0, 9, 0, 0⟩ : Instr)),
    (0x3B1405009, (.fsin ⟨false, 20, 5, 0, 9, 0, 0⟩ : Instr)),
    (0x3C1405009, (.fcos ⟨false, 20, 5, 0, 9, 0, 0⟩ : Instr)),
    (0x400305469, (.fcmpEq ⟨false, 3, 5, 70, 9, 0, 0⟩ : Instr))].all (fun p => SlotCode.of (decodeV36 p.1) == .op p.2) = true := by decide +kernel

/-- Words of the V36 slot written from its encoding tables. -/
theorem test_decode_v36_2 : [
    (0x410305469, (.fcmpNe ⟨false, 3, 5, 70, 9, 0, 0⟩ : Instr)),
    (0x420305469, (.fcmpLt ⟨false, 3, 5, 70, 9, 0, 0⟩ : Instr)),
    (0x430305469, (.fcmpLe ⟨false, 3, 5, 70, 9, 0, 0⟩ : Instr)),
    (0x440305469, (.fcmpGt ⟨false, 3, 5, 70, 9, 0, 0⟩ : Instr)),
    (0x450305469, (.fcmpGe ⟨false, 3, 5, 70, 9, 0, 0⟩ : Instr)),
    (0x460305469, (.fcmpNum ⟨false, 3, 5, 70, 9, 0, 0⟩ : Instr)),
    (0x470305469, (.fcmpNan ⟨false, 3, 5, 70, 9, 0, 0⟩ : Instr)),
    (0x501405469, (.hadd2F16 ⟨false, 20, 5, 70, 9, 0, 0⟩ : Instr)),
    (0x511405469, (.hmul2F16 ⟨false, 20, 5, 70, 9, 0, 0⟩ : Instr)),
    (0x521405469, (.hfma2F16 ⟨false, 20, 5, 70, 9, 0, 0⟩ : Instr)),
    (0x531405469, (.hmin2F16 ⟨false, 20, 5, 70, 9, 0, 0⟩ : Instr)),
    (0x541405469, (.hmax2F16 ⟨false, 20, 5, 70, 9, 0, 0⟩ : Instr)),
    (0x581405469, (.hadd2Bf16 ⟨false, 20, 5, 70, 9, 0, 0⟩ : Instr)),
    (0x591405469, (.hmul2Bf16 ⟨false, 20, 5, 70, 9, 0, 0⟩ : Instr)),
    (0x5A1405469, (.hfma2Bf16 ⟨false, 20, 5, 70, 9, 0, 0⟩ : Instr)),
    (0x5B1405469, (.hmin2Bf16 ⟨false, 20, 5, 70, 9, 0, 0⟩ : Instr)),
    (0x5C1405469, (.hmax2Bf16 ⟨false, 20, 5, 70, 9, 0, 0⟩ : Instr)),
    (0x601405469, (.fdot4E4m3E4m3 ⟨false, 20, 5, 70, 9, 0, 0⟩ : Instr)),
    (0x611405469, (.fdot4E4m3E5m2 ⟨false, 20, 5, 70, 9, 0, 0⟩ : Instr)),
    (0x621405469, (.fdot4E5m2E4m3 ⟨false, 20, 5, 70, 9, 0, 0⟩ : Instr)),
    (0x631405469, (.fdot4E5m2E5m2 ⟨false, 20, 5, 70, 9, 0, 0⟩ : Instr)),
    (0x641405829, (.cvt ⟨false, 20, 5, 130, 9, 0, 0⟩ : Instr)),
    (0x651408469, (.pack ⟨false, 20, 8, 70, 9, 0, 0⟩ : Instr)),
    (0x661405469, (.k4enc ⟨false, 20, 5, 70, 9, 0, 0⟩ : Instr)),
    (0x671405469, (.k4dec ⟨false, 20, 5, 70, 9, 0, 0⟩ : Instr)),
    (0x701405469, (.shflIdx ⟨false, 20, 5, 70, 9, 0, 0⟩ : Instr)),
    (0x711405469, (.shflUp ⟨false, 20, 5, 70, 9, 0, 0⟩ : Instr))].all (fun p => SlotCode.of (decodeV36 p.1) == .op p.2) = true := by decide +kernel

/-- Words of the V36 slot written from its encoding tables. -/
theorem test_decode_v36_3 : [
    (0x721405469, (.shflDown ⟨false, 20, 5, 70, 9, 0, 0⟩ : Instr)),
    (0x731405469, (.shflXor ⟨false, 20, 5, 70, 9, 0, 0⟩ : Instr)),
    (0x740305009, (.voteAll ⟨false, 3, 5, 0, 9, 0, 0⟩ : Instr)),
    (0x750305009, (.voteAny ⟨false, 3, 5, 0, 9, 0, 0⟩ : Instr)),
    (0x761405009, (.voteBal ⟨false, 20, 5, 0, 9, 0, 0⟩ : Instr)),
    (0x780305069, (.pand ⟨false, 3, 5, 6, 9, 0, 0⟩ : Instr)),
    (0x790305069, (.por ⟨false, 3, 5, 6, 9, 0, 0⟩ : Instr)),
    (0x7A0305069, (.pxor ⟨false, 3, 5, 6, 9, 0, 0⟩ : Instr)),
    (0x7B0305009, (.pnot ⟨false, 3, 5, 0, 9, 0, 0⟩ : Instr)),
    (0x7C8505C37, (.movs ⟨false, 133, 5, 195, 7, 0, 0⟩ : Instr)),
    (0x7D1405009, (.chpop ⟨false, 20, 5, 0, 9, 0, 0⟩ : Instr)),
    (0x801405009, (.lredAddF32 ⟨false, 20, 5, 0, 9, 0, 0⟩ : Instr)),
    (0x811405009, (.lredAddN32 ⟨false, 20, 5, 0, 9, 0, 0⟩ : Instr)),
    (0x821405009, (.lredMinF32 ⟨false, 20, 5, 0, 9, 0, 0⟩ : Instr)),
    (0x831405009, (.lredMaxF32 ⟨false, 20, 5, 0, 9, 0, 0⟩ : Instr)),
    (0x841405009, (.lredMinS32 ⟨false, 20, 5, 0, 9, 0, 0⟩ : Instr)),
    (0x851405009, (.lredMaxS32 ⟨false, 20, 5, 0, 9, 0, 0⟩ : Instr)),
    (0x861405009, (.lredMinN32 ⟨false, 20, 5, 0, 9, 0, 0⟩ : Instr)),
    (0x871405009, (.lredMaxN32 ⟨false, 20, 5, 0, 9, 0, 0⟩ : Instr)),
    (0x881405009, (.lredAnd ⟨false, 20, 5, 0, 9, 0, 0⟩ : Instr)),
    (0x891405009, (.lredOr ⟨false, 20, 5, 0, 9, 0, 0⟩ : Instr)),
    (0x8A1405009, (.lredXor ⟨false, 20, 5, 0, 9, 0, 0⟩ : Instr))].all (fun p => SlotCode.of (decodeV36 p.1) == .op p.2) = true := by decide +kernel

/-- Words of the V76 slot written from its encoding tables. -/
theorem test_decode_v76_0 : [
    (0x114054690000000000, (.iadd ⟨true, 20, 5, 70, 9, 0, 0x0⟩ : Instr)),
    (0x214054690000000000, (.isub ⟨true, 20, 5, 70, 9, 0, 0x0⟩ : Instr)),
    (0x314054690000000000, (.imul ⟨true, 20, 5, 70, 9, 0, 0x0⟩ : Instr)),
    (0x414054690000000000, (.imulhS32 ⟨true, 20, 5, 70, 9, 0, 0x0⟩ : Instr)),
    (0x514054690000000000, (.imulhN32 ⟨true, 20, 5, 70, 9, 0, 0x0⟩ : Instr)),
    (0x61405FF931DEADBEEF, (.imad ⟨true, 20, 5, 255, 9, 49, 0xDEADBEEF⟩ : Instr)),
    (0x714054690000000000, (.iminS32 ⟨true, 20, 5, 70, 9, 0, 0x0⟩ : Instr)),
    (0x814054690000000000, (.iminN32 ⟨true, 20, 5, 70, 9, 0, 0x0⟩ : Instr)),
    (0x914054690000000000, (.imaxS32 ⟨true, 20, 5, 70, 9, 0, 0x0⟩ : Instr)),
    (0xA14054690000000000, (.imaxN32 ⟨true, 20, 5, 70, 9, 0, 0x0⟩ : Instr)),
    (0xB14050090000000000, (.iabs ⟨true, 20, 5, 0, 9, 0, 0x0⟩ : Instr)),
    (0xC14050090000000000, (.ineg ⟨true, 20, 5, 0, 9, 0, 0x0⟩ : Instr)),
    (0xD14064890000000000, (.iadd64 ⟨true, 20, 6, 72, 9, 0, 0x0⟩ : Instr)),
    (0xE14050090000000000, (.mov ⟨true, 20, 5, 0, 9, 0, 0x0⟩ : Instr)),
    (0xF9E00FF70080001234, (.movi ⟨true, 158, 0, 255, 7, 0, 0x80001234⟩ : Instr)),
    (0x1014054690000000000, (.and ⟨true, 20, 5, 70, 9, 0, 0x0⟩ : Instr)),
    (0x1114054690000000000, (.or ⟨true, 20, 5, 70, 9, 0, 0x0⟩ : Instr)),
    (0x1214054690000000000, (.xor ⟨true, 20, 5, 70, 9, 0, 0x0⟩ : Instr)),
    (0x1314054690000000000, (.andn ⟨true, 20, 5, 70, 9, 0, 0x0⟩ : Instr)),
    (0x1414054690000000000, (.shl ⟨true, 20, 5, 70, 9, 0, 0x0⟩ : Instr)),
    (0x1514054690000000000, (.shr ⟨true, 20, 5, 70, 9, 0, 0x0⟩ : Instr)),
    (0x1614054690000000000, (.sar ⟨true, 20, 5, 70, 9, 0, 0x0⟩ : Instr)),
    (0x171405FF931DEADBEEF, (.shfL ⟨true, 20, 5, 255, 9, 49, 0xDEADBEEF⟩ : Instr)),
    (0x181405FF931DEADBEEF, (.shfR ⟨true, 20, 5, 255, 9, 49, 0xDEADBEEF⟩ : Instr)),
    (0x1914050090000000000, (.popc ⟨true, 20, 5, 0, 9, 0, 0x0⟩ : Instr)),
    (0x1A14050090000000000, (.clz ⟨true, 20, 5, 0, 9, 0, 0x0⟩ : Instr)),
    (0x1B14050090000000000, (.brev ⟨true, 20, 5, 0, 9, 0, 0x0⟩ : Instr))].all (fun p => SlotCode.of (decodeV76 p.1) == .op p.2) = true := by decide +kernel

/-- Words of the V76 slot written from its encoding tables. -/
theorem test_decode_v76_1 : [
    (0x1C14054690000000000, (.bfxS32 ⟨true, 20, 5, 70, 9, 0, 0x0⟩ : Instr)),
    (0x1D14054690000000000, (.bfxN32 ⟨true, 20, 5, 70, 9, 0, 0x0⟩ : Instr)),
    (0x1E1405FF931DEADBEEF, (.bfi ⟨true, 20, 5, 255, 9, 49, 0xDEADBEEF⟩ : Instr)),
    (0x1F14054690000000000, (.sel ⟨true, 20, 5, 70, 9, 0, 0x0⟩ : Instr)),
    (0x2003054690000000000, (.icmpEq ⟨true, 3, 5, 70, 9, 0, 0x0⟩ : Instr)),
    (0x2103054690000000000, (.icmpNe ⟨true, 3, 5, 70, 9, 0, 0x0⟩ : Instr)),
    (0x2203054690000000000, (.icmpLtS32 ⟨true, 3, 5, 70, 9, 0, 0x0⟩ : Instr)),
    (0x2303054690000000000, (.icmpLeS32 ⟨true, 3, 5, 70, 9, 0, 0x0⟩ : Instr)),
    (0x2403054690000000000, (.icmpGtS32 ⟨true, 3, 5, 70, 9, 0, 0x0⟩ : Instr)),
    (0x2503054690000000000, (.icmpGeS32 ⟨true, 3, 5, 70, 9, 0, 0x0⟩ : Instr)),
    (0x2603054690000000000, (.icmpLtN32 ⟨true, 3, 5, 70, 9, 0, 0x0⟩ : Instr)),
    (0x2703054690000000000, (.icmpLeN32 ⟨true, 3, 5, 70, 9, 0, 0x0⟩ : Instr)),
    (0x2803054690000000000, (.icmpGtN32 ⟨true, 3, 5, 70, 9, 0, 0x0⟩ : Instr)),
    (0x2903054690000000000, (.icmpGeN32 ⟨true, 3, 5, 70, 9, 0, 0x0⟩ : Instr)),
    (0x3014054690000000000, (.fadd ⟨true, 20, 5, 70, 9, 0, 0x0⟩ : Instr)),
    (0x3114054690000000000, (.fsub ⟨true, 20, 5, 70, 9, 0, 0x0⟩ : Instr)),
    (0x3214054690000000000, (.fmul ⟨true, 20, 5, 70, 9, 0, 0x0⟩ : Instr)),
    (0x331405FF931DEADBEEF, (.ffma ⟨true, 20, 5, 255, 9, 49, 0xDEADBEEF⟩ : Instr)),
    (0x3414054690000000000, (.fmin ⟨true, 20, 5, 70, 9, 0, 0x0⟩ : Instr)),
    (0x3514054690000000000, (.fmax ⟨true, 20, 5, 70, 9, 0, 0x0⟩ : Instr)),
    (0x3614050090000000000, (.frcp ⟨true, 20, 5, 0, 9, 0, 0x0⟩ : Instr)),
    (0x3714050090000000000, (.frsq ⟨true, 20, 5, 0, 9, 0, 0x0⟩ : Instr)),
    (0x3814050090000000000, (.fsqrt ⟨true, 20, 5, 0, 9, 0, 0x0⟩ : Instr)),
    (0x3914050090000000000, (.fexp2 ⟨true, 20, 5, 0, 9, 0, 0x0⟩ : Instr)),
    (0x3A14050090000000000, (.flog2 ⟨true, 20, 5, 0, 9, 0, 0x0⟩ : Instr)),
    (0x3B14050090000000000, (.fsin ⟨true, 20, 5, 0, 9, 0, 0x0⟩ : Instr)),
    (0x3C14050090000000000, (.fcos ⟨true, 20, 5, 0, 9, 0, 0x0⟩ : Instr))].all (fun p => SlotCode.of (decodeV76 p.1) == .op p.2) = true := by decide +kernel

/-- Words of the V76 slot written from its encoding tables. -/
theorem test_decode_v76_2 : [
    (0x4003054690000000000, (.fcmpEq ⟨true, 3, 5, 70, 9, 0, 0x0⟩ : Instr)),
    (0x4103054690000000000, (.fcmpNe ⟨true, 3, 5, 70, 9, 0, 0x0⟩ : Instr)),
    (0x4203054690000000000, (.fcmpLt ⟨true, 3, 5, 70, 9, 0, 0x0⟩ : Instr)),
    (0x4303054690000000000, (.fcmpLe ⟨true, 3, 5, 70, 9, 0, 0x0⟩ : Instr)),
    (0x4403054690000000000, (.fcmpGt ⟨true, 3, 5, 70, 9, 0, 0x0⟩ : Instr)),
    (0x4503054690000000000, (.fcmpGe ⟨true, 3, 5, 70, 9, 0, 0x0⟩ : Instr)),
    (0x4603054690000000000, (.fcmpNum ⟨true, 3, 5, 70, 9, 0, 0x0⟩ : Instr)),
    (0x4703054690000000000, (.fcmpNan ⟨true, 3, 5, 70, 9, 0, 0x0⟩ : Instr)),
    (0x5014054690000000000, (.hadd2F16 ⟨true, 20, 5, 70, 9, 0, 0x0⟩ : Instr)),
    (0x5114054690000000000, (.hmul2F16 ⟨true, 20, 5, 70, 9, 0, 0x0⟩ : Instr)),
    (0x521405FF931DEADBEEF, (.hfma2F16 ⟨true, 20, 5, 255, 9, 49, 0xDEADBEEF⟩ : Instr)),
    (0x5314054690000000000, (.hmin2F16 ⟨true, 20, 5, 70, 9, 0, 0x0⟩ : Instr)),
    (0x5414054690000000000, (.hmax2F16 ⟨true, 20, 5, 70, 9, 0, 0x0⟩ : Instr)),
    (0x5814054690000000000, (.hadd2Bf16 ⟨true, 20, 5, 70, 9, 0, 0x0⟩ : Instr)),
    (0x5914054690000000000, (.hmul2Bf16 ⟨true, 20, 5, 70, 9, 0, 0x0⟩ : Instr)),
    (0x5A1405FF931DEADBEEF, (.hfma2Bf16 ⟨true, 20, 5, 255, 9, 49, 0xDEADBEEF⟩ : Instr)),
    (0x5B14054690000000000, (.hmin2Bf16 ⟨true, 20, 5, 70, 9, 0, 0x0⟩ : Instr)),
    (0x5C14054690000000000, (.hmax2Bf16 ⟨true, 20, 5, 70, 9, 0, 0x0⟩ : Instr)),
    (0x601405FF931DEADBEEF, (.fdot4E4m3E4m3 ⟨true, 20, 5, 255, 9, 49, 0xDEADBEEF⟩ : Instr)),
    (0x611405FF931DEADBEEF, (.fdot4E4m3E5m2 ⟨true, 20, 5, 255, 9, 49, 0xDEADBEEF⟩ : Instr)),
    (0x621405FF931DEADBEEF, (.fdot4E5m2E4m3 ⟨true, 20, 5, 255, 9, 49, 0xDEADBEEF⟩ : Instr)),
    (0x631405FF931DEADBEEF, (.fdot4E5m2E5m2 ⟨true, 20, 5, 255, 9, 49, 0xDEADBEEF⟩ : Instr)),
    (0x6414058290000000000, (.cvt ⟨true, 20, 5, 130, 9, 0, 0x0⟩ : Instr)),
    (0x6514084690000000000, (.pack ⟨true, 20, 8, 70, 9, 0, 0x0⟩ : Instr)),
    (0x6614054690000000000, (.k4enc ⟨true, 20, 5, 70, 9, 0, 0x0⟩ : Instr)),
    (0x6714054690000000000, (.k4dec ⟨true, 20, 5, 70, 9, 0, 0x0⟩ : Instr)),
    (0x7014054690000000000, (.shflIdx ⟨true, 20, 5, 70, 9, 0, 0x0⟩ : Instr))].all (fun p => SlotCode.of (decodeV76 p.1) == .op p.2) = true := by decide +kernel

/-- Words of the V76 slot written from its encoding tables. -/
theorem test_decode_v76_3 : [
    (0x7114054690000000000, (.shflUp ⟨true, 20, 5, 70, 9, 0, 0x0⟩ : Instr)),
    (0x7214054690000000000, (.shflDown ⟨true, 20, 5, 70, 9, 0, 0x0⟩ : Instr)),
    (0x7314054690000000000, (.shflXor ⟨true, 20, 5, 70, 9, 0, 0x0⟩ : Instr)),
    (0x7403050090000000000, (.voteAll ⟨true, 3, 5, 0, 9, 0, 0x0⟩ : Instr)),
    (0x7503050090000000000, (.voteAny ⟨true, 3, 5, 0, 9, 0, 0x0⟩ : Instr)),
    (0x7614050090000000000, (.voteBal ⟨true, 20, 5, 0, 9, 0, 0x0⟩ : Instr)),
    (0x7803050690000000000, (.pand ⟨true, 3, 5, 6, 9, 0, 0x0⟩ : Instr)),
    (0x7903050690000000000, (.por ⟨true, 3, 5, 6, 9, 0, 0x0⟩ : Instr)),
    (0x7A03050690000000000, (.pxor ⟨true, 3, 5, 6, 9, 0, 0x0⟩ : Instr)),
    (0x7B03050090000000000, (.pnot ⟨true, 3, 5, 0, 9, 0, 0x0⟩ : Instr)),
    (0x7C8505C370000000000, (.movs ⟨true, 133, 5, 195, 7, 0, 0x0⟩ : Instr)),
    (0x7D14050090000000000, (.chpop ⟨true, 20, 5, 0, 9, 0, 0x0⟩ : Instr)),
    (0x8014050090000000000, (.lredAddF32 ⟨true, 20, 5, 0, 9, 0, 0x0⟩ : Instr)),
    (0x8114050090000000000, (.lredAddN32 ⟨true, 20, 5, 0, 9, 0, 0x0⟩ : Instr)),
    (0x8214050090000000000, (.lredMinF32 ⟨true, 20, 5, 0, 9, 0, 0x0⟩ : Instr)),
    (0x8314050090000000000, (.lredMaxF32 ⟨true, 20, 5, 0, 9, 0, 0x0⟩ : Instr)),
    (0x8414050090000000000, (.lredMinS32 ⟨true, 20, 5, 0, 9, 0, 0x0⟩ : Instr)),
    (0x8514050090000000000, (.lredMaxS32 ⟨true, 20, 5, 0, 9, 0, 0x0⟩ : Instr)),
    (0x8614050090000000000, (.lredMinN32 ⟨true, 20, 5, 0, 9, 0, 0x0⟩ : Instr)),
    (0x8714050090000000000, (.lredMaxN32 ⟨true, 20, 5, 0, 9, 0, 0x0⟩ : Instr)),
    (0x8814050090000000000, (.lredAnd ⟨true, 20, 5, 0, 9, 0, 0x0⟩ : Instr)),
    (0x8914050090000000000, (.lredOr ⟨true, 20, 5, 0, 9, 0, 0x0⟩ : Instr)),
    (0x8A14050090000000000, (.lredXor ⟨true, 20, 5, 0, 9, 0, 0x0⟩ : Instr))].all (fun p => SlotCode.of (decodeV76 p.1) == .op p.2) = true := by decide +kernel

/-- Words of the M40 slot written from its encoding tables. -/
theorem test_decode_m40_0 : [
    (0x43124A2CE, (.ldB8 ⟨12, 9, 37, 0, 5, 19, 2⟩ : Instr)),
    (0x83124A2CE, (.ldB8Sx ⟨12, 9, 37, 0, 5, 19, 2⟩ : Instr)),
    (0xC3124A2CE, (.ldB16 ⟨12, 9, 37, 0, 5, 19, 2⟩ : Instr)),
    (0x103124A2CE, (.ldB16Sx ⟨12, 9, 37, 0, 5, 19, 2⟩ : Instr)),
    (0x143124A2CE, (.ldB32 ⟨12, 9, 37, 0, 5, 19, 2⟩ : Instr)),
    (0x183124A2CE, (.ldB64 ⟨12, 9, 37, 0, 5, 19, 2⟩ : Instr)),
    (0x1C3124A2CE, (.ldB128 ⟨12, 9, 37, 0, 5, 19, 2⟩ : Instr)),
    (0x224530C2CC, (.ldB32S ⟨145, 9, 134, 0, 5, 19, 0⟩ : Instr)),
    (0x264530C2CC, (.ldB64S ⟨145, 9, 134, 0, 5, 19, 0⟩ : Instr)),
    (0x283124A2CE, (.stB8 ⟨12, 9, 37, 0, 5, 19, 2⟩ : Instr)),
    (0x2C3124A2CE, (.stB16 ⟨12, 9, 37, 0, 5, 19, 2⟩ : Instr)),
    (0x303124A2CE, (.stB32 ⟨12, 9, 37, 0, 5, 19, 2⟩ : Instr)),
    (0x343124A2CE, (.stB64 ⟨12, 9, 37, 0, 5, 19, 2⟩ : Instr)),
    (0x383124A2CE, (.stB128 ⟨12, 9, 37, 0, 5, 19, 2⟩ : Instr)),
    (0x403124A2CE, (.ldrawB8 ⟨12, 9, 37, 0, 5, 19, 2⟩ : Instr)),
    (0x443124A2CE, (.ldrawB16 ⟨12, 9, 37, 0, 5, 19, 2⟩ : Instr)),
    (0x483124A2CE, (.ldrawB32 ⟨12, 9, 37, 0, 5, 19, 2⟩ : Instr)),
    (0x4C3124A2CE, (.ldrawB64 ⟨12, 9, 37, 0, 5, 19, 2⟩ : Instr)),
    (0x503124A2CE, (.strawB8 ⟨12, 9, 37, 0, 5, 19, 2⟩ : Instr)),
    (0x543124A2CE, (.strawB16 ⟨12, 9, 37, 0, 5, 19, 2⟩ : Instr)),
    (0x583124A2CE, (.strawB32 ⟨12, 9, 37, 0, 5, 19, 2⟩ : Instr)),
    (0x5C3124A2CE, (.strawB64 ⟨12, 9, 37, 0, 5, 19, 2⟩ : Instr)),
    (0x603124A2CE, (.ldx ⟨12, 9, 37, 0, 5, 19, 2⟩ : Instr)),
    (0x643124A2CE, (.stx ⟨12, 9, 37, 0, 5, 19, 2⟩ : Instr)),
    (0x682D30C2CC, (.ldc ⟨11, 9, 134, 0, 5, 19, 0⟩ : Instr)),
    (0x71553882CC, (.lblk ⟨85, 9, 196, 0, 5, 19, 0⟩ : Instr)),
    (0x74013882CC, (.blkwb ⟨0, 9, 196, 0, 5, 19, 0⟩ : Instr))].all (fun p => SlotCode.of (decodeM40 p.1) == .op p.2) = true := by decide +kernel

/-- Words of the M40 slot written from its encoding tables. -/
theorem test_decode_m40_1 : [
    (0x78013882CC, (.blkdrop ⟨0, 9, 196, 0, 5, 19, 0⟩ : Instr)),
    (0x7C0524A2CE, (.pref ⟨1, 9, 37, 0, 5, 19, 2⟩ : Instr)),
    (0x803124AACE, (.atomN32 ⟨12, 9, 37, 2, 5, 19, 2⟩ : Instr)),
    (0x843124AACE, (.atomS32 ⟨12, 9, 37, 2, 5, 19, 2⟩ : Instr)),
    (0x883124AACE, (.atomN64 ⟨12, 9, 37, 2, 5, 19, 2⟩ : Instr)),
    (0x8C3124AACE, (.atomF32 ⟨12, 9, 37, 2, 5, 19, 2⟩ : Instr)),
    (0x903124AACE, (.redmN32 ⟨12, 9, 37, 2, 5, 19, 2⟩ : Instr)),
    (0x943124AACE, (.redmS32 ⟨12, 9, 37, 2, 5, 19, 2⟩ : Instr)),
    (0x983124AACE, (.redmN64 ⟨12, 9, 37, 2, 5, 19, 2⟩ : Instr)),
    (0x9C3124AACE, (.redmF32 ⟨12, 9, 37, 2, 5, 19, 2⟩ : Instr)),
    (0xA03124A2CE, (.atomcasB32 ⟨12, 9, 37, 0, 5, 19, 2⟩ : Instr)),
    (0xA43124A2CE, (.atomcasB64 ⟨12, 9, 37, 0, 5, 19, 2⟩ : Instr)),
    (0xB03124A2CE, (.accstAdd ⟨12, 9, 37, 0, 5, 19, 2⟩ : Instr)),
    (0xB43124A2CE, (.accstOvw ⟨12, 9, 37, 0, 5, 19, 2⟩ : Instr)),
    (0xB83124A2CE, (.accld ⟨12, 9, 37, 0, 5, 19, 2⟩ : Instr)),
    (0xBC1924A2CE, (.stch ⟨6, 9, 37, 0, 5, 19, 2⟩ : Instr)),
    (0xC0000002CC, (.mark ⟨0, 0, 0, 0, 5, 19, 0⟩ : Instr)),
    (0xC4000016CC, (.fence ⟨0, 0, 0, 5, 5, 19, 0⟩ : Instr)),
    (0xCA4530C2CC, (.send ⟨145, 9, 134, 0, 5, 19, 0⟩ : Instr)),
    (0xCE6130C2CC, (.qpush ⟨152, 9, 134, 0, 5, 19, 0⟩ : Instr)),
    (0xD26130C2CC, (.qpop ⟨152, 9, 134, 0, 5, 19, 0⟩ : Instr)),
    (0xD72130C2CC, (.qtry ⟨200, 9, 134, 0, 5, 19, 0⟩ : Instr)),
    (0xD83124A2CE, (.stgB32 ⟨12, 9, 37, 0, 5, 19, 2⟩ : Instr)),
    (0xDC3124A2CE, (.stgB64 ⟨12, 9, 37, 0, 5, 19, 2⟩ : Instr))].all (fun p => SlotCode.of (decodeM40 p.1) == .op p.2) = true := by decide +kernel

/-- Words of the X32 slot written from its encoding tables. -/
theorem test_decode_x32_0 : [
    (0x7B623F6, (.cpy 29 5 17 3 30 6 : Instr)),
    (0xBB623F6, (.cpyfill 29 5 17 3 30 6 : Instr)),
    (0x23A00000, (.macq 29 : Instr)),
    (0x27A00000, (.mrel 29 : Instr)),
    (0x2BA00000, (.mready 29 : Instr)),
    (0x2FA00000, (.mfence 29 : Instr)),
    (0x33A2694D, (.mzero 29 1234 77 : Instr)),
    (0x37A22000, (.mstat 29 17 : Instr)),
    (0x43A30900, (.gopen 29 777 : Instr)),
    (0x47A30900, (.gcommit 29 777 : Instr)),
    (0x4BA30900, (.gabort 29 777 : Instr)),
    (0x4FA30988, (.gquery 29 777 17 : Instr))].all (fun p => SlotCode.of (decodeX32 p.1) == .op p.2) = true := by decide +kernel

/-- Words of the X72 slot written from its encoding tables. -/
theorem test_decode_x72_0 : [
    (0x40ED88FC9CEA000000, (.cpyt ⟨29, 5, 17, 3, 30, 9, 6, 3, 1, 10⟩ : Instr)),
    (0x41ED88EBE4EA980000, (.cpyg ⟨29, 5, 17, 3, 21, 30, 9, 6, 1, 10, 3⟩ : Instr)),
    (0x42ED88FD4B9D400000, (.cpymc ⟨29, 5, 17, 3, 30, 165, 6, 3, 1, 10⟩ : Instr)),
    (0x43ED8A75DC6EA00000, (.cpych ⟨29, 5, 17, 9, 6, 11, 5, 99, 3, 1, 10⟩ : Instr)),
    (0x44ED8E432BD5000000, (.wbld ⟨29, 5, 17, 400, 50, 1, 3, 6, 1, 10⟩ : Instr)),
    (0x48E89A5908E9B68000, (.mma ⟨29, 1234, 400, 17, 6, 2, 1, 11, 3, 2⟩ : Instr)),
    (0x49E89A5908E9B68000, (.mmas ⟨29, 1234, 400, 17, 6, 2, 1, 11, 3, 2⟩ : Instr)),
    (0x4AE88CD2BB80000000, (.mldt ⟨29, 17, 1234, 11, 2, 1, 6⟩ : Instr)),
    (0x4BE89A57A356C00000, (.mdrain ⟨29, 1234, 11, 6, 4, 3, 0, 2, 45, 1⟩ : Instr))].all (fun p => SlotCode.of (decodeX72 p.1) == .op p.2) = true := by decide +kernel

/-- Words of the C12 slot written from its encoding tables. -/
theorem test_decode_c12_0 : [
    (0x133, (.waitf 1 19 : Instr)),
    (0x200, Instr.reconv),
    (0x300, Instr.regang),
    (0x400, (.exit 7 : Instr)),
    (0x5C8, (.yield 200 : Instr)),
    (0x60B, (.bara 11 : Instr)),
    (0x70B, (.barw 11 : Instr)),
    (0x80B, (.baraw 11 : Instr)),
    (0x915, (.ret 21 : Instr)),
    (0xAC8, (.sleep 200 : Instr)),
    (0xBC8, (.bkpt 200 : Instr)),
    (0xC2D, (.eret 45 : Instr)),
    (0xDC8, (.trap 200 : Instr))].all (fun p => SlotCode.of (decodeC12 p.1) == .op p.2) = true := by decide +kernel

/-- Words of the C44 slot written from its encoding tables. -/
theorem test_decode_c44_0 : [
    (0x1000033700, (.waitf 1 19 : Instr)),
    (0x2000000700, Instr.reconv),
    (0x3000000700, Instr.regang),
    (0x4000000A00, (.exit 10 : Instr)),
    (0x50000C8700, (.yield 200 : Instr)),
    (0x600000B700, (.bara 11 : Instr)),
    (0x700000B700, (.barw 11 : Instr)),
    (0x800000B700, (.baraw 11 : Instr)),
    (0x9000015700, (.ret 21 : Instr)),
    (0xA0000C8700, (.sleep 200 : Instr)),
    (0xB0000C8700, (.bkpt 200 : Instr)),
    (0xC00002D700, (.eret 45 : Instr)),
    (0xD0000C8700, (.trap 200 : Instr)),
    (0x10FFFFF07A8, (.brfZ 21 0xFFFFF0 : Instr)),
    (0x11FFFFF07A8, (.brfNz 21 0xFFFFF0 : Instr)),
    (0x12FFFFF07A8, (.brfErr 21 0xFFFFF0 : Instr)),
    (0x13800001300, (.bra 3 0x800001 : Instr)),
    (0x1480000130D, (.brap 3 1 5 0x800001 : Instr)),
    (0x152680043AD, (.jmpt 3 0x26 0x8004 0xAD : Instr)),
    (0x168000013A8, (.call 3 21 0x800001 : Instr)),
    (0x17000001700, Instr.sbarA),
    (0x17000002700, Instr.sbarW),
    (0x17000003700, Instr.sbarAw),
    (0x1800100B700, (.barset 16 11 : Instr)),
    (0x19812345700, (.sysc 0x812345 : Instr)),
    (0x1AA80010700, (.mfs 21 0x0010 : Instr)),
    (0x1BA80010700, (.mts 21 0x0010 : Instr))].all (fun p => SlotCode.of (decodeC44 p.1) == .op p.2) = true := by decide +kernel

/-- Words of the C44 slot written from its encoding tables. -/
theorem test_decode_c44_1 : [
    (0x1C0005A3700, (.mpset 5 0xA3 : Instr)),
    (0x1DA0000B700, (.winset 20 11 : Instr)),
    (0x1EA240007A8, (.patset 20 9 21 : Instr)),
    (0x1FA240007A8, (.portcfg 20 9 21 : Instr)),
    (0x20A240007A8, (.qcreate 20 9 21 : Instr)),
    (0x210240007A8, (.qdestroy 0 9 21 : Instr)),
    (0x22AA0000798, (.limg 21 2 19 : Instr)),
    (0x23AA0000798, (.simg 21 2 19 : Instr))].all (fun p => SlotCode.of (decodeC44 p.1) == .op p.2) = true := by decide +kernel

/-! ### Ill-formed operations, one for each check of WellFormed -/

/-- A V-slot operation in V76 with a modifier word. -/
def vLong (d a b : BitVec 8) (imm : BitVec 32) : VOp := ⟨true, d, a, b, 7, 0, imm⟩
/-- A V-slot operation in V36. -/
def vShort (d a b : BitVec 8) : VOp := ⟨false, d, a, b, 7, 0, 0⟩

/-- R202, R220: guard 15; fields of V76 in a V36 word; field C of an operation with two sources. -/
theorem refused_v_word :
    [(Instr.iadd ⟨false, 4, 5, 6, 0xF, 0, 0⟩), .iadd ⟨false, 4, 5, 6, 7, 1, 0⟩, .iadd ⟨false, 4, 5, 6, 7, 0, 1⟩,
     .iadd ⟨true, 4, 5, 6, 7, 1, 0⟩].all (fun i => !i.wellFormed) = true := by decide +kernel

/-- R221, R233: modifiers an operation does not take, modes above 4, reserved bits. -/
theorem refused_v_modifiers :
    [(Instr.iadd (vLong 4 5 6 1)), .fadd (vLong 4 5 6 5), .fadd (vLong 4 5 6 8), .fadd (vLong 4 5 6 0x10), .fadd (vLong 4 5 6 0x20),
     .fmin (vLong 4 5 6 1), .frsq (vLong 4 5 0 1), .cvt (vLong 4 5 0x88 1), .cvt (vLong 4 5 0x98 8), .cvt (vLong 4 5 0xB8 0x10)].all
      (fun i => !i.wellFormed) = true := by decide +kernel

/-- R207, R231, R232, R235: destinations and sources outside the classes of the form. -/
theorem refused_v_selectors :
    [(Instr.iadd (vShort 0xA0 5 6)), .iadd (vShort 4 0xAF 6), .iadd (vShort 4 5 0xFF), .iadd (vShort 0x85 5 0x87),
     .iadd (vShort 0x85 0x86 0xA0), .iadd ⟨false, 0x85, 0x86, 0x87, 0, 0, 0⟩, .mov (vShort 4 5 1), .imad (vShort 0xFF 5 6),
     .imad ⟨true, 4, 5, 6, 7, 0xFF, 0⟩, .imad ⟨true, 0x85, 0x86, 0x87, 7, 5, 0⟩].all (fun i => !i.wellFormed) = true := by decide +kernel

/-- R237, R240, R241: IADD64 pairs, MOVI's fields, a predicate as destination. -/
theorem refused_v_integer :
    [(Instr.iadd64 (vShort 5 6 8)), .iadd64 (vShort 4 7 8), .iadd64 (vShort 4 6 9), .iadd64 (vShort 4 0xF0 8), .movi (vShort 4 0 0xFF),
     .movi (vLong 4 1 0xFF 0), .movi (vLong 4 0 0 0), .movi ⟨true, 0x85, 0, 0xFF, 0, 0, 0⟩, .icmpEq (vShort 7 5 6),
     .icmpEq ⟨false, 3, 0x85, 0x86, 0, 0, 0⟩, .sel (vShort 0x85 5 6)].all (fun i => !i.wellFormed) = true := by decide +kernel

/-- R242 to R260: float, conversion, cross-lane and chute operations. -/
theorem refused_v_others :
    [(Instr.fadd (vShort 0x85 5 6)), .fcmpEq (vShort 7 5 6), .frcp (vShort 4 5 1), .cvt (vShort 4 5 0x83), .cvt (vShort 4 5 0xD8),
     .pack (vShort 4 9 0x98), .pack (vShort 4 8 0x28), .pack (vShort 4 8 0x99), .voteAll (vShort 7 5 0), .voteAll (vShort 3 8 0),
     .pand (vShort 3 5 8), .pnot (vShort 3 5 1), .movs (vShort 4 5 0xC3), .movs (vShort 0x85 5 6), .movs ⟨false, 0x85, 5, 0xC3, 0, 0, 0⟩,
     .chpop (vShort 4 8 0), .lredAnd (vLong 4 5 0 1), .lredAddF32 (vLong 4 5 0 5)].all (fun i => !i.wellFormed) = true := by decide +kernel

/-- R263 to R293: groups, offsets, uniform operations under a lane mask, reserved fields of the M slot. -/
theorem refused_m :
    [(Instr.ldB64 ⟨5, 3, 7, 0, 2, 4, 0⟩), .ldB128 ⟨6, 3, 7, 0, 2, 4, 0⟩, .ldB32 ⟨4, 3, 0xF0, 0, 2, 4, 0⟩, .ldB32S ⟨4, 3, 0x85, 0, 2, 4, 0⟩,
     .ldB32S ⟨0x84, 3, 7, 0, 2, 4, 0⟩, .ldB32S ⟨0x84, 3, 0x85, 0, 2, 4, 1⟩, .stB64 ⟨5, 3, 7, 0, 2, 4, 0⟩, .stB32 ⟨0xFF, 3, 7, 0, 2, 4, 0⟩,
     .ldx ⟨4, 16, 7, 0, 2, 4, 0⟩, .stx ⟨4, 16, 7, 0, 2, 4, 0⟩, .ldc ⟨16, 3, 0x85, 0, 2, 4, 0⟩, .ldc ⟨4, 3, 0x85, 1, 2, 4, 0⟩,
     .lblk ⟨128, 3, 0x85, 0, 2, 4, 0⟩, .blkwb ⟨1, 3, 0x85, 0, 2, 4, 0⟩, .pref ⟨2, 3, 7, 0, 2, 4, 0⟩].all (fun i => !i.wellFormed) = true := by
  decide +kernel

/-- R277 to R293: atomics' operations, tiles, chutes, order and queue operations, STG. -/
theorem refused_m_others :
    [(Instr.atomN32 ⟨4, 3, 7, 7, 2, 4, 0⟩), .atomF32 ⟨4, 3, 7, 3, 2, 4, 0⟩, .redmN32 ⟨4, 3, 7, 6, 2, 4, 0⟩, .redmF32 ⟨4, 3, 7, 3, 2, 4, 0⟩,
     .atomN64 ⟨5, 3, 7, 0, 2, 4, 0⟩, .atomcasB32 ⟨4, 3, 7, 1, 2, 4, 0⟩, .accstAdd ⟨4, 3, 7, 1, 2, 4, 0⟩, .accld ⟨0x84, 3, 7, 0, 2, 4, 0⟩,
     .stch ⟨8, 3, 7, 0, 2, 4, 0⟩, .mark ⟨0, 1, 0, 0, 2, 4, 0⟩, .fence ⟨0, 0, 0, 7, 2, 4, 0⟩, .send ⟨4, 3, 0x85, 0, 2, 4, 0⟩,
     .qpush ⟨0x84, 3, 0x85, 0, 2, 4, 0⟩, .qpop ⟨0x84, 3, 0x85, 0, 2, 4, 0⟩, .qtry ⟨0xE0, 3, 0x85, 0, 2, 4, 0⟩,
     .stgB64 ⟨5, 3, 7, 0, 2, 4, 0⟩].all (fun i => !i.wellFormed) = true := by decide +kernel

/-- R301, R309 to R320: messages of copies, formats of WBLD, MMA, MLDT and MDRAIN. -/
theorem refused_x :
    [(Instr.cpyt ⟨3, 2, 4, 5, 6, 7, 0, 0, 0, 2⟩), .cpyt ⟨3, 2, 4, 5, 6, 7, 0, 0, 1, 3⟩, .cpyg ⟨3, 2, 4, 5, 6, 7, 8, 0, 1, 3, 0⟩,
     .cpymc ⟨3, 2, 4, 5, 6, 1, 0, 0, 1, 3⟩, .cpych ⟨3, 2, 4, 5, 1, 0, 0, 0, 0, 0, 2⟩, .wbld ⟨3, 2, 4, 0, 0, 0, 5, 0, 0, 0⟩,
     .wbld ⟨3, 2, 4, 0, 0, 1, 0, 0, 0, 0⟩, .wbld ⟨3, 2, 4, 0, 0, 1, 4, 0, 0, 0⟩, .wbld ⟨3, 2, 4, 0, 0, 0, 0, 0, 0, 2⟩,
     .mma ⟨3, 0, 0, 6, 0, 0, 0, 0, 4, 0⟩, .mmas ⟨3, 0, 0, 6, 0, 0, 0, 0, 0, 4⟩, .mldt ⟨3, 6, 0, 0, 3, 0, 0⟩,
     .mdrain ⟨3, 0, 0, 0, 5, 0, 0, 0, 0, 0⟩, .mdrain ⟨3, 0, 0, 0, 0, 4, 0, 0, 0, 0⟩, .mdrain ⟨3, 0, 0, 0, 0, 0, 1, 0, 0, 0⟩,
     .mdrain ⟨3, 0, 0, 0, 0, 0, 0, 1, 0, 0⟩].all (fun i => !i.wellFormed) = true := by decide +kernel

/-- R202, R328, R343 to R355: guards, barriers, system registers and records of the C slot. -/
theorem refused_c :
    [(Instr.exit 15), .bra 15 1, .brap 15 0 1 1, .jmpt 15 5 1 1, .jmpt 7 0xFF 1 1, .call 15 3 1, .barset 17 0, .mfs 3 0x22, .mts 3 0x381,
     .mts 3 0x28, .mpset 0 1, .mpset 1 0x38, .winset 3 0, .patset 2 3 4, .portcfg 1 3 4, .qcreate 2 3 4, .qdestroy 4 3 4, .limg 3 3 4,
     .simg 3 3 4].all (fun i => !i.wellFormed) = true := by decide +kernel

/-! ### Premises of the statements: small states -/

/-- A gang of eight slices at one address, one operation outstanding but one short of the limit on flag 3. -/
def gang8 : Gang :=
  { regs := 128, nsl := 8, slices := List.replicate 8 { pc := 0x1000 }, parts := [(0, {})], flags := [(3, { count := 62 })] }
/-- Its crew, with 4 granules, 16 tiles and 16 weight slots. -/
def crew1 : Crew := { ctx := 1, tiles := 16, wslots := 16, granules := [0, 1, 2, 3], gen := 1 }
/-- A state in which the gang in slot `n` of core 0 issues. -/
def with_ (n : Nat) (g : Gang) (w : Crew) (c : Core) : State :=
  { State.reset with
    cores := [(0, { c with gangs := [(n, g)], crews := [(g.cslot, w)] })]
    cur := { core := 0, slot := n, lead := 0, slices := List.range 8, pc := 0x1000 }
    clock := 100 }
def st : State := with_ 0 gang8 crew1 {}
/-- Its registers: predicate 0 holds in some lanes. -/
def stPred (m : BitVec 32) : State := with_ 0 { gang8 with p := [(0, m)] } crew1 {}

/-- Candidate operands of V-slot operations. -/
def vCands : List VOp :=
  [vShort 0x14 5 6, vShort 0x14 5 0, vShort 0x7F 0 0x7E, vLong 0x14 0 0xFF 9, vShort 0xFF 5 6, vShort 3 5 6, vShort 6 5 0, vLong 0x14 5 0x82 4,
   vLong 4 8 0x46 0, vShort 0x14 5 0x82, vShort 0x85 0x86 0x87, vShort 0x85 0x86 0, vLong 0x85 0 0xFF 9]

/-- Every row of a table is legal with some operands that meet `p`. -/
def vServed (rows : List (VOp → Instr)) (p : VOp → Bool) : Bool :=
  rows.all (fun f => vCands.any (fun o => opLegal (f o) st.me.regs && p o))

theorem witness_IntegerLaneResults : vServed (intRows.map (·.op)) (fun o => !selS o.d) = true := by decide +kernel
theorem witness_IntegerScalarResults : vServed (intRows.map (·.op)) (fun o => selS o.d) = true := by decide +kernel
theorem witness_AddSubResults :
    vServed [.iadd, .isub] (fun o => !selS o.d) = true ∧ vServed [.iadd, .isub] (fun o => selS o.d) = true := by decide +kernel
theorem witness_Iadd64Result : opLegal (.iadd64 (vShort 0x14 6 8)) st.me.regs = true ∧ opLegal (.iadd64 (vShort 0xFF 6 8)) st.me.regs = true ∧
    opLegal (.iadd64 (vLong 0x7E 6 0xFF 9)) st.me.regs = true := by decide +kernel
theorem witness_SelResult : opLegal (.sel ⟨false, 0x14, 5, 6, 0, 0, 0⟩) st.me.regs = true ∧ selS (0x14 : BitVec 8) = false ∧
    opLegal (.sel ⟨false, 0x85, 0x86, 0x87, 0, 0, 0⟩) st.me.regs = true := by decide +kernel
theorem witness_PredicateResults :
    vServed (icmpRows.map (·.1)) (fun o => !o.icmpScalar) = true ∧ vServed (predRows.map (·.1)) (fun _ => true) = true ∧
      (icmpRows.all fun q => opLegal (q.1 (vShort 6 0x86 0x87)) st.me.regs && (vShort 6 0x86 0x87).icmpScalar) = true := by decide +kernel
theorem witness_FloatCompareResults : vServed (fcmpRows.map (·.1)) (fun _ => true) = true := by decide +kernel
/-- A NaN, and each order of two numbers: 1.0, 2.0, and the two zeros. -/
theorem witness_FloatCompareOrder : Alu.fnan 0x7FC00000 0 = true ∧ Alu.fnan 0x3F800000 0x40000000 = false ∧
    Alu.flt 0x3F800000 0x40000000 = true ∧ Alu.feq 0 0x80000000 = true ∧ Alu.flt 0x40000000 0x3F800000 = false := by decide +kernel
theorem witness_FloatResults : vServed (f32Rows.map (·.op)) (fun _ => true) = true ∧
    opLegal (.fadd (vLong 0x14 5 6 4)) st.me.regs = true ∧ (vLong 0x14 5 6 4).mode = 4 := by decide +kernel
theorem witness_NarrowFloatResults : vServed (narrowRows.map (·.op)) (fun _ => true) = true := by decide +kernel
theorem witness_PackResults : opLegal (.pack (vShort 4 8 0x48)) st.me.regs = true ∧ opLegal (.pack (vShort 4 8 0x98)) st.me.regs = true ∧
    opLegal (.k4enc (vShort 4 5 6)) st.me.regs = true ∧ tyWidth 4 = 8 ∧ tyWidth 9 = 16 := by decide +kernel
theorem witness_ShuffleResults : vServed (shflRows.map (·.1)) (fun _ => true) = true := by decide +kernel
/-- The sum with and without the draws of RS. -/
theorem witness_ReductionResults : vServed (lredRows.map (·.1)) (fun _ => true) = true ∧
    opLegal (.lredAddF32 ⟨false, 0x14, 5, 0, 0, 0, 0⟩) 128 = true ∧ opLegal (.lredAddF32 (vLong 0x14 5 0 4)) 128 = true ∧
    (vLong 0x14 5 0 4).mode = 4 := by decide +kernel
/-- No lane gives +0, a lone lane its value, and the lanes 0, 1 and 31 holding 1.0 give 3.0. -/
theorem test_sum_tree : let s (m : W32) := { stPred m with cur := { (stPred m).cur with slices := List.range 8 } }
    let x (m : W32) : Nat := (sumTree 0 [] ((s m).vLanes ⟨false, 0x14, 5, 0, 0, 0, 0⟩) (fun _ => 0x3F800000)).1
    x 0 = 0 ∧ x 0x80000000 = 0x3F800000 ∧ x 0x80000003 = 0x40400000 := by decide +kernel
theorem witness_VoteResults : opLegal (.voteAll (vShort 3 5 0)) st.me.regs = true ∧ opLegal (.voteAny (vShort 6 7 0)) st.me.regs = true ∧
    opLegal (.voteBal (vShort 0x14 5 0)) st.me.regs = true ∧ opLegal (.movs (vShort 0x85 5 0xC3)) st.me.regs = true ∧
    opLegal (.movs (vShort 0x9F 5 0x86)) st.me.regs = true := by decide +kernel
/-- The largest word of each empty slot that is still opcode 0. -/
theorem witness_NopChangesNothing : decodeV36 (2 ^ 28 - 1) = .ok (.nopSlot .v36) ∧ decodeC12 (2 ^ 8 - 1) = .ok (.nopSlot .c12) := by
  exact ⟨rfl, rfl⟩
/-- A chute with one entry of one unit, held by crew 0. -/
def stChute (us : List (List Byte)) : State :=
  with_ 0 gang8 crew1 { chutes := [(2, { holder := some 0, entries := [{ units := us, ready := true }] })] }
theorem witness_ChpopResult : let s := stChute [List.replicate 128 1]
    opLegal (.chpop (vShort 0x14 2 0)) s.me.regs = true ∧ (s.chute 2).holder = some s.me.cslot ∧
      (s.chute 2).entries = [{ units := [List.replicate 128 1], ready := true }] := by decide +kernel

/-- An M-slot operation on flag 3, with a register group from v4. -/
def mOp (data ofs : BitVec 8) : MOp := ⟨data, 3, ofs, 0, 2, 3, 0⟩
/-- Every row is legal with these operands, with room on its flag. -/
def mServed (rows : List (MOp → Instr)) (o : MOp) : Bool :=
  rows.all (fun f => opLegal (f o) st.me.regs) && decide ((st.me.flag o.flag.toNat).count < 63)

theorem witness_LoadStoreIssue : mServed (loadRows.map (·.op)) (mOp 4 7) = true ∧ mServed (storeRows.map (·.op)) (mOp 124 7) = true := by
  decide +kernel
theorem witness_AtomicIssue : mServed ((atomRows ++ redmRows ++ casRows).map (·.op)) (mOp 4 7) = true ∧
    ((atomRows ++ redmRows ++ casRows).all fun q => (st.mLanes (mOp 4 7)).all fun l =>
      decide ((st.baseReg (mOp 4 7) + st.ofsLane 7 l) % 2 ^ 64 % q.bytes = 0)) = true := by decide +kernel
theorem witness_ScalarLoadIssue : MReady (.ldB32S (mOp 0x9F 0x85)) (mOp 0x9F 0x85) st ∧ MReady (.ldB64S (mOp 0x80 0x85)) (mOp 0x80 0x85) st ∧
    MReady (.ldc (mOp 15 0x85)) (mOp 15 0x85) st ∧ (st.baseReg (mOp 15 0x85) + st.ofsScalar 0x85) % 32 = 0 :=
  ⟨⟨by decide +kernel, by decide +kernel⟩, ⟨by decide +kernel, by decide +kernel⟩, ⟨by decide +kernel, by decide +kernel⟩, by decide +kernel⟩

/-- Descriptor 3 with its control word. -/
def stDesc (ctl : Nat) : State :=
  with_ 0 { gang8 with desc := [(12, 0x2000), (13, 0x100), (14, 4), (15, BitVec.ofNat 64 ctl)] } crew1 {}
/-- Mode 0; mode 2 with elements in bounds; mode 1 with none, of 8 bytes; mode 3 in bounds. -/
theorem witness_DescriptorIssue :
    (∀ b : Bool, MReady (if b then .stx (mOp 4 7) else .ldx (mOp 4 7)) (mOp 4 7) (stDesc 0)) ∧
      (stDesc 0).dUsable (mOp 4 7) ∧ (stDesc (2 * 2 ^ 61 + 2 ^ 60 + 16)).dUsable (mOp 4 7) ∧
      (stDesc (2 * 2 ^ 61 + 2 ^ 60 + 16)).dInside 3 0 ∧ (stDesc (2 ^ 61 + 3 * 2 ^ 59)).dUsable (mOp 4 7) ∧
      ¬ (stDesc (2 ^ 61 + 3 * 2 ^ 59)).dInside 3 0 ∧ (stDesc (3 * 2 ^ 61 + 16)).dUsable (mOp 4 7) := by
  refine ⟨fun b => by cases b <;> exact ⟨by decide +kernel, by decide +kernel⟩, ?_⟩
  unfold State.dUsable State.dInside
  dsimp only
  refine ⟨?_, ?_, ?_, ?_, ?_, ?_⟩ <;> decide +kernel

/-- The last tile of the allocation, own and, for ACCLD, with PEER clear. -/
def stTile : State := with_ 0 { gang8 with s := [(3, 15)] } crew1 {}
theorem witness_AccumulatorIssue :
    (∀ b : Bool, MReady (if b then .accstOvw (mOp 4 7) else .accstAdd (mOp 4 7)) (mOp 4 7) stTile) ∧
      MReady (.accld (mOp 4 7)) (mOp 4 7) stTile ∧ stTile.tilesInside (mOp 4 7) ∧ (stTile.baseReg (mOp 4 7)).testBit 15 = false := by
  refine ⟨fun b => by cases b <;> exact ⟨by decide +kernel, by decide +kernel⟩, ⟨by decide +kernel, by decide +kernel⟩, ?_⟩
  unfold State.tilesInside
  decide +kernel
/-- A unit that is its entry's last, and one before another. -/
theorem witness_ChuteStoreIssue : ∀ us ∈ [[List.replicate 128 (1 : Byte)], [List.replicate 128 1, List.replicate 128 2]],
    let s := stChute us
    MReady (.stch (mOp 2 7)) (mOp 2 7) s ∧ (s.chute 2).holder = some s.me.cslot ∧ (s.chute 2).entries = [{ units := us, ready := true }] := by
  unfold MReady
  decide +kernel
/-- Group 5 open, and open and failed. -/
def stGroup (failed : Bool) (base : W64) : State :=
  { with_ 0 { gang8 with s := [(3, base)] } crew1 { groups := [(1024 + 5, 1)] } with groups := [(1024 + 5, { opened := true, failed := failed })] }
theorem witness_GroupStoreIssue : ∀ failed : Bool, ∀ wide : Bool,
    let s := stGroup failed (BitVec.ofNat 64 (5 * 2 ^ 54 + 0x1000))
    MReady (if wide then .stgB64 (mOp 4 7) else .stgB32 (mOp 4 7)) (mOp 4 7) s ∧ s.groupCopy s.cur.core s.myCrew.ctx (s.groupNamed (mOp 4 7)) = 1 ∧
      (∀ l ∈ s.mLanes (mOp 4 7), s.groupAddr (mOp 4 7) l % 8 = 0) ∧ (mget {} s.groups (1024 * s.myCrew.ctx + s.groupNamed (mOp 4 7))).failed = failed ∧
      s.groupAddr (mOp 4 7) 0 < 2 ^ 54 ∧ s.split s.myCrew.ctx = false ∧
      (mget {} s.groups (1024 * s.myCrew.ctx + s.groupNamed (mOp 4 7))).opened = true ∧
      (mget {} ({ s with groups := [] } : State).groups (1024 * s.myCrew.ctx + s.groupNamed (mOp 4 7))).opened = false := by
  unfold MReady
  decide +kernel
theorem witness_StashControlIssue : ∀ f ∈ [Instr.lblk, .blkwb, .blkdrop], MReady (f (mOp 0 0x85)) (mOp 0 0x85) st ∧
    MReady (.pref (mOp 1 7)) (mOp 1 7) st := by
  unfold MReady
  intro f h
  simp only [List.mem_cons, List.not_mem_nil, or_false] at h
  obtain rfl | rfl | rfl := h <;> decide +kernel
/-- With accesses in progress, and without. -/
def stBusy : State := with_ 0 { gang8 with loadQ := [4, 7], storeQ := [7, 9] } crew1 {}
theorem witness_MarkFenceIssue : ∀ s ∈ [st, stBusy], MReady (.fence ⟨0, 0, 0, 6, 2, 3, 0⟩) ⟨0, 0, 0, 6, 2, 3, 0⟩ s ∧
    MReady (.mark ⟨0, 0, 0, 0, 2, 3, 0⟩) ⟨0, 0, 0, 0, 2, 3, 0⟩ s := by
  unfold MReady
  decide +kernel
theorem witness_QueueIssue : MReady (.send (mOp 0x9F 0x85)) (mOp 0x9F 0x85) st ∧ MReady (.qpush (mOp 0x98 0x85)) (mOp 0x98 0x85) st ∧
    MReady (.qpop (mOp 0x80 0x85)) (mOp 0x80 0x85) st ∧ MReady (.qtry (mOp 0xD8 0x85)) (mOp 0xD8 0x85) st := by
  unfold MReady
  decide +kernel
/-- An odd group, a flag at 63, lanes off their width, a tile beyond the allocation, an element out of bounds in mode 3. -/
def stFull : State := with_ 0 { gang8 with flags := [(3, { count := 63 })] } crew1 {}
def stOff : State := with_ 0 { gang8 with s := [(3, 1)] } crew1 {}
theorem witness_MemoryTraps :
    ((loadRows ++ storeRows ++ atomRows ++ redmRows ++ casRows).all fun q => !opLegal (q.op (mOp 0xFF 7)) stFull.me.regs) = true ∧
      ((loadRows ++ storeRows ++ atomRows ++ redmRows ++ casRows).all fun q => opLegal (q.op (mOp 4 7)) stFull.me.regs &&
        decide (63 ≤ (stFull.me.flag 3).count)) = true ∧
      ((atomRows ++ redmRows ++ casRows).all fun q => opLegal (q.op (mOp 4 7)) stOff.me.regs &&
        !(stOff.mLanes (mOp 4 7)).all (fun l => (stOff.baseReg (mOp 4 7) + stOff.ofsLane 7 l) % 2 ^ 64 % q.bytes == 0)) = true := by
  decide +kernel
theorem witness_MemoryTraps_tiles : let s := with_ 0 { gang8 with s := [(3, 16)] } crew1 {}
    MReady (.accld (mOp 4 7)) (mOp 4 7) s ∧ MReady (.accstAdd (mOp 4 7)) (mOp 4 7) s ∧ MReady (.accstOvw (mOp 4 7)) (mOp 4 7) s ∧
      ¬ s.tilesInside (mOp 4 7) := by
  unfold MReady State.tilesInside
  decide +kernel
/-- A reserved mode, a reserved field, and 8 bytes for an odd register. -/
theorem witness_MemoryTraps_descriptor : ∀ x ∈ [(4 * 2 ^ 61, 4), (2 ^ 32, 4), (3 * 2 ^ 59, 5)], let s := stDesc x.1
    let o := mOp (BitVec.ofNat 8 x.2) 7
    MReady (.ldx o) o s ∧ MReady (.stx o) o s ∧ (4 ≤ s.dMode 3 ∨ s.dReserved 3 ≠ 0 ∨ (s.dWidth 3 = 8 ∧ selS o.data = false ∧
      ¬ (selV o.data = true ∧ o.data.toNat % 2 = 0 ∧ o.data.toNat + 1 < s.me.regs))) := by
  unfold MReady
  decide +kernel
theorem witness_MemoryTraps_bounds : let s := stDesc (3 * 2 ^ 61)
    MReady (.ldx (mOp 4 7)) (mOp 4 7) s ∧ MReady (.stx (mOp 4 7)) (mOp 4 7) s ∧ s.dMode 3 = 3 ∧ s.dReserved 3 = 0 ∧ s.dWidth 3 ≠ 8 ∧
      ¬ s.dUsable (mOp 4 7) := by
  unfold MReady State.dUsable State.dInside
  dsimp only
  decide +kernel

/-- An issuing gang with values in scalar registers 4 to 7, in a core. -/
def stX (s7 : W64) (c : Core) : State := with_ 0 { gang8 with s := [(4, 0x100), (5, 0x200), (6, 0x10), (7, s7)] } crew1 c
/-- The own entry free; the own and all but the last shared one taken. -/
def stShared : State := stX 8 { skid := (List.range 32).map (fun i => (if i = 0 then 0 else 63 + i, {})) }
theorem witness_CopyIssue : (stX 8 {}).skidEntry 0 ∧ stShared.skidEntry 95 ∧ ∀ s ∈ [stX 8 {}, stX 0 {}, stShared],
    XReady (.cpy 3 2 4 5 7 0) 3 s ∧ XReady (.cpyfill 3 2 4 5 7 0) 3 s ∧ XReady (.cpyt ⟨3, 2, 4, 5, 6, 7, 0, 0, 0, 0⟩) 3 s ∧
      XReady (.cpyg ⟨3, 2, 4, 5, 6, 7, 8, 0, 1, 30, 0⟩) 3 s := by
  unfold State.skidEntry XReady
  refine ⟨?_, ?_, ?_⟩ <;> decide +kernel
/-- A stand of two crews, and a crew alone: present and absent positions; two ready entries; the last weight slots. -/
def stStand : State :=
  let s := with_ 0 gang8 { crew1 with standN := 2, stand := 4 } { chutes := [(1, { holder := some 0, entries := [{ ready := true }, { ready := true }] })] }
  { s with cores := s.cores ++ [(1, { crews := [(2, { crew1 with standN := 2, stand := 4, spos := 1, granules := [] })] })] }
theorem witness_WideCopyIssue : stStand.skidEntry 0 ∧ XReady (.cpymc ⟨3, 2, 4, 5, 7, 7, 0, 0, 0, 0⟩) 3 stStand ∧
    stStand.countedX.standPeer 0 0 0 = some (0, 0) ∧ stStand.countedX.standPeer 0 0 1 = some (1, 2) ∧ stStand.countedX.standPeer 0 0 2 = none ∧
    XReady (.cpych ⟨3, 2, 4, 6, 1, 1, 0, 0, 0, 0, 0⟩) 3 stStand ∧ (stStand.chute 1).holder = some stStand.me.cslot ∧
    (stStand.chute 1).entries.length = 2 ∧ (∀ x ∈ (stStand.chute 1).entries.take 2, x.ready = true) ∧
    XReady (.wbld ⟨3, 2, 4, 12, 3, 1, 1, 0, 0, 0⟩) 3 stStand ∧ 12 + (3 + 1) = stStand.myCrew.wslots := by
  unfold State.skidEntry XReady
  refine ⟨?_, ?_, ?_, ?_, ?_, ?_, ?_, ?_, ?_, ?_, ?_⟩ <;> decide +kernel
/-- A crew whose context is in split-path mode: the top bits of an address name its path. -/
def stSplit : State := { stStand with ctxs := [(1, { live := true, cxcfg := 0x8000000000000000 })] }
/-- Failing lookups, forbidden paths, bytes beyond the path, HBM, and each case of a scratchpad. -/
theorem witness_CopySide : let at_ (p x : Nat) : Nat := p * 2 ^ 54 + x
    let look (a : Nat) (d : Bool) : Look := stSplit.look 0 stSplit.myCrew.ctx a d
    (look (2 ^ 56) false).cause = 0x06 ∧ (look (at_ 7 0 + 2 ^ 64 - 2 ^ 57) false).cause = 0x03 ∧
      (stSplit.windowReach 0 1 (at_ 0 0x1000) (look (at_ 0 0x1000) false)).1 = -0x1000 ∧ (look (at_ 0 0x1000) false).path = 0 ∧
      (look (at_ 1 0) true).path = 1 ∧ (look (at_ 1 0) true).cause = 0 ∧
      (look (at_ 2 (2 ^ 51)) false).path = 2 ∧ (look (at_ 2 (2 ^ 51)) false).pos = 1 ∧ stSplit.standPeer 0 0 1 = some (1, 2) ∧
      (look (at_ 2 (7 * 2 ^ 51)) false).pos = 7 ∧ stSplit.standPeer 0 0 7 = none ∧ (stSplit.crew 1 2).granules = [] ∧
      (stSplit.crew 0 (stSplit.ownSlot 0 0)).granules.length = 4 := by decide +kernel

/-- The mill is the issuing gang's; an MREADY of it is queued. -/
def stMill (s6 : W64) (tag : BitVec 16) : State :=
  with_ 0 { gang8 with s := [(6, s6)], storeQ := [9] } { crew1 with wstag := [(14, tag)] }
    { mill := { owner := some 0, closed := 0xFFFF, queue := [{ op := .mready 3, id := 5 }] } }
/-- The sizes of the matrices of an MMA at the end of the allocation. -/
theorem witness_MmaExecutes : MmaExecutes (stMill 0x10 0) ⟨3, 15, 15, 6, 0, 0, 0, 0, 0, 0⟩ false ∧
    MmaExecutes (stMill 0x10 0x1000) ⟨3, 14, 14, 6, 0, 1, 0, 3, 2, 2⟩ true := by
  unfold MmaExecutes State.ownsMill State.millFits millAligned State.slotsSparse
  constructor
  · refine ⟨?_, ?_, ?_, ?_, ?_, ?_, ⟨16, 16, ?_⟩, ?_⟩ <;> decide +kernel
  · refine ⟨?_, ?_, ?_, ?_, ?_, ?_, ⟨64, 64, ?_⟩, ?_⟩ <;> decide +kernel
theorem witness_MillIssue : let s := stMill 0x10 0
    XReady (.mma ⟨3, 15, 15, 6, 0, 0, 0, 0, 0, 0⟩) 3 s ∧ XReady (.mmas ⟨3, 14, 14, 6, 0, 1, 0, 3, 2, 2⟩) 3 s ∧ XReady (.mzero 3 0 15) 3 s ∧
      s.myCrew.tiles = 0 + 15 + 1 ∧ XReady (.mldt ⟨3, 6, 14, 1, 0, 1, 0⟩) 3 s ∧ s.millFits (s.xReg 6 0) 32 64 ∧ millAligned (s.xReg 6 0) ∧
      XReady (.mdrain ⟨3, 14, 1, 2, 4, 3, 0, 3, 63, 1⟩) 3 s ∧ (s.chute 2).holder = none ∧ XReady (.mfence 3) 3 s ∧ s.ownsMill ∧ XReady (.mready 3) 3 s := by
  unfold XReady State.millFits millAligned State.ownsMill
  intro s
  refine ⟨?_, ?_, ?_, ?_, ?_, ?_, ?_, ?_, ?_, ?_, ?_, ?_⟩ <;> decide +kernel
theorem witness_MillOwnership : XReady (.macq 3) 3 st ∧ XReady (.mrel 3) 3 st ∧ XReady (.mrel 3) 3 (stMill 0 0) ∧ XReady (.mstat 3 31) 3 st ∧
    (∀ w ∈ st.mill.waiters, w.1 ≠ st.cur.slot) := by
  unfold XReady
  refine ⟨?_, ?_, ?_, ?_, ?_⟩ <;> decide +kernel
/-- Group 1023 not open, and group 5 open. -/
theorem witness_GroupIssue : let s := stGroup false 0
    XReady (.gopen 3 1023) 3 s ∧ s.groupCopy 0 s.myCrew.ctx 1023 = 0 ∧ XReady (.gabort 3 5) 3 s ∧ XReady (.gcommit 3 5) 3 s ∧
      s.groupCopy 0 s.myCrew.ctx 5 = 1 ∧ XReady (.gquery 3 5 31) 3 s := by
  unfold XReady
  decide +kernel
/-- A flag at 63; no owner; tiles, alignment, pair and shape that are not permitted; a group already open. -/
theorem witness_EngineTraps :
    ((stFull.me.flag 3).count = 63 ∧ opLegal (.cpy 3 2 4 5 7 0) stFull.me.regs = true) ∧ (XReady (.mfence 3) 3 st ∧ ¬ st.ownsMill) ∧
      (XReady (.mzero 3 0 16) 3 (stMill 0 0) ∧ (stMill 0 0).myCrew.tiles < 0 + 16 + 1) ∧
      (XReady (.gopen 3 5) 3 (stGroup false 0) ∧ (stGroup false 0).groupCopy 0 (stGroup false 0).myCrew.ctx 5 ≠ 0) := by
  unfold XReady State.ownsMill
  refine ⟨?_, ?_, ?_, ?_⟩ <;> decide +kernel
theorem witness_EngineTraps_mma :
    (XReady (.mma ⟨3, 0, 0, 6, 0, 0, 0, 0, 0, 0⟩) 3 st ∧ ¬ st.ownsMill) ∧
      (XReady (.mma ⟨3, 0, 0, 6, 0, 3, 0, 0, 0, 0⟩) 3 (stMill 0 0) ∧ (stMill 0 0).ownsMill) ∧
      (XReady (.mma ⟨3, 16, 0, 6, 0, 0, 0, 0, 0, 0⟩) 3 (stMill 0 0) ∧ (stMill 0 0).myCrew.tiles < 16 + 2 ^ 0 * 2 ^ 0) ∧
      (XReady (.mma ⟨3, 15, 15, 6, 0, 0, 0, 0, 0, 0⟩) 3 (stMill 8 0) ∧ ¬ millAligned ((stMill 8 0).xReg 6 0) ∧
        (stMill 8 0).millFits ((stMill 8 0).xReg 6 0) 16 32) ∧
      (XReady (.mma ⟨3, 15, 15, 6, 0, 0, 0, 0, 0, 2⟩) 3 (stMill 0 0) ∧
        millPair ((stMill 0 0).mmaFmts ⟨3, 15, 15, 6, 0, 0, 0, 0, 0, 2⟩).1 ((stMill 0 0).mmaFmts ⟨3, 15, 15, 6, 0, 0, 0, 0, 0, 2⟩).2.1 false = none) := by
  unfold XReady State.ownsMill millAligned State.millFits
  refine ⟨?_, ?_, ?_, ?_, ?_⟩ <;> decide +kernel

/-- The gang whose predicate 0 holds in some lanes and whose slices have a stack of some depth. -/
def stStack (m : BitVec 32) (d : Nat) (top : W64) : State :=
  with_ 0 { gang8 with p := [(0, m)], slices := List.replicate 8 { pc := 0x1000, depth := d, stack := if d = 0 then [] else [(d - 1, top)] } } crew1 {}
/-- No lane, some lanes with room for one more entry, all lanes; a full stack where one slice diverges. -/
theorem witness_BranchResults : ∀ s ∈ [stStack 0 0 0, stStack 0x11 7 0, stStack 0xFFFFFFFF 8 0],
    PartOk s ∧ StackRoom s (guardedLanes s 0) ∧ opLegal (.bra 0 0x800000) s.me.regs = true ∧ opLegal (.call 0 31 0x7FFFFF) s.me.regs = true ∧
      opLegal (.brap 7 1 0 1) s.me.regs = true ∧
      StackRoom s ((guardedLanes s 7).filter (fun l => xor (s.predLane 0 l) ((1 : BitVec 1) == 1))) := by
  unfold PartOk StackRoom
  intro s h
  simp only [List.mem_cons, List.not_mem_nil, or_false] at h
  obtain rfl | rfl | rfl := h <;> refine ⟨⟨?_, ?_⟩, ?_, ?_, ?_, ?_, ?_⟩ <;> decide +kernel
theorem witness_BranchResults_full : PartOk (stStack 0x80000000 8 0) ∧ ¬ StackRoom (stStack 0x80000000 8 0) (guardedLanes (stStack 0x80000000 8 0) 0) ∧
    opLegal (.bra 0 1) (stStack 0x80000000 8 0).me.regs = true := by
  unfold PartOk StackRoom
  refine ⟨⟨?_, ?_⟩, ?_, ?_⟩ <;> decide +kernel
/-- Flags at zero, not at zero, and in error; a return address on a bundle and off one. -/
def stFlags : State := with_ 0 { gang8 with flags := [(3, { count := 62 }), (4, { err := true, cause := 0x11 })], s := [(30, 0x2000), (31, 0x2008)] } crew1 {}
theorem witness_FlagBranchResults : opLegal (.brfZ 4 1) stFlags.me.regs = true ∧ opLegal (.brfNz 3 1) stFlags.me.regs = true ∧
    opLegal (.brfErr 4 1) stFlags.me.regs = true ∧ opLegal (.brfErr 3 1) stFlags.me.regs = true ∧ (stFlags.me.flag 4).count = 0 ∧ (stFlags.me.flag 3).count ≠ 0 ∧
    (stFlags.me.flag 4).err = true ∧ (stFlags.me.flag 3).err = false ∧ opLegal (.ret 30) stFlags.me.regs = true ∧ opLegal (.ret 31) stFlags.me.regs = true ∧
    (stFlags.sregNow 30 20).toNat % 16 = 0 ∧ (stFlags.sregNow 31 20).toNat % 16 ≠ 0 := by decide +kernel
/-- A top entry at the own address and one at another; lanes of slice 0 leave with and without a stack, others stay. -/
theorem witness_ReconvExitResults : ∀ s ∈ [stStack 0xF 0 0, stStack 0xF 8 0x3000000000001000, stStack 0x31 1 0x3000000000002000],
    PartOk s ∧ (∀ k ∈ s.cur.slices, (s.me.slice k).depth ≤ 8) ∧ opLegal .reconv s.me.regs = true ∧ opLegal (.exit 0) s.me.regs = true ∧
      (7 < s.me.nsl ∧ 7 ∈ s.cur.slices ∧ lanesIn (guardedLanes s 0) 7 = 0 ∧ (s.me.slice 7).ended = false) := by
  unfold PartOk
  intro s h
  simp only [List.mem_cons, List.not_mem_nil, or_false] at h
  obtain rfl | rfl | rfl := h <;> refine ⟨⟨?_, ?_⟩, ?_, ?_, ?_, ?_⟩ <;> decide +kernel
/-- A translated page for context 1: its first page of memory is page 1. -/
def stPage : State :=
  { with_ 0 { gang8 with v := [(5, List.replicate 32 1)] } crew1 {} with
    tlb := [{ slice := tslice 1 0x1000, set := 0, ctx := 1, vpn := 1, level := 0, pte := 0x4DF, comp := 0, gpte := noGStage }]
    ctxs := [(1, { live := true })]
    mem := [(0x1084, 2)] }
theorem witness_JumpTableResults : PartOk stPage ∧ opLegal (.jmpt 7 5 8 1) stPage.me.regs = true ∧
    (∃ l ∈ guardedLanes stPage 7, (0 : BitVec 8).toNat < (stPage.srcLane 5 20 l).toNat) ∧
    (∀ l ∈ guardedLanes stPage 7, (stPage.srcLane 5 20 l).toNat ≤ (1 : BitVec 8).toNat) ∧
    (match stPage.readTable 1 (stPage.tableReads 7 5 8 1) with
     | (u, .ok es) => decide (es = [(0x1084, 2)] ∧ u.me = stPage.me ∧ u.cur = stPage.cur)
     | _ => false) = true ∧ (∀ k ∈ stPage.cur.slices, (stPage.me.slice k).depth ≤ 5) := by
  unfold PartOk
  refine ⟨⟨?_, ?_⟩, ?_, ?_, ?_, ?_, ?_⟩ <;> decide +kernel
/-- A part with one slice of two that have not ended, the other waiting at a REGANG at the same or another address. -/
def stTwo (other : W64) : State :=
  let s := with_ 0 { gang8 with nsl := 2, slices := [{ pc := 0x1000 }, { pc := other, lead := 1 }], parts := [(0, {}), (1, { wait := .regang 9 })] } crew1 {}
  { s with cur := { s.cur with slices := [0] } }
theorem witness_WaitResults : ∀ s ∈ [stTwo 0x1000, stTwo 0x2000],
    PartOk s ∧ opLegal (.waitf 1 3) s.me.regs = true ∧ opLegal (.sleep 255) s.me.regs = true ∧ opLegal (.yield 0) s.me.regs = true ∧
      opLegal .regang s.me.regs = true ∧ (∃ k, k < s.me.nsl ∧ (s.me.slice k).ended = false ∧ k ∉ s.cur.slices) := by
  unfold PartOk
  intro s h
  simp only [List.mem_cons, List.not_mem_nil, or_false] at h
  obtain rfl | rfl := h <;> refine ⟨⟨?_, ?_⟩, ?_, ?_, ?_, ?_, ⟨1, ?_⟩⟩ <;> decide +kernel
theorem witness_WaitResults_regang : OneAddress (stTwo 0x1000) ∧ OthersAtRegang (stTwo 0x2000) ∧ ¬ OneAddress (stTwo 0x2000) ∧
    (∀ k, k < st.me.nsl → (st.me.slice k).ended = false → k ∈ st.cur.slices) := by
  unfold OneAddress OthersAtRegang
  refine ⟨?_, ?_, ?_, ?_⟩
  · intro j k hj hk
    have hj : j = 0 ∨ j = 1 := by change j < 2 at hj; omega
    have hk : k = 0 ∨ k = 1 := by change k < 2 at hk; omega
    obtain rfl | rfl := hj <;> obtain rfl | rfl := hk <;> decide +kernel
  · intro k hk _ hl
    have hk : k = 0 ∨ k = 1 := by change k < 2 at hk; omega
    obtain rfl | rfl := hk
    · exact absurd rfl hl
    · exact ⟨9, rfl⟩
  · intro h
    exact absurd (h 0 1 (by decide +kernel) (by decide +kernel) (by decide +kernel) (by decide +kernel)) (by decide +kernel)
  · decide +kernel
/-- Two gangs of a crew, and a barrier and stand word of it. -/
def stBar (b sb : W64) (n : Nat) : State :=
  let s := with_ 0 { gang8 with cgang := 1 } { crew1 with bst := [(2, b)], sbst := sb, standN := n, spos := 7, ngangs := 2 } {}
  { s with cores := (s.cores.map (fun c => (c.1, { c.2 with gangs := c.2.gangs ++ [(1, { gang8 with cgang := 15 })] }))) }
/-- A barrier not set, set with no arrival, with the other gang's arrival, with the own, and with the own DONE bit. -/
theorem witness_BarrierResults :
    ∀ b ∈ [0, 0x8000000000000000, 0x8000000080000000, 0x8000000000020000, 0x8000000000000002], let s := stBar (BitVec.ofNat 64 b) 0 0
      s.me.cgang < 16 ∧ (s.gang? s.cur.core s.cur.slot).isSome = true ∧ opLegal (.barset 16 2) s.me.regs = true ∧ opLegal (.bara 2) s.me.regs = true ∧
        opLegal (.barw 2) s.me.regs = true ∧ opLegal (.baraw 2) s.me.regs = true ∧ (mget 0 s.myCrew.bst 2 : W64) = BitVec.ofNat 64 b ∧
        (b ≠ 0 → b.testBit 63 = true) := by decide +kernel
/-- The same of the stand barrier, alone and in a stand; the other gang's arrival makes this one the last. -/
theorem witness_StandBarrierResults : ∀ n ∈ [0, 2], ∀ b ∈ [0, 0x80000000, 0x20000, 0x2], let s := stBar 0 (BitVec.ofNat 64 b) n
    s.me.cgang < 16 ∧ s.myCrew.spos < 8 ∧ (s.gang? s.cur.core s.cur.slot).isSome = true ∧ opLegal .sbarA s.me.regs = true ∧
      opLegal .sbarW s.me.regs = true ∧ opLegal .sbarAw s.me.regs = true ∧ s.myCrew.sbst = BitVec.ofNat 64 b ∧ s.myCrew.sbarSent = false ∧ s.liveGangs ≠ [] ∧
      s.myCrew.standN = n := by decide +kernel
theorem witness_StandBarrierResults_last : KeysRise ((stBar 0 0 2).core 0).crews ∧
    (∀ g ∈ (stBar 0 0x80000000 2).liveGangs, (arriveWord 0x80000000 1).getLsbD (16 + g.2.cgang) = true) ∧
    stStand.standPeer 0 0 1 = some (1, 2) := by
  unfold KeysRise
  refine ⟨?_, ?_, ?_⟩ <;> decide +kernel
theorem witness_VectorIllegal : ∃ n, (Instr.iadd (vShort 0x80 5 0xFF)).vView = some (n, vShort 0x80 5 0xFF) ∧
    opLegal (.iadd (vShort 0x80 5 0xFF)) st.me.regs = false ∧ opLegal (.iadd (vShort 16 5 6)) 16 = false := ⟨1, by decide +kernel⟩
theorem witness_SoftwareTrapResults : opLegal (.trap 255) st.me.regs = true ∧ opLegal (.bkpt 0) st.me.regs = true ∧
    opLegal (.sysc 0xFFFFFF) st.me.regs = true := by decide +kernel
/-- The supervisor issues, with a frozen gang in slot 5, of a crew of each phase ERET serves. -/
def stSuper (g : Gang) (w : Crew) (c : Core) : State :=
  let s := with_ 63 { gang8 with super := true, cslot := 15, s := [(8, 0x1000), (9, 0x2004)] } crew1 c
  { s with cores := s.cores.map (fun x => (x.1, { x.2 with gangs := (5, { g with cslot := 1 }) :: x.2.gangs, crews := (1, w) :: x.2.crews })) }
theorem witness_TrapReturnResults : ∀ ph ∈ [CrewPhase.running, .unparked], ∀ l ∈ [false, true],
    let g : Gang := { gang8 with frozen := true, limg0 := l }
    let s := stSuper g { crew1 with phase := ph } {}
    opLegal (.eret 5) s.me.regs = true ∧ s.isSuper = true ∧ s.gang? s.cur.core 5 = some { g with cslot := 1 } ∧ (s.crew 0 1).phase = ph ∧
      (∃ k, k < g.nsl ∧ (g.slice k).ended = false) := by decide +kernel
theorem witness_TrapReturnResults_refused : opLegal (.eret 5) st.me.regs = true ∧ st.isSuper = false ∧ (stSuper gang8 crew1 {}).isSuper = true ∧
    (stSuper gang8 crew1 {}).gang? 0 6 = none ∧ ((stSuper gang8 crew1 {}).gang 0 5).frozen = false := by decide +kernel

/-- Selecting gang 5, frozen, whose crew has 4 granules. -/
def stSel (sel : W64) : State := stSuper { gang8 with frozen := true } crew1 { selgang := sel }
/-- A register every gang reads, one of the supervisor alone; of the selected frozen gang and of the own. -/
theorem witness_SystemReadResults :
    (∀ s ∈ [st, stSel 0, stSel 0x8000000000000005], ∃ r, MfsExecutes s 31 0x7F r) ∧ (∃ r, MfsExecutes (stSel 0x8000000000000005) 0 0x384 r) ∧
      ∃ r, opLegal (.mfs 3 0x384) st.me.regs = true ∧ sysRow (0x384 : BitVec 16).toNat = some r ∧ r.gangR = false ∧ st.isSuper = false := by
  unfold MfsExecutes redirected
  refine ⟨?_, ⟨⟨0x0384, 0x0386, .core, false, false, true, true⟩, ?_⟩, ⟨⟨0x0384, 0x0386, .core, false, false, true, true⟩, ?_⟩⟩
  · intro s h
    refine ⟨⟨0x0078, 0x007F, .gang, true, false, true, true⟩, ?_⟩
    simp only [List.mem_cons, List.not_mem_nil, or_false] at h
    obtain rfl | rfl | rfl := h <;> decide +kernel
  · decide +kernel
  · decide +kernel
/-- A write of a policy register, of SLDEPTH at depth 8, of the last granule's tag, of a window, of SELGANG. -/
theorem witness_SystemWriteResults : let s := stSel 0x8000000000000005
    ∀ reg ∈ [0x2F, 0x71, 0x103, 0x460, 0x4BF, 0x384], ∃ r, MtsExecutes s 10 (BitVec.ofNat 16 reg) r := by
  intro s reg h
  unfold MtsExecutes redirected
  simp only [List.mem_cons, List.not_mem_nil, or_false] at h
  obtain rfl | rfl | rfl | rfl | rfl | rfl := h
  · exact ⟨⟨0x0028, 0x002F, .gang, true, true, true, true⟩, by decide +kernel⟩
  · exact ⟨⟨0x0070, 0x0072, .gang, true, false, true, true⟩, by decide +kernel⟩
  · exact ⟨⟨0x0100, 0x017F, .crew, true, false, true, true⟩, by decide +kernel⟩
  · exact ⟨⟨0x0460, 0x047F, .context, true, false, true, true⟩, by decide +kernel⟩
  · exact ⟨⟨0x0481, 0x04BF, .context, false, false, true, true⟩, by decide +kernel⟩
  · exact ⟨⟨0x0384, 0x0386, .core, false, false, true, true⟩, by decide +kernel⟩
theorem witness_SystemWriteResults_others : opLegal (.mpset 7 0xF7) st.me.regs = true ∧ opLegal (.winset 30 15) st.me.regs = true ∧ st.isSuper = false ∧
    (stSel 0).isSuper = true ∧ (stSel 0).selectable false = true ∧
    (∀ s ∈ [stSel 0, stSel 0x8000000000000005], (s.copy s.cur.core (s.ctxOf s.cur.core s.selected)).pend.Pairwise (fun a b => a.1 ≤ b.1)) := by
  refine ⟨?_, ?_, ?_, ?_, ?_, ?_⟩ <;> decide +kernel
theorem witness_JoinOperationIssue : CReady (.patset 28 3 3) 3 st ∧ CReady (.portcfg 30 31 3) 3 st ∧ CReady (.qcreate 28 0 3) 3 st ∧
    CReady (.qdestroy 0 4 3) 3 st ∧ 63 ≤ (stFull.me.flag 3).count ∧
    (∀ i ∈ [Instr.patset 28 3 3, .portcfg 28 3 3, .qcreate 28 3 3, .qdestroy 0 3 3], opLegal i stFull.me.regs = true) := by
  unfold CReady
  refine ⟨?_, ?_, ?_, ?_, ?_, ?_⟩ <;> decide +kernel
/-- The supervisor's windows give path 0 for the image, and no window does; another gang; an address off 128 bytes. -/
def stImage : State := { stSel 0x8000000000000005 with ctxs := [(0, { live := true, cxcfg := 0x8000000000000000 }), (1, { live := true, cxcfg := 0x8000000000000000 })] }
theorem witness_ImageIssue : ∀ k ∈ [(0 : Nat), 1, 2], ∀ s ∈ [stImage, stSel 0x8000000000000005], let kind := BitVec.ofNat 3 k
    CReady (.simg 8 kind 3) 3 s ∧ CReady (.limg 8 kind 3) 3 s ∧ ImageExecutes s 8 := by
  unfold CReady ImageExecutes
  intro k hk s hs
  simp only [List.mem_cons, List.not_mem_nil, or_false] at hk hs
  obtain rfl | rfl | rfl := hk <;> obtain rfl | rfl := hs <;> decide +kernel
theorem witness_ImageIssue_traps : opLegal (.simg 9 2 3) 128 = true ∧ opLegal (.limg 9 0 3) 128 = true ∧ st.me.regs = 128 ∧ st.isSuper = false ∧
    (stImage.me.flag 3).count < 63 ∧ stImage.selectable false = true ∧ (stImage.sregNow 9 20).toNat % 128 ≠ 0 ∧
    (stImage.look 0 stImage.myCrew.ctx 0x1000 true).cause = 0 ∧ (stImage.look 0 stImage.myCrew.ctx 0x1000 true).path = 0 := by
  refine ⟨?_, ?_, ?_, ?_, ?_, ?_, ?_, ?_, ?_⟩ <;> decide +kernel

/-! ### Events: accesses, faults, coherence, peers -/

/-- A request with one access at 0x2000, whose event is at hand; one poisoned word of HBM. -/
def stPiece (r : Req) (l : LaneAcc) : State :=
  { st with ev := .req 7 0, reqs := [(7, { r with lanes := [l] })], mem := [(0x2000, 5)], poison := [0x600], dregs := [(0x3100, 0x000FFFF000000000)] }
def piece4 (pa data : Nat) : LaneAcc := { lane := 0, size := 4, stage := 1, pa := pa, data := data }
/-- What the premises that all cases share say of a state. -/
def perf (s : State) (r : Req) (l : LaneAcc) : Bool :=
  decide (s.ev = .req 7 0 ∧ mget? s.reqs 7 = some r ∧ r.lanes[0]? = some l ∧ l.stage = 1 ∧ l.path = 0 ∧ r.opc ≠ 0x43 ∧ r.opc ≠ 0x44 ∧
    Mem.wf s.mem = true ∧ 0 < l.size ∧ l.data < 256 ^ l.size ∧ l.fmt = 0 ∧ l.undef = false ∧ l.early = false ∧ r.deps = [] ∧
    s.lineHeld (l.pa / 128) = false ∧ (r.opc % 4 = 3 → l.size = 4)) && s.budgetOk r.core
/-- A store up to the end of HBM, a load of good and of poisoned bytes, an atomic, a compare that succeeds and one that fails. -/
theorem witness_AccessPerform :
    ([((.store : ReqKind), 0xC, piece4 (hbmSize - 4) 0xFFFFFFFF), (.load, 5, piece4 0x2000 0), (.load, 5, piece4 0x3004 0), (.atom, 0x21, piece4 0x2000 7),
      (.redm, 0x24, piece4 0x2000 7), (.cas, 0x28, { piece4 0x2000 7 with cmp := 5 }), (.cas, 0x28, piece4 0x2000 7)].all fun q =>
      perf (stPiece { kind := q.1, opc := q.2.1 } q.2.2) { kind := q.1, opc := q.2.1, lanes := [q.2.2] } q.2.2) = true ∧
      (stPiece { kind := .load } (piece4 0x2000 0)).consumes 0 0 0 0x2000 4 = false ∧ (stPiece { kind := .load } (piece4 0x2000 0)).consumes 0 0 0 0x3004 4 = true := by
  decide +kernel
/-- A higher lane, performed, lies over the last byte of the store and not over its first. -/
theorem witness_AccessPerform_covered :
    let r : Req := { kind := .store, lanes := [piece4 0x2000 1, { piece4 0x2003 2 with lane := 9, stage := 2, ia := 3 }] }
    r.coversByte (piece4 0x2000 1) 3 ∧ ¬ r.coversByte (piece4 0x2000 1) 0 := by
  refine ⟨⟨{ piece4 0x2003 2 with lane := 9, stage := 2, ia := 3 }, by decide, .inl rfl, by decide, 0, 3, by decide +kernel, by decide, by decide⟩, ?_⟩
  rintro ⟨m, hm, h2, hl, a, b, hb, h1, -⟩
  simp only [List.mem_cons, List.not_mem_nil, or_false] at hm
  obtain rfl | rfl := hm
  · exact absurd h2 (by decide)
  · have : ((piece4 0x2000 1).base? { piece4 0x2003 2 with lane := 9, stage := 2, ia := 3 }) = some (0, 3) := by decide +kernel
    rw [this] at hb
    obtain ⟨rfl, rfl⟩ := Prod.mk.inj (Option.some.inj hb)
    omega
/-- An access of the scratchpad of core `c` with its granule's tag, by a request of core 0. -/
def stScratch (k : ReqKind) (c : Nat) (tag : BitVec 32) (path opc : Nat) : State :=
  let l : LaneAcc := { piece4 0xFFC 9 with path := path, core := c, alloc := { gen := 1, grans := [3] }, stand := 1 }
  { st with ev := .req 7 0, reqs := [(7, { kind := k, opc := opc, lanes := [l] })], cores := [(c, { gtag := [(3, tag)], crews := [(0, { crew1 with stand := 1 })] })] }
/-- The allocation there and gone, on the own core and on a peer's; an accumulator store that reaches its stand. -/
theorem witness_ScratchAccessPerform : ∀ c ∈ [0, 1],
    ((stScratch .store c 0x40040000 1 0xC).core c).accepts { gen := 1, grans := [3] } 0xFFC = true ∧
      ((stScratch .store c 0x40080000 1 0xC).core c).accepts { gen := 1, grans := [3] } 0xFFC = false ∧
      (∀ r ∈ (stScratch .rawLoad c 0x40040000 2 0x12).reqs, r.2.lanes.all (fun m => m.stage != 2) = true ∧ r.2.lanes.length = 1 ∧ r.2.deps = [] ∧ r.2.core = 0 ∧
        r.2.peer = none ∧ ∀ l ∈ r.2.lanes, l.core = c ∧ l.early = false ∧ l.undef = false) ∧
      (mget? ((stScratch .accst c 0 8 0x2D).core c).crews 0).isSome = true ∧ ((stScratch .accst c 0 8 0x2D).crew c 0).stand = 1 ∧
      ({ stScratch .accst c 0 8 0x2D with cores := [] } : State).core c = {} ∧ (stScratch .accst c 0 8 0x2D).ev = .req 7 0 := by decide +kernel
/-- A load of four lanes, one of which failed, and a scalar load. -/
theorem witness_CompletionResults : ∀ k ∈ [ReqKind.load, .loadS, .store, .cas, .ldx, .gquery, .mstat],
    let r : Req := { kind := k, flag := 3, dest := if k = .loadS then 0x84 else 4, opc := if k = .load then 2 else 9, z := if k = .ldx then 8 else 0,
                     lanes := [{ lane := 0, size := 4, stage := 2, out := 0x80 }, { lane := 31, size := 4, stage := 4, cause := 0x11 }] }
    let s : State := { st with ev := .req 7 0, reqs := [(7, r)] }
    s.ev = .req 7 0 ∧ mget? s.reqs 7 = some r ∧ r.peer = none ∧ r.slot < 64 ∧ (s.gang? r.core r.slot).isSome = true ∧ k ≠ .limg ∧ r.laneOk 0 = true ∧
      r.laneUndef 0 = false := by decide +kernel
/-- A group's record and a mill's word, with no lane at fault. -/
theorem witness_CompletionResults_words : ∀ k ∈ [ReqKind.gquery, .mstat], ({ kind := k, flag := 3, dest := 4, z := 1023 } : Req).firstCause = 0 := by decide +kernel

/-- An access of page 1 of context 1 with a cached entry. -/
def stCached (k : ReqKind) (pte : W64) : State :=
  { stPiece { kind := k, ctx := 1 } { lane := 0, ia := 0x1FFC, size := 4 } with
    tlb := [{ slice := tslice 1 0x1000, set := 0, ctx := 1, vpn := 1, level := 0, pte := pte, comp := 0, gpte := noGStage }] }
/-- The same uncached, with tables from page 16 on and some entry and companion for the page. -/
def stWalk (e c : Nat) : State :=
  { stPiece { kind := .store, ctx := 1 } { lane := 0, ia := 0x1FFC, size := 4 } with
    ctxs := [(1, { live := true, catp := 0xA000000000000010 })]
    spare := [(4096 * tslice 1 0x1FFC + 1, 0x9000)]
    mem := Mem.put (Mem.put (Mem.put (Mem.put (Mem.put (Mem.put [] 0x10000 (bytesLE 8 0x4401)) 0x11000 (bytesLE 8 0x4801)) 0x12000 (bytesLE 8 0x4C01))
      0x13000 (bytesLE 8 0x5001)) 0x14008 (bytesLE 8 e)) 0x15008 (bytesLE 8 c) }
theorem witness_TranslationResults_cached :
    ((stCached .store 0x4DF).tlbFind 1 1).isSome = true ∧ pteAllows 0x4DF 1 = true ∧ (0x4DF : W64).getLsbD 7 = true ∧ pteAllows 0x4DB 1 = false ∧
      (0x4DB : W64).getLsbD 7 = true ∧ (stCached .store 0x4DF).tlb.all (fun e => e.serves 1) = true ∧ (stCached .store 0x4DB).tlb.all (fun e => e.serves 1) = true ∧
      (stCached .store 0x4DF).migrating 1 1 = false ∧ Mem.wf (stCached .store 0x4DF).mem = true ∧ (stCached .load 0x4DF).ev = .req 7 0 ∧
      (stCached .load 0x4DF).tlbFind 1 0 = none := by decide +kernel
theorem witness_TranslationResults_absent : let s := { stWalk 0 0 with mem := [] }
    s.tlbFind 1 1 = none ∧ s.walkc = [] ∧ (s.ctx 1).chgatp.toNat / 2 ^ 60 = 0 ∧ s.rd (s.entryAt 0x10000 1 0) 8 % 2 = 0 ∧ inHbm (s.entryAt 0x10000 1 0) 8 = true ∧
      s.poisoned (s.entryAt 0x10000 1 0) 8 = false := by decide +kernel
/-- A leaf that permits the store, and an absent entry that is prepared. -/
theorem witness_TranslationResults_walk : WalksTo (stWalk 0x201F 0) 1 1 1 0 ∧ WalksTo (stWalk 0 0x0800000000000000) 1 1 1 0 ∧ Mem.wf (stWalk 0x201F 0).mem = true ∧
    (stWalk 0x201F 0).rd ((stWalk 0x201F 0).leafAt 1 1 0) 8 = 0x201F ∧ pteKind 0x201F 0 = .leaf ∧ pteAllows 0x201F 1 = true ∧ ptePbmt 0x201F ≠ 2 ∧
    inHbm (4096 * framePage 0x201F 0 1) 4096 = true ∧ pteKind 0 0 = .absent ∧ compBad 0x0800000000000000 0 = false ∧
    mget? (stWalk 0 0).spare (4096 * tslice 1 0x1FFC + 1) = some 0x9000 ∧ (stWalk 0 0).filling 1 1 = false ∧ (stWalk 0 0).fillBad = [] ∧
    (stWalk 0 0).fills = [] ∧ (stWalk 0 0).migrating 1 1 = false := by
  have none_ : ∀ e c x, (stWalk e c).tlbFind 1 1 = some x → x.serves 1 = false := by intro e c x h; cases h
  have cold : ∀ e c, ∀ w ∈ (stWalk e c).walkc, w.ctx ≠ 1 := by intro e c w h; cases h
  refine ⟨⟨?_, ?_, none_ _ _, cold _ _, ?_, ?_, ?_⟩, ⟨?_, ?_, none_ _ _, cold _ _, ?_, ?_, ?_⟩, ?_, ?_, ?_, ?_, ?_, ?_, ?_, ?_, ?_, ?_, ?_, ?_, ?_⟩ <;>
    decide +kernel
/-- The same with the level-1 entry of the page in the walk cache, and its tables above gone. -/
def stWalkCached : State :=
  { stWalk 0x201F 0 with
    walkc := [⟨tslice 1 0x1000 / 16, 1, 1, 0, 0x5001⟩]
    mem := Mem.put [] 0x14008 (bytesLE 8 0x201F) }
theorem witness_TranslationResults_walkCached : (stWalkCached.walkOf 1 1 1).isSome = true ∧ stWalkCached.tlbFind 1 1 = none ∧
    stWalkCached.rd (4096 * ptePpn 0x5001 + 8 * vpnIdx 1 0) 8 = 0x201F ∧ inHbm (4096 * ptePpn 0x5001 + 8 * vpnIdx 1 0 + 4096) 8 = true ∧
    stWalkCached.poisoned (4096 * ptePpn 0x5001 + 8 * vpnIdx 1 0) 8 = false ∧ Mem.wf stWalkCached.mem = true := by decide +kernel
/-- A walk that finds it needs no table above. -/
theorem test_walk_cache : (match (stWalkCached.translate 1 0x1FFC 1).2 with | .ok f _ _ _ _ => f | _ => 0) = 8 := by decide +kernel
/-- A fill whose entry is unchanged, and one whose entry has changed. -/
theorem witness_FillResults : ∀ e ∈ [0, 0x201F], let s : State := { stWalk e 0 with ev := .page 1 1, fills := [⟨1, 1, 0x9000, 0x14008, 0, true⟩] }
    s.fills.find? (fun x => x.ctx == 1 && x.vpn == 1) = some ⟨1, 1, 0x9000, 0x14008, 0, true⟩ ∧ s.fillq = [] ∧ 0x9000 % 128 = 0 ∧ 0x9000 + 4096 ≤ 0x14008 ∧
      Mem.wf s.mem = true ∧ (s.rd 0x14008 8 = e) := by decide +kernel

/-- An open record of ring 15, a request, a log and a skidder entry bound to it. -/
def recd : FaultRec := { ring := 15, seq := 2 ^ 32 - 1, ctx := 4095, ia := 0x1000, cause := 0x11, access := 1, core := 127 }
def stFault (log : Map LogEntry) (stage : Nat) (e : Event) : State :=
  let s := with_ 0 gang8 crew1 { log := log, skid := [(64, { state := 3, record := some (15, 2 ^ 32 - 1) })] }
  { s with ev := e, recs := [recd],
           reqs := [(7, { kind := .load, flag := 3, lanes := [{ lane := 31, ia := 0x1000, stage := stage, frec := some (15, 2 ^ 32 - 1), cause := 0x11 }] })] }
theorem witness_FaultResults : (let s := stFault [] 3 (.fault 15 (2 ^ 32 - 1) 0);
      s.recs.find? (fun x => x.ring == 15 && x.seq == 2 ^ 32 - 1) = some recd ∧ Mem.wf s.mem = true ∧ s.openRec 15 (2 ^ 32 - 1) = some recd) ∧
    (let s := stFault [(0, { state := 1, req := 9 })] 3 (.req 7 0);
      (∀ p ∈ (s.core 0).log, p.2.req ≠ 7) ∧ mget? (s.core 0).log 1 = none ∧ (mget? (s.core 0).log 0).isSome = true) ∧
    (let s := stFault [(255, { state := 2, req := 7, mask := 0x80000000 })] 7 (.entry 0 255);
      mget? (s.core 0).log 255 = some { state := 2, req := 7, mask := 0x80000000 } ∧ (mget? s.reqs 7).isSome = true ∧
        ∀ q ∈ s.reqs, q.2.lanes.all (fun l => l.fmt == 0) = true) := by decide +kernel
/-- FRESOLVE for that record: RETRY, FAIL with a cause and with none; bound to it a FAULTED entry, a skidder operation, a request and a launch. -/
theorem witness_FaultResults_resolve : ∀ v ∈ [0x0000000FFFFFFFFF, 0x4022000FFFFFFFFF, 0x4000000FFFFFFFFF], ∀ stage ∈ [3, 7],
    let s : State := { stFault [(255, { state := 1, req := 7, mask := 0x80000000, record := some (15, 2 ^ 32 - 1) })] stage (.reg 0x30 (BitVec.ofNat 64 v) 8) with
                       launches := [{ kind := 1, tenant := 0, ctx := 1, pattern := 5, lotid := 9, w1 := 0, faulted := some (15, 2 ^ 32 - 1) }] }
    bitsOf v 35 32 = 15 ∧ v % 2 ^ 32 = 2 ^ 32 - 1 ∧ (v / 2 ^ 62 = 0 ∨ v / 2 ^ 62 = 1) ∧ s.openRec 15 (2 ^ 32 - 1) = some recd ∧
      ((s.core 0).log.any fun p => p.2.req == 7 && p.2.mask.getLsbD 31) = true ∧ (s.core 0).skid.any (fun k => k.2.state == 3 && k.2.err == 0) = true := by
  decide +kernel
/-- A full log. -/
theorem witness_FaultResults_full : let s := stFault ((List.range 256).map (fun e => (e, { state := 1 }))) 3 (.req 7 0)
    (s.core 0).log.map Prod.fst = List.range 256 ∧ ((s.core 0).log.all fun p => p.2.req != 7) = true := by decide +kernel

/-- A line in each state of the directory, shared and not by the cluster; a block that holds it. -/
theorem witness_CoherenceResults : ∀ m ∈ [0, 1, 2, 3, 4], ∀ sh ∈ [0, 1], ∀ x ∈ [(⟨0, 0, 0, []⟩ : Line), ⟨4, 7, fullLine, []⟩, ⟨4, 7, 1, []⟩, ⟨3, 7, fullLine, []⟩],
    let s : State := { with_ 0 gang8 crew1 { blocks := [{ ctx := 1, base := 32, lines := [x] }] } with ev := .line 0 1 32 7, dir := [(7, m, 0, sh)] }
    s.dirOf 7 = (m, 0, sh) ∧ s.l2 = [] ∧ (s.core 0).stLine 1 32 = x ∧ ((s.core 0).block? 1 32).isSome = true := by decide +kernel
theorem witness_CoherenceResults_cores : KeysRise (with_ 0 gang8 crew1 {}).cores ∧ (0 : Nat).testBit 0 = false ∧ (1 : Nat).testBit 0 = true := by
  unfold KeysRise
  refine ⟨?_, ?_, ?_⟩ <;> decide +kernel
/-- A line asked for by PATH 6. -/
theorem witness_CoherenceResults_ro : let s := stPiece { kind := .load, ctx := 1 } { piece4 (7 * 128) 0 with path := 6, ia := 32 * 128 }
    (s.askers 0 1 32).any (fun y => y.2.path == 6) = true ∧ (s.core 0).roL1.length ≤ 512 := by decide +kernel
theorem homeSlice_top (a : Nat) : homeSlice (128 * (2 ^ 33 * a)) = 0 := by
  have h : ∀ hi lo, hi < 40 → lo ≤ hi → bitsOf (128 * (2 ^ 33 * a)) hi lo = 0 := by
    intro hi lo h1 h2
    unfold bitsOf
    have : 128 * (2 ^ 33 * a) = 2 ^ lo * (2 ^ (hi + 1 - lo) * (2 ^ (39 - hi) * a)) := by
      rw [← mul_assoc, ← mul_assoc, ← mul_assoc, ← pow_add, ← pow_add, show (128 : Nat) = 2 ^ 7 from rfl, ← pow_add]
      congr 2; omega
    rw [this, Nat.shiftRight_eq_div_pow, Nat.mul_div_cancel_left _ (Nat.two_pow_pos _)]
    exact Nat.mul_mod_right _ _
  unfold homeSlice
  rw [h 12 7 (by decide) (by decide), h 18 13 (by decide) (by decide), h 24 19 (by decide) (by decide), h 30 25 (by decide) (by decide),
    h 36 31 (by decide) (by decide), h 39 37 (by decide) (by decide)]
  rfl
/-- A set of the L2 filled by a line of it other than the one wanted: such lines exist whatever the set function is. -/
theorem witness_CoherenceResults_full : ∃ a b : Nat, ¬ ({ st with l2 := List.replicate 12 ⟨a, 0, 0, false⟩ } : State).l2Room b ∧
    (l2Victim (({ st with l2 := List.replicate 12 ⟨a, 0, 0, false⟩ } : State).l2Mates b)).isSome = true := by
  obtain ⟨a, b, hne, h⟩ := Finite.exists_ne_map_eq_of_infinite (fun a : Nat =>
    ((⟨Config.l2Set (2 ^ 33 * a) % 2048, Nat.mod_lt _ (by decide)⟩ : Fin 2048)))
  have hm : ({ st with l2 := List.replicate 12 ⟨2 ^ 33 * a, 0, 0, false⟩ } : State).l2Mates (2 ^ 33 * b) = List.replicate 12 ⟨2 ^ 33 * a, 0, 0, false⟩ := by
    unfold State.l2Mates
    refine List.filter_eq_self.mpr (fun x hx => ?_)
    rw [List.eq_of_mem_replicate hx, homeSlice_top, homeSlice_top, Fin.mk.inj h]
    simp
  refine ⟨2 ^ 33 * a, 2 ^ 33 * b, ?_, by rw [hm]; rfl⟩
  unfold State.l2Room
  rw [hm]
  simp [hne]
/-- A packet for a live context and one for another; a piece that waits for a peer; a lost device. -/
def stPeer (k : ReqKind) : State :=
  { stPiece { kind := k, ctx := 1 } { lane := 0, stage := 6, size := 4, peer := 0x80000000C0000000 } with
    ctxs := [(1, { live := true })], dregs := [(0, 0x9128000000000000)], dests := [⟨3, 1, 5, 1, 0, false⟩, ⟨4, 1, 5, 1, 0, false⟩] }
theorem witness_PeerServiceResults : (stPeer .load).devId = 0 ∧ ((stPeer .load).ctx 1).live = true ∧ ((stPeer .load).ctx 2).live = false ∧ (stPeer .load).groups = [] ∧
    (∀ k ∈ [ReqKind.load, .rawLoad, .send], ∀ r ∈ (stPeer k).reqs, r.1 = 7 ∧ r.2.kind = k ∧ r.2.lanes.length = 1 ∧ ∀ l ∈ r.2.lanes,
      l.stage = 6 ∧ l.sent = 0 ∧ l.fmt = 0 ∧ l.peer ≠ 0 ∧ aperDev l.peer = 3 ∧ r.2.awaiting l 0 = [0]) ∧
    ((stPeer .load).dests.any fun d => d.odev == 3) = true ∧ ((stPeer .load).dests.any fun d => d.odev != 3) = true := by decide +kernel
/-- The last byte of HBM; the ends of the port aperture, aligned and not; scrubbing on. -/
theorem witness_OutsideAccessResults : inHbm (hbmSize - 1) 1 = true ∧ inHbm (hbmSize - 8) 8 = true ∧ Mem.wf st.mem = true ∧
    (apertureBase ≤ apertureBase + 2 ^ 32 - 8 ∧ apertureBase + 2 ^ 32 - 8 < apertureBase + 2 ^ 32 ∧ (apertureBase + 2 ^ 32 - 8) % 8 = 0) ∧
    (apertureBase + 4) % 8 ≠ 0 ∧ ({ State.reset with clock := 2 ^ 40 } : State).scrubDue = true ∧ State.reset.scrubDue = false := by decide +kernel
/-- Of the two lines of a read one is held by a prepared group. -/
theorem witness_OutsideAccessResults_held :
    let s : State := { st with dests := [⟨3, 2, 9, 1, 4, true⟩], landing := [{ idx := 0, odev := 3, octx := 2, group := 9, dctx := 1, va := 0, pa := 0x41 }] }
    linesOf 0x2010 0x80 = [0x40, 0x41] ∧ s.lineHeld 0x40 = false ∧ s.lineHeld 0x41 = true ∧ inHbm 0x2010 0x80 = true := by decide +kernel

/-! ### Join units, commit groups -/

/-- A configuration of unit 2 at hand: the words of its record and handle. -/
def stCfg (ws : List W64) (x : JoinUnit) : State :=
  { st with ev := .req 7 0, reqs := [(7, { kind := .join, ctx := 1, words := ws, lanes := [{ joinLane with stage := 6 }] })], join := [(2, x)] }
def cfgReq (ws : List W64) : Req := { kind := .join, ctx := 1, words := ws, lanes := [{ joinLane with stage := 6 }] }
/-- A valid creation of a port and an invalid one; the last port free, and none. -/
theorem witness_ConfigurationResults_port :
    ((cfgReq [0x0028000000000007, 9]).word 2 = 0 ∧ bitsOf ((cfgReq [0x0028000000000007, 9]).word 0) 50 3 = 0 ∧
      bitsOf ((cfgReq [0x0028000000000007, 9]).word 0) 55 52 = 2) ∧ bitsOf ((cfgReq [0x0020000000000008]).word 0) 50 3 ≠ 0 ∧
    (let x : JoinUnit := { ports := (List.range 255).map (fun k => (k, { created := true })) };
      (x.port 255).created = false ∧ x.ports.map Prod.fst = List.range 255 ∧ x.ports.all (fun p => p.2.created) = true) ∧
    (let x : JoinUnit := { ports := (List.range 256).map (fun k => (k, { created := true })) };
      x.ports.map Prod.fst = List.range 256 ∧ x.ports.all (fun p => p.2.created) = true) := by decide +kernel
/-- A handle that is stale, of another context, of the own. -/
theorem witness_ConfigurationResults_handle : ∀ ctx ∈ [1, 2],
    let s := stCfg [0, 0, BitVec.ofNat 64 (portHandle 2 5 7)] { ports := [(5, { created := true, gen := 7, ctx := ctx })] }
    s.freshPort (portHandle 2 5 7) = some (2, 5) ∧ ((s.unit 2).port 5).ctx = ctx ∧ s.freshPort (portHandle 2 5 8) = none ∧
      (mget? s.reqs 7).map (fun r => (r.word 0, r.word 1, r.word 2, r.ctx)) = some (0, 0, portHandle 2 5 7, 1) := by decide +kernel
/-- The last pattern of a unit, free and claimed; a record whose port exists and one whose does not. -/
def patHandle : Nat := 3 * 2 ^ 20 + 2 * 2 ^ 16 + 63 * 2 ^ 10 + 16
theorem witness_ConfigurationResults_pattern : ∀ c ∈ [false, true],
    let s := stCfg [5, 0, 0, 0, BitVec.ofNat 64 patHandle]
      { ports := [(5, { created := true, ctx := 1 })], pats := if c then [(63, { claimed := true, gen := 3, ctx := 1, words := [5] })] else [] }
    let r := cfgReq [5, 0, 0, 0, BitVec.ofNat 64 patHandle]
    mget? s.reqs 7 = some r ∧ patternOf (r.word 4) = some (2, 63) ∧ handleGen (r.word 4) ≠ 0 ∧ s.recordOk 2 r = true ∧ s.recordForeign 2 r = false ∧
      ((s.unit 2).pat 63).claimed = c ∧ s.freshPattern (r.word 4) = (if c then some (2, 63) else none) ∧ (c = true → ((s.unit 2).pat 63).ctx = r.ctx) ∧
      bitsOf (r.word 0) 63 62 ≠ 3 ∧ s.recordOk 2 (cfgReq [6, 0, 0, 0, BitVec.ofNat 64 patHandle]) = false := by decide +kernel
/-- A queue of the largest size in the last place of unit 2, and a handle for it: stale, foreign, own. -/
theorem witness_ConfigurationResults_queue :
    (let r := cfgReq [0xB040000000000000, 0x1000, 0, 0, 0];
      bitsOf (r.word 0) 63 60 = 11 ∧ bitsOf (r.word 0) 52 0 = 0 ∧ canonAligned (r.word 1) 12 = true ∧ r.word 2 = 0 ∧ r.word 3 = 0 ∧ bitsOf (r.word 0) 56 53 = 2) ∧
      (let x : JoinUnit := { queues := (List.range 63).map (fun k => (k, { created := true })) };
        ((List.range 64).map fun k => (x.queue k).created) = List.replicate 63 true ++ [false]) ∧
      (∀ ctx ∈ [1, 2], let s := stCfg [BitVec.ofNat 64 (queueHandle 2 63 9)] { queues := [(63, { created := true, gen := 9, ctx := ctx })] };
        s.freshQueue (queueHandle 2 63 9) = some (2, 63) ∧ ((s.unit 2).queue 63).ctx = ctx ∧ ((s.unit 2).queue 63).pops = [] ∧
          ((s.unit 2).queue 63).spills = [] ∧ s.freshQueue (queueHandle 2 63 10) = none) := by
  refine ⟨?_, ?_, ?_⟩ <;> decide +kernel
theorem witness_ConfigurationResults_rests : Rests { ports := [(5, { created := true })], queues := [(63, { created := true })] } :=
  ⟨by decide +kernel, by decide +kernel⟩

/-- A message for port 5 of unit 2, with room for its last message and none. -/
def stMsg (src n : Nat) (pats : Map Pattern) : State :=
  { st with dregs := [(0, 0x9128000000000000)], ev := .msg { handle := portHandle 2 5 7, data := 3, source := src, ctx := 1 },
            join := [(2, { ports := [(5, { created := true, gen := 7, ctx := 1, depth := 2, msgs := List.replicate n 4 })], pats := pats })] }
theorem witness_ArrivalResults : (∀ n ∈ [0, 2, 3], ∀ src ∈ [0, 1, 4, 5], let s := stMsg src n []
      s.freshPort (portHandle 2 5 7) = some (2, 5) ∧ ((s.unit 2).port 5).permits { handle := portHandle 2 5 7, data := 3, source := src, ctx := 1 } s.devId = true ∧
        ((s.unit 2).port 5).msgs.length = n ∧ ((s.unit 2).port 5).depth = 2 ∧ mget? s.reqs 0 = none ∧ portHandle 2 5 7 < 2 ^ 32) ∧
    (stMsg 4 0 []).freshPort (portHandle 2 5 6) = none ∧ Rests ((stMsg 0 2 []).unit 2) := by
  refine ⟨by decide +kernel, by decide +kernel, ⟨by decide +kernel, by decide +kernel⟩⟩
/-- The last pattern of the unit waits for that port alone. -/
theorem witness_ArrivalResults_fire : let q : Pattern := { claimed := true, en := true, words := [5] }
    ((stMsg 0 0 [(63, q)]).unit 2).pats = [(63, q)] ∧ ((stMsg 0 0 [(63, q)]).unit 2).queues = [] ∧ q.bind = 0 ∧ listedPorts (q.w 0) = [5] ∧
      (q.w 0).testBit 52 = false ∧ (((stMsg 0 0 [(63, q)]).unit 2).port 5).msgs = [] ∧
      (∀ x ∈ ((stMsg 0 0 [(63, q)]).unit 2).ports, x.1 ≠ 5 → x.2.msgs = []) := by decide +kernel
/-- A sender that waits to be told. -/
theorem witness_ArrivalResults_told : let s := stPiece { kind := .send } { joinLane with stage := 6 }
    (s.reqs.any fun r => r.1 == 7 && r.2.lanes.all (fun l => l.stage == 6)) = true := by decide +kernel

/-- An operation on queue 63 of unit 2. -/
def stQueue (q : TaskQ) (e : Event) : State :=
  { stPage with ev := e, join := [(2, { queues := [(63, { q with created := true, gen := 9, ctx := 1, ring := 0x1000 })] })],
                reqs := [(7, { kind := .qpush, ctx := 1, words := List.replicate 8 5, lanes := [{ joinLane with stage := 6, pa := queueHandle 2 63 9 }] })] }
theorem witness_QueueResults_stops : (stQueue {} (.req 7 0)).freshQueue (queueHandle 2 63 10) = none ∧ queueHandle 2 63 10 < 2 ^ 32 ∧
    (let s := stQueue { err := true, cause := 0x20 } (.req 7 0);
      s.freshQueue (queueHandle 2 63 9) = some (2, 63) ∧ ((s.unit 2).queue 63).err = true ∧ ((s.unit 2).queue 63).cause ≠ 0) := by decide +kernel
/-- Pushes: the last on-chip place, the ring while it is refilled and behind 32 records, a full ring; pops and tries: a record, and none. -/
theorem witness_QueueResults : ∀ q ∈ [({} : TaskQ), { recs := List.replicate 31 [1] }, { recs := List.replicate 32 [1] }, { rfl := true, refillN := 4 },
      { rfl := true, rtail := 32 }, { recs := [[1], [2]] }],
    let s := stQueue q (.req 7 0)
    s.freshQueue (queueHandle 2 63 9) = some (2, 63) ∧ ((s.unit 2).queue 63).err = false ∧ ((s.unit 2).queue 63).pops = [] ∧
      (∀ p ∈ (s.unit 2).pats, p.2.claimed = false) ∧ (∀ x ∈ (s.unit 2).queues, x.2.popDue = false ∧ x.2.refillDue = false) := by decide +kernel
theorem witness_QueueResults_places : ({ recs := List.replicate 31 [1] } : TaskQ).onChip = true ∧ ({ recs := List.replicate 32 [1] } : TaskQ).onChip = false ∧
    ({ recs := List.replicate 32 [1] } : TaskQ).rcnt < ({ recs := List.replicate 32 [1] } : TaskQ).size ∧
    ({ rfl := true, rtail := 32 } : TaskQ).size ≤ ({ rfl := true, rtail := 32 } : TaskQ).rcnt ∧ ({ recs := [[1], [2]] } : TaskQ).rcnt = 0 := by decide +kernel
/-- A spilled record and a refill of four, through a cached translation of the ring. -/
theorem witness_QueueResults_ring :
    (let s := stQueue { spills := [(31, List.replicate 8 5, 7)], rfl := true, rtail := 32 } (.queue 2 63 9);
      ((s.unit 2).queue 63).created = true ∧ ((s.unit 2).queue 63).gen = 9 ∧ ((s.unit 2).queue 63).spills = [(31, List.replicate 8 5, 7)] ∧ Mem.wf s.mem = true ∧
        (s.tlbFind 1 (((s.unit 2).queue 63).entryVa 31 % 2 ^ 57 / 4096)).any (fun e => e.serves 1 && pteAllows e.pte.toNat 1) = true ∧
        s.pageHeld 1 (((s.unit 2).queue 63).entryVa 31 % 2 ^ 57 / 4096) = false ∧ (∀ r ∈ s.reqs, r.2.slot ≠ unitSlot)) ∧
    (let s := stQueue { rfl := true, refillN := 4, rtail := 4, rhead := 4 } (.queue 2 63 9);
      ((s.unit 2).queue 63).rcnt = 0 ∧ ((s.unit 2).queue 63).pops = [] ∧ (∀ j, j < 4 → s.poisoned (0x1000 + 64 * j) 64 = false) ∧
        (s.tlbFind 1 (((s.unit 2).queue 63).entryVa 3 % 2 ^ 57 / 4096)).any (fun e => e.serves 0 && pteAllows e.pte.toNat 0) = true ∧
        s.pageHeld 1 (((s.unit 2).queue 63).entryVa 3 % 2 ^ 57 / 4096) = false) := by
  refine ⟨?_, ?_⟩ <;> decide +kernel

/-- A group request of group 1023 of context 1, at its table. -/
def stOrigin (k : ReqKind) (lanes : List LaneAcc) (e : Event) (x : Group) : State :=
  { st with dregs := [(0, 0x9128000000000000)], ev := e, reqs := [(7, { kind := k, ctx := 1, flag := 3, z := 1023, lanes := lanes })], groups := [(1024 + 1023, x)] }
theorem witness_GroupOriginResults_open : (∀ o ∈ [false, true], ((stOrigin .gopen [] (.group 1 1023 7) { opened := o }).group (1024 + 1023)).opened = o) ∧
    (let s := { stOrigin .gopen [] (.group 1 1023 7) {} with groups := (List.range 256).map (fun g => (g, { opened := true })) };
      (s.group 2047).opened = false ∧ (s.groups.filter (fun y => y.2.opened)).length = 256) ∧
    (∀ q ∈ (stOrigin .gopen [] (.group 1 1023 7) {}).reqs, q.2.kind = .gopen ∧ q.2.peer = none ∧ q.2.lanes = []) := by
  refine ⟨?_, ?_, ?_⟩ <;> decide +kernel
/-- STG lanes: group closed, its first destination, a 65th destination. -/
theorem witness_GroupOriginResults_store :
    (∀ x ∈ [({} : Group), { opened := true }, { opened := true, dests := (List.range 64).map (fun d => (d + 1, 1, 1, false, false)) }],
      let s := stOrigin .stg [{ lane := 0, size := 4, stage := 1 }] (.req 7 0) x
      s.group 2047 = x ∧ mget? s.reqs 7 = some { kind := .stg, ctx := 1, flag := 3, z := 1023, lanes := [{ lane := 0, size := 4, stage := 1 }] } ∧
        x.phase = 0 ∧ x.failed = false ∧ x.dests.find? (fun d => d.1 == (s.stgDest 1 { lane := 0, size := 4, stage := 1 }).1 && d.2.1 == (s.stgDest 1 { lane := 0, size := 4, stage := 1 }).2) = none) := by
  decide +kernel
/-- The end of a group: closed, open, waiting with and without destinations, failed, prepared. -/
theorem witness_GroupOriginResults_end : ∀ x ∈ [({} : Group), { opened := true }, { opened := true, phase := 1, req := 7 },
      { opened := true, phase := 1, req := 7, dests := [(3, 1, 4, false, false)] }, { opened := true, phase := 1, req := 7, failed := true, dests := [(3, 1, 4, false, false)] },
      { opened := true, phase := 2, req := 7, dests := [(3, 1, 4, false, false)] }],
    let s := stOrigin .gend [] (.group 1 1023 7) x
    s.group 2047 = x ∧ (∀ q ∈ s.reqs, q.1 = 7 ∧ q.2.kind = .gend ∧ q.2.peer = none ∧ q.2.lanes = []) := by decide +kernel
/-- An answer with and without a cause; an acknowledgement that is not the last, and one that is. -/
theorem witness_GroupOriginResults_answers : ∀ x ∈ [({ phase := 2, req := 7, dests := [(3, 1, 4, false, false)] } : Group),
      { phase := 3, req := 7, dests := [(3, 1, 4, true, false), (4, 1, 4, true, false)] }, { phase := 4, req := 7, dests := [(3, 1, 4, true, false)] }],
    let s := stOrigin .gend [] (.packet { kind := 11, dev := 3, ctx := 1, peerCtx := 1, tag := 1023 }) x
    s.group 2047 = x ∧ (acked x.dests 3 1).all (fun d => d.2.2.2.2) = (x.dests.length == 1) ∧ (mget? s.reqs x.req).isSome = true := by decide +kernel
/-- A destination lost in the open group and after GCOMMIT, while answers are awaited, and as the last that has not acknowledged. -/
theorem witness_GroupOriginResults_lost : ∀ x ∈ [({ opened := true, dests := [(3, 1, 4, false, false)] } : Group), { opened := true, phase := 1, req := 7, dests := [(3, 1, 4, false, false)] },
      { opened := true, phase := 2, req := 7, dests := [(3, 1, 4, false, false), (4, 1, 4, false, false)] },
      { opened := true, phase := 3, req := 7, dests := [(3, 1, 4, true, false), (4, 1, 4, true, true)] }],
    let s := stOrigin .gend [] (.host 3 0) x
    s.groups = [(1024 * 1 + 1023, x)] ∧ x.dests.any (fun d => d.1 == 3) = true ∧ x.voluntary = false ∧
      (x.phase = 3 → x.dests.all (fun d => d.1 == 3 || d.2.2.2.2) = true ∧ x.dests.any (fun d => d.1 == 3 && !d.2.2.2.2) = true) := by decide +kernel
/-- A destination with a prepared and an unprepared group, whose entry holds two bytes; a live context and one that is not. -/
def stDest (prep : Bool) (e : Event) : State :=
  { st with ev := e, ctxs := [(1, { live := true })], dests := [⟨3, 2, 1023, 1, 4, prep⟩],
            landing := [{ idx := 262143, odev := 3, octx := 2, group := 1023, dctx := 1, va := 0x1000, pa := 0x40 }],
            mem := [(0x3FFFF00, 5), (0x3FFFF7F, 6), (0x3FFFF80, 1), (0x3FFFF8F, 0x80)] }
def lanePacket (b : Nat) : Packet := { kind := 5, dev := 3, ctx := 1, peerCtx := 2, tag := 1023, b := b }
theorem witness_GroupDestinationResults : (stDest false (.packet (lanePacket 4))).ev = .packet (lanePacket 4) ∧ ((stDest false .none).ctx 1).live = true ∧
    ((stDest false .none).ctx 2).live = false ∧ Mem.wf (stDest false .none).mem = true ∧ (stDest false .none).dying 1 = false ∧
    (stDest false .none).dests = [⟨3, 2, 1023, 1, 4, false⟩] ∧ (∀ e ∈ (stDest false .none).landed 3 2 1023 1, e.stale = false) ∧
    ((stDest false .none).landed 3 2 1023 1).Pairwise (fun e f => e.pa ≠ f.pa) ∧
    (∀ e ∈ (stDest false .none).landed 3 2 1023 1, 128 * e.pa + 128 ≤ (stDest false .none).landRecord e.idx) ∧
    [0, 1, 127].map ((stDest false .none).landValid 262143) = [true, false, true] ∧
    (let w := 3 * 2 ^ 34 + 2 * 2 ^ 22 + 1023 * 2 ^ 12; bitsOf w 43 34 = 3 ∧ bitsOf w 33 22 = 2 ∧ bitsOf w 21 12 = 1023) ∧
    (stDest true .none).dests = [⟨3, 2, 1023, 1, 4, true⟩] := by
  refine ⟨?_, ?_, ?_, ?_, ?_, ?_, ?_, ?_, ?_, ?_, ?_, ?_⟩ <;> decide +kernel
/-- A lane of a new line of the group, up to the line's end. -/
theorem witness_GroupDestinationResults_lane :
    let l : LaneAcc := { piece4 0x207C 0xFFFFFFFF with ia := 0x107C, cmp := 5 }
    let r : Req := { kind := .stg, ctx := 1, group := 9, peer := some (3, 2, 5), lanes := [l] }
    let s := { stPiece r l with dests := [⟨3, 2, 9, 1, 4, false⟩] }
    mget? s.reqs 7 = some r ∧ r.lanes[0]? = some l ∧ l.stage = 1 ∧ l.path = 0 ∧ l.early = false ∧ Mem.wf s.mem = true ∧ 0x107C % 128 + l.size = 128 ∧
      s.landing = [] ∧ s.dests = [⟨3, 2, 9, 1, 4, false⟩] := by decide +kernel
/-- A full landing, of other lines. -/
theorem witness_GroupDestinationResults_full (e : LandEntry) (h : e.group = 8) :
    262144 ≤ ({ st with landing := List.replicate 262144 e } : State).landing.length ∧
      ∀ x ∈ ({ st with landing := List.replicate 262144 e } : State).landing, x.group = 8 := by
  dsimp only
  exact ⟨by rw [List.length_replicate], fun x hx => by rw [List.eq_of_mem_replicate hx, h]⟩
/-- The one entry of a group whose page, translated again, forbids the store. -/
theorem witness_GroupDestinationResults_stale :
    let s : State := { stDest false .none with
                       landing := [{ idx := 0, odev := 3, octx := 2, group := 1023, dctx := 1, va := 0x1000, pa := 0x40, stale := true }]
                       tlb := [{ slice := tslice 1 0x1000, set := 0, ctx := 1, vpn := 1, level := 0, pte := 0x4DB, comp := 0, gpte := noGStage }] }
    (s.tlbFind 1 (0x1000 / 4096)).any (fun x => x.serves 1 && !pteAllows x.pte.toNat 1) = true ∧ (s.landed 3 2 1023 1).length = 1 := by decide +kernel

/-! ### Lots, crews, pre-emption, engines -/

/-- A template of 3 members, each a crew of two gangs of one role, whose completion port is 8. -/
def goodTmpl : List W64 := [0x0000000000000008, 2, 0, 0, 0x1000, 0x1000000000000000, 0, 0, 0, 0, 0, 0]
def lotEntry : Launch := { kind := 1, tenant := 0, ctx := 1, pattern := 5, lotid := 9, w1 := 0x1F80 }
/-- A lot whose template lies in a translated page. -/
def stLot (t : List W64) (l : Launch) : State :=
  { stPage with launches := [l], ev := .launch 0, mem := Mem.put [] 0x1F80 (t.flatMap (fun w => bytesLE 8 w.toNat)) }
theorem entries_replicate (n : Nat) : ({ st with launches := List.replicate n lotEntry } : State).entries = n := by
  unfold State.entries
  simp only
  rw [List.filter_eq_self.mpr (fun a h => by rw [List.eq_of_mem_replicate h]; rfl), List.length_replicate]
theorem witness_LaunchResults_fire : ({ st with launches := List.replicate 4096 lotEntry } : State).entries = 4096 ∧ st.entries = 0 :=
  ⟨entries_replicate 4096, by decide +kernel⟩
theorem witness_LaunchResults_template : (stLot goodTmpl lotEntry).lotHead 0 = some lotEntry ∧ (stLot goodTmpl lotEntry).tmplDue 0 = true ∧
    (stLot goodTmpl { lotEntry with failed := true }).tmplDue 0 = true ∧
    ([0, 32, 64].all fun i => ((stLot goodTmpl lotEntry).tlbFind 1 ((0x1F80 + i) / 4096)).any (fun e => e.serves 0 && pteAllows e.pte.toNat 0) &&
      !(stLot goodTmpl lotEntry).poisoned (0x1F80 + i) 32) = true ∧ (stLot goodTmpl lotEntry).reqs = [] ∧
    (stLot goodTmpl lotEntry).tmplRefused 1 goodTmpl = false ∧ (stLot [7, 0x1000000000000] lotEntry).tmplRefused 1 [7, 0x1000000000000] = true := by
  refine ⟨?_, ?_, ?_, ?_, ?_, ?_, ?_⟩ <;> decide +kernel
/-- A handler of one gang of eight slices and 128 registers with two granules, in its pattern's cluster. -/
def handlerEntry : Launch := { kind := 0, tenant := 15, ctx := 1, pattern := 64 * 15 + 3, lotid := 9, w1 := 0x1000, w2 := 0xFF81000000000000, payload := [1, 2, 3, 4] }
theorem witness_LaunchResults_handler : ({ st with launches := [handlerEntry] } : State).coreFor 15 (handlerPlan handlerEntry.w1 handlerEntry.w2) (some 15) = some 120 ∧
    (({ st with launches := [handlerEntry] } : State).core 120).freeCrew = some 0 := by decide +kernel
/-- A window image at 0x2000, window 15 and aperture 63 of it poisoned. -/
theorem witness_LaunchResults_image : let s : State := { st with poison := [0x41F, 0x45F], ev := .entry 0 1, cores := [(0, { copies := [(1, { loading := true })] })], ctxs := [(1, { cxcfg := 0x1000 })] }
    (mget? (s.core 0).copies 1).any (·.loading) = true ∧ inHbm (s.imagePa 1) 1024 = true ∧ s.imagePa 1 = 0x2000 ∧
      (s.poisoned (s.imagePa 1) 16, s.poisoned (s.imagePa 1 + 16 * 15) 16, s.poisoned (s.imagePa 1 + 0x108) 8, s.poisoned (s.imagePa 1 + 0x100 + 8 * 63) 8) =
        (false, true, false, true) := by decide +kernel

/-- An ended gang, the last of its crew, whose granule is the core's last; the last member of its lot and an earlier one. -/
def stEnd (n left : Nat) : State :=
  { with_ 0 { gang8 with ended := true, flags := [(3, { err := true })], cgang := 15 } { crew1 with lot := 4, ngangs := n } { gtag := [(127, 0x40040000)] } with
    ev := .gang 0 0, lots := [(4, { ctx := 1, lotid := 9, left := left, cport := 8 })] }
theorem witness_CrewEndResults_release : ∀ n ∈ [1, 2], ∀ left ∈ [1, 2], let s := stEnd n left
    (s.gang? 0 0).any (·.ended) = true ∧ (∀ f ∈ (s.gang 0 0).flags, f.2.count = 0) ∧ mget? (s.core 0).crews 0 = some (s.crew 0 0) ∧
      (popNat 16 ((s.crew 0 0).released ||| 2 ^ (s.gang 0 0).cgang) = n ↔ n = 1) ∧ (s.crew 0 0).standN = 0 ∧ (mget? s.lots 4).any (fun l => l.left == left) = true ∧
      gtState ((s.core 0).tag 127) = 1 ∧ gtGen ((s.core 0).tag 127) = (s.crew 0 0).gen := by decide +kernel
theorem witness_CrewEndResults_granule : (({ gtag := [(127, 0x80040000)] } : Core)).zeroDue 127 = true := by decide +kernel
/-- The arrival of position 1 of a stand of two, the last and not. -/
theorem witness_CrewEndResults_carr : KeysRise (stStand.core 0).crews ∧
    (∀ w ∈ (stStand.core 0).crews, w.1 = 0 ∧ w.2.standN ≠ 0 ∧ w.2.stand = 4 ∧ w.2.sbst.getLsbD 62 = false ∧ w.2.carrNext = []) ∧
    mget? (stStand.core 0).crews 3 = none ∧ (stStand.standCrews 0 0).all (fun p => (setBits 0 49 49 1).testBit (48 + p.1)) = false ∧
    (stStand.standCrews 0 0).all (fun p => (setBits (2 ^ 48) 49 49 1).testBit (48 + p.1)) = true := by
  unfold KeysRise
  refine ⟨?_, ?_, ?_, ?_, ?_⟩ <;> decide +kernel

/-- ENGSTOP is written with gang 62 of crew 1 selected, in a phase. -/
def stEng (ph : CrewPhase) (sel : W64) (e : Engstop) (ev : Event) : State :=
  let s := with_ 62 { gang8 with cslot := 1, limgFlags := true } { crew1 with phase := ph, wslots := 0 } { selgang := sel, engstop := e, gtag := [(0, 0x40040000)] }
  { s with ev := ev, ctxs := [(0, { live := true, cxcfg := 0x8000000000000000 }), (1, { live := true })], mem := Mem.put [] 0x1100 (bytesLE 8 64)
           tlb := [{ slice := tslice 0 0x1000, set := 0, ctx := 0, vpn := 1, level := 0, pte := 0x4DF, comp := 0, gpte := noGStage },
                   { slice := tslice 1 0x2000, set := 0, ctx := 1, vpn := 2, level := 0, pte := 0x8DF, comp := 0, gpte := noGStage }] }
def selOk : W64 := 0x800000000000003E
theorem engWrite_st (ph : CrewPhase) (v : W64) : EngWrite (stEng ph selOk {} (.sysw 0 63 0x385 v)) 0 62 1 v :=
  ⟨⟨63, 0x385, rfl⟩, rfl, by change selOk.getLsbD 63 = true; decide, by change selOk.toNat % 64 = 62; decide, by decide, ⟨_, rfl, rfl⟩⟩
theorem areaAt_st (ph : CrewPhase) (acc : Nat) (h : acc < 2) : AreaAt (stEng ph selOk {} (.sysw 0 63 0x385 0x1100)) 0 0x1100 acc 0x1100 := by
  have : acc = 0 ∨ acc = 1 := by omega
  obtain rfl | rfl := this <;> exact ⟨by cases ph <;> decide +kernel, ⟨⟨tslice 0 0x1000, 0, 0, 1, 0, 0x4DF, 0, noGStage, 0, 0, 0⟩, by cases ph <;> decide +kernel⟩,
    ⟨by cases ph <;> decide +kernel, by unfold NoUnitReq; cases ph <;> decide +kernel⟩, by cases ph <;> decide +kernel⟩
/-- No gang, slot 63, no V; a busy core. -/
theorem witness_PreemptionResults_none : (stEng .running 0x3E {} .none |>.core 0).selgang.getLsbD 63 = false ∧
    ((stEng .running 0x800000000000003F {} .none).core 0).selgang.toNat % 64 = 63 ∧ (stEng .running 0x8000000000000005 {} .none).gang? 0 5 = none ∧
    ((stEng .running selOk { busy := true } .none).core 0).engstop.busy = true := by decide +kernel
theorem witness_PreemptionResults_quiesce : ((stEng .running selOk {} .none).crew 0 1).phase = .running ∧ ((stEng .running selOk {} .none).crew 0 1).standN = 0 ∧
    KeysRise ((stEng .running selOk {} .none).core 0).gangs ∧
    (let s := with_ 62 { gang8 with cslot := 1, frozen := true } { crew1 with phase := .quiescing } { engstop := { cmd := 1, busy := true, crews := [(0, 1)] } };
      s.quiescing 0 = [(0, 1)] ∧ s.quiesceDue 0 = true) ∧
    ((stEng .drained selOk { busy := true, finished := true } (.core 0)).core 0).engstop.finished = true := by
  unfold KeysRise
  refine ⟨?_, ?_, ?_, ?_, ?_⟩ <;> decide +kernel
theorem witness_PreemptionResults_park : ∃ pa, AreaAt (stEng .drained selOk {} (.sysw 0 63 0x385 0x1100)) 0 0x1100 1 pa ∧
    EngWrite (stEng .drained selOk {} (.sysw 0 63 0x385 0x1100)) 0 62 1 0x1100 ∧ NoEngineState (stEng .drained selOk {} (.sysw 0 63 0x385 0x1100)) 0 1 ∧
    (stEng .drained selOk {} (.sysw 0 63 0x385 0x1100)).openRecs ≤ 65536 ∧ Mem.wf (stEng .drained selOk {} (.sysw 0 63 0x385 0x1100)).mem = true :=
  ⟨0x1100, areaAt_st .drained 1 (by decide), engWrite_st .drained 0x1100,
    { reqs := by decide +kernel, log := by decide +kernel, skid := by decide +kernel, chutes := by decide +kernel, queue := by decide +kernel,
      resume := by decide +kernel, waits := by decide +kernel, slots := by decide +kernel },
    by decide +kernel, by decide +kernel⟩
theorem witness_PreemptionResults_unpark : let s := stEng .restoring selOk {} (.sysw 0 63 0x385 0x1100)
    EngWrite s 0 62 1 0x1100 ∧ AreaAt s 0 0x1100 0 0x1100 ∧ (s.crew 0 1).phase = .restoring ∧ s.parked = [] ∧
      (∀ g ∈ (s.core 0).gangs, g.2.cslot = 1 → g.2.limgFlags = true) ∧ s.poisoned 0x1100 64 = false ∧ s.rd 0x1100 8 ≤ 64 ∧ s.rd (0x1100 + 8) 2 = 0 ∧
      s.rd (0x1100 + 10) 1 % 4 = 0 ∧ s.rd (0x1100 + 12) 2 = 0 := by
  refine ⟨engWrite_st .restoring 0x1100, areaAt_st .restoring 0 (by decide), ?_, ?_, ?_, ?_, ?_, ?_, ?_, ?_⟩ <;> decide +kernel
theorem witness_PreemptionResults_release : EngWrite (stEng .parked selOk {} (.sysw 0 63 0x385 4)) 0 62 1 4 ∧ ((stEng .parked selOk {} .none).crew 0 1).phase = .parked ∧
    gtState (((stEng .parked selOk {} .none).core 0).tag 0) = 1 ∧ EngWrite (stEng .running selOk {} (.sysw 0 63 0x385 5)) 0 62 1 5 ∧
    ((stEng .running selOk {} .none).crew 0 1).queued = [] :=
  ⟨engWrite_st .parked 4, by decide +kernel, by decide +kernel, engWrite_st .running 5, by decide +kernel⟩
/-- A restore request whose area names a template that is accepted, and one that is refused. -/
def stRestore (t : List W64) : State :=
  { stEng .running selOk {} (.sysw 0 63 0x385 0x1100) with
    mem := Mem.put (Mem.put [] 0x1100 ([0x2040, 2 ^ 32 + 9, 7].flatMap (bytesLE 8))) 0x2040 (t.flatMap (fun w => bytesLE 8 w.toNat)) }
theorem witness_PreemptionResults_restore : let s := stRestore goodTmpl
    s.poisoned 0x1100 32 = false ∧ bitsOf (s.rd (0x1100 + 8) 8) 43 32 = 1 ∧ (s.ctx 1).live = true ∧ s.dying 1 = false ∧ s.rd 0x1100 8 = 0x2040 ∧
      ([0, 32, 64].all fun i => (s.tlbFind 1 ((0x2040 + i) / 4096)).any (fun e => e.serves 0 && pteAllows e.pte.toNat 0) && !s.poisoned (0x2040 + i) 32 &&
        !s.pageHeld 1 ((0x2040 + i) / 4096)) = true ∧ s.tmplRefused 1 goodTmpl = false ∧
      s.tmplRefused 1 [1, 2 ^ 48] = true := by
  refine ⟨?_, ?_, ?_, ?_, ?_, ?_, ?_, ?_⟩ <;> decide +kernel
theorem witness_PreemptionResults_stops : let s : State := { st with cores := [(0, { gangs := [(0, gang8)], crews := [(0, crew1)], selgang := 0x8000000000000000,
                                                                                         skid := [(0, { state := 1 }), (64, { state := 2 })] })] }
    (s.core 0).selgang.getLsbD 63 = true ∧ (s.crew 0 (s.gang 0 0).cslot).phase = .running ∧ s.millHeld 0 = false ∧
      (mget? (s.core 0).skid 0).map (fun e => (e.slot, e.state)) = some (0, 1) ∧ (mget? (s.core 0).skid 64).map (fun e => (e.slot, e.state)) = some (0, 2) := by
  decide +kernel

/-- A copy entry, its piece's request, the gang it is of. -/
def stSkid (k : Skid) (ls : List LaneAcc) : State :=
  { with_ 0 gang8 crew1 { skid := [(95, { k with flag := 3 })], gtag := [(3, 0x40040000)] } with
    ev := .entry 0 95, reqs := [(7, { kind := .rawLoad, slot := 64 + 95, lanes := ls })] }
theorem witness_SkidderResults_asks : let k : Skid := { kind := .cpy, phase := 1, bytes := 100, rows := 1, src := { hi := 99 } }
    (stSkid k []).skidDue 0 95 = true ∧ k.aux = none ∧ k.kind = .cpy ∧ k.phase = 1 ∧ k.src.path ≠ 1 ∧ k.src.path ≠ 2 ∧
      (stSkid k []).badScale 0 { k with flag := 3 } = false := by decide +kernel
theorem witness_SkidderResults_fill : let k : Skid := { kind := .fill, bytes := 100, rows := 1, dst := { path := 1, alloc := { gen := 1, grans := [3] }, hi := 99 } }
    (stSkid k []).skidDue 0 95 = true ∧ ((stSkid k []).core k.dst.core).accepts k.dst.alloc (swizzle k.dst.z (k.dst.at k.done)) = true := by decide +kernel
theorem witness_SkidderResults_answer : ∀ kind ∈ [CopyKind.cpy, .fill], let k : Skid := { kind := kind, phase := 2, bytes := 100, rows := 1, aux := some 7 }
    (stSkid k [{ lane := 0, stage := 2 }]).skidDue 0 95 = true ∧ (stSkid k [{ lane := 0, stage := 3, cause := 0x11, frec := some (1, 2) }]).skidDue 0 95 = true := by
  decide +kernel
theorem witness_SkidderResults_end : ∀ k ∈ [({ kind := .cpy } : Skid), { kind := .cpy, err := 0x11, failed := true, note := some (8, 0, 9) }, { kind := .cpy, note := some (8, 0, 9) }],
    (stSkid k []).skidEnding 0 95 = true ∧ k.aux = none := by decide +kernel
/-- A running, a stopped and a FAULTED entry at 5 units; the mill running and stopped. -/
theorem witness_ProgressWriteResults : (∀ x ∈ [1, 2, 3], let s := stSkid { kind := .cpy, state := x, done := 5 } []
      (mget? (s.core 0).skid (0x45F - 0x400)).map (fun k => (k.state, k.done, k.aux)) = some (x, 5, none)) ∧
    (0x8000000000000005 : W64).toNat / 2 ^ 62 = 2 ∧ (0x4000000000000005 : W64).toNat / 2 ^ 62 = 1 ∧ (0x4000000000000005 : W64).toNat % 2 ^ 48 = 5 ∧
    (0x4000000000000006 : W64).toNat % 2 ^ 48 ≠ 5 ∧ ((stMill 0 0).core 0).mill.state ≠ 2 ∧
    (let s : State := { with_ 0 gang8 crew1 { mill := { state := 2 } } with ev := .sysw 0 63 0x386 0 }; (s.core 0).mill.state = 2 ∧ s.millHeld 0 = false) := by
  refine ⟨?_, ?_, ?_, ?_, ?_, ?_, ?_⟩ <;> decide +kernel

/-- A mill with a command at its head and a gang of crew 0 as its owner. -/
def stHead (op : Instr) (ta : Nat) (ds : List Nat) : State :=
  { with_ 0 gang8 crew1 { mill := { owner := some 0, queue := [{ op := op, flag := 3, id := 5, ta := ta, deps := ds }] }, gtag := [(3, 0x40040000)] } with ev := .core 0 }
theorem witness_MillResults_grant : let s := with_ 0 gang8 crew1 { mill := { waiters := [(0, [3]), (5, [4])] } }
    (s.core 0).mill.grantee = some (0, [3]) ∧ (s.core 0).mill.resume = [] := by decide +kernel
theorem witness_MillResults_head : ∀ op ∈ [Instr.mzero 3 15 0, .mfence 3, .mma ⟨3, 15, 0, 6, 0, 0, 0, 1, 0, 0⟩], let s := stHead op 0 []
    (s.core 0).mill.head = some { op := op, flag := 3, id := 5 } ∧ s.millDue 0 = true ∧ (s.core 0).mill.spoiled = false ∧ (s.core 0).mill.uses = [] := by
  decide +kernel
theorem witness_MillResults_mma : let o : MmaOp := ⟨3, 15, 0, 6, 0, 0, 0, 1, 0, 0⟩
    let s := stHead (.mma o) 0 []
    (s.core 0).mill.tile < o.tiles ∧ (s.core 0).mill.group + 1 < o.k / 16 ∧ (mget 0 (s.crew 0 0).wstag 0).toNat = 0 ∧
      ((List.range 16).all fun i => (List.range 16).all fun x => ((s.core 0).millA (s.crew 0 0).alloc (i * 0) 0 0 x).2.2 == 0) = true := by decide +kernel
/-- A head command whose operands were written before, its uses noted. -/
theorem witness_MillResults_uses : ∀ u ∈ [({ slot := 0, id := 5, tiles := [15] } : MillUse), { slot := 0, id := 4, spoilt := [3840] }], u.id = 5 → u.spoilt = [] := by decide
theorem witness_MillResults_mready : (stHead (.mready 3) 0 [9]).mreadyDue 0 5 = true := by decide +kernel

/-! ### Contexts, migration, registers, bundles -/

theorem witness_ContextResults_tic : ({ st with ticq := List.replicate 15 0 } : State).ticq.length < 16 ∧
    16 ≤ ({ st with ticq := List.replicate 16 0 } : State).ticq.length ∧ (0xC000000000000000 : W64).toNat / 2 ^ 62 = 3 ∧ (0x4004000000000001 : W64).toNat / 2 ^ 62 = 1 ∧
    ({ st with ticq := [1] } : State).ticq = [1] := by decide +kernel
/-- Making a context live with permitted and forbidden MODEs; unmaking one to its end; a busy command. -/
def stCtx (m : Nat) (cmd status : W64) : State :=
  { State.reset with ev := .reg 0x10 0xFFF 8, dregs := [(0x10, cmd), (0x18, status)], mem := Mem.put [] (64 * 0xFFF) (bytesLE 8 (m * 2 ^ 60)) }
theorem witness_ContextResults : ((stCtx 10 0 0).dreg 0x18).getLsbD 0 = false ∧ (stCtx 10 0 0).rd ((stCtx 10 0 0).ctxWordPa 0xFFF 0) 8 / 2 ^ 60 = 10 ∧
    (stCtx 9 0 0).rd ((stCtx 9 0 0).ctxWordPa 0xFFF 0) 8 / 2 ^ 60 ≠ 10 ∧ (stCtx 10 0 0).rd ((stCtx 10 0 0).ctxWordPa 0xFFF 1) 8 / 2 ^ 60 = 0 ∧
    (0xFFF : W64).toNat % 4096 ≠ 0 ∧ ((stCtx 0 0x4000000000000FFF 1).dreg 0x18).getLsbD 0 = true ∧ (stCtx 0 0x4000000000000FFF 1).dying 0xFFF = true ∧
    (stCtx 0 0x4000000000000FFF 1).ctxIdle 0xFFF = true := by
  refine ⟨?_, ?_, ?_, ?_, ?_, ?_, ?_, ?_⟩ <;> decide +kernel

/-- Page 1 of context 1 under tables from page 16 on, its aperture 5 to context 7 of device 3, a migration at hand. -/
def stMig (e c : Nat) (m : List Migr) : State :=
  { stWalk e c with
    ctxs := [(1, { live := true, catp := 0xA000000000000010, cxcfg := 0x18000 })], migr := m
    spare := [(4096 * tslice 1 0x1000 + 1, 0x9000)]
    tlb := [{ slice := tslice 1 0x1000, set := 0, ctx := 1, vpn := 1, level := 0, pte := 0x201F, comp := 0, gpte := noGStage }]
    mem := Mem.put (stWalk e c).mem (0x18000 * 2 + 0x128) (bytesLE 8 (2 ^ 63 + 7 * 2 ^ 40 + 3 * 2 ^ 30)) }
def offer : Packet := { kind := 12, dev := 3, ctx := 1, peerCtx := 7, va := 0x1000 }
theorem witness_MigrationResults_offer : (stMig 0 0 []).leaf0 1 5 ≠ none ∧ (stMig 0 0 []).leaf0 2 1 = none ∧
    (let s := stMig (0x3FF * 2 ^ 54 + 5 * 2 ^ 10) (2 ^ 58) [];
      s.leaf0 1 1 = some (0x14008, 0x3FF * 2 ^ 54 + 5 * 2 ^ 10, 2 ^ 58) ∧ (s.imageAper 1 5).getLsbD 63 = true ∧ aperDev (s.imageAper 1 5) = 3 ∧
        aperCtx (s.imageAper 1 5) = 7 ∧ (s.ctx 1).live = true ∧ mget? s.spare (4096 * tslice 1 0x1000 + 1) = some 0x9000) := by
  refine ⟨?_, ?_, ?_⟩ <;> decide +kernel
/-- At home a page under way to the peer; at the peer a page whose entry is unchanged. -/
def mHome : Migr := { ctx := 1, vpn := 1, dev := 3, rctx := 7, home := true, step := 4, frame := 0x8000 }
def mAway : Migr := { ctx := 1, vpn := 1, dev := 3, rctx := 7, home := false, step := 1, frame := 0x9000, pteAddr := 0x14008, pte := 0x201F }
theorem witness_MigrationResults_move : (let s := stMig 0x201F 0 [mHome];
      s.migOf 1 1 true = some mHome ∧ mHome.step ≠ 9 ∧ s.leaf0 1 1 = some (0x14008, 0x201F, 0) ∧ (s.tlbFind 1 1).isSome = true ∧ s.aperTo 1 3 7 = some 5 ∧
        pteKind 0x201F 0 = .leaf ∧ leafFrame 0x201F 0 1 = ptePpn 0x201F ∧ Mem.wf s.mem = true ∧
        (let ring := s.rd (s.ctxWordPa 1 5) 8; let tail := s.rd (s.ctxWordPa 1 6 + 4) 4;
          let ea := bitsOf ring 55 12 * 4096 + 16 * (tail % 2 ^ (ring / 2 ^ 60 + 6)); ea + 16 ≤ s.ctxWordPa 1 6)) ∧
    (let s := stMig 0x201F 0 [mAway];
      s.migOf 1 1 false = some mAway ∧ s.migOf 1 1 true = none ∧ mAway.frame + 4096 ≤ mAway.pteAddr ∧ mAway.frame < hbmSize ∧
        s.migr.filter (fun x => x.ctx == 1 && x.vpn == 1) = [mAway] ∧ s.rd mAway.pteAddr 8 = mAway.pte.toNat) ∧ offer.words = [] := by
  refine ⟨?_, ?_, ?_⟩ <;> decide +kernel
theorem witness_GangRegisterEvents : let s : State := { stStack 0 8 0 with ev := .sysw 0 0 0x103 0xFFFFFFFFFFFFFFFF }
    (s.gang? 0 0).isSome = true ∧ (s.crew 0 (s.gang 0 0).cslot).granules[0x103 - 0x100]? = some 3 := by decide +kernel

theorem witness_DeviceRegisterResults_writes : rwMask 0x38 = some 0xFFFFFFFF3F0000FF ∧ rwMask 0x18 = none ∧ w1cMask 0x18 = some 2 ∧
    inRow 0x21E0 0x2000 0x2200 32 = true ∧ (0x2004 : Nat) % 8 ≠ 0 := by decide +kernel
/-- A core whose supervisor may start; one whose supervisor is frozen. -/
def stSup : State := { State.reset with ctxs := [(0, { live := true })], dregs := [(0xC00, 0x8000000000001000)], ev := .reg 0xC08 127 8 }
theorem witness_DeviceRegisterResults_supervisor : (stSup.ctx 0).live = true ∧ (stSup.dreg 0xC00).getLsbD 63 = true ∧ (127 : W64).getLsbD 63 = false ∧
    stSup.gang? 127 63 = none ∧ mget? (stSup.core 127).crews 15 = none ∧
    (let s := with_ 63 { gang8 with cslot := 15, super := true, frozen := true } crew1 {};
      s.gang? 0 63 = some { gang8 with cslot := 15, super := true, frozen := true } ∧ (∃ k, k < gang8.nsl ∧ (gang8.slice k).ended = false) ∧
        frameOf 0x100278 = some (0, 0x278) ∧ (0x100278 : Nat) % 8 = 0) := by
  refine ⟨?_, ?_, ?_, ?_, ?_, ?_⟩ <;> decide +kernel
theorem witness_DeviceRegisterResults_mailbox : (State.reset.dreg 0x1008).getLsbD 0 = false ∧ (0x8000000000000007 : W64).toNat % 2 ^ 62 = 7 ∧
    (8 : W64).toNat % 2 ^ 62 = 8 ∧ ({ State.reset with mrs := [(7, List.replicate 32 1)] } : State).mr 7 = List.replicate 32 1 ∧
    (({ State.reset with dregs := [(0x1008, 1)] } : State).dreg 0x1008).getLsbD 0 = true := by decide +kernel
theorem witness_DeviceRegisterResults_intervals : ({ State.reset with clock := 4000 } : State).powerDue = true ∧
    (let s : State := { State.reset with clock := 2 ^ 20, dregs := [(0x3600, 0xA000000000000000), (0x3608, 0x0000000300000003)] };
      s.obsDue = true ∧ s.obsFrom ≠ s.clock ∧ ((s.dreg 0x3608).toNat / 2 ^ 32 + 2 ^ 32 - (s.dreg 0x3608).toNat % 2 ^ 32) % 2 ^ 32 ≠
        2 ^ ((s.dreg 0x3600).toNat % 16)) := by
  refine ⟨?_, ?_⟩ <;> decide +kernel

/-- A part with a bundle at hand, whose fetch failed, or with none. -/
def stPart (b : Option Bundle) (bad : Option (Nat × Nat)) : State :=
  let s := with_ 0 { gang8 with parts := [(0, { fetched := b.map (fun x => (0x1000, x)), fetchFault := bad })] } crew1 {}
  { s with ev := .part 0 0 0, tlb := [{ slice := tslice 1 0x1000, set := 0, ctx := 1, vpn := 1, level := 0, pte := 0x4DF, comp := 0, gpte := noGStage }] }
/-- The first bundle of R222, one that reads three registers of a bank, one of a reserved template. -/
def bundle1 : Bundle := 0x10300401027142460E11000000000104#128
def bundleBank : Bundle := 0x00330800047000000000000000000000#128
theorem witness_BundleIssueResults : (stPart (some bundle1) none).select 0 (partOf 0) = some (0, 0) ∧ (stPart none (some (0x11, 9))).select 0 (partOf 0) = some (0, 0) ∧
    (((stPart (some bundle1) none).gang 0 0).part 0).owed (gang8.wide 100 0) bundle1 = 0 ∧ (decodeBundle bundle1).isOk = true ∧
    (decodeBundle 0x04000000000000000000000000000000#128).isOk = false ∧
    ((((stPart none none).gang 0 0).part 0).owed (gang8.wide 100 0) 0x04000000000000000000000000000000#128) = 0 ∧
    (((stPart (some bundleBank) none).gang 0 0).part 0).owed (gang8.wide 100 0) bundleBank = 1 := by
  refine ⟨?_, ?_, ?_, ?_, ?_, ?_, ?_⟩ <;> decide +kernel
/-- The state an operation leaves. -/
def after (i : Instr) (s : State) : State := match exec i s with | .next t => t | _ => State.reset
/-- The operations of two empty slots run; one that is illegal traps. -/
theorem witness_BundleIssueResults_runs : Runs [(.v, .op (.nopSlot .v36)), (.c, .op (.nopSlot .c12))] st st ∧
    (after (.iadd (vShort 0x14 0x80 0xFF)) st).cur.trap = some { tcause := 0x61, slot := 0 } :=
  ⟨.op rfl rfl (.op rfl rfl (.done _)), by decide +kernel⟩
theorem witness_BundleFetchResults : let s := stPart none none
    (s.gang 0 0).frozen = false ∧ ((s.gang 0 0).part 0).wait = .none ∧ ((s.gang 0 0).part 0).fetched = none ∧ ((s.gang 0 0).part 0).fetchFault = none ∧
      canonical ((s.gang 0 0).slice 0).pc.toNat = true ∧ (s.tlbFind 1 1).any (fun e => e.serves 3 && pteAllows e.pte.toNat 3) = true ∧ s.migrating 1 1 = false ∧ s.filling 1 1 = false ∧
      s.lineHeld (0x1000 / 128) = false ∧ s.poisoned 0x1000 16 = false ∧ canonical (2 ^ 56) = false := by decide +kernel

/-- A gang with one write in flight, in a timer, frozen, with a watchpoint match. -/
def stGang (g : Gang) (e : Event) : State := { with_ 0 g crew1 {} with ev := e }
theorem witness_GangEventResults : (∀ d ∈ [Dest.v 127, .s 31, .p 6, .p 7, .mp 0, .mp 7], let g : Gang := { gang8 with pend := [{ due := 100, born := 96, dest := d, mask := 0x80000000 }] }
      (stGang g (.gang 0 0)).gang? 0 0 = some g ∧ (g.pend.all fun p => decide (p.due ≤ (stGang g (.gang 0 0)).clock)) = true) ∧
    (let g : Gang := { gang8 with parts := [(0, { wait := .timer 100 true })] };
      (stGang g (.part 0 0 0)).gang? 0 0 = some g ∧ (g.part 0).wait = .timer 100 true) ∧
    (let g : Gang := { gang8 with frozen := true, frameOpen := true }; g.fixedDone 100 = true ∧ g.ended = false) ∧
    (let g : Gang := { gang8 with watch := some (7, true, 3) }; g.frozen = false ∧ g.ended = false ∧ g.parts ≠ []) := by
  refine ⟨?_, ?_, ?_, ?_⟩ <;> decide +kernel

/-- A halted base die; a state with nothing to do but end its clock; a state whose next event issues a bundle. -/
theorem witness_StepRunsDecodedBundle : ({ State.reset with halted := some 5 } : State).halted = some 5 ∧
    (let s := State.reset.withFetchWord 32 0x01400000;
      s.nextMove = some { op := .bundleIssue, arg := .part 0 0 0 } ∧ (s.begin { op := .bundleIssue, arg := .part 0 0 0 }).select 0 (partOf 0) = some (0, 0) ∧
        ((s.gang 0 0).part 0).fetchFault = none ∧ ((s.gang 0 0).part 0).fetched = some (((s.gang 0 0).slice 0).pc, wordBundle 32 0x01400000)) := by
  refine ⟨?_, ?_⟩ <;> decide +kernel
theorem witness_SelectionResults : (stPart (some bundle1) none).select 0 0 = some (0, 0) := by decide +kernel
/-- A step from a state whose memory lists bytes in its form. -/
theorem witness_MemoryFormKept : Mem.wf stPage.mem = true ∧ (State.reset.withFetchWord 40 0).nextMove ≠ none := by
  refine ⟨?_, ?_⟩ <;> decide +kernel
/-- Operations with a word in the short form, the long form and none. -/
theorem witness_EncodeDecode : (Instr.fadd (vShort 4 1 2)).wellFormed = true ∧ encodeV36 (.fadd (vShort 4 1 2)) = some 0x300401027 ∧
    (encodeV76 (.fadd (vLong 4 1 2 3))).isSome = true ∧ (encodeM40 (.ldB32 ⟨9, 3, 7, 0, 2, 4, 0⟩)).isSome = true ∧ encodeX32 (.iadd (vShort 4 1 2)) = none ∧
    (encodeC12 (.waitf 0 4)).isSome = true := by decide +kernel
theorem witness_DecodeEncode : 0x300401027 < 2 ^ 36 ∧ SlotCode.of (decodeV36 0x300401027) = .op (.fadd (vShort 4 1 2)) := by decide +kernel

/-! ### Further forms: one state for each clause of its own -/

/-- A closed group; an open one with a lane off its width; in split-path mode an aperture that is valid, one that is not, and path 0. -/
theorem witness_MemoryTraps_group : let s := stGroup false (BitVec.ofNat 64 (5 * 2 ^ 54 + 0x1002))
    MReady (.stgB32 (mOp 4 7)) (mOp 4 7) s ∧ s.groupCopy s.cur.core s.myCrew.ctx (s.groupNamed (mOp 4 7)) = 1 ∧
      (s.mLanes (mOp 4 7)).any (fun l => s.groupAddr (mOp 4 7) l % 4 != 0) = true ∧
      (let u := stGroup false (BitVec.ofNat 64 (6 * 2 ^ 54)); u.groupCopy u.cur.core u.myCrew.ctx (u.groupNamed (mOp 4 7)) ≠ 1) := by
  unfold MReady
  decide +kernel
def stGroupSplit (n : Nat) (v : W64) : State :=
  let s := stGroup false (BitVec.ofNat 64 (5 * 2 ^ 54 + n * 2 ^ 48))
  { s with ctxs := [(1, { live := true, cxcfg := 0x8000000000000000 })], cores := s.cores.map (fun c => (c.1, { c.2 with copies := [(1, { words := [(64 + n, v)] })] })) }
theorem witness_GroupStoreIssue_split : ∀ x ∈ [(0, 0), (7, 0), (7, 0x8000000000000001)], let s := stGroupSplit x.1 (BitVec.ofNat 64 x.2)
    s.groupAddr (mOp 4 7) 0 / 2 ^ 48 = x.1 ∧ s.groupAddr (mOp 4 7) 0 < 2 ^ 54 ∧ s.split s.myCrew.ctx = true ∧
      s.groupCopy s.cur.core s.myCrew.ctx (s.groupNamed (mOp 4 7)) = 1 ∧ s.ctxWord s.cur.core s.myCrew.ctx (64 + x.1) = x.2 := by decide +kernel
/-- A head of a held chute that is not ready, and one that has no unit. -/
theorem witness_ChuteTraps_head : ∀ e ∈ [({ units := [List.replicate 128 1] } : ChuteEntry), { ready := true }],
    let s := with_ 0 gang8 crew1 { chutes := [(2, { holder := some 0, entries := [e] })] }
    (s.chute 2).holder = some s.me.cslot ∧ (s.chute 2).entries = [e] ∧ (e.ready = false ∨ e.units = []) ∧ MReady (.stch (mOp 2 7)) (mOp 2 7) s ∧
      opLegal (.chpop ⟨false, 0x14, 2, 0, 0, 0, 0⟩) s.me.regs = true := by
  unfold MReady
  decide +kernel
/-- A full stack under BRAP and CALL; the table of a JMPT with a bad entry, with groups that find no room, and one that is not mapped. -/
theorem witness_BranchResults_fullOthers : let s := stStack 0x80000000 8 0
    (∀ l : BitVec 5, opLegal (.call 0 l 1) s.me.regs = true) ∧ opLegal (.brap 7 0 0 1) s.me.regs = true ∧
      ¬ StackRoom s ((guardedLanes s 7).filter (fun l => xor (s.predLane 0 l) ((0 : BitVec 1) == 1))) := by
  unfold StackRoom
  refine ⟨?_, ?_, ?_⟩ <;> decide +kernel
theorem witness_JumpTableResults_traps :
    (match ({ stPage with mem := [(0x1084, 2), (0x1087, 1)] } : State).readTable 1 (stPage.tableReads 7 5 8 1) with
     | (_, .ok es) => decide (es = [(0x1084, 0x1000002)]) | _ => false) = true ∧
    (match ({ stPage with tlb := [] } : State).readTable 1 (stPage.tableReads 7 5 8 1) with
     | (_, .error e) => decide (e.1 = 0x10) | _ => false) = true ∧
    (let s : State := { stPage with cores := [(0, { gangs := [(0, { gang8 with v := [(5, List.replicate 32 1)], p := [(0, 1)], slices := List.replicate 8 { pc := 0x1000, depth := 8 } })], crews := [(0, crew1)] })] };
      guardedLanes s 0 = [0] ∧ opLegal (.jmpt 0 5 8 1) s.me.regs = true ∧ (s.me.slice 0).depth = 8 ∧ (s.srcLane 5 20 0).toNat ≤ 1) := by
  refine ⟨?_, ?_, ?_⟩ <;> decide +kernel
/-- A part that waits at a flag: at zero, in error, still counting, with a FAULTED access; one whose timer is over. -/
def stWait (w : WaitC) (f : Flag) (k : Core) : State := with_ 0 { gang8 with parts := [(0, { wait := w })], flags := [(4, f)] } crew1 k
theorem witness_WaitEnds : (∀ s ∈ [stWait (.flag 4 false) {} {}, stWait (.flag 4 true) { err := true } {}, stWait (.flag 4 false) { err := true, cause := 0x11 } {},
      stWait (.flag 4 false) { count := 1 } {}, stWait (.flag 4 false) { count := 1 } { log := [(9, { state := 1, slot := 0, flag := 4, cause := 0x11 })] },
      stWait (.timer 100 true) {} {}], WaitTested s 0 0 0 ∧ MillIsOurs s 0 0 0) ∧
    (stWait (.flag 4 false) { count := 1 } {}).faultOn 0 0 4 = none ∧
    (stWait (.flag 4 false) { count := 1 } { log := [(9, { state := 1, slot := 0, flag := 4, cause := 0x11 })] }).faultOn 0 0 4 = some (0x11, 9) := by
  unfold WaitTested MillIsOurs
  refine ⟨?_, ?_, ?_⟩ <;> decide +kernel
/-- Two parts at a REGANG, at one address and at two. -/
def stMerge (other : W64) : State :=
  with_ 0 { gang8 with nsl := 2, slices := [{ pc := 0x1000 }, { pc := other, lead := 1 }], parts := [(0, { wait := .regang 8 }), (1, { wait := .regang 9 })] } crew1 {}
theorem witness_RegangMerges : ∀ a ∈ [0x1000, 0x2000], let s := stMerge (BitVec.ofNat 64 a)
    (s.gang? 0 0).isSome = true ∧ (s.gang 0 0).frozen = false ∧ (s.crew 0 (s.gang 0 0).cslot).phase ≠ .unparked ∧
      ((s.gang 0 0).parts.all fun q => decide (q.2.tests ≤ s.clock) && !q.2.macq) = true ∧ ((s.gang 0 0).slice 0).pc = 0x1000 ∧ ((s.gang 0 0).slice 1).pc = BitVec.ofNat 64 a ∧
      (∀ k, k < 2 → ((s.gang 0 0).slice k).ended = false) := by decide +kernel
/-- The other gang of the crew waits at barrier 2 that this one's arrival completes; the last crew of a stand arrives; a wait that is met. -/
theorem witness_BarrierReleases : (let s := stBar 0x8000000080000000 0 0;
      s.lastArrival 2 ∧ opLegal (.bara 2) s.me.regs = true ∧ s.me.cgang < 16 ∧ (s.gang? 0 1).any (fun g => g.cslot == s.me.cslot) = true) ∧
    (let w : Crew := { crew1 with standN := 2, stand := 4, sbst := 0x0001000000000000 }
     let s := { stStand with cores := [(0, { gangs := [(0, { gang8 with parts := [(0, { wait := .sbar true false })] })], crews := [(0, w)] }), (1, (stStand.core 1))]
                             ev := .carr 0 0 4 1 false [] };
      mget? (s.core 0).crews 0 = some w ∧ w.sbst.getLsbD 62 = false ∧ w.carrNext = [] ∧
        ((List.range 8).all fun p => (s.standPeer 0 0 p).isNone || p == 1 || w.sbst.getLsbD (48 + p)) = true ∧ ((s.gang 0 0).part 0).wait = .sbar true false) ∧
    (∀ m : Bool, WaitTested (stWait (.bar 2 true m) {} {}) 0 0 0 ∧ WaitTested (stWait (.sbar true m) {} {}) 0 0 0) := by
  unfold State.lastArrival WaitTested
  refine ⟨?_, ?_, ?_⟩ <;> decide +kernel
/-- An element of each format, its turn come; of K4 with its scale byte here and as a peer gave it. -/
theorem witness_DecodedElements : ∀ l ∈ [({ piece4 0x2000 0 with size := 1, fmt := 1, off := 1, sva := some 0x5000, spa := 0x5000 } : LaneAcc),
      { piece4 0x2000 0 with size := 1, fmt := 1, scale := some (127, false) }, { piece4 0x2000 0 with size := 1, fmt := 2 },
      { piece4 0x2000 0 with size := 1, fmt := 3 }, { piece4 0x2000 0 with size := 2, fmt := 4 }, { piece4 0x3004 0 with size := 2, fmt := 4 }],
    let r : Req := { kind := .load, opc := 5, lanes := [l] }
    let s := stPiece r l
    PieceAt s 7 0 r l ∧ InTurn s r l ∧ 1 ≤ l.fmt ∧ l.fmt ≤ 4 ∧ (l.fmt = 1 → l.scale ≠ none ∨ l.sva ≠ none) := by
  unfold PieceAt InTurn
  intro l h
  simp only [List.mem_cons, List.not_mem_nil, or_false] at h
  obtain rfl | rfl | rfl | rfl | rfl | rfl := h <;> decide +kernel
/-- In a scratchpad: a decoding load of a granule under each format, atomics of both sizes, and the accumulator's accesses. -/
theorem witness_ScratchAccessPerform_values :
    (∀ f ∈ [1, 2, 3, 4], let tag : BitVec 32 := BitVec.ofNat 32 (0x40040000 + f * 2 ^ 15)
      let k := (stScratch .load 0 tag 1 5).core 0
      k.accepts { gen := 1, grans := [3] } 0xFFC = true ∧ gtFmt (k.tagAt { gen := 1, grans := [3] } 0xFFC) = f ∧ gtFmt (k.tagAt { gen := 1, grans := [3] } 0) = f) ∧
    (∀ k ∈ [ReqKind.atom, .redm, .cas], let s := stScratch k 0 0x40040000 1 0x21
      (s.core 0).accepts { gen := 1, grans := [3] } 0xFFC = true ∧ (s.core 0).spoison { gen := 1, grans := [3] } 0xFFC 4 = false) ∧
    (∀ x ∈ [(ReqKind.accld, 0x2E), (.accst, 0x2C), (.accst, 0x2D)], let s := stScratch x.1 0 0x40040000 8 x.2
      (mget? (s.core 0).crews 0).isSome = true ∧ (s.crew 0 0).stand = 1) := by
  refine ⟨?_, ?_, ?_⟩ <;> decide +kernel
/-- A 2 MiB leaf, a 1 GiB leaf and an Svnapot leaf of page 1. -/
def stLarge (root : List (Nat × Nat)) : State :=
  { stWalk 0 0 with mem := root.foldl (fun m x => Mem.put m x.1 (bytesLE 8 x.2)) [] }
theorem witness_TranslationResults_large : ∀ x ∈ [(2, [(0x10000, 0x4401), (0x11000, 0x4801), (0x12000, 0x1000001F)]),
      (1, [(0x10000, 0x4401), (0x11000, 0x4801), (0x12000, 0x4C01), (0x13000, 0x8001F)]),
      (0, [(0x10000, 0x4401), (0x11000, 0x4801), (0x12000, 0x4C01), (0x13000, 0x5001), (0x14008, 0x800000000000601F)])],
    let s := stLarge x.2
    WalksTo s 1 1 1 x.1 ∧ (let e := s.rd (s.leafAt 1 1 x.1) 8
      pteKind e x.1 = .leaf ∧ pteAllows e 1 = true ∧ compBad (s.rd (s.leafAt 1 1 x.1 + 4096) 8) x.1 = false ∧ ptePbmt e ≠ 2 ∧ inHbm (4096 * framePage e x.1 1) 4096 = true ∧
        framePage e x.1 1 % 2 = 1) := by
  intro x h
  have none_ : ∀ r y, (stLarge r).tlbFind 1 1 = some y → y.serves 1 = false := by intro r y h; cases h
  have cold : ∀ r, ∀ w ∈ (stLarge r).walkc, w.ctx ≠ 1 := by intro r w h; cases h
  simp only [List.mem_cons, List.not_mem_nil, or_false] at h
  obtain rfl | rfl | rfl := h <;> refine ⟨⟨?_, ?_, none_ _, cold _, ?_, ?_, ?_⟩, ?_⟩ <;> decide +kernel
/-- The tables of a page under a G-stage whose chain of pointers ends in a 1 GiB leaf of frame 0; and a G-stage root of no entry. -/
def stGuest (g : Nat) : State :=
  { stWalk 0x20DF 0 with
    ctxs := [(1, { live := true, catp := 0xA000000000000010, chgatp := 0xA000000000000020 })]
    mem := Mem.put (Mem.put (Mem.put (stWalk 0x20DF 0).mem 0x20000 (bytesLE 8 g)) 0x30000 (bytesLE 8 0xC401)) 0x31000 (bytesLE 8 0xDF) }
theorem witness_TranslationResults_guest :
    GuestWalksTo (stGuest 0xC001) 1 1 1 0 (fun k => 0x10000 + 0x1000 * k) (fun k => 0x10000 + 0x1000 * k + 8 * vpnIdx 1 (4 - k)) 0x15008 ∧
      (stGuest 0xC001).guest 1 (4096 * framePage 0x20DF 0 1) 1 = some (8, 0xDF) ∧ (stGuest 0xC001).rd 0x14008 8 = 0x20DF ∧ pteAD 0x20DF 1 = 0x20DF ∧
      (stGuest 0).sound 0x20000 8 = true ∧ (stGuest 0).rd 0x20000 8 % 2 = 0 := by
  have five : ∀ p : Nat → Prop, p 0 → p 1 → p 2 → p 3 → p 4 → ∀ k, k ≤ 4 - 0 → p k := by
    intro p h0 h1 h2 h3 h4 k hk
    have : k = 0 ∨ k = 1 ∨ k = 2 ∨ k = 3 ∨ k = 4 := by omega
    obtain rfl | rfl | rfl | rfl | rfl := this <;> assumption
  refine ⟨⟨by decide, by decide +kernel, (fun e h => by cases h), (fun w h => by cases h), by decide +kernel, by decide +kernel, ?_, by decide +kernel,
    by decide +kernel, by decide +kernel, ⟨(21, 0xDF), by decide +kernel, by decide +kernel⟩⟩, ?_, ?_, ?_, ?_, ?_⟩
  · refine five _ ⟨(16, 0xDF), ?_, ?_⟩ ⟨(17, 0xDF), ?_, ?_⟩ ⟨(18, 0xDF), ?_, ?_⟩ ⟨(19, 0xDF), ?_, ?_⟩ ⟨(20, 0xDF), ?_, ?_⟩ <;> decide +kernel
  all_goals decide +kernel
/-- A faulted load before one that was performed early. -/
theorem witness_FaultResults_again : let s := stFault [] 3 (.req 7 0)
    let q : Req := { kind := .load, opc := 5, flag := 3, deps := [7], lanes := [{ lane := 0, ia := 0x2000, stage := 1, early := true, out := 9 }] }
    let t : State := { s with reqs := s.reqs ++ [(8, q)] }
    mget? t.reqs 8 = some q ∧ inLoadQ q.opc = true ∧ q.writes = false ∧ 7 ∈ q.deps ∧ (mget? t.reqs 7).any (fun r => !r.deps.contains 7) = true ∧
      mget? (t.core 0).log 0 = none := by decide +kernel
/-- A line that loads of PATH 6 alone wait for, one that stash loads wait for, and a stash in which every frame is taken by a busy block. -/
theorem witness_CoherenceResults_asks : ∀ p ∈ [6, 0], let s := stPiece { kind := .load, ctx := 1 } { piece4 (7 * 128) 0 with path := p, ia := 32 * 128 }
    (p = 6 → roAsks (s.askers 0 1 32) ≠ [] ∧ stashAsks (s.askers 0 1 32) = []) ∧ (p = 0 → roAsks (s.askers 0 1 32) = [] ∧ stashAsks (s.askers 0 1 32) ≠ []) := by
  decide +kernel
theorem witness_CoherenceResults_noRoom (b : Block) (hc : b.ctx = 2) (hb : b.base = 0) (hl : b.lines.length = 12288) :
    let s : State := { with_ 0 gang8 crew1 { blocks := [b] } with agenda := [⟨.stashLineFill, .line 0 2 0 0, 0⟩] }
    (s.core 0).block? 1 32 = none ∧ ∀ u, s.stashRoom 0 1 32 1 ≠ .ok u := by
  intro s
  have hk : (s.core 0).blocks = [b] := rfl
  have hbusy : s.blockBusy 0 b = true := by simp [State.blockBusy, s, Block.holds, hc, hb, hl]
  have hr : ∀ u, s.makeRoom ((s.core 0).blocks.length + 1) 0 1 ≠ .ok u := by
    intro u
    rw [hk]
    simp [State.makeRoom, hk, hl, hbusy, firstVictim]
  refine ⟨by simp [Core.block?, hk, Block.holds, hc], fun u => ?_⟩
  simpa [State.stashRoom, Core.overlaps, hk, hc] using hr u
/-- The lines of a block as long as the stash. -/
theorem witness_CoherenceResults_fullBlock : ({ ctx := 2, base := 0, lines := List.replicate 12288 {} } : Block).lines.length = 12288 := List.length_replicate
/-- A lane of a decoding load that a peer answers with bytes of each format, one E4M3 or half a BF16 element among them; a request that arrives
behind one that a migration holds. -/
theorem witness_PeerServiceResults_decoding : ∀ x ∈ [(4, 1), (4, 2), (4, 3), (4, 4), (1, 4)],
    let l : LaneAcc := { lane := 0, ia := 0x1003, stage := 6, size := x.1, path := 3, peer := 0x80000000C0000000 }
    let r : Req := { kind := .load, ctx := 1, group := 1, lanes := [l] }
    let p : Packet := { kind := 3, dev := 3, ctx := 1, tag := 1024 * 7, lanes := [{ lane := 0, attr := x.2, out := 0x3F80, cmp := 127 }] }
    p.kind ≠ 4 ∧ p.a = 0 ∧ r.peer = none ∧ r.lanes = [l] ∧ l.off = 0 ∧ l.fmt = 0 ∧ l.ia.toNat + l.size ≤ 2 ^ 57 ∧ 1 ≤ x.2 ∧ x.2 ≤ 4 ∧ 0 < r.group := by decide
theorem witness_PeerServiceResults_behind : let r : Req := { kind := .store, ctx := 1, held := true, peer := some (3, 2, 5), lanes := [{ lane := 0, ia := 0x1004 }] }
    let p : Packet := { kind := 0, dev := 3, ctx := 1, peerCtx := 2, va := 0x1000, b := 1 }
    let s : State := { st with ev := .packet p, ctxs := [(1, { live := true })], reqs := [(7, r)] }
    s.ev = .packet p ∧ (s.ctx p.ctx).live = true ∧ p.b = 1 ∧ (7, r) ∈ s.reqs ∧ r.held = true ∧ r.ctx = p.ctx ∧ r.lanes.any (fun m => m.ia.toNat / 4096 == p.va / 4096) = true := by
  decide
/-- A read of which a later store stands ahead of its turn, and one of which none does. -/
theorem witness_OutsideAccessResults_unseen : (∀ v n, (st.unseen .host v n = false)) ∧ (linesOf 0x2010 0x80).any st.lineHeld = false := by
  refine ⟨fun v n => rfl, by decide +kernel⟩
/-- A pattern that pops from the queue destroyed; a stale one of another queue. -/
theorem witness_ConfigurationResults_bound : let h := queueHandle 2 63 9
    let q : Pattern := { claimed := true, en := true, words := [5 + 2 ^ 51, BitVec.ofNat 64 h, 0, 0] }
    let s := stCfg [BitVec.ofNat 64 h] { queues := [(63, { created := true, gen := 9, ctx := 1 })], pats := [(3, q)] }
    ((s.unit 2).pat 3).claimed = true ∧ ((s.unit 2).pat 3).bind = 2 ∧ ((s.unit 2).pat 3).w 1 % 2 ^ 32 = queueHandle 2 63 ((s.unit 2).queue 63).gen := by decide +kernel
/-- An STG at a destination whose count is at its end, and one whose cluster's budget is spent. -/
theorem witness_GroupOriginResults_ends : (let s := stOrigin .stg [{ lane := 0, size := 4, stage := 1, peer := 0x80000000C0000000 }] (.req 7 0) { opened := true, dests := [(3, 0, 2 ^ 24 - 1, false, false)] }
      s.stgDest 1 { lane := 0, size := 4, stage := 1, peer := 0x80000000C0000000 } = (3, 0) ∧ (s.group 2047).failed = false) ∧
    ({ stOrigin .stg [{ lane := 0, size := 4, stage := 1 }] (.req 7 0) { opened := true } with dregs := [(0x3100, 0)] } : State).budgetOk 0 = false := by
  refine ⟨?_, ?_⟩ <;> decide +kernel
/-- 256 groups that hold landing state, none of them this one. -/
theorem witness_GroupDestinationResults_groups : let ds : List DestGroup := (List.range 256).map (fun g => ⟨3, 2, g, 1, 0, false⟩)
    256 ≤ (landGroups ds).length ∧ (3, 2, 1023) ∉ landGroups ds := by decide +kernel
/-- A lot's firing with 4,096 entries held; the read of its template's first word done, and failed. -/
theorem witness_LaunchResults_dropped : (∀ w1, ({ st with launches := List.replicate 4096 lotEntry, ev := .fire 1 1 191 w1 0 [] } : State).ev = .fire 1 1 191 w1 0 []) ∧
    ∀ stage ∈ [2, 4], let l : LaneAcc := { lane := 0, ia := 0x1F80, size := 8, stage := stage, out := 8 }
      let s := stPiece { kind := .rawLoad, slot := peekSlot, ctx := 1, words := [9] } l
      mget? s.reqs 7 = some { kind := .rawLoad, slot := peekSlot, ctx := 1, words := [9], lanes := [l] } ∧ l.undef = false ∧ l.cause = 0 := by
  refine ⟨fun _ => rfl, ?_⟩
  decide +kernel
/-- A drained crew whose gang owns the mill; an area that a park of it wrote. -/
def stOwner : State :=
  let s := stEng .drained selOk {} (.sysw 0 63 0x385 0x1100)
  { s with cores := s.cores.map (fun c => (c.1, { c.2 with mill := { owner := some 62 } })) }
theorem witness_PreemptionResults_owner : stOwner.inCrew 0 1 62 = true ∧ (stOwner.core 0).mill.owner = some 62 ∧ (stOwner.gang 0 62).cgang < 16 ∧ NoEngineState stOwner 0 1 :=
  ⟨by decide +kernel, by decide +kernel, by decide +kernel,
    { reqs := by decide +kernel, log := by decide +kernel, skid := by decide +kernel, chutes := by decide +kernel, queue := by decide +kernel,
      resume := by decide +kernel, waits := by decide +kernel, slots := by decide +kernel }⟩
theorem witness_PreemptionResults_found : let s := stEng .restoring selOk {} (.sysw 0 63 0x385 0x1100)
    let p : Parked := { ctx := 1, bytes := s.rdBytes 0x1100 64 }
    ({ s with parked := [p] } : State).findPark (s.crew 0 1) (s.rdBytes 0x1100 64) = some p ∧ s.findPark (s.crew 0 1) (s.rdBytes 0x1100 64) = none ∧ KeysRise (s.core 0).gangs := by
  unfold KeysRise
  refine ⟨?_, ?_, ?_⟩ <;> decide +kernel
/-- A command at its end, begun before: no queue, one with room, and a notice already held. -/
theorem witness_PreemptionResults_told : let e : Engstop := { busy := true, finished := true, began := 99 }
    let s := stEng .running selOk e (.core 0)
    let u : State := { s with dregs := [(0x4000, BitVec.ofNat 64 (queueHandle 2 63 9))], join := [(2, { queues := [(63, { created := true, gen := 9 })] })] }
    (s.core 0).engstop = e ∧ e.began < s.clock ∧ (s.core 0).notices = [] ∧ s.supQueue 0 = none ∧ u.supQueue 0 = some (2, 63) ∧ ((u.unit 2).queue 63).onChip = true ∧
      ((u.unit 2).queue 63).pops = [] ∧ Rests (u.unit 2) ∧ s.agenda = [] := by
  intro e s u
  exact ⟨by decide +kernel, by decide +kernel, by decide +kernel, by decide +kernel, by decide +kernel, by decide +kernel, by decide +kernel,
    ⟨by decide +kernel, by decide +kernel⟩, by decide +kernel⟩
/-- A mill stopped with a command at its head, and with none. -/
theorem witness_ProgressWriteResults_head : (let s := stHead (.mzero 3 15 0) 0 []
      (s.core 0).mill.head.isSome = true) ∧ ({ state := 2 } : Mill).head = none := by decide +kernel
/-- MMAS, MLDT of each format and MDRAIN of each format at the head, with room in the chute and with none. -/
theorem witness_MillResults_others : (∀ op ∈ [Instr.mmas ⟨3, 15, 0, 6, 0, 0, 0, 1, 0, 0⟩, .mldt ⟨3, 6, 15, 0, 0, 1, 0⟩, .mldt ⟨3, 6, 15, 0, 2, 0, 0⟩, .mdrain ⟨3, 15, 0, 2, 0, 0, 0, 0, 0, 1⟩,
      .mdrain ⟨3, 15, 0, 2, 4, 0, 0, 0, 0, 0⟩], let s := stHead op 0 []
      (s.core 0).mill.head = some { op := op, flag := 3, id := 5 } ∧ s.millDue 0 = true ∧ (s.core 0).mill.spoiled = false) ∧
    ({ holder := some 0 } : Chute).entries.length + 1 ≤ 16 ∧ ({ holder := some 0, entries := List.replicate 16 {} } : Chute).entries.length = 16 := by
  refine ⟨?_, ?_, ?_⟩ <;> decide +kernel
/-- A page that migrates, its translation no longer cached. -/
theorem witness_MigrationResults_uncached : let s : State := { stMig 0x201F 0 [mHome] with tlb := [] }
    s.migOf 1 1 true = some mHome ∧ s.leaf0 1 1 = some (0x14008, 0x201F, 0) ∧ s.tlbFind 1 1 = none ∧ s.aperTo 1 3 7 = some 5 := by
  refine ⟨?_, ?_, ?_, ?_⟩ <;> decide +kernel
/-- An extend of a locked register, and of one before the boot has ended. -/
theorem witness_DeviceRegisterResults_locked : (3 : W64).toNat % 2 ^ 62 ≤ 7 ∧ (3 : W64).toNat % 8 < 4 ∧ ({ State.reset with mrLocked := true } : State).mrLocked = true ∧
    State.reset.mrLocked = false ∧ State.reset.booted = false := by decide +kernel
/-- A word of a latch of a supervisor whose frame is written. -/
theorem witness_DeviceRegisterResults_frame : let s := with_ 63 { gang8 with cslot := 15, super := true, frozen := true } crew1 {}
    frameOf 0x1001F8 = some (0, 0x1F8) ∧ (s.gang? 0 63).any (fun g => g.super && g.frozen && !g.frameOpen) = true := by decide +kernel
/-- A halted base die in whose inbox a module reset stands; a die below its minimum is the configuration's. -/
theorem witness_StepRunsDecodedBundle_halted : let p : Pending := ⟨.baseDieResetRelease, .none, 0⟩
    ({ State.reset with halted := some 5, inbox := [p] } : State).inbox.find? (fun p => p.op == .baseDieResetRelease) = some p := by decide +kernel
/-- An error pending, of a running gang and of a frozen one; a bad word that the bundle under way has read. -/
theorem witness_GangEventResults_error : (∀ b : Bool, let g : Gang := { gang8 with asyncErr := true, frozen := b, parts := [(0, { next := 100, age := 3 })] }
      (stGang g (.gang 0 0)).gang? 0 0 = some g ∧ g.ended = false ∧ g.parts ≠ [] ∧ IssuesNext g 100 0 { next := 100, age := 3 }) ∧
    (with_ 0 { gang8 with bad := true } crew1 {}).me.bad = true := by
  unfold IssuesNext
  decide +kernel

/-! ### Single steps, with results the spec writes out or that follow from its tables by hand -/

/-- The value register D of an operation takes in a lane. -/
def laneResult (i : Instr) (s : State) (l : Nat) : W32 := laneGet ((after i s).me.pend.headD ⟨0, 0, .lx1, 0, [], 0⟩).vals l
/-- The gang with values in v5 and v6. -/
def stV (a b : W32) : State := with_ 0 { gang8 with v := [(5, List.replicate 32 a), (6, List.replicate 32 b)] } crew1 {}

/-- R236: wrapping sum, with the carry of every lane in lx1. -/
theorem test_iadd_wraps : let t := after (.iadd (vShort 4 5 6)) (stV 0xFFFFFFFF 2)
    t.me.pend.map (fun p => (p.dest, p.due)) = [(.v 4, 104), (.lx1, 104)] ∧ laneResult (.iadd (vShort 4 5 6)) (stV 0xFFFFFFFF 2) 31 = 1 ∧
      (t.me.pend.map (·.word)).getLast? = some 0xFFFFFFFF := by decide +kernel
/-- R236: the most negative word is its own absolute value; a shift by 32 or more leaves zeros, or copies of the sign. -/
theorem test_iabs_edge : laneResult (.iabs (vShort 4 5 0)) (stV 0x80000000 0) 0 = 0x80000000 := by decide +kernel
theorem test_sar_past_width : laneResult (.sar (vShort 4 5 6)) (stV 0x80000000 40) 0 = 0xFFFFFFFF ∧
    laneResult (.shl (vShort 4 5 6)) (stV 0x80000001 32) 0 = 0 := by decide +kernel
/-- R238: a field of length 8 at position 28 is cut at the top bit. -/
theorem test_bfx_cut : laneResult (.bfxN32 (vShort 4 5 6)) (stV 0xF0000000 0x081C) 0 = 0xF ∧
    laneResult (.bfxS32 (vShort 4 5 6)) (stV 0xF0000000 0x081C) 0 = 0xFFFFFFFF := by decide +kernel
/-- R242: 1 + 2 = 3; R246: the square root of 4 is 2; FRCP of +0 is +Infinity. -/
theorem test_fadd : laneResult (.fadd (vShort 4 5 6)) (stV 0x3F800000 0x40000000) 7 = 0x40400000 := by decide +kernel
theorem test_fsqrt_frcp : laneResult (.fsqrt (vShort 4 5 0)) (stV 0x40800000 0) 0 = 0x40000000 ∧
    laneResult (.frcp (vShort 4 5 0)) (stV 0 0) 0 = 0x7F800000 := by decide +kernel
/-- R256: in 32 active lanes the ballot is the predicate. -/
theorem test_vote_bal : laneResult (.voteBal (vShort 4 0 0)) (stPred 0x80000001) 0 = 0x80000001 := by decide +kernel
/-- R255: lane 3 down by one reads lane 4; the last lane keeps its own. -/
theorem test_shfl_down : let s := with_ 0 { gang8 with v := [(5, (List.range 32).map (BitVec.ofNat 32))] } crew1 {}
    laneResult (.shflDown (vShort 4 5 0xC1)) s 3 = 4 ∧ laneResult (.shflDown (vShort 4 5 0xC1)) s 31 = 31 := by decide +kernel
/-- R217, R267: a load of 32 lanes counts once on its flag and has its register pending. -/
theorem test_load_issue : let t := after (.ldB32 (mOp 4 7)) { stImage with cur := { stImage.cur with slot := 63 } }
    (t.me.flag 3).count = 63 ∧ t.me.marks.map (·.dest) = [.v 4] ∧ (mget? t.reqs 1).map (fun r => r.lanes.length) = some 32 := by decide +kernel
/-- R217: a 64th outstanding operation traps with 0x64 and leaves no request. -/
theorem test_flag_overflow : (after (.ldB32 (mOp 4 7)) stFull).cur.trap = some { tcause := 0x64, slot := 1 } ∧ (after (.ldB32 (mOp 4 7)) stFull).reqs = [] := by
  decide +kernel
/-- R178: lanes 0 and 4 branch back; their slices save the others at P + 16. -/
theorem test_bra_diverges : let t := after (.bra 0 0xFFFFFF) (stStack 0x11 0 0)
    (t.me.slice 0).mask = 1 ∧ (mget 0 (t.me.slice 0).stack 0 : W64) = 0xE000000000001010 ∧ mget? t.cur.next 0 = some 0xFF0 ∧ (t.me.slice 2).depth = 0 ∧
      mget? t.cur.next 2 = some 0x1010 := by decide +kernel
/-- R346, R402: SYSC freezes the gang with its operand in INFO and the next bundle at P + 16. -/
theorem test_sysc : let t := after (.sysc 0x1234) st
    t.me.frozen = true ∧ t.me.frame.tcause = 0x72 ∧ t.me.frame.info = 0x1234 ∧ t.me.frame.next = 0x1010 ∧ t.cur.trap = none := by decide +kernel
/-- R348: a gang that is not the supervisor may not write SELGANG. -/
theorem test_mts_privileged : (after (.mts 3 0x384) st).cur.trap = some { tcause := 0x62, slot := 3 } := by decide +kernel
/-- R343: the barrier's count and V; R344: the only other gang's arrival was there, and ours completes the phase. -/
theorem test_barrier : (mget 0 (after (.barset 2 2) (stBar 0 0 0)).myCrew.bst 2 : W64) = 0x8200000000000000 ∧
    (mget 0 (after (.bara 2) (stBar 0x8000000080000000 0 0)).myCrew.bst 2 : W64) = 0xC000000000008002 := by decide +kernel
/-- R277: unsigned maximum with the old value 5 in memory takes it and writes 7. -/
theorem test_atomic_max : let t := after .memoryAccessPerform (stPiece { kind := .atom, opc := 0x20, z := 2 } (piece4 0x2000 7))
    Mem.read t.mem 0x2000 = 7 ∧ (mget? t.reqs 7).map (fun r => r.lanes.map (fun l => (l.stage, l.out))) = some [(2, 5)] := by decide +kernel
/-- R363: a message behind two; R365: the fourth finds the port full, and a message of a completion sets OVF. -/
theorem test_message : let t := after .messageArrival (stMsg 4 2 [])
    let u := after .messageArrival (stMsg 4 3 [])
    ((t.unit 2).port 5).msgs = [4, 4, 3] ∧ ((u.unit 2).port 5).msgs.length = 3 ∧ ((u.unit 2).port 5).ovf = true := by decide +kernel
/-- R369: the firing takes the message, and its binding goes to the controller with it as payload. -/
theorem test_fires : let t := after .messageArrival (stMsg 0 0 [(63, { claimed := true, en := true, words := [5, 0x1000, 9, 0] })])
    ((t.unit 2).port 5).msgs = [] ∧ (t.unit 2).fireseq = 1 ∧ t.agenda.map (·.arg) = [.fire 0 0 191 0x1000 9 [3, 0, 0, 0]] := by decide +kernel

end Sys2Proof.Tests
end

-- The memory's canonical form: what each operation of the machine does to the bytes of HBM, in the order of the model's files.
section
/-! SUPPORT. State.wrBytes alone writes memory. An operation that does not reach it leaves memory as it is (the lemmas `_mem`), one that does
keeps the canonical form (`_wf`), and every row's meaning answers a state in that form (`_formKept`); so does a step (O58). -/

namespace Sys2Proof.Machine
open Sys2Proof

/-- Where a meaning answers a next state, that state's memory is in its canonical form. -/
def FormKept (o : Out) : Prop := ∀ t, o = .next t → Mem.wf t.mem = true

@[simp] theorem formKept_next (t : State) : FormKept (.next t) ↔ Mem.wf t.mem = true := by simp [FormKept]
@[simp] theorem formKept_ite (c : Prop) [Decidable c] (a b : Out) : FormKept (if c then a else b) ↔ if c then FormKept a else FormKept b := by
  split <;> rfl
@[simp] theorem State.ite_mem (c : Prop) [Decidable c] (a b : State) : (if c then a else b).mem = if c then a.mem else b.mem :=
  apply_ite State.mem c a b
/-- A chain of operations that each keep the form keeps it. -/
theorem State.foldl_wf {α : Type} {f : State → α → State} (h : ∀ s a, Mem.wf s.mem = true → Mem.wf (f s a).mem = true) (l : List α)
    {s : State} (hs : Mem.wf s.mem = true) : Mem.wf (l.foldl f s).mem = true :=
  List.foldlRecOn l f hs fun t ht a _ => h t a ht

/-! #### Ops -/

@[simp] theorem State.dec_mem (s : State) (c g f cause : Nat) : (s.dec c g f cause).mem = s.mem := by
  unfold State.dec
  split <;> simp
@[simp] theorem State.observeAt_mem (s : State) (c slot f : Nat) : (s.observeAt c slot f).mem = s.mem := by simp [State.observeAt]
@[simp] theorem State.takeTrapAt_mem (s : State) (c slot : Nat) (t : Trap) (next : W64) : (s.takeTrapAt c slot t next).mem = s.mem := by
  simp [State.takeTrapAt]
@[simp] theorem State.takeTrap_mem (s : State) (t : Trap) : (s.takeTrap t).mem = s.mem := by simp [State.takeTrap]

/-! #### Mem -/

@[simp] theorem State.irq_mem (s : State) (i : Nat) : (s.irq i).mem = s.mem := by simp [State.irq]
@[simp] theorem State.rasCorrected_mem (s : State) (k loc : Nat) : (s.rasCorrected k loc).mem = s.mem := by simp [State.rasCorrected]
@[simp] theorem State.rasUncorrected_mem (s : State) (k loc : Nat) : (s.rasUncorrected k loc).mem = s.mem := by simp [State.rasUncorrected]

/-! #### Dir -/

@[simp] theorem State.dirRead_mem (s : State) (pl c : Nat) : (s.dirRead pl c).mem = s.mem := by
  unfold State.dirRead
  dsimp only
  split <;> simp
@[simp] theorem State.downgrade_mem (s : State) (pl : Nat) : (s.downgrade pl).mem = s.mem := by simp [State.downgrade]
@[simp] theorem State.yields_mem (s : State) (pl : Nat) : (s.yields pl).mem = s.mem := by simp [State.yields]
@[simp] theorem State.dirOwn_mem (s : State) (pl c : Nat) : (s.dirOwn pl c).mem = s.mem := by simp [State.dirOwn]

/-! #### Walk -/

@[simp] theorem State.readEntry_mem (s : State) (pa : Nat) : (s.readEntry pa).mem = s.mem := by simp [State.readEntry]
@[simp] theorem State.writeEntry_wf {s : State} (h : Mem.wf s.mem = true) (pa e : Nat) : Mem.wf (s.writeEntry pa e).mem = true := by
  unfold State.writeEntry
  grind [State.wr_wf, State.atSlice_mem, State.l2Use_mem]
@[simp] theorem gWalk_wf {s : State} (h : Mem.wf s.mem = true) (fuel base level vpn acc : Nat) :
    Mem.wf (gWalk fuel s base level vpn acc).1.mem = true := by
  induction fuel generalizing s base level with
  | zero => exact h
  | succ n ih =>
    unfold gWalk
    grind [State.readEntry_mem, State.writeEntry_wf]
@[simp] theorem State.gAddr_wf {s : State} (h : Mem.wf s.mem = true) (ctx gpa acc : Nat) : Mem.wf (s.gAddr ctx gpa acc).1.mem = true := by
  unfold State.gAddr
  grind [gWalk_wf]
@[simp] theorem State.walkNote_mem (s : State) (ctx vpn level e : Nat) : (s.walkNote ctx vpn level e).mem = s.mem := by simp [State.walkNote]
@[simp] theorem walkFrom_wf {s : State} (h : Mem.wf s.mem = true) (fuel ctx base level vpn acc : Nat) :
    Mem.wf (walkFrom fuel s ctx base level vpn acc).1.mem = true := by
  induction fuel generalizing s base level with
  | zero => exact h
  | succ n ih =>
    unfold walkFrom
    extract_lets ga
    have hg := s.gAddr_wf h ctx ga 0
    generalize s.gAddr ctx ga 0 = p at hg
    rcases p with ⟨s1, c | ⟨pa, x⟩⟩
    · exact hg
    dsimp -zeta only at hg ⊢
    by_cases hb : (!inHbm pa 8) = true
    · rw [if_pos hb]; exact hg
    by_cases hp : s1.poisoned pa 8 = true
    · rw [if_neg hb, if_pos hp]; exact hg
    rw [if_neg hb, if_neg hp]
    extract_lets e s2
    have h2 : Mem.wf s2.mem = true := by simpa [s2] using hg
    have hc := s2.gAddr_wf h2 ctx (ga + 4096) 0
    generalize hq : s2.gAddr ctx (ga + 4096) 0 = q at hc
    rcases q with ⟨s3, c | ⟨cpa, y⟩⟩
    · grind [State.walkNote_mem]
    cases hk : pteKind e level
    case next => exact ih (by simpa using h2) _ _
    case high | bad => exact h2
    all_goals grind [State.readEntry_mem, State.writeEntry_wf, State.gAddr_wf]
@[simp] theorem State.tlbInstall_mem (s : State) (ctx vpn pte comp level gpte : Nat) :
    (s.tlbInstall ctx vpn pte comp level gpte).mem = s.mem := by
  simp [State.tlbInstall]
@[simp] theorem State.translate_wf {s : State} (h : Mem.wf s.mem = true) (ctx va acc : Nat) :
    Mem.wf (s.translate ctx va acc).1.mem = true := by
  unfold State.translate
  grind [State.observe_mem, walkFrom_wf, State.tlbInstall_mem]
/-- The note of a low frame pool writes no memory (R36). -/
theorem State.lowNote_mem (s : State) (p q : Prop) [Decidable p] [Decidable q] (i : Nat) (l m : List Nat) :
    (if p then { s.irq i with lowSent := l } else if q then { s with lowSent := m } else s).mem = s.mem := by
  split
  · exact State.irq_mem ..
  · split <;> rfl
@[simp] theorem State.takeFrame_wf {s : State} (h : Mem.wf s.mem = true) (ctx sl : Nat) : Mem.wf (s.takeFrame ctx sl).1.mem = true := by
  unfold State.takeFrame
  split
  · exact h
  · dsimp only
    simp only [apply_ite Prod.fst, ite_self]
    rw [State.ite_mem, State.bump_mem, State.lowNote_mem]
    split
    · exact h
    · exact State.wrOver_wf h ..
@[simp] theorem State.runFill_wf {s : State} (h : Mem.wf s.mem = true) (f : Fill) : Mem.wf (s.runFill f).1.mem = true := by
  unfold State.runFill
  grind [State.takeFrame_wf]
@[simp] theorem State.startFill_wf {s : State} (h : Mem.wf s.mem = true) (ctx va acc pteAddr pte : Nat) :
    Mem.wf (s.startFill ctx va acc pteAddr pte).1.mem = true := by
  unfold State.startFill
  dsimp only
  (repeat' split) <;> simp [h]
@[simp] theorem State.nextFill_wf (sl : Nat) (fs : List Fill) {s : State} (h : Mem.wf s.mem = true) : Mem.wf (State.nextFill sl fs s).1.mem = true
    := by
  induction fs generalizing s with
  | nil => exact h
  | cons f fs ih =>
    unfold State.nextFill
    grind [State.runFill_wf]
@[simp] theorem State.recordFault_mem (s : State) (ctx page cause acc gpa core : Nat) :
    (s.recordFault ctx page cause acc gpa core).1.mem = s.mem := by
  unfold State.recordFault
  split <;> simp

/-! #### Access -/

@[simp] theorem State.addReq_mem (s : State) (r : Req) : (s.addReq r).mem = s.mem := by simp [State.addReq]
@[simp] theorem State.issueReq_mem (s : State) (r : Req) : (s.issueReq r).mem = s.mem := by simp [State.issueReq]

/-! #### Notice -/

@[simp] theorem State.holdNotice_mem (s : State) (c slot code : Nat) (words : List W64) : (s.holdNotice c slot code words).mem = s.mem := by
  simp [State.holdNotice]
@[simp] theorem State.notice_mem (s : State) (c slot code : Nat) (words : List W64) : (s.notice c slot code words).mem = s.mem := by
  simp [State.notice]
@[simp] theorem State.escalate_mem (s : State) (kind id : Nat) : (s.escalate kind id).mem = s.mem := by simp [State.escalate]
@[simp] theorem State.tellOwner_mem (s : State) (cluster ctx code info kind id : Nat) :
    (s.tellOwner cluster ctx code info kind id).mem = s.mem := by
  unfold State.tellOwner
  split <;> simp
@[simp] theorem State.notify_mem (s : State) (c slot code dcause : Nat) (w1 w2 : W64) : (s.notify c slot code dcause w1 w2).mem = s.mem := by
  simp [State.notify]
@[simp] theorem State.tellTrap_mem (s : State) (c slot : Nat) (f : Frame) : (s.tellTrap c slot f).mem = s.mem := by simp [State.tellTrap]
@[simp] theorem State.answered_mem (s : State) (ws : List (Nat × Nat)) : (s.answered ws).mem = s.mem := by simp [State.answered, State.foldl_mem]

/-! #### Scratch -/

@[simp] theorem State.freeElems_mem (s : State) (c k : Nat) (es : List Nat) : (s.freeElems c k es).mem = s.mem := by simp [State.freeElems]
@[simp] theorem State.spoil_mem (s : State) (c k kind lo len req : Nat) : (s.spoil c k kind lo len req).mem = s.mem := by simp [State.spoil]
@[simp] theorem State.scratchWrite_mem (s : State) (c k : Nat) (a : Alloc) (ofs : Nat) (bs : List Byte) (bad : Bool) (req : Nat) :
    (s.scratchWrite c k a ofs bs bad req).mem = s.mem := by
  simp [State.scratchWrite]
@[simp] theorem State.accWrite_mem (s : State) (c k e v : Nat) (add : Bool) : (s.accWrite c k e v add).mem = s.mem := by simp [State.accWrite]

/-! #### Scope -/

@[simp] theorem State.voids_wf {s : State} (h : Mem.wf s.mem = true) (o : Observer) (pa n : Nat) : Mem.wf (s.voids o pa n).mem = true := h
@[simp] theorem State.unitStore_wf {s : State} (h : Mem.wf s.mem = true) (pa : Nat) (bs : List Byte) :
    Mem.wf (s.unitStore pa bs).mem = true := by
  unfold State.unitStore
  grind [State.voids_wf, State.wrOver_wf]

/-! #### Stash -/

@[simp] theorem State.cleanLine_mem (s : State) (c ctx line : Nat) : (s.cleanLine c ctx line).mem = s.mem := by simp [State.cleanLine]
@[simp] theorem State.releaseBlock_mem (s : State) (c : Nat) (b : Block) : (s.releaseBlock c b).mem = s.mem := by
  simp [State.releaseBlock, State.foldl_mem]
theorem State.makeRoom_mem {fuel : Nat} {s t : State} {c n : Nat} (h : State.makeRoom fuel s c n = .ok t) : t.mem = s.mem := by
  induction fuel generalizing s with
  | zero => simp [State.makeRoom] at h
  | succ k ih =>
    unfold State.makeRoom at h
    grind [State.releaseBlock_mem]
theorem State.stashRoom_mem {s t : State} {c ctx base n : Nat} (h : s.stashRoom c ctx base n = .ok t) : t.mem = s.mem := by
  unfold State.stashRoom at h
  grind [State.makeRoom_mem, State.foldl_mem, State.releaseBlock_mem]
theorem State.enterBlock_mem {s t : State} {c ctx base n rank : Nat} {declared : Bool} (h : s.enterBlock c ctx base n rank declared = some t) :
    t.mem = s.mem := by
  unfold State.enterBlock at h
  grind [State.stashRoom_mem, State.setCore_mem]
@[simp] theorem State.l2Ask_mem (s : State) (c ctx line pl : Nat) (fetch : Bool) : (s.l2Ask c ctx line pl fetch).mem = s.mem := by
  simp [State.l2Ask]
@[simp] theorem execDirectoryRead_formKept {s : State} (h : Mem.wf s.mem = true) : FormKept (execDirectoryRead s) := by
  unfold execDirectoryRead
  split <;> simp [h]
@[simp] theorem State.complexTakes_wf {s : State} (h : Mem.wf s.mem = true) (pl : Nat) : Mem.wf (s.complexTakes pl).mem = true := by
  unfold State.complexTakes
  grind [State.bump_mem, State.voids_wf, State.wrLine_wf]
@[simp] theorem execDirectoryOwnership_formKept {s : State} (h : Mem.wf s.mem = true) : FormKept (execDirectoryOwnership s) := by
  unfold execDirectoryOwnership
  (repeat' split) <;> simp [h]
@[simp] theorem execDirectoryWriteback_formKept {s : State} (h : Mem.wf s.mem = true) : FormKept (execDirectoryWriteback s) := by
  unfold execDirectoryWriteback
  grind [State.dirWriteback_mem, State.cleanLine_mem, State.voids_wf, State.wrLine_wf, State.wrBytes_wf, formKept_next]
@[simp] theorem execCoherenceRecall_formKept {s : State} (h : Mem.wf s.mem = true) : FormKept (execCoherenceRecall s) := by
  unfold execCoherenceRecall
  split <;> simp [h]
@[simp] theorem State.lineArrived_mem (s : State) (c ctx line : Nat) (ro : Bool) : (s.lineArrived c ctx line ro).mem = s.mem := by
  simp [State.lineArrived]
@[simp] theorem State.countFill_mem (s : State) (c : Nat) (asks : List (Req × LaneAcc)) : (s.countFill c asks).mem = s.mem := by
  unfold State.countFill
  split <;> simp
@[simp] theorem State.roEnter_mem (s : State) (c ctx line pl : Nat) : (s.roEnter c ctx line pl).mem = s.mem := by simp [State.roEnter]
theorem State.stashEnter_mem {s t : State} {c ctx line pl : Nat} {asks : List (Req × LaneAcc)} (h : s.stashEnter c ctx line pl asks = some t) :
    t.mem = s.mem := by
  unfold State.stashEnter at h
  dsimp only at h
  obtain ⟨u, hu, rfl⟩ := Option.map_eq_some_iff.mp h
  grind [State.enterBlock_mem, State.power_mem, State.setCore_mem]
@[simp] theorem execStashLineFill_formKept {s : State} (h : Mem.wf s.mem = true) : FormKept (execStashLineFill s) := by
  unfold execStashLineFill
  grind [State.lineArrived_mem, State.roEnter_mem, State.stashEnter_mem, State.countFill_mem, State.observe_mem, State.later_mem, formKept_next]

/-! #### Perform -/

@[simp] theorem State.grantOf_mem (s : State) (r : Req) (l : LaneAcc) : (s.grantOf r l).mem = s.mem := by simp [State.grantOf]
@[simp] theorem State.copyWrite_wf {s : State} (h : Mem.wf s.mem = true) (r : Req) (l : LaneAcc) : Mem.wf (s.copyWrite r l).1.mem = true := by
  unfold State.copyWrite
  split
  · exact h
  · extract_lets s0 t u bad v s1 t2 s2
    have h0 : Mem.wf s0.mem = true := by simp [s0, h]
    have h1 : Mem.wf s1.mem = true := by
      have ht : Mem.wf t.mem = true := State.wrBytes_wf h0 ..
      have : v.mem = t.mem := by unfold v; split <;> simp [u]
      unfold s1
      split
      · exact h0
      · rw [State.foldl_mem (fun _ _ => by simp), this]; exact ht
    have h2 : Mem.wf s2.mem = true := by
      unfold s2 t2
      grind [State.wr_wf, State.atSlice_mem, State.poisonRange_mem]
    simpa using h2
@[simp] theorem State.copyRead_mem (s : State) (r : Req) (l : LaneAcc) : (s.copyRead r l).1.mem = s.mem := by simp [State.copyRead]
@[simp] theorem State.reach_mem (s : State) (r : Req) (l : LaneAcc) (line n : Nat) : (s.reach r l line n).mem = s.mem := by simp [State.reach]
@[simp] theorem State.wroteLine_mem (s : State) (r : Req) (l : LaneAcc) (line : Nat) (keep : List Nat) :
    (s.wroteLine r l line keep).mem = s.mem := by
  simp [State.wroteLine]
@[simp] theorem State.performMem_wf {s : State} (h : Mem.wf s.mem = true) (r : Req) (l : LaneAcc) :
    Mem.wf (s.performMem r l).1.mem = true := by
  unfold State.performMem
  split
  · split <;> simp [h]
  rcases l.unit r with ⟨a, n⟩
  rcases s.scaleOf l with ⟨sc, scBad⟩
  dsimp -zeta only
  extract_lets x line coded bad s0 keep
  have h0 : Mem.wf s0.mem = true := by simpa [s0] using h
  split
  · split
    · exact h0
    split
    · exact h0
    extract_lets bs s1 s2
    have h1 : Mem.wf s1.mem = true := State.foldl_wf (fun t i ht => State.wrBytes_wf ht ..) keep h0
    have h2 : s2.mem = s1.mem := by unfold s2; split <;> rfl
    simpa [h2] using h1
  · split
    · exact h0
    · split <;> exact h0
@[simp] theorem State.performScratch_mem (s : State) (id : Nat) (r : Req) (l : LaneAcc) : (s.performScratch id r l).1.mem = s.mem := by
  unfold State.performScratch
  grind [State.setCore_mem, State.foldl_mem, State.scratchWrite_mem, State.power_mem]
@[simp] theorem State.performAcc_mem (s : State) (r : Req) (l : LaneAcc) : (s.performAcc r l).1.mem = s.mem := by
  unfold State.performAcc
  dsimp only
  (repeat' split) <;> simp

/-! #### Packets -/

@[simp] theorem State.send_mem (s : State) (p : Packet) : (s.send p).mem = s.mem := by simp [State.send]
@[simp] theorem State.rsptoRuns_mem (s : State) (id i : Nat) : (s.rsptoRuns id i).mem = s.mem := by simp [State.rsptoRuns]
@[simp] theorem State.grantFor_mem (s : State) (r : Req) : (s.grantFor r).mem = s.mem := by simp [State.grantFor]
@[simp] theorem State.sendPiece_mem (s : State) (id i : Nat) (r : Req) (l : LaneAcc) (b : Nat) : (s.sendPiece id i r l b).mem = s.mem := by
  simp [State.sendPiece]
@[simp] theorem State.sendLine_mem (s : State) (id i : Nat) (r : Req) (l : LaneAcc) : (s.sendLine id i r l).mem = s.mem := by simp [State.sendLine]
@[simp] theorem State.watch_mem (s : State) (c slot ctx va n : Nat) (wr : Bool) (more : Nat) :
    (s.watch c slot ctx va n wr more).mem = s.mem := by
  unfold State.watch
  split <;> simp
@[simp] theorem State.migTouch_mem (s : State) (ctx vpn : Nat) (peer : Option (Nat × Nat)) : (s.migTouch ctx vpn peer).mem = s.mem := by
  unfold State.migTouch
  (repeat' split) <;> simp

/-! #### Requests -/

@[simp] theorem State.setPiece_mem (s : State) (id i : Nat) (l : LaneAcc) : (s.setPiece id i l).mem = s.mem := by
  unfold State.setPiece
  split <;> simp
@[simp] theorem State.cleanLog_mem (s : State) (c : Nat) : (s.cleanLog c).mem = s.mem := by simp [State.cleanLog]
@[simp] theorem State.failPiece_mem (s : State) (id i cause acc gpa : Nat) (r : Req) (l : LaneAcc) (page : Nat) :
    (s.failPiece id i cause acc gpa r l page).mem = s.mem := by
  simp [State.failPiece]
@[simp] theorem State.reply_mem (s : State) (bs : List Byte) : (s.reply bs).mem = s.mem := by simp [State.reply]
@[simp] theorem State.pcieReturn_mem (s : State) (r : Req) : (s.pcieReturn r).mem = s.mem := by simp [State.pcieReturn]
@[simp] theorem State.refuseMessage_mem (s : State) (ctx lotid cport : Nat) : (s.refuseMessage ctx lotid cport).mem = s.mem := by
  simp [State.refuseMessage]
@[simp] theorem State.peeked_mem (s : State) (r : Req) : (s.peeked r).mem = s.mem := by
  unfold State.peeked
  split <;> simp
@[simp] theorem State.sendScale_mem (s : State) (id i : Nat) (r : Req) (l1 : LaneAcc) (sva e : Nat) :
    (s.sendScale id i r l1 sva e).mem = s.mem := by
  unfold State.sendScale
  split <;> simp
@[simp] theorem State.placeScale_wf {s : State} (h : Mem.wf s.mem = true) (id i : Nat) (r : Req) (l l1 : LaneAcc) (comp level : Nat) :
    Mem.wf (s.placeScale id i r l l1 comp level).mem = true := by
  unfold State.placeScale
  grind [State.setPiece_mem, State.failPiece_mem, State.translate_wf, State.migTouch_mem, State.startFill_wf, State.sendScale_mem]
@[simp] theorem State.watchPiece_mem (s : State) (r : Req) (l : LaneAcc) : (s.watchPiece r l).mem = s.mem := by simp [State.watchPiece]
@[simp] theorem State.placePiece_wf {s : State} (h : Mem.wf s.mem = true) (id i : Nat) (r : Req) (l : LaneAcc) (frame pte comp level : Nat) :
    Mem.wf (s.placePiece id i r l frame pte comp level).mem = true := by
  unfold State.placePiece
  dsimp only
  (repeat' split) <;> simp [h]
@[simp] theorem State.holdPiece_mem (s : State) (id i : Nat) (l : LaneAcc) : (s.holdPiece id i l).mem = s.mem := by simp [State.holdPiece]
@[simp] theorem execTranslateAccess_formKept {s : State} (h : Mem.wf s.mem = true) : FormKept (execTranslateAccess s) := by
  unfold execTranslateAccess
  (repeat' split) <;> grind [State.holdPiece_mem, State.translate_wf, State.placePiece_wf, State.cleanLog_mem, State.failPiece_mem,
      State.setPiece_mem, State.startFill_wf, State.watchPiece_mem, formKept_next, State.foldl_mem]
@[simp] theorem State.wakePage_mem (s : State) (ctx vpn : Nat) : (s.wakePage ctx vpn).mem = s.mem := by simp [State.wakePage]
@[simp] theorem State.fillEnds_mem (s : State) (ctx vpn : Nat) : (s.fillEnds ctx vpn).mem = s.mem := by simp [State.fillEnds]
@[simp] theorem execFillComplete_formKept {s : State} (h : Mem.wf s.mem = true) : FormKept (execFillComplete s) := by
  unfold execFillComplete
  (repeat' split) <;> grind [State.zeroFrame_wf, State.observe_mem, State.writeEntry_wf, State.nextFill_wf, State.wakePage_mem, State.fillEnds_mem,
      formKept_next, State.foldl_mem]
@[simp] theorem State.toUnit_mem (s : State) (id i : Nat) (r : Req) (l : LaneAcc) : (s.toUnit id i r l).mem = s.mem := by
  unfold State.toUnit
  split <;> simp
@[simp] theorem State.noteUnready_mem (s : State) (id : Nat) (r : Req) (l : LaneAcc) : (s.noteUnready id r l).mem = s.mem := by
  unfold State.noteUnready
  split <;> simp
@[simp] theorem State.performLblk_wf {s : State} (h : Mem.wf s.mem = true) (id : Nat) (r : Req) (l : LaneAcc) :
    Mem.wf (s.performLblk id r l).mem = true := by
  unfold State.performLblk
  grind [State.translate_wf, State.enterBlock_mem, State.setReq_mem]
@[simp] theorem State.queueArb_mem (s : State) (id i : Nat) (r : Req) (l : LaneAcc) : (s.queueArb id i r l).mem = s.mem := by simp [State.queueArb]
@[simp] theorem State.performBlk_mem (s : State) (id : Nat) (r : Req) (l : LaneAcc) : (s.performBlk id r l).mem = s.mem := by
  unfold State.performBlk
  extract_lets line t
  have ht : t.mem = s.mem := by
    unfold t
    split <;> simp [State.foldl_mem]
  grind [State.setPiece_mem, State.queueArb_mem, State.releaseBlock_mem]
@[simp] theorem State.landWrite_wf {s : State} (h : Mem.wf s.mem = true) (i : Nat) (bs : List (Nat × Byte)) :
    Mem.wf (s.landWrite i bs).mem = true := 
  State.foldl_wf (fun t b ht => by simp [State.wr_wf, ht]) bs h
@[simp] theorem State.landLane_wf {s : State} (h : Mem.wf s.mem = true) (r : Req) (l : LaneAcc) : Mem.wf (s.landLane r l).1.mem = true := by
  unfold State.landLane
  split
  · exact h
  · dsimp only
    simp only [apply_ite Prod.fst, State.ite_mem]
    split
    · exact h
    split
    · exact h
    split
    · exact State.landWrite_wf h ..
    · refine State.landWrite_wf ?_ ..
      dsimp only
      exact State.wrBytes_wf h ..
@[simp] theorem State.performPiece_wf {s : State} (h : Mem.wf s.mem = true) (id i : Nat) (r : Req) (l : LaneAcc) :
    Mem.wf (s.performPiece id i r l).mem = true := by
  unfold State.performPiece
  dsimp only
  (repeat' split) <;> simp [h]
@[simp] theorem State.performEarly_wf {s : State} (h : Mem.wf s.mem = true) (id i : Nat) (r : Req) (l : LaneAcc) :
    Mem.wf (s.performEarly id i r l).mem = true := by
  unfold State.performEarly
  dsimp only
  split <;> simp [h]
@[simp] theorem State.spoilWord_mem (s : State) (k loc : Nat) : (s.spoilWord k loc).mem = s.mem := by
  unfold State.spoilWord
  dsimp only
  (repeat' split) <;> simp
@[simp] theorem State.errorMet_mem (s : State) (k loc : Nat) : (s.errorMet k loc).mem = s.mem := by simp [State.errorMet]
@[simp] theorem execMemoryAccessPerform_formKept {s : State} (h : Mem.wf s.mem = true) : FormKept (execMemoryAccessPerform s) := by
  unfold execMemoryAccessPerform
  (repeat' split) <;> simp [h]
@[simp] theorem execPeerWriteArrival_formKept {s : State} (h : Mem.wf s.mem = true) : FormKept (execPeerWriteArrival s) := by
  unfold execPeerWriteArrival
  (repeat' split) <;> simp [h]
@[simp] theorem execRemoteRequestArrival_formKept {s : State} (h : Mem.wf s.mem = true) : FormKept (execRemoteRequestArrival s) := by
  unfold execRemoteRequestArrival
  split <;> simp [h]
@[simp] theorem State.dropRspto_mem (s : State) (id i : Nat) : (s.dropRspto id i).mem = s.mem := by simp [State.dropRspto]
@[simp] theorem execRemoteAckArrival_formKept {s : State} (h : Mem.wf s.mem = true) : FormKept (execRemoteAckArrival s) := by
  unfold execRemoteAckArrival
  split <;> simp [h]
@[simp] theorem State.failSent_mem (s : State) (id i cause : Nat) : (s.failSent id i cause).mem = s.mem := by
  unfold State.failSent
  (repeat' split) <;> simp
@[simp] theorem execRsptoExpiry_formKept {s : State} (h : Mem.wf s.mem = true) : FormKept (execRsptoExpiry s) := by
  unfold execRsptoExpiry
  split <;> simp [h]
@[simp] theorem State.answerPiece_mem (s : State) (p : Packet) : (s.answerPiece p).mem = s.mem := by
  unfold State.answerPiece
  dsimp only
  (repeat' split) <;> simp
@[simp] theorem State.loadImage_mem (s : State) (r : Req) : (s.loadImage r).mem = s.mem := by
  unfold State.loadImage
  split <;> simp
@[simp] theorem State.failGroup_mem (s : State) (key cause dev : Nat) : (s.failGroup key cause dev).mem = s.mem := by simp [State.failGroup]
@[simp] theorem State.stgEnded_mem (s : State) (r : Req) : (s.stgEnded r).mem = s.mem := by
  unfold State.stgEnded
  split <;> simp
@[simp] theorem State.scaleDone_mem (s : State) (r : Req) : (s.scaleDone r).mem = s.mem := by
  unfold State.scaleDone
  dsimp only
  (repeat' split) <;> simp
@[simp] theorem State.complete_mem (s : State) (id : Nat) (r0 : Req) : (s.complete id r0).mem = s.mem := by
  unfold State.complete
  extract_lets r k m s0 s1
  have h0 : s0.mem = s.mem := by
    unfold s0
    split
    · simp
    split
    · simp
    split
    · split <;> simp
    · rfl
  have h1 : s1.mem = s.mem := by simpa [s1] using h0
  split
  · simpa using h1
  · split
    · simpa using h1
    split
    · simpa using h1
    split
    · simpa using h1
    split <;> simpa using h1
@[simp] theorem execMemoryOpComplete_formKept {s : State} (h : Mem.wf s.mem = true) : FormKept (execMemoryOpComplete s) := by
  unfold execMemoryOpComplete
  (repeat' split) <;> simp [h]
@[simp] theorem execFaultRecordWrite_formKept {s : State} (h : Mem.wf s.mem = true) : FormKept (execFaultRecordWrite s) := by
  unfold execFaultRecordWrite
  (repeat' split) <;> simp [h]
@[simp] theorem execFaultRingHeadWrite_formKept {s : State} (h : Mem.wf s.mem = true) : FormKept (execFaultRingHeadWrite s) := by
  unfold execFaultRingHeadWrite
  split <;> simp [h]
@[simp] theorem State.againAfter_mem (s : State) (id : Nat) : (s.againAfter id).mem = s.mem := by simp [State.againAfter]
@[simp] theorem execFaultReturnToLog_formKept {s : State} (h : Mem.wf s.mem = true) : FormKept (execFaultReturnToLog s) := by
  unfold execFaultReturnToLog
  dsimp only
  (repeat' split) <;> simp [h]
@[simp] theorem execReplay_formKept {s : State} (h : Mem.wf s.mem = true) : FormKept (execReplay s) := by
  unfold execReplay
  dsimp only
  (repeat' split) <;> simp [h]
@[simp] theorem State.closeRec_mem (s : State) (r : FaultRec) (act cause : Nat) : (s.closeRec r act cause).mem = s.mem := by simp [State.closeRec]
@[simp] theorem execFresolveRetry_formKept {s : State} (h : Mem.wf s.mem = true) : FormKept (execFresolveRetry s) := by
  unfold execFresolveRetry
  (repeat' split) <;> simp [h]

/-! #### Gangs -/

@[simp] theorem State.checkRecord_wf {s : State} (h : Mem.wf s.mem = true) (c slot kind bar : Nat) (pc : W64) :
    Mem.wf (s.checkRecord c slot kind bar pc).mem = true := by
  unfold State.checkRecord
  dsimp only
  (repeat' split) <;> simp [h]
@[simp] theorem State.checkArrival_wf {s : State} (h : Mem.wf s.mem = true) (bar : Nat) : Mem.wf (s.checkArrival bar).mem = true := by
  unfold State.checkArrival
  dsimp only
  (repeat' split) <;> simp [h]
@[simp] theorem State.noteMet_mem (s : State) (c cs n : Nat) : (s.noteMet c cs n).mem = s.mem := by simp [State.noteMet]
@[simp] theorem State.barCheck_mem (s : State) (c cs n : Nat) : (s.barCheck c cs n).mem = s.mem := by simp [State.barCheck]
@[simp] theorem State.arrive_wf {s : State} (h : Mem.wf s.mem = true) (n : Nat) : Mem.wf (s.arrive n).mem = true := by simp [State.arrive, h]
@[simp] theorem State.setWait_mem (s : State) (w : WaitC) : (s.setWait w).mem = s.mem := by simp [State.setWait]
@[simp] theorem State.barWait_mem (s : State) (c slot n : Nat) : (s.barWait c slot n).1.mem = s.mem := by simp [State.barWait]
@[simp] theorem State.sbarCheck_mem (s : State) (c cs : Nat) : (s.sbarCheck c cs).mem = s.mem := by simp [State.sbarCheck]
@[simp] theorem State.carrArrive_mem (s : State) (c cs pos : Nat) (ph : Bool) (ids : List Nat) :
    (s.carrArrive c cs pos ph ids).mem = s.mem := by
  simp [State.carrArrive]
@[simp] theorem State.sbarSend_mem (s : State) (c cs : Nat) : (s.sbarSend c cs).mem = s.mem := by simp [State.sbarSend, State.foldl_mem]
@[simp] theorem State.sbarArrive_wf {s : State} (h : Mem.wf s.mem = true) : Mem.wf s.sbarArrive.mem = true := by simp [State.sbarArrive, h]
@[simp] theorem State.sbarWait_mem (s : State) (c slot : Nat) : (s.sbarWait c slot).1.mem = s.mem := by simp [State.sbarWait]
@[simp] theorem execSbarCarrArrival_formKept {s : State} (h : Mem.wf s.mem = true) : FormKept (execSbarCarrArrival s) := by
  unfold execSbarCarrArrival
  (repeat' split) <;> simp [h]
@[simp] theorem State.endGang_wf {s : State} (h : Mem.wf s.mem = true) (c slot : Nat) (pc : W64) :
    Mem.wf (s.endGang c slot pc).mem = true := by
  unfold State.endGang
  extract_lets g s0 s1 k fs s2 s3
  have h0 : Mem.wf s0.mem = true := State.foldl_wf (fun t n ht => by simp [ht]) _ h
  have h3 : s3.mem = s0.mem := by
    simp [s3, s2, s1, State.foldl_mem]
  simp [h3, h0]
@[simp] theorem State.memberEnded_mem (s : State) (lot : Nat) (errored : Bool) : (s.memberEnded lot errored).mem = s.mem := by
  unfold State.memberEnded
  split <;> simp
@[simp] theorem State.endCrew_mem (s : State) (c cs : Nat) : (s.endCrew c cs).mem = s.mem := by
  unfold State.endCrew
  extract_lets w peers k chutes s1 s2
  have h2 : s2.mem = s.mem := State.foldl_mem (fun t p => by simp) _ _
  grind [State.memberEnded_mem]
@[simp] theorem State.releaseGang_mem (s : State) (c slot : Nat) : (s.releaseGang c slot).mem = s.mem := by
  unfold State.releaseGang
  extract_lets g w err rel k m k1 s1
  split
  · rw [State.endCrew_mem]; rfl
  · rfl
@[simp] theorem execGangRelease_formKept {s : State} (h : Mem.wf s.mem = true) : FormKept (execGangRelease s) := by
  unfold execGangRelease
  (repeat' split) <;> simp [h]

/-! #### Operands -/

@[simp] theorem State.latch_mem (s : State) (lat : Nat) (mask : BitVec 32) (vals : Lanes) : (s.latch lat mask vals).mem = s.mem := by
  simp [State.latch]
@[simp] theorem State.putV_mem (s : State) (d : BitVec 8) (lat : Nat) (lanes : List Nat) (f : Nat → Nat) :
    (s.putV d lat lanes f).mem = s.mem := by
  simp [State.putV]
@[simp] theorem State.putS_mem (s : State) (d : BitVec 8) (lat x : Nat) : (s.putS d lat x).mem = s.mem := by simp [State.putS]
@[simp] theorem State.putP_mem (s : State) (d : BitVec 8) (lat : Nat) (lanes : List Nat) (f : Nat → Bool) :
    (s.putP d lat lanes f).mem = s.mem := by
  simp [State.putP]
@[simp] theorem State.drew_mem (s : State) (mode : Nat) (lanes : List Nat) (n : Nat) : (s.drew mode lanes n).mem = s.mem := by simp [State.drew]

/-! #### Fetch -/

@[simp] theorem State.fetchLook_wf {s : State} (h : Mem.wf s.mem = true) (ctx a n : Nat) : Mem.wf (s.fetchLook ctx a n).1.mem = true := by
  unfold State.fetchLook
  grind [State.translate_wf]
@[simp] theorem State.fetchRecord_mem (s : State) (c ctx cause : Nat) (page : Option (Nat × Nat × Nat)) :
    (s.fetchRecord c ctx cause page).1.mem = s.mem := by
  unfold State.fetchRecord
  split <;> simp
@[simp] theorem State.reenter_mem (s : State) (c slot lead : Nat) (b : Bundle) : (s.reenter c slot lead b).mem = s.mem := by
  unfold State.reenter
  dsimp only
  split <;> simp
@[simp] theorem State.fetchPart_wf {s : State} (h : Mem.wf s.mem = true) (c slot lead : Nat) :
    Mem.wf (s.fetchPart c slot lead).mem = true := by
  unfold State.fetchPart
  grind [State.fetchRecord_mem, State.setGang_mem, State.fetchLook_wf, State.migTouch_mem, State.reenter_mem, State.startFill_wf]
@[simp] theorem State.fetchTable_wf {s : State} (h : Mem.wf s.mem = true) (c slot lead : Nat) (addrs : List Nat) :
    Mem.wf (s.fetchTable c slot lead addrs).mem = true := by
  unfold State.fetchTable
  grind [State.fetchLook_wf, State.startFill_wf, State.fetchRecord_mem, State.setGang_mem]
@[simp] theorem State.openBundle_mem (s : State) (c slot lead gap : Nat) : (s.openBundle c slot lead gap).mem = s.mem := by simp [State.openBundle]
@[simp] theorem execBundleFetchReturn_formKept {s : State} (h : Mem.wf s.mem = true) : FormKept (execBundleFetchReturn s) := by
  unfold execBundleFetchReturn
  (repeat' split) <;> simp [h]

/-! #### Flags -/

@[simp] theorem State.putCarry_mem (s : State) (lanes : List Nat) (f : Nat → Bool) : (s.putCarry lanes f).mem = s.mem := by simp [State.putCarry]
@[simp] theorem guarded_formKept {s : State} (h : Mem.wf s.mem = true) (t : Option Trap) (s' : State) (heff : Mem.wf s'.mem = true) :
    FormKept (guarded t s s') := by cases t <;> simp [guarded, h, heff]
@[simp] theorem State.observeFlag_mem (s : State) (f : Nat) : (s.observeFlag f).mem = s.mem := by simp [State.observeFlag]

/-! #### CBranch -/

@[simp] theorem cRun_formKept {s : State} (h : Mem.wf s.mem = true) (i : Instr) (own : State → Option Trap) (eff : State → State)
    (heff : Mem.wf (eff s).mem = true) :
    FormKept (cRun i own eff s) := by
  simp [cRun, h, heff]
@[simp] theorem State.setNext_mem (s : State) (k : Nat) (pc : W64) : (s.setNext k pc).mem = s.mem := by simp [State.setNext]
@[simp] theorem State.setSlice_mem (s : State) (k : Nat) (x : Slice) : (s.setSlice k x).mem = s.mem := by simp [State.setSlice]
@[simp] theorem State.markRedirect_mem (s : State) : s.markRedirect.mem = s.mem := by simp [State.markRedirect]
@[simp] theorem State.branchLanes_mem (s : State) (lanes : List Nat) (tgt : W64) : (s.branchLanes lanes tgt).mem = s.mem := by
  simp [State.branchLanes, State.foldl_mem]
@[simp] theorem State.branchAll_mem (s : State) (tgt : W64) : (s.branchAll tgt).mem = s.mem := by simp [State.branchAll, State.foldl_mem]
@[simp] theorem execBrfZ_formKept {s : State} (h : Mem.wf s.mem = true) (f : BitVec 5) (tgt : BitVec 24) : FormKept (execBrfZ f tgt s) := by
  simp [execBrfZ, h]
@[simp] theorem execBrfNz_formKept {s : State} (h : Mem.wf s.mem = true) (f : BitVec 5) (tgt : BitVec 24) :
    FormKept (execBrfNz f tgt s) := by
  simp [execBrfNz, h]
@[simp] theorem execBrfErr_formKept {s : State} (h : Mem.wf s.mem = true) (f : BitVec 5) (tgt : BitVec 24) :
    FormKept (execBrfErr f tgt s) := by
  simp [execBrfErr, h]
@[simp] theorem execBra_formKept {s : State} (h : Mem.wf s.mem = true) (g : BitVec 4) (tgt : BitVec 24) : FormKept (execBra g tgt s) := by
  simp [execBra, h]
@[simp] theorem execBrap_formKept {s : State} (h : Mem.wf s.mem = true) (g : BitVec 4) (neg : BitVec 1) (q : BitVec 3) (tgt : BitVec 24) :
    FormKept (execBrap g neg q tgt s) := by
  simp [execBrap, h]
@[simp] theorem execCall_formKept {s : State} (h : Mem.wf s.mem = true) (g : BitVec 4) (l : BitVec 5) (tgt : BitVec 24) :
    FormKept (execCall g l tgt s) := by
  simp [execCall, h]
@[simp] theorem execRet_formKept {s : State} (h : Mem.wf s.mem = true) (n : BitVec 5) : FormKept (execRet n s) := by simp [execRet, h]
@[simp] theorem State.readTable_wf {s : State} (h : Mem.wf s.mem = true) (ctx : Nat) (as : List Nat) : Mem.wf (s.readTable ctx as).1.mem = true := by
  induction as generalizing s with
  | nil => exact h
  | cons a r ih =>
    unfold State.readTable
    grind [State.fetchLook_wf, State.migTouch_mem]
@[simp] theorem execJmpt_formKept {s : State} (h : Mem.wf s.mem = true) (g : BitVec 4) (x : BitVec 8) (tofs : BitVec 16) (n : BitVec 8) :
    FormKept (execJmpt g x tofs n s) := by
  unfold execJmpt
  have hr := s.readTable_wf h
  extract_lets lanes idx bad ctx
  split
  · simpa using h
  split
  · grind [formKept_next, State.branchAll_mem]
  · grind [formKept_next, State.fetchRecord_mem, State.takeTrap_mem]
  · rename_i t es ht
    have hs : Mem.wf t.mem = true := by grind
    dsimp only
    split
    · simpa using hs
    split
    · simpa using hs
    · have hu : ∀ (t u : State) (b : Bool),
        FormKept (.next { t.markRedirect with cur := { u.markRedirect.cur with jmpt := b } }) ↔ Mem.wf t.mem = true := by
        simp
      rw [hu, State.foldl_mem (fun t k => by split <;> simp)]
      exact hs
@[simp] theorem execReconv_formKept {s : State} (h : Mem.wf s.mem = true) : FormKept (execReconv s) := by simp [execReconv, State.foldl_mem, h]
@[simp] theorem State.exitSlices_mem (s : State) (g : BitVec 4) : (s.exitSlices g).mem = s.mem := by simp [State.exitSlices, State.foldl_mem]
@[simp] theorem execExit_formKept {s : State} (h : Mem.wf s.mem = true) (g : BitVec 4) : FormKept (execExit g s) := by
  unfold execExit
  grind [cRun_formKept, State.exitSlices_mem, State.endGang_wf, formKept_next]

/-! #### CWait -/

@[simp] theorem execWaitf_formKept {s : State} (h : Mem.wf s.mem = true) (ne : BitVec 1) (f : BitVec 5) : FormKept (execWaitf ne f s) := by
  simp [execWaitf, h]
@[simp] theorem State.setTimer_mem (s : State) (until_ : Nat) (y : Bool) : (s.setTimer until_ y).mem = s.mem := by simp [State.setTimer]
@[simp] theorem execYield_formKept {s : State} (h : Mem.wf s.mem = true) (n : BitVec 8) : FormKept (execYield n s) := by simp [execYield, h]
@[simp] theorem execSleep_formKept {s : State} (h : Mem.wf s.mem = true) (n : BitVec 8) : FormKept (execSleep n s) := by simp [execSleep, h]
@[simp] theorem execWaitTimerExpiry_formKept {s : State} (h : Mem.wf s.mem = true) : FormKept (execWaitTimerExpiry s) := by
  unfold execWaitTimerExpiry
  dsimp only
  (repeat' split) <;> simp [h]
@[simp] theorem execRegang_formKept {s : State} (h : Mem.wf s.mem = true) : FormKept (execRegang s) := by simp [execRegang, h]
@[simp] theorem execBarset_formKept {s : State} (h : Mem.wf s.mem = true) (c : BitVec 5) (b : BitVec 4) : FormKept (execBarset c b s) := by
  simp [execBarset, h]
@[simp] theorem State.waitBar_mem (s : State) (n : Nat) : (s.waitBar n).mem = s.mem := by simp [State.waitBar]
@[simp] theorem State.waitSbar_mem (s : State) : s.waitSbar.mem = s.mem := by simp [State.waitSbar]
@[simp] theorem execBara_formKept {s : State} (h : Mem.wf s.mem = true) (b : BitVec 4) : FormKept (execBara b s) := by simp [execBara, h]
@[simp] theorem execBarw_formKept {s : State} (h : Mem.wf s.mem = true) (b : BitVec 4) : FormKept (execBarw b s) := by simp [execBarw, h]
@[simp] theorem execBaraw_formKept {s : State} (h : Mem.wf s.mem = true) (b : BitVec 4) : FormKept (execBaraw b s) := by simp [execBaraw, h]
@[simp] theorem execSbarA_formKept {s : State} (h : Mem.wf s.mem = true) : FormKept (execSbarA s) := by simp [execSbarA, h]
@[simp] theorem execSbarW_formKept {s : State} (h : Mem.wf s.mem = true) : FormKept (execSbarW s) := by simp [execSbarW, h]
@[simp] theorem execSbarAw_formKept {s : State} (h : Mem.wf s.mem = true) : FormKept (execSbarAw s) := by simp [execSbarAw, h]
@[simp] theorem State.leaveWait_mem (s : State) (c slot : Nat) (w : WaitC) : (s.leaveWait c slot w).mem = s.mem := by
  unfold State.leaveWait
  split <;> simp
@[simp] theorem State.testPart_mem (s : State) (c slot lead : Nat) : (s.testPart c slot lead).mem = s.mem := by
  unfold State.testPart
  dsimp only
  (repeat' split) <;> simp
@[simp] theorem State.testRegang_mem (s : State) (c slot : Nat) : (s.testRegang c slot).mem = s.mem := by simp [State.testRegang]
@[simp] theorem State.testWaits_mem (s : State) : s.testWaits.mem = s.mem := by
  unfold State.testWaits
  exact State.foldl_mem (fun t x => State.foldl_mem (fun u g => by simp [State.foldl_mem]) _ t) _ s
@[simp] theorem State.softTrap_mem (s : State) (tcause n : Nat) : (s.softTrap tcause n).mem = s.mem := by simp [State.softTrap]
@[simp] theorem execTrap_formKept {s : State} (h : Mem.wf s.mem = true) (n : BitVec 8) : FormKept (execTrap n s) := by simp [execTrap, h]
@[simp] theorem execBkpt_formKept {s : State} (h : Mem.wf s.mem = true) (n : BitVec 8) : FormKept (execBkpt n s) := by simp [execBkpt, h]
@[simp] theorem execSysc_formKept {s : State} (h : Mem.wf s.mem = true) (n : BitVec 24) : FormKept (execSysc n s) := by simp [execSysc, h]
@[simp] theorem State.eret_wf {s : State} (h : Mem.wf s.mem = true) (c slot : Nat) : Mem.wf (s.eret c slot).mem = true := by
  unfold State.eret
  dsimp only
  (repeat' split) <;> simp [h]
@[simp] theorem execEret_formKept {s : State} (h : Mem.wf s.mem = true) (slot : BitVec 6) : FormKept (execEret slot s) := by simp [execEret, h]

/-! #### SysRegs -/

@[simp] theorem State.landSys_mem (s : State) (c slot reg : Nat) (v : W64) : (s.landSys c slot reg v).mem = s.mem := by
  unfold State.landSys
  (repeat' split) <;> simp
@[simp] theorem execRngseedWrite_formKept {s : State} (h : Mem.wf s.mem = true) : FormKept (execRngseedWrite s) := by
  unfold execRngseedWrite
  (repeat' split) <;> simp [h]
@[simp] theorem execFerrClear_formKept {s : State} (h : Mem.wf s.mem = true) : FormKept (execFerrClear s) := by
  unfold execFerrClear
  (repeat' split) <;> simp [h]
@[simp] theorem execSldepthWrite_formKept {s : State} (h : Mem.wf s.mem = true) : FormKept (execSldepthWrite s) := by
  unfold execSldepthWrite
  (repeat' split) <;> simp [h]
@[simp] theorem execGtagWrite_formKept {s : State} (h : Mem.wf s.mem = true) : FormKept (execGtagWrite s) := by
  unfold execGtagWrite
  (repeat' split) <;> simp [h]

/-! #### CSys -/

@[simp] theorem execMfs_formKept {s : State} (h : Mem.wf s.mem = true) (sd : BitVec 5) (reg : BitVec 16) : FormKept (execMfs sd reg s) := by
  simp [execMfs, h]
@[simp] theorem State.writeSys_mem (s : State) (reg : Nat) (v : W64) : (s.writeSys reg v).mem = s.mem := by
  unfold State.writeSys
  (repeat' split) <;> simp
@[simp] theorem execMts_formKept {s : State} (h : Mem.wf s.mem = true) (sa : BitVec 5) (reg : BitVec 16) : FormKept (execMts sa reg s) := by
  simp [execMts, h]
@[simp] theorem execMpset_formKept {s : State} (h : Mem.wf s.mem = true) (n : BitVec 3) (v : BitVec 8) : FormKept (execMpset n v s) := by
  simp [execMpset, h]
@[simp] theorem execWinset_formKept {s : State} (h : Mem.wf s.mem = true) (a : BitVec 5) (n : BitVec 4) : FormKept (execWinset a n s) := by
  simp [execWinset, h]
@[simp] theorem State.joinReq_mem (s : State) (z n : Nat) (sr h f : BitVec 5) : (s.joinReq z n sr h f).mem = s.mem := by simp [State.joinReq]
@[simp] theorem cJoin_formKept {s : State} (h : Mem.wf s.mem = true) (i : Instr) (z n : Nat) (sr h f : BitVec 5) :
    FormKept (cJoin i z n sr h f s) := by
  unfold cJoin
  grind [cRun_formKept, State.bump_mem, State.joinReq_mem, formKept_next]
@[simp] theorem execPortcfg_formKept {s : State} (h : Mem.wf s.mem = true) (sr h f : BitVec 5) : FormKept (execPortcfg sr h f s) := by
  unfold execPortcfg
  grind [cRun_formKept, State.joinReq_mem, State.bump_mem, State.setMe_mem, formKept_next]
@[simp] theorem execQcreate_formKept {s : State} (h : Mem.wf s.mem = true) (sr h f : BitVec 5) : FormKept (execQcreate sr h f s) := by
  unfold execQcreate
  grind [cRun_formKept, State.joinReq_mem, State.bump_mem, State.setMe_mem, formKept_next]
@[simp] theorem execSimg_formKept {s : State} (h : Mem.wf s.mem = true) (a : BitVec 5) (kind : BitVec 3) (f : BitVec 5) :
    FormKept (execSimg a kind f s) := by
  simp [execSimg, h]
@[simp] theorem execLimg_formKept {s : State} (h : Mem.wf s.mem = true) (a : BitVec 5) (kind : BitVec 3) (f : BitVec 5) :
    FormKept (execLimg a kind f s) := by
  simp [execLimg, h]
@[simp] theorem execFixedLatencyWriteback_formKept {s : State} (h : Mem.wf s.mem = true) : FormKept (execFixedLatencyWriteback s) := by
  unfold execFixedLatencyWriteback
  (repeat' split) <;> simp [h]

/-! #### MSlot -/

@[simp] theorem mRun_formKept {s : State} (h : Mem.wf s.mem = true) (i : Instr) (o : MOp) (own : State → Option Trap)
    (eff : State → State) (heff : Mem.wf (eff (s.pmc 3 1)).mem = true) :
    FormKept (mRun i o own eff s) := by
  simp [mRun, h, heff]
@[simp] theorem State.markV_mem (s : State) (d g f : Nat) (ls : List Nat) : (s.markV d g f ls).mem = s.mem := State.foldl_mem (fun t i => by simp) _ s
@[simp] theorem State.markS_mem (s : State) (n f : Nat) : (s.markS n f).mem = s.mem := by simp [State.markS]
@[simp] theorem mLoad_formKept {s : State} (h : Mem.wf s.mem = true) (i : Instr) (o : MOp) (opc w : Nat) (raw : Bool) :
    FormKept (mLoad i o opc w raw s) := by
  simp [mLoad, h]
@[simp] theorem mLoadS_formKept {s : State} (h : Mem.wf s.mem = true) (i : Instr) (o : MOp) (opc w : Nat) :
    FormKept (mLoadS i o opc w s) := by
  simp [mLoadS, h]
@[simp] theorem mStore_formKept {s : State} (h : Mem.wf s.mem = true) (i : Instr) (o : MOp) (opc w scale : Nat) :
    FormKept (mStore i o opc w scale s) := by
  simp [mStore, h]
@[simp] theorem mAtom_formKept {s : State} (h : Mem.wf s.mem = true) (i : Instr) (o : MOp) (opc w : Nat) : FormKept (mAtom i o opc w s) := by
  simp [mAtom, h]
@[simp] theorem mRedm_formKept {s : State} (h : Mem.wf s.mem = true) (i : Instr) (o : MOp) (opc w : Nat) : FormKept (mRedm i o opc w s) := by
  simp [mRedm, h]
@[simp] theorem mCas_formKept {s : State} (h : Mem.wf s.mem = true) (i : Instr) (o : MOp) (opc w : Nat) : FormKept (mCas i o opc w s) := by
  simp [mCas, h]
@[simp] theorem mAccst_formKept {s : State} (h : Mem.wf s.mem = true) (i : Instr) (o : MOp) (opc : Nat) : FormKept (mAccst i o opc s) := by
  simp [mAccst, h]
@[simp] theorem mStg_formKept {s : State} (h : Mem.wf s.mem = true) (i : Instr) (o : MOp) (opc w : Nat) : FormKept (mStg i o opc w s) := by
  simp [mStg, h]

/-! #### Skidder -/

@[simp] theorem State.setSkid_mem (s : State) (c e : Nat) (k : Skid) : (s.setSkid c e k).mem = s.mem := by simp [State.setSkid]
@[simp] theorem State.skidReq_mem (s : State) (c e : Nat) (k : Skid) (wr : Bool) (z : Nat) (lanes : List LaneAcc) (words : List Nat) :
    (s.skidReq c e k wr z lanes words).mem = s.mem := by
  simp [State.skidReq]
@[simp] theorem State.skidRead_mem (s : State) (c e : Nat) (k : Skid) (d : Side) (ofs : Int) (n : Nat)
    (got : Skid → Nat × Bool × Nat × Nat → Skid) :
    (s.skidRead c e k d ofs n got).mem = s.mem := by
  simp [State.skidRead]
@[simp] theorem State.scratchPut_mem (s : State) (c e : Nat) (t : Nat × Nat × Alloc) (d : Side) (dk : Int) (bs : List Byte)
    (attr scale : Nat) (bad scaleOnly : Bool) :
    (s.scratchPut c e t d dk bs attr scale bad scaleOnly).mem = s.mem := by
  simp [State.scratchPut]
@[simp] theorem State.slotPut_mem (s : State) (c e : Nat) (k : Skid) (bs : List Byte) (scale : Nat) :
    (s.slotPut c e k bs scale).mem = s.mem := by
  simp [State.slotPut]
@[simp] theorem State.skidMoved_mem (s : State) (c e n : Nat) : (s.skidMoved c e n).mem = s.mem := by simp [State.skidMoved]
@[simp] theorem State.skidWrite_wf {s : State} (h : Mem.wf s.mem = true) (c e : Nat) (k : Skid) : Mem.wf (s.skidWrite c e k).mem = true := by
  simp [State.skidWrite, State.foldl_mem, h]
@[simp] theorem State.skidFault_mem (s : State) (c e : Nat) (k : Skid) (cause : Nat) (rec : Nat × Nat) :
    (s.skidFault c e k cause rec).mem = s.mem := by
  simp [State.skidFault]
@[simp] theorem State.skidAnswer_mem (s : State) (c e : Nat) (k : Skid) (id : Nat) (r : Req) : (s.skidAnswer c e k id r).mem = s.mem := by
  unfold State.skidAnswer
  split <;> simp
@[simp] theorem State.skidStep_wf {s : State} (h : Mem.wf s.mem = true) (c e : Nat) : Mem.wf (s.skidStep c e).mem = true := by
  unfold State.skidStep
  dsimp only
  (repeat' split) <;> simp [h]
@[simp] theorem execSkidderUnitDone_formKept {s : State} (h : Mem.wf s.mem = true) : FormKept (execSkidderUnitDone s) := by
  unfold execSkidderUnitDone
  split <;> simp [h]
@[simp] theorem State.skidEnd_mem (s : State) (c e : Nat) (k : Skid) : (s.skidEnd c e k).mem = s.mem := by simp [State.skidEnd]
@[simp] theorem State.skidNote_mem (s : State) (c e : Nat) (k : Skid) (m : Nat × W64 × W64) : (s.skidNote c e k m).mem = s.mem := by
  simp [State.skidNote]
@[simp] theorem execSkidderComplete_formKept {s : State} (h : Mem.wf s.mem = true) : FormKept (execSkidderComplete s) := by
  unfold execSkidderComplete
  dsimp only
  (repeat' split) <;> simp [h]

/-! #### VSlot -/

@[simp] theorem vRun_formKept {s : State} (h : Mem.wf s.mem = true) (i : Instr) (o : VOp) (eff : State → State) (heff : Mem.wf (eff
    (s.countV (s.vLanes o))).mem = true) :
    FormKept (vRun i o eff s) := by
  simp [vRun, h, heff]
@[simp] theorem vIntEff_mem (o : VOp) (lat : Nat) (f : Nat → Nat → Nat → Nat → Nat) (s : State) : (vIntEff o lat f s).mem = s.mem := by
  simp [vIntEff]
@[simp] theorem vInt_formKept {s : State} (h : Mem.wf s.mem = true) (i : Instr) (o : VOp) (lat : Nat) (f : Nat → Nat → Nat → Nat → Nat) :
    FormKept (vInt i o lat f s) := by
  simp [vInt, h]
@[simp] theorem vCarryEff_mem (o : VOp) (f : Nat → Nat → Nat → Nat) (c : Nat → Nat → Bool) (s : State) : (vCarryEff o f c s).mem = s.mem := by
  simp [vCarryEff]
@[simp] theorem vCmpEff_mem (o : VOp) (f : Nat → Nat → Nat → Bool) (s : State) : (vCmpEff o f s).mem = s.mem := by simp [vCmpEff]
@[simp] theorem vCmp_formKept {s : State} (h : Mem.wf s.mem = true) (i : Instr) (o : VOp) (f : Nat → Nat → Nat → Bool) :
    FormKept (vCmp i o f s) := by
  simp [vCmp, h]
@[simp] theorem vFloatEff_mem (o : VOp) (lat n : Nat) (f : (Nat → Nat) → Nat → Nat → Nat → Nat) (s : State) :
    (vFloatEff o lat n f s).mem = s.mem := by
  simp [vFloatEff]
@[simp] theorem vFloat_formKept {s : State} (h : Mem.wf s.mem = true) (i : Instr) (o : VOp) (lat n : Nat) (f :
    (Nat → Nat) → Nat → Nat → Nat → Nat) :
    FormKept (vFloat i o lat n f s) := by
  simp [vFloat, h]
@[simp] theorem vFcmp_formKept {s : State} (h : Mem.wf s.mem = true) (i : Instr) (o : VOp) (f : Nat → Nat → Bool) :
    FormKept (vFcmp i o f s) := by
  simp [vFcmp, h]
@[simp] theorem vPairEff_mem (o : VOp) (fmt : Num.Fmt) (n : Nat) (f : (Nat → Nat) → Nat → Nat → Nat → Nat) (s : State) :
    (vPairEff o fmt n f s).mem = s.mem := by
  simp [vPairEff]
@[simp] theorem vPair_formKept {s : State} (h : Mem.wf s.mem = true) (i : Instr) (o : VOp) (fmt : Num.Fmt) (n : Nat) (f :
    (Nat → Nat) → Nat → Nat → Nat → Nat) :
    FormKept (vPair i o fmt n f s) := by
  simp [vPair, h]
@[simp] theorem vPred_formKept {s : State} (h : Mem.wf s.mem = true) (i : Instr) (o : VOp) (f : Bool → Bool → Bool) :
    FormKept (vPred i o f s) := by
  simp [vPred, h]
@[simp] theorem vShfl_formKept {s : State} (h : Mem.wf s.mem = true) (i : Instr) (o : VOp) (k : Nat) : FormKept (vShfl i o k s) := by
  simp [vShfl, h]
@[simp] theorem vRed_formKept {s : State} (h : Mem.wf s.mem = true) (i : Instr) (o : VOp) (f : Nat → Nat → Nat) :
    FormKept (vRed i o f s) := by
  simp [vRed, h]

/-! #### VCross -/

@[simp] theorem execVoteAll_formKept {s : State} (h : Mem.wf s.mem = true) (o : VOp) : FormKept (execVoteAll o s) := by simp [execVoteAll, h]
@[simp] theorem execVoteAny_formKept {s : State} (h : Mem.wf s.mem = true) (o : VOp) : FormKept (execVoteAny o s) := by simp [execVoteAny, h]
@[simp] theorem execVoteBal_formKept {s : State} (h : Mem.wf s.mem = true) (o : VOp) : FormKept (execVoteBal o s) := by simp [execVoteBal, h]
@[simp] theorem execPnot_formKept {s : State} (h : Mem.wf s.mem = true) (o : VOp) : FormKept (execPnot o s) := by simp [execPnot, h]
@[simp] theorem execMovs_formKept {s : State} (h : Mem.wf s.mem = true) (o : VOp) : FormKept (execMovs o s) := by simp [execMovs, h]
@[simp] theorem State.setChute_mem (s : State) (n : Nat) (c : Chute) : (s.setChute n c).mem = s.mem := by simp [State.setChute]
@[simp] theorem execChpop_formKept {s : State} (h : Mem.wf s.mem = true) (o : VOp) : FormKept (execChpop o s) := by
  unfold execChpop
  dsimp only
  split <;> simp [h]
@[simp] theorem execLredAddF32_formKept {s : State} (h : Mem.wf s.mem = true) (o : VOp) : FormKept (execLredAddF32 o s) := by
  simp [execLredAddF32, h]
@[simp] theorem execNopSlot_formKept {s : State} (h : Mem.wf s.mem = true) (k : NopSlot) : FormKept (execNopSlot k s) := by simp [execNopSlot, h]
@[simp] theorem execNopX32_formKept {s : State} (h : Mem.wf s.mem = true) : FormKept (execNopX32 s) := by simp [execNopX32, h]

/-! #### XCopy -/

@[simp] theorem xRun_formKept {s : State} (h : Mem.wf s.mem = true) (i : Instr) (f : BitVec 5) (own : State → Option Trap)
    (eff : State → State) (heff : Mem.wf (eff (s.pmc 4 1)).mem = true) :
    FormKept (xRun i f own eff s) := by
  simp [xRun, h, heff]
@[simp] theorem State.enterSkid_mem (s : State) (k : Skid) : (s.enterSkid k).mem = s.mem := by
  unfold State.enterSkid
  split <;> simp
@[simp] theorem State.copyWith_mem (s : State) (k : Skid) (any : Bool) (src dst idx : Option (Except Nat Side)) (note : Except Nat (Option
    (Nat × W64 × W64))) :
    (s.copyWith k any src dst idx note).mem = s.mem := by
  unfold State.copyWith
  dsimp only
  split <;> simp
@[simp] theorem execCpy_formKept {s : State} (h : Mem.wf s.mem = true) (f : BitVec 5) (pol : BitVec 3) (sd ss sn : BitVec 5) (z : BitVec 3) :
    FormKept (execCpy f pol sd ss sn z s) := by
  simp [execCpy, h]
@[simp] theorem execCpyfill_formKept {s : State} (h : Mem.wf s.mem = true) (f : BitVec 5) (pol : BitVec 3) (sd sv sn : BitVec 5) (z : BitVec 3) :
    FormKept (execCpyfill f pol sd sv sn z s) := by
  simp [execCpyfill, h]
@[simp] theorem execCpyt_formKept {s : State} (h : Mem.wf s.mem = true) (o : CpytOp) : FormKept (execCpyt o s) := by simp [execCpyt, h]
@[simp] theorem execCpyg_formKept {s : State} (h : Mem.wf s.mem = true) (o : CpygOp) : FormKept (execCpyg o s) := by simp [execCpyg, h]
@[simp] theorem execCpymc_formKept {s : State} (h : Mem.wf s.mem = true) (o : CpymcOp) : FormKept (execCpymc o s) := by simp [execCpymc, h]
@[simp] theorem execCpych_formKept {s : State} (h : Mem.wf s.mem = true) (o : CpychOp) : FormKept (execCpych o s) := by simp [execCpych, h]
@[simp] theorem execWbld_formKept {s : State} (h : Mem.wf s.mem = true) (o : WbldOp) : FormKept (execWbld o s) := by simp [execWbld, h]
@[simp] theorem execCprogWrite_formKept {s : State} (h : Mem.wf s.mem = true) : FormKept (execCprogWrite s) := by
  unfold execCprogWrite
  dsimp only
  (repeat' split) <;> simp [h]

/-! #### Groups -/

@[simp] theorem State.setCopy_mem (s : State) (g v : Nat) : (s.setCopy g v).mem = s.mem := by simp [State.setCopy]
@[simp] theorem State.groupReq_mem (s : State) (k : ReqKind) (op : Instr) (f : BitVec 5) (g dest : Nat) (deps : List Nat) :
    (s.groupReq k op f g dest deps).mem = s.mem := by
  simp [State.groupReq]
@[simp] theorem execGopen_formKept {s : State} (h : Mem.wf s.mem = true) (f : BitVec 5) (g : BitVec 10) : FormKept (execGopen f g s) := by
  simp [execGopen, h]
@[simp] theorem groupEnd_formKept {s : State} (h : Mem.wf s.mem = true) (i : Instr) (f : BitVec 5) (g : BitVec 10) (abort : Nat) :
    FormKept (groupEnd i f g abort s) := by
  simp [groupEnd, h]
@[simp] theorem execGquery_formKept {s : State} (h : Mem.wf s.mem = true) (f : BitVec 5) (g : BitVec 10) (sd : BitVec 5) :
    FormKept (execGquery f g sd s) := by
  simp [execGquery, h]
@[simp] theorem State.setGroup_mem (s : State) (key : Nat) (g : Group) : (s.setGroup key g).mem = s.mem := by simp [State.setGroup]
@[simp] theorem State.dropCopy_mem (s : State) (c key v : Nat) : (s.dropCopy c key v).mem = s.mem := by simp [State.dropCopy]
@[simp] theorem State.endGroupReq_mem (s : State) (id cause : Nat) : (s.endGroupReq id cause).mem = s.mem := by
  unfold State.endGroupReq
  split <;> simp
@[simp] theorem execGopenAtTable_formKept {s : State} (h : Mem.wf s.mem = true) : FormKept (execGopenAtTable s) := by
  unfold execGopenAtTable
  (repeat' split) <;> simp [h]
@[simp] theorem State.stgLane_mem (s : State) (id i : Nat) (r : Req) (l : LaneAcc) : (s.stgLane id i r l).mem = s.mem := by
  unfold State.stgLane
  dsimp only
  split <;> simp
@[simp] theorem State.stgSend_mem (s : State) (id i : Nat) (r : Req) (l : LaneAcc) : (s.stgSend id i r l).mem = s.mem := by simp [State.stgSend]
@[simp] theorem execStgAtTable_formKept {s : State} (h : Mem.wf s.mem = true) : FormKept (execStgAtTable s) := by
  unfold execStgAtTable
  (repeat' split) <;> grind [State.queueArb_mem, State.setReq_mem, State.stgLane_mem, State.stgSend_mem, formKept_next, State.foldl_mem]
@[simp] theorem State.toDests_mem (s : State) (ctx g : Nat) (x : Group) (kind : Nat) : (s.toDests ctx g x kind).mem = s.mem := by
  simp [State.toDests, State.foldl_mem]
@[simp] theorem State.groupDone_mem (s : State) (key : Nat) (x : Group) (commit : Bool) : (s.groupDone key x commit).mem = s.mem := by
  simp [State.groupDone]
@[simp] theorem execGcommitAtTable_formKept {s : State} (h : Mem.wf s.mem = true) : FormKept (execGcommitAtTable s) := by
  unfold execGcommitAtTable
  (repeat' split) <;> simp [h]
@[simp] theorem State.abortAll_mem (s : State) (ctx g : Nat) (x : Group) : (s.abortAll ctx g x).mem = s.mem := by simp [State.abortAll]
@[simp] theorem State.groupAcked_mem (s : State) (key dev : Nat) (dctx : Option Nat) (lost : Bool) :
    (s.groupAcked key dev dctx lost).mem = s.mem := by
  simp [State.groupAcked]
@[simp] theorem State.abortLost_mem (s : State) (ctx g : Nat) (x : Group) : (s.abortLost ctx g x).mem = s.mem := by
  simp [State.abortLost, State.foldl_mem]
@[simp] theorem execCommitPrepareSend_formKept {s : State} (h : Mem.wf s.mem = true) : FormKept (execCommitPrepareSend s) := by
  unfold execCommitPrepareSend
  dsimp only
  (repeat' split) <;> simp [h]
@[simp] theorem execAnswerArrival_formKept {s : State} (h : Mem.wf s.mem = true) : FormKept (execAnswerArrival s) := by
  unfold execAnswerArrival
  split <;> simp [h]
@[simp] theorem execPreptoExpiry_formKept {s : State} (h : Mem.wf s.mem = true) : FormKept (execPreptoExpiry s) := by
  unfold execPreptoExpiry
  split <;> simp [h]
@[simp] theorem execGroupAckArrival_formKept {s : State} (h : Mem.wf s.mem = true) : FormKept (execGroupAckArrival s) := by
  unfold execGroupAckArrival
  split <;> simp [h]
@[simp] theorem execStgLaneArrival_formKept {s : State} (h : Mem.wf s.mem = true) : FormKept (execStgLaneArrival s) := by
  unfold execStgLaneArrival
  split <;> simp [h]
@[simp] theorem State.freeDest_mem (s : State) (dev octx g dctx : Nat) : (s.freeDest dev octx g dctx).mem = s.mem := by simp [State.freeDest]
@[simp] theorem State.publishLine_wf {s : State} (h : Mem.wf s.mem = true) (e : LandEntry) : Mem.wf (s.publishLine e).mem = true := by
  unfold State.publishLine
  extract_lets bs t u
  have ht : Mem.wf t.mem = true := by simpa [t] using h
  have hu : Mem.wf u.mem = true := by
    unfold u
    split
    · exact State.wrOver_wf ht ..
    · exact State.foldl_wf (fun v b hv => State.wrBytes_wf hv ..) bs (by simpa using ht)
  simp [hu]
@[simp] theorem State.publish_wf {s : State} (h : Mem.wf s.mem = true) (dev octx g dctx : Nat) :
    Mem.wf (s.publish dev octx g dctx).mem = true := by
  simp [State.publish, State.foldl_wf (fun t e ht => State.publishLine_wf ht e) _ h]
@[simp] theorem execPrepareArrival_formKept {s : State} (h : Mem.wf s.mem = true) : FormKept (execPrepareArrival s) := by
  unfold execPrepareArrival
  split <;> simp [h]
@[simp] theorem State.retryEntry_wf {s : State} (h : Mem.wf s.mem = true) (e : LandEntry) : Mem.wf (s.retryEntry e).1.mem = true := by
  unfold State.retryEntry
  grind [State.translate_wf, State.startFill_wf]
@[simp] theorem State.retryEntries_wf {s : State} (h : Mem.wf s.mem = true) (es : List LandEntry) : Mem.wf (State.retryEntries es s).1.mem = true
    := by
  induction es generalizing s with
  | nil => exact h
  | cons e es ih =>
    unfold State.retryEntries
    grind [State.retryEntry_wf]
@[simp] theorem execPrepareAnswerSend_formKept {s : State} (h : Mem.wf s.mem = true) : FormKept (execPrepareAnswerSend s) := by
  unfold execPrepareAnswerSend
  (repeat' split) <;> grind [State.send_mem, State.retryEntries_wf, State.later_mem, State.recallAll_mem, formKept_next, State.foldl_mem]
@[simp] theorem State.ackGroup_mem (s : State) (dev octx g dctx : Nat) : (s.ackGroup dev octx g dctx).mem = s.mem := by simp [State.ackGroup]
@[simp] theorem execCommitArrival_formKept {s : State} (h : Mem.wf s.mem = true) : FormKept (execCommitArrival s) := by
  unfold execCommitArrival
  split <;> simp [h]
@[simp] theorem execAbortArrival_formKept {s : State} (h : Mem.wf s.mem = true) : FormKept (execAbortArrival s) := by
  unfold execAbortArrival
  split <;> simp [h]
@[simp] theorem execGresolveCommit_formKept {s : State} (h : Mem.wf s.mem = true) : FormKept (execGresolveCommit s) := by
  unfold execGresolveCommit
  have hf := State.foldl_wf (f := fun t (d : DestGroup) => (t.publish d.odev d.octx d.group d.dctx).ackGroup d.odev d.octx d.group d.dctx)
    (fun t d ht => by simp [ht])
  split
  · split <;> simp [h, hf]
  · simp [h]
@[simp] theorem execGresolveAbort_formKept {s : State} (h : Mem.wf s.mem = true) : FormKept (execGresolveAbort s) := by
  unfold execGresolveAbort
  split <;> simp [h, State.foldl_mem]
@[simp] theorem State.dropPeer_mem (s : State) (dev : Nat) : (s.dropPeer dev).mem = s.mem := by simp [State.dropPeer]
@[simp] theorem execPeerLostReport_formKept {s : State} (h : Mem.wf s.mem = true) : FormKept (execPeerLostReport s) := by
  unfold execPeerLostReport
  split <;> simp [h, State.foldl_mem]
@[simp] theorem execOriginLostReport_formKept {s : State} (h : Mem.wf s.mem = true) : FormKept (execOriginLostReport s) := by
  unfold execOriginLostReport
  split <;> simp [h, State.foldl_mem]

/-! #### MLoad -/

@[simp] theorem execLdx_formKept {s : State} (h : Mem.wf s.mem = true) (o : MOp) : FormKept (execLdx o s) := by simp [execLdx, h]
@[simp] theorem execLdc_formKept {s : State} (h : Mem.wf s.mem = true) (o : MOp) : FormKept (execLdc o s) := by simp [execLdc, h]

/-! #### MOrder -/

@[simp] theorem mBlock_formKept {s : State} (h : Mem.wf s.mem = true) (i : Instr) (o : MOp) (opc : Nat) (k : ReqKind) :
    FormKept (mBlock i o opc k s) := by
  simp [mBlock, h]
@[simp] theorem execPref_formKept {s : State} (h : Mem.wf s.mem = true) (o : MOp) : FormKept (execPref o s) := by simp [execPref, h]
@[simp] theorem execMark_formKept {s : State} (h : Mem.wf s.mem = true) (o : MOp) : FormKept (execMark o s) := by simp [execMark, h]
@[simp] theorem execFence_formKept {s : State} (h : Mem.wf s.mem = true) (o : MOp) : FormKept (execFence o s) := by simp [execFence, h]
@[simp] theorem execSend_formKept {s : State} (h : Mem.wf s.mem = true) (o : MOp) : FormKept (execSend o s) := by simp [execSend, h]
@[simp] theorem execQpush_formKept {s : State} (h : Mem.wf s.mem = true) (o : MOp) : FormKept (execQpush o s) := by simp [execQpush, h]
@[simp] theorem State.markRec_mem (s : State) (n f : Nat) : (s.markRec n f).mem = s.mem := by
  simp [State.markRec, State.foldl_mem]
@[simp] theorem execQpop_formKept {s : State} (h : Mem.wf s.mem = true) (o : MOp) : FormKept (execQpop o s) := by simp [execQpop, h]
@[simp] theorem execQtry_formKept {s : State} (h : Mem.wf s.mem = true) (o : MOp) : FormKept (execQtry o s) := by
  unfold execQtry
  refine mRun_formKept h _ _ _ _ ?_
  dsimp only
  rw [State.setMe_mem, State.markRec_mem, State.issueReq_mem, State.pmc_mem]
  simp only [h]

/-! #### MStore -/

@[simp] theorem execStx_formKept {s : State} (h : Mem.wf s.mem = true) (o : MOp) : FormKept (execStx o s) := by simp [execStx, h]
@[simp] theorem execAccld_formKept {s : State} (h : Mem.wf s.mem = true) (o : MOp) : FormKept (execAccld o s) := by simp [execAccld, h]
@[simp] theorem execStch_formKept {s : State} (h : Mem.wf s.mem = true) (o : MOp) : FormKept (execStch o s) := by
  unfold execStch
  refine mRun_formKept h _ _ _ _ ?_
  dsimp only
  split <;> simp [h]

/-! #### Mill -/

@[simp] theorem State.mmaStep_mem (s : State) (c cs : Nat) (q : MillCmd) (o : MmaOp) (sp : Bool) (tile g : Nat) :
    (s.mmaStep c cs q o sp tile g).1.mem = s.mem := by
  simp [State.mmaStep]
@[simp] theorem State.mldt_mem (s : State) (c cs : Nat) (q : MillCmd) (o : MldtOp) : (s.mldt c cs q o).1.mem = s.mem := by simp [State.mldt]
@[simp] theorem State.zeroTiles_mem (s : State) (c cs t n : Nat) : (s.zeroTiles c cs t n).mem = s.mem := by simp [State.zeroTiles]
@[simp] theorem State.mdrain_mem (s : State) (c cs : Nat) (o : MdrainOp) : (s.mdrain c cs o).1.mem = s.mem := by
  unfold State.mdrain
  extract_lets n ch
  split
  · rfl
  have hz (t : State) (b : Prop) [Decidable b] (k m : Nat) : (if b then t.zeroTiles c cs k m else t).mem = t.mem := by split <;> simp
  show (State.setCore _ _ _).mem = s.mem
  rw [State.setCore_mem]
  refine List.foldlRecOn _ _ (motive := fun a : State × Nat => a.1.mem = s.mem) rfl fun a ha i _ => ?_
  dsimp only
  split
  · exact ha
  · rw [hz]; exact ha
@[simp] theorem State.millStep_mem (s : State) (c cs : Nat) (q : MillCmd) (tile g : Nat) : (s.millStep c cs q tile g).1.mem = s.mem := by
  unfold State.millStep
  dsimp only
  (repeat' split) <;> simp
@[simp] theorem State.millRetire_mem (s : State) (c cs : Nat) (q : MillCmd) (cause : Nat) : (s.millRetire c cs q cause).mem = s.mem := by
  simp [State.millRetire]
@[simp] theorem execMillCommandDone_formKept {s : State} (h : Mem.wf s.mem = true) : FormKept (execMillCommandDone s) := by
  unfold execMillCommandDone
  (repeat' split) <;> simp [h]
@[simp] theorem execMreadyDone_formKept {s : State} (h : Mem.wf s.mem = true) : FormKept (execMreadyDone s) := by
  unfold execMreadyDone
  dsimp only
  (repeat' split) <;> simp [h]
@[simp] theorem execMillGrant_formKept {s : State} (h : Mem.wf s.mem = true) : FormKept (execMillGrant s) := by
  unfold execMillGrant
  dsimp only
  (repeat' split) <;> simp [h, State.foldl_mem]
@[simp] theorem State.setMill_mem (s : State) (m : Mill) : (s.setMill m).mem = s.mem := by simp [State.setMill]
@[simp] theorem State.enqueueMill_mem (s : State) (q : MillCmd) : (s.enqueueMill q).mem = s.mem := by simp [State.enqueueMill]
@[simp] theorem State.noteUse_mem (s : State) (reads : List MillRead) (tiles : List Nat) (readsTiles : Bool) :
    (s.noteUse reads tiles readsTiles).mem = s.mem := by
  simp [State.noteUse]
@[simp] theorem State.plainReq_mem (s : State) (k : ReqKind) (f : BitVec 5) (dest : Nat) : (s.plainReq k f dest).mem = s.mem := by
  simp [State.plainReq]
@[simp] theorem execMacq_formKept {s : State} (h : Mem.wf s.mem = true) (f : BitVec 5) : FormKept (execMacq f s) := by simp [execMacq, h]
@[simp] theorem execMrel_formKept {s : State} (h : Mem.wf s.mem = true) (f : BitVec 5) : FormKept (execMrel f s) := by simp [execMrel, h]
@[simp] theorem execMready_formKept {s : State} (h : Mem.wf s.mem = true) (f : BitVec 5) : FormKept (execMready f s) := by simp [execMready, h]
@[simp] theorem execMfence_formKept {s : State} (h : Mem.wf s.mem = true) (f : BitVec 5) : FormKept (execMfence f s) := by simp [execMfence, h]
@[simp] theorem execMzero_formKept {s : State} (h : Mem.wf s.mem = true) (f : BitVec 5) (t : BitVec 11) (n : BitVec 7) :
    FormKept (execMzero f t n s) := by
  simp [execMzero, h]
@[simp] theorem mmaIssue_formKept {s : State} (h : Mem.wf s.mem = true) (i : Instr) (o : MmaOp) (sp : Bool) :
    FormKept (mmaIssue i o sp s) := by
  simp [mmaIssue, h]
@[simp] theorem execMldt_formKept {s : State} (h : Mem.wf s.mem = true) (o : MldtOp) : FormKept (execMldt o s) := by simp [execMldt, h]
@[simp] theorem execMdrain_formKept {s : State} (h : Mem.wf s.mem = true) (o : MdrainOp) : FormKept (execMdrain o s) := by simp [execMdrain, h]
@[simp] theorem execMstat_formKept {s : State} (h : Mem.wf s.mem = true) (f sd : BitVec 5) : FormKept (execMstat f sd s) := by simp [execMstat, h]
@[simp] theorem State.millGo_mem (s : State) (c : Nat) : (s.millGo c).mem = s.mem := by simp [State.millGo]
@[simp] theorem State.millStop_mem (s : State) (c : Nat) (stop : Bool) : (s.millStop c stop).mem = s.mem := by simp [State.millStop]
@[simp] theorem execMprogWrite_formKept {s : State} (h : Mem.wf s.mem = true) : FormKept (execMprogWrite s) := by
  unfold execMprogWrite
  dsimp only
  (repeat' split) <;> simp [h]

/-! #### VFloat -/

@[simp] theorem execFcmpNe_formKept {s : State} (h : Mem.wf s.mem = true) (o : VOp) : FormKept (execFcmpNe o s) := by simp [execFcmpNe, h]
@[simp] theorem execFcmpGt_formKept {s : State} (h : Mem.wf s.mem = true) (o : VOp) : FormKept (execFcmpGt o s) := by simp [execFcmpGt, h]
@[simp] theorem execFcmpGe_formKept {s : State} (h : Mem.wf s.mem = true) (o : VOp) : FormKept (execFcmpGe o s) := by simp [execFcmpGe, h]
@[simp] theorem execFcmpNum_formKept {s : State} (h : Mem.wf s.mem = true) (o : VOp) : FormKept (execFcmpNum o s) := by simp [execFcmpNum, h]
@[simp] theorem execCvt_formKept {s : State} (h : Mem.wf s.mem = true) (o : VOp) : FormKept (execCvt o s) := by simp [execCvt, h]
@[simp] theorem execPack_formKept {s : State} (h : Mem.wf s.mem = true) (o : VOp) : FormKept (execPack o s) := by simp [execPack, h]
@[simp] theorem execK4enc_formKept {s : State} (h : Mem.wf s.mem = true) (o : VOp) : FormKept (execK4enc o s) := by simp [execK4enc, h]

/-! #### VInt -/

@[simp] theorem execIadd_formKept {s : State} (h : Mem.wf s.mem = true) (o : VOp) : FormKept (execIadd o s) := by simp [execIadd, h]
@[simp] theorem execIsub_formKept {s : State} (h : Mem.wf s.mem = true) (o : VOp) : FormKept (execIsub o s) := by simp [execIsub, h]
@[simp] theorem execIadd64_formKept {s : State} (h : Mem.wf s.mem = true) (o : VOp) : FormKept (execIadd64 o s) := by simp [execIadd64, h]
@[simp] theorem execSel_formKept {s : State} (h : Mem.wf s.mem = true) (o : VOp) : FormKept (execSel o s) := by simp [execSel, h]

/-! #### Slots -/

@[simp] theorem slotExec_formKept {s : State} (h : Mem.wf s.mem = true) (i : Instr) : FormKept (slotExec i s) := by
  cases i
  case imul | imulhS32 | imulhN32 | imad | iminS32 | iminN32 | imaxS32 | imaxN32 | iabs | ineg | mov | movi | and | or | xor | andn | shl
    | shr | sar | shfL | shfR | popc | clz | brev | bfxS32 | bfxN32 | bfi => exact vInt_formKept h _ _ _ _
  case icmpEq | icmpNe | icmpLtS32 | icmpLeS32 | icmpGtS32 | icmpGeS32 | icmpLtN32 | icmpLeN32 | icmpGtN32 | icmpGeN32 => exact vCmp_formKept h _ _ _
  case fadd | fsub | fmul | ffma | fmin | fmax | frcp | frsq | fsqrt | fexp2 | flog2 | fsin | fcos | fdot4E4m3E4m3 | fdot4E4m3E5m2
    | fdot4E5m2E4m3 | fdot4E5m2E5m2 | k4dec => exact vFloat_formKept h _ _ _ _ _
  case fcmpEq | fcmpLt | fcmpLe | fcmpNan => exact vFcmp_formKept h _ _ _
  case hadd2F16 | hmul2F16 | hfma2F16 | hmin2F16 | hmax2F16 | hadd2Bf16 | hmul2Bf16 | hfma2Bf16 | hmin2Bf16
      | hmax2Bf16 => exact vPair_formKept h _ _ _ _ _
  case shflIdx | shflUp | shflDown | shflXor => exact vShfl_formKept h _ _ _
  case pand | por | pxor => exact vPred_formKept h _ _ _
  case lredAddN32 | lredMinF32 | lredMaxF32 | lredMinS32 | lredMaxS32 | lredMinN32 | lredMaxN32 | lredAnd | lredOr
      | lredXor => exact vRed_formKept h _ _ _
  case ldB8 | ldB8Sx | ldB16 | ldB16Sx | ldB32 | ldB64 | ldB128 | ldrawB8 | ldrawB16 | ldrawB32 | ldrawB64 => exact mLoad_formKept h _ _ _ _ _
  case ldB32S | ldB64S => exact mLoadS_formKept h _ _ _ _
  case stB8 | stB16 | stB32 | stB64 | stB128 | strawB8 | strawB16 | strawB32 | strawB64 => exact mStore_formKept h _ _ _ _ _
  case lblk | blkwb | blkdrop => exact mBlock_formKept h _ _ _ _
  case atomN32 | atomS32 | atomN64 | atomF32 => exact mAtom_formKept h _ _ _ _
  case redmN32 | redmS32 | redmN64 | redmF32 => exact mRedm_formKept h _ _ _ _
  case atomcasB32 | atomcasB64 => exact mCas_formKept h _ _ _ _
  case accstAdd | accstOvw => exact mAccst_formKept h _ _ _
  case stgB32 | stgB64 => exact mStg_formKept h _ _ _ _
  case gcommit | gabort => exact groupEnd_formKept h _ _ _ _
  case mma | mmas => exact mmaIssue_formKept h _ _ _
  case patset | qdestroy => exact cJoin_formKept h _ _ _ _ _ _
  case nopX32 => exact execNopX32_formKept h
  case nopSlot k => exact execNopSlot_formKept h k
  case iadd => exact execIadd_formKept h _
  case isub => exact execIsub_formKept h _
  case iadd64 => exact execIadd64_formKept h _
  case sel => exact execSel_formKept h _
  case fcmpNe => exact execFcmpNe_formKept h _
  case fcmpGt => exact execFcmpGt_formKept h _
  case fcmpGe => exact execFcmpGe_formKept h _
  case fcmpNum => exact execFcmpNum_formKept h _
  case cvt => exact execCvt_formKept h _
  case pack => exact execPack_formKept h _
  case k4enc => exact execK4enc_formKept h _
  case voteAll => exact execVoteAll_formKept h _
  case voteAny => exact execVoteAny_formKept h _
  case voteBal => exact execVoteBal_formKept h _
  case pnot => exact execPnot_formKept h _
  case movs => exact execMovs_formKept h _
  case chpop => exact execChpop_formKept h _
  case lredAddF32 => exact execLredAddF32_formKept h _
  case ldx => exact execLdx_formKept h _
  case stx => exact execStx_formKept h _
  case ldc => exact execLdc_formKept h _
  case pref => exact execPref_formKept h _
  case accld => exact execAccld_formKept h _
  case stch => exact execStch_formKept h _
  case mark => exact execMark_formKept h _
  case fence => exact execFence_formKept h _
  case send => exact execSend_formKept h _
  case qpush => exact execQpush_formKept h _
  case qpop => exact execQpop_formKept h _
  case qtry => exact execQtry_formKept h _
  case cpy => exact execCpy_formKept h _ _ _ _ _ _
  case cpyfill => exact execCpyfill_formKept h _ _ _ _ _ _
  case macq => exact execMacq_formKept h _
  case mrel => exact execMrel_formKept h _
  case mready => exact execMready_formKept h _
  case mfence => exact execMfence_formKept h _
  case mzero => exact execMzero_formKept h _ _ _
  case mstat => exact execMstat_formKept h _ _
  case gopen => exact execGopen_formKept h _ _
  case gquery => exact execGquery_formKept h _ _ _
  case cpyt => exact execCpyt_formKept h _
  case cpyg => exact execCpyg_formKept h _
  case cpymc => exact execCpymc_formKept h _
  case cpych => exact execCpych_formKept h _
  case wbld => exact execWbld_formKept h _
  case mldt => exact execMldt_formKept h _
  case mdrain => exact execMdrain_formKept h _
  case waitf => exact execWaitf_formKept h _ _
  case reconv => exact execReconv_formKept h
  case regang => exact execRegang_formKept h
  case exit => exact execExit_formKept h _
  case yield => exact execYield_formKept h _
  case bara => exact execBara_formKept h _
  case barw => exact execBarw_formKept h _
  case baraw => exact execBaraw_formKept h _
  case ret => exact execRet_formKept h _
  case sleep => exact execSleep_formKept h _
  case bkpt => exact execBkpt_formKept h _
  case eret => exact execEret_formKept h _
  case trap => exact execTrap_formKept h _
  case brfZ => exact execBrfZ_formKept h _ _
  case brfNz => exact execBrfNz_formKept h _ _
  case brfErr => exact execBrfErr_formKept h _ _
  case bra => exact execBra_formKept h _ _
  case brap => exact execBrap_formKept h _ _ _ _
  case jmpt => exact execJmpt_formKept h _ _ _ _
  case call => exact execCall_formKept h _ _ _
  case sbarA => exact execSbarA_formKept h
  case sbarW => exact execSbarW_formKept h
  case sbarAw => exact execSbarAw_formKept h
  case barset => exact execBarset_formKept h _ _
  case sysc => exact execSysc_formKept h _
  case mfs => exact execMfs_formKept h _ _
  case mts => exact execMts_formKept h _ _
  case mpset => exact execMpset_formKept h _ _
  case winset => exact execWinset_formKept h _ _
  case portcfg => exact execPortcfg_formKept h _ _ _
  case qcreate => exact execQcreate_formKept h _ _ _
  case limg => exact execLimg_formKept h _ _ _
  case simg => exact execSimg_formKept h _ _ _
  all_goals exact (formKept_next s).mpr h

/-! #### Issue -/

@[simp] theorem State.ageOthers_mem (s : State) (c : Nat) (others : List (Nat × Nat)) : (s.ageOthers c others).mem = s.mem := 
  State.foldl_mem (f := fun t (y : Nat × Nat) => t.setGang c y.1 ((t.gang c y.1).setPart y.2
    { (t.gang c y.1).part y.2 with age := min 65535 (((t.gang c y.1).part y.2).age + 1) })) (fun t y => by simp) others s
@[simp] theorem runSlots_wf {s : State} (h : Mem.wf s.mem = true) (xs : List (Slot × SlotCode)) : Mem.wf (runSlots xs s).1.mem = true := by
  induction xs generalizing s with
  | nil => exact h
  | cons x r ih =>
    obtain ⟨k, (i | b)⟩ := x
    · have hi := slotExec_formKept h i
      unfold runSlots
      grind [FormKept]
    · exact h
@[simp] theorem State.closeBundle_mem (s : State) : s.closeBundle.mem = s.mem := by simp [State.closeBundle]
@[simp] theorem State.tryOnce_mem (s : State) (c slot : Nat) : (s.tryOnce c slot).mem = s.mem := by simp [State.tryOnce]
@[simp] theorem State.trapBundle_mem (s : State) (t : Trap) : (s.trapBundle t).mem = s.mem := by
  unfold State.trapBundle
  split <;> simp
@[simp] theorem State.issueBundle_wf {s : State} (h : Mem.wf s.mem = true) (c slot lead : Nat) (b : Bundle) :
    Mem.wf (s.issueBundle c slot lead b).mem = true := by
  unfold State.issueBundle
  grind [State.tryOnce_mem, State.takeTrap_mem, State.openBundle_mem, runSlots_wf, State.trapBundle_mem, State.ageOthers_mem, State.closeBundle_mem]
@[simp] theorem State.holdBank_mem (s : State) (c slot lead d : Nat) : (s.holdBank c slot lead d).mem = s.mem := by simp [State.holdBank]
@[simp] theorem execBundleIssue_formKept {s : State} (h : Mem.wf s.mem = true) : FormKept (execBundleIssue s) := by
  unfold execBundleIssue
  dsimp only
  (repeat' split) <;> simp [h]

/-! #### Migr -/

@[simp] theorem execMigrationOffer_formKept {s : State} (h : Mem.wf s.mem = true) : FormKept (execMigrationOffer s) := by
  unfold execMigrationOffer
  grind [State.send_mem, State.takeFrame_wf, formKept_next]
@[simp] theorem execMigrationDecline_formKept {s : State} (h : Mem.wf s.mem = true) : FormKept (execMigrationDecline s) := by
  unfold execMigrationDecline
  dsimp only
  (repeat' split) <;> simp [h]
@[simp] theorem State.tlbDrop_mem (s : State) (cov : Nat → Nat → Nat → Bool) : (s.tlbDrop cov).mem = s.mem := by simp [State.tlbDrop]
@[simp] theorem State.recallPage_mem (s : State) (f : Nat → Nat → Bool) : (s.recallPage f).mem = s.mem := by
  simp [State.recallPage, State.foldl_mem]
@[simp] theorem execMigrationAccept_formKept {s : State} (h : Mem.wf s.mem = true) : FormKept (execMigrationAccept s) := by
  unfold execMigrationAccept
  dsimp only
  (repeat' split) <;> simp [h]
@[simp] theorem State.thrashEnter_mem (s : State) (ctx vpn count age : Nat) : (s.thrashEnter ctx vpn count age).mem = s.mem := by
  simp [State.thrashEnter]
@[simp] theorem execMigrationLines_formKept {s : State} (h : Mem.wf s.mem = true) : FormKept (execMigrationLines s) := by
  unfold execMigrationLines
  split
  · rename_i p _
    extract_lets vpn
    split
    · exact (formKept_next _).mpr h
    rename_i m _
    extract_lets s1 s2 s3 e c back s4 s5 b
    have h1 : Mem.wf s1.mem = true := State.foldl_wf (fun t i ht => State.lineWrite_wf ht ..) _ h
    have h3 : Mem.wf s3.mem = true := by
      have : s3.mem = s1.mem := State.foldl_mem (fun _ _ => by simp) _ _
      rw [this]; exact h1
    split
    · have h5 : s5.mem = (s3.writeEntry m.pteAddr e).mem := by
        unfold s5
        cases back <;> simp [s4]
      simp [h5, h3]
    · simpa using h3
  · simpa using h
@[simp] theorem execMigrationAck_formKept {s : State} (h : Mem.wf s.mem = true) : FormKept (execMigrationAck s) := by
  unfold execMigrationAck
  dsimp only
  (repeat' split) <;> simp [h]
@[simp] theorem execThrottleExpiry_formKept {s : State} (h : Mem.wf s.mem = true) : FormKept (execThrottleExpiry s) := by
  unfold execThrottleExpiry
  split <;> simp [h]
@[simp] theorem State.ticWrite_mem (s : State) (val : W64) (size : Nat) : (s.ticWrite val size).mem = s.mem := by simp [State.ticWrite]
@[simp] theorem execTicOnePage_formKept {s : State} (h : Mem.wf s.mem = true) : FormKept (execTicOnePage s) := by
  unfold execTicOnePage
  split <;> simp [h]
@[simp] theorem execTicOneContext_formKept {s : State} (h : Mem.wf s.mem = true) : FormKept (execTicOneContext s) := by
  unfold execTicOneContext
  split <;> simp [h]
@[simp] theorem execTicAllContexts_formKept {s : State} (h : Mem.wf s.mem = true) : FormKept (execTicAllContexts s) := by
  unfold execTicAllContexts
  split <;> simp [h]
@[simp] theorem State.readCtx_mem (s : State) (c : Nat) : (s.readCtx c).mem = s.mem := by simp [State.readCtx]
@[simp] theorem execTicFinish_formKept {s : State} (h : Mem.wf s.mem = true) : FormKept (execTicFinish s) := by
  unfold execTicFinish
  split <;> simp [h]

/-! #### Join -/

@[simp] theorem State.answer_mem (s : State) (id i cause out : Nat) : (s.answer id i cause out).mem = s.mem := by
  unfold State.answer
  (repeat' split) <;> simp
@[simp] theorem State.givePop_mem (s : State) (id : Nat) (rec_ : List W64) : (s.givePop id rec_).mem = s.mem := by
  unfold State.givePop
  split <;> simp
@[simp] theorem State.pushQueue_mem (s : State) (u k : Nat) (rec_ : List W64) (id : Nat) : (s.pushQueue u k rec_ id).1.mem = s.mem := by
  unfold State.pushQueue
  dsimp only
  (repeat' split) <;> simp
@[simp] theorem State.wakeNotices_mem (s : State) (u k : Nat) : (s.wakeNotices u k).mem = s.mem := State.foldl_mem (fun t c => by split <;> simp) _ s
@[simp] theorem State.serveQueue_mem (s : State) (u k : Nat) : (s.serveQueue u k).mem = s.mem := by
  unfold State.serveQueue
  dsimp only
  split <;> simp
@[simp] theorem State.fire_mem (s : State) (u i : Nat) : (s.fire u i).mem = s.mem := by
  unfold State.fire
  dsimp only
  (repeat' split) <;> simp
@[simp] theorem State.fireOn_mem (fuel : Nat) (s : State) (u : Nat) : (State.fireOn fuel s u).mem = s.mem := by
  induction fuel generalizing s with
  | zero => rfl
  | succ n ih =>
    unfold State.fireOn
    grind [State.setUnit_mem, State.fire_mem, State.serveQueue_mem]
@[simp] theorem State.endEvent_mem (s : State) (u : Nat) : (s.endEvent u).mem = s.mem := by simp [State.endEvent]
@[simp] theorem State.seeUnit_mem (s : State) (u : Nat) : (s.seeUnit u).mem = s.mem := by simp [State.seeUnit]
@[simp] theorem State.countStale_mem (s : State) (u : Nat) : (s.countStale u).mem = s.mem := by simp [State.countStale]
@[simp] theorem State.portOverflow_mem (s : State) (u k : Nat) : (s.portOverflow u k).mem = s.mem := by simp [State.portOverflow]
@[simp] theorem State.msgArrive_mem (s : State) (m : Msg) : (s.msgArrive m).1.mem = s.mem := by
  unfold State.msgArrive
  dsimp only
  (repeat' split) <;> simp
@[simp] theorem State.peerMessage_mem (s : State) (p : Packet) : (s.peerMessage p).mem = s.mem := by simp [State.peerMessage]
@[simp] theorem execMessageArrival_formKept {s : State} (h : Mem.wf s.mem = true) : FormKept (execMessageArrival s) := by
  unfold execMessageArrival
  split <;> simp [h]
@[simp] theorem onConfig_formKept {s : State} (h : Mem.wf s.mem = true) (f : Req → State → Except Nat (State × Nat × Nat))
    (hf : ∀ r t u out, f r s = .ok (t, u, out) → t.mem = s.mem) :
    FormKept (onConfig s f) := by
  unfold onConfig
  split
  · split
    · simpa using h
    · split
      · simpa using h
      · rename_i t u out he
        simpa [hf _ _ _ _ he] using h
  · simpa using h
@[simp] theorem execPortCreate_formKept {s : State} (h : Mem.wf s.mem = true) : FormKept (execPortCreate s) := by
  refine onConfig_formKept h _ fun r t u out e => ?_
  grind [State.setUnit_mem]
@[simp] theorem execPortModify_formKept {s : State} (h : Mem.wf s.mem = true) : FormKept (execPortModify s) := by
  refine onConfig_formKept h _ fun r t u out e => ?_
  grind [State.setUnit_mem]
@[simp] theorem execPortDestroy_formKept {s : State} (h : Mem.wf s.mem = true) : FormKept (execPortDestroy s) := by
  refine onConfig_formKept h _ fun r t u out e => ?_
  grind [State.setUnit_mem]
@[simp] theorem execPatternClaim_formKept {s : State} (h : Mem.wf s.mem = true) : FormKept (execPatternClaim s) := by
  refine onConfig_formKept h _ fun r t u out e => ?_
  grind [State.setUnit_mem]
@[simp] theorem execPatternRewrite_formKept {s : State} (h : Mem.wf s.mem = true) : FormKept (execPatternRewrite s) := by
  refine onConfig_formKept h _ fun r t u out e => ?_
  grind [State.setUnit_mem]
@[simp] theorem execPatternRelease_formKept {s : State} (h : Mem.wf s.mem = true) : FormKept (execPatternRelease s) := by
  refine onConfig_formKept h _ fun r t u out e => ?_
  grind [State.setUnit_mem]
@[simp] theorem execQueueCreate_formKept {s : State} (h : Mem.wf s.mem = true) : FormKept (execQueueCreate s) := by
  refine onConfig_formKept h _ fun r t u out e => ?_
  grind [State.setUnit_mem, State.wakeNotices_mem]
@[simp] theorem State.dropUnit_mem (s : State) (core : Nat) : (s.dropUnit core).mem = s.mem := by simp [State.dropUnit]
@[simp] theorem State.killQueue_mem (s : State) (u k : Nat) : (s.killQueue u k).mem = s.mem := by simp [State.killQueue, State.foldl_mem]
@[simp] theorem execQueueDestroy_formKept {s : State} (h : Mem.wf s.mem = true) : FormKept (execQueueDestroy s) := by
  refine onConfig_formKept h _ fun r t u out e => ?_
  grind [State.killQueue_mem]
@[simp] theorem State.pushNotice_mem (s : State) (c : Nat) : (s.pushNotice c).mem = s.mem := by
  unfold State.pushNotice
  grind [State.pushQueue_mem, State.endEvent_mem, State.setCore_mem, State.later_mem]
@[simp] theorem execQueuePush_formKept {s : State} (h : Mem.wf s.mem = true) : FormKept (execQueuePush s) := by
  unfold execQueuePush
  grind [State.pushNotice_mem, State.answer_mem, State.pushQueue_mem, State.endEvent_mem, formKept_next]
@[simp] theorem execQueuePopRequest_formKept {s : State} (h : Mem.wf s.mem = true) : FormKept (execQueuePopRequest s) := by
  unfold execQueuePopRequest
  (repeat' split) <;> simp [h]
@[simp] theorem execQueueTryRequest_formKept {s : State} (h : Mem.wf s.mem = true) : FormKept (execQueueTryRequest s) := by
  unfold execQueueTryRequest
  dsimp only
  (repeat' split) <;> simp [h]
@[simp] theorem State.unitFault_mem (s : State) (ctx va acc cause gpa core : Nat) (all : Bool) :
    (s.unitFault ctx va acc cause gpa core all).1.mem = s.mem := by
  unfold State.unitFault
  split <;> simp
@[simp] theorem State.unitAccess_wf {s : State} (h : Mem.wf s.mem = true) (ctx va n acc core : Nat) (bs : List Byte) (all : Bool) :
    Mem.wf (s.unitAccess ctx va n acc core bs all).1.mem = true := by
  unfold State.unitAccess
  split
  · grind [State.unitFault_mem]
  split
  · exact h
  have ht := s.translate_wf h ctx va acc
  split
  · rename_i t f p c l g he
    have hs : Mem.wf t.mem = true := by grind
    simp [State.foldl_mem, apply_ite Prod.fst, hs]
  · grind [State.unitFault_mem]
  · grind [State.unitFault_mem, State.addReq_mem]
  · grind [State.unitFault_mem, State.startFill_wf]
@[simp] theorem State.unitRead_wf {s : State} (h : Mem.wf s.mem = true) (ctx va n core : Nat) (all : Bool) :
    Mem.wf (s.unitRead ctx va n core all).1.mem = true := by
  unfold State.unitRead
  grind [State.unitAccess_wf]
@[simp] theorem State.unitWrite_wf {s : State} (h : Mem.wf s.mem = true) (ctx va : Nat) (bs : List Byte) (core : Nat) (all : Bool) :
    Mem.wf (s.unitWrite ctx va bs core all).1.mem = true := by
  unfold State.unitWrite
  grind [State.unitAccess_wf, State.unitStore_wf]
@[simp] theorem State.failQueue_mem (s : State) (u k cause : Nat) (refill : Bool) : (s.failQueue u k cause refill).mem = s.mem := by
  simp [State.failQueue, State.foldl_mem]
@[simp] theorem State.holdQueue_mem (s : State) (u k : Nat) (r : Nat × Nat) : (s.holdQueue u k r).mem = s.mem := by simp [State.holdQueue]
@[simp] theorem execQueueRingWriteDone_formKept {s : State} (h : Mem.wf s.mem = true) : FormKept (execQueueRingWriteDone s) := by
  unfold execQueueRingWriteDone
  grind [State.later_mem, State.unitWrite_wf, State.dropUnit_mem, State.endEvent_mem, State.answer_mem, State.setUnit_mem, State.holdQueue_mem,
      State.failQueue_mem, formKept_next]
@[simp] theorem State.refillReads_wf {s : State} (h : Mem.wf s.mem = true) (n i : Nat) (q : TaskQ) (core : Nat) (acc : List (List W64)) :
    Mem.wf (State.refillReads n i s q core acc).1.mem = true := by
  induction n generalizing s i acc with
  | zero => exact h
  | succ n ih =>
    unfold State.refillReads
    grind [State.unitRead_wf]
@[simp] theorem execQueueRefillDone_formKept {s : State} (h : Mem.wf s.mem = true) : FormKept (execQueueRefillDone s) := by
  unfold execQueueRefillDone
  grind [State.later_mem, State.refillReads_wf, State.dropUnit_mem, State.endEvent_mem, State.setUnit_mem, State.holdQueue_mem,
      State.failQueue_mem, formKept_next]
@[simp] theorem execFresolveFail_formKept {s : State} (h : Mem.wf s.mem = true) : FormKept (execFresolveFail s) := by
  unfold execFresolveFail
  (repeat' split) <;> simp [h, State.foldl_mem]

/-! #### Launch -/

@[simp] theorem State.wantImage_mem (s : State) (c ctx : Nat) : (s.wantImage c ctx).mem = s.mem := by simp [State.wantImage]
@[simp] theorem State.placeCrew_mem (s : State) (c : Nat) (p : CrewPlan) (x : Seat) : (s.placeCrew c p x).mem = s.mem := by simp [State.placeCrew]
@[simp] theorem State.dropLaunch_mem (s : State) (ctx pattern : Nat) : (s.dropLaunch ctx pattern).mem = s.mem := by simp [State.dropLaunch]
@[simp] theorem State.peekPort_mem (s : State) (ctx va lotid : Nat) : (s.peekPort ctx va lotid).mem = s.mem := by simp [State.peekPort]
@[simp] theorem execFiringAtController_formKept {s : State} (h : Mem.wf s.mem = true) : FormKept (execFiringAtController s) := by
  unfold execFiringAtController
  split <;> simp [h]
@[simp] theorem State.readTmpl_wf {s : State} (h : Mem.wf s.mem = true) (ctx va core : Nat) :
    Mem.wf (s.readTmpl ctx va core).1.mem = true := by
  refine List.foldlRecOn _ _ (motive := fun a : State × Except RingRes (List W64) => Mem.wf a.1.mem = true) h fun a ha i _ => ?_
  grind [State.unitRead_wf]
@[simp] theorem State.setLaunch_mem (s : State) (l : Launch) (n : Option Launch) : (s.setLaunch l n).mem = s.mem := by simp [State.setLaunch]
@[simp] theorem execTemplateReadDone_formKept {s : State} (h : Mem.wf s.mem = true) : FormKept (execTemplateReadDone s) := by
  unfold execTemplateReadDone
  grind [State.dropLaunch_mem, State.setLaunch_mem, State.dropUnit_mem, State.readTmpl_wf, State.refuseMessage_mem, formKept_next]
@[simp] theorem State.placeStand_mem (s : State) (u n : Nat) (at_ : List Nat) (p : CrewPlan) (x : Seat) :
    (s.placeStand u n at_ p x).mem = s.mem := by
  simp [State.placeStand, State.foldl_mem]
theorem State.admitHandler_mem {s t : State} {l : Launch} (h : s.admitHandler l = some t) : t.mem = s.mem := by
  unfold State.admitHandler at h
  obtain ⟨c, -, rfl⟩ := Option.map_eq_some_iff.mp h
  simp
theorem State.admitMember_mem {s t : State} {l : Launch} (h : s.admitMember l = some t) : t.mem = s.mem := by
  unfold State.admitMember at h
  split at h
  · cases h
  dsimp only at h
  split at h
  all_goals
    obtain ⟨c, -, rfl⟩ := Option.map_eq_some_iff.mp h
    simp
@[simp] theorem State.restoreNotice_mem (s : State) (c spos : Nat) (l : Launch) (old : List Nat) :
    (s.restoreNotice c spos l old).mem = s.mem := by
  simp [State.restoreNotice]
theorem State.admitRestore_mem {s t : State} {l : Launch} (h : s.admitRestore l = some t) : t.mem = s.mem := by
  unfold State.admitRestore at h
  dsimp only at h
  split at h
  · obtain ⟨c, -, rfl⟩ := Option.map_eq_some_iff.mp h
    simp
  · obtain ⟨st, -, h⟩ := Option.bind_eq_some_iff.mp h
    obtain ⟨u, -, rfl⟩ := Option.map_eq_some_iff.mp h
    rw [State.foldl_mem (fun _ _ => by simp)]
    simp
theorem State.admitTenant_mem {s u : State} {t : Nat} (h : s.admitTenant t = some u) : u.mem = s.mem := by
  unfold State.admitTenant at h
  dsimp only at h
  split at h
  · rename_i v hv
    obtain ⟨l, -, hl⟩ := Option.bind_eq_some_iff.mp hv
    grind [State.admitRestore_mem, State.admitHandler_mem]
  · obtain ⟨l, -, hl⟩ := Option.bind_eq_some_iff.mp h
    exact State.admitMember_mem hl
theorem State.admission?_mem {s t : State} (h : s.admission? = some t) : t.mem = s.mem := by
  obtain ⟨i, -, hi⟩ := List.exists_of_findSome?_eq_some h
  obtain ⟨u, hu, rfl⟩ := Option.map_eq_some_iff.mp hi
  have hm := State.admitTenant_mem hu
  exact hm
@[simp] theorem execAdmission_formKept {s : State} (h : Mem.wf s.mem = true) : FormKept (execAdmission s) := by
  unfold execAdmission
  cases ha : s.admission? with
  | none => exact (formKept_next _).mpr h
  | some t => simpa [State.admission?_mem ha] using h
@[simp] theorem execWindowImageReadDone_formKept {s : State} (h : Mem.wf s.mem = true) : FormKept (execWindowImageReadDone s) := by
  unfold execWindowImageReadDone
  (repeat' split) <;> simp [h, State.foldl_mem]
@[simp] theorem execGranuleZeroed_formKept {s : State} (h : Mem.wf s.mem = true) : FormKept (execGranuleZeroed s) := by
  unfold execGranuleZeroed
  split <;> simp [h]

/-! #### Preempt -/

@[simp] theorem execTrapFrameWrite_formKept {s : State} (h : Mem.wf s.mem = true) : FormKept (execTrapFrameWrite s) := by
  unfold execTrapFrameWrite
  split <;> simp [h]
@[simp] theorem State.boundaryTrap_mem (s : State) (c slot : Nat) (t : Trap) : (s.boundaryTrap c slot t).mem = s.mem := by simp [State.boundaryTrap]
@[simp] theorem execAsyncErrorTaken_formKept {s : State} (h : Mem.wf s.mem = true) : FormKept (execAsyncErrorTaken s) := by
  unfold execAsyncErrorTaken
  (repeat' split) <;> simp [h]
@[simp] theorem execWatchpointTrap_formKept {s : State} (h : Mem.wf s.mem = true) : FormKept (execWatchpointTrap s) := by
  unfold execWatchpointTrap
  (repeat' split) <;> simp [h]
@[simp] theorem State.setEng_mem (s : State) (c : Nat) (e : Engstop) : (s.setEng c e).mem = s.mem := by simp [State.setEng]
@[simp] theorem State.engBegin_mem (s : State) (c cmd : Nat) (v : W64) : (s.engBegin c cmd v).mem = s.mem := by simp [State.engBegin]
@[simp] theorem State.engFinish_mem (s : State) (c out cause : Nat) : (s.engFinish c out cause).mem = s.mem := by simp [State.engFinish]
@[simp] theorem onEng_formKept {s : State} (h : Mem.wf s.mem = true) (cmd : Nat) (f : Nat → State → State)
    (hf : ∀ c t, Mem.wf t.mem = true → Mem.wf (f c t).mem = true) :
    FormKept (onEng s cmd f) := by
  unfold onEng
  split
  · split
    · simpa using h
    · simpa using hf _ _ (by simpa using h)
  · split
    · simpa using hf _ _ h
    · simpa using h
  · simpa using h
@[simp] theorem execEngstopCommandDone_formKept {s : State} (h : Mem.wf s.mem = true) : FormKept (execEngstopCommandDone s) := by
  unfold execEngstopCommandDone
  split <;> simp [h]
@[simp] theorem State.setPhase_mem (s : State) (c cs : Nat) (p : CrewPhase) : (s.setPhase c cs p).mem = s.mem := by simp [State.setPhase]
@[simp] theorem execEngstopCstop_formKept {s : State} (h : Mem.wf s.mem = true) : FormKept (execEngstopCstop s) := by
  unfold execEngstopCstop
  split <;> simp [h]
@[simp] theorem execEngstopMstop_formKept {s : State} (h : Mem.wf s.mem = true) : FormKept (execEngstopMstop s) := by
  unfold execEngstopMstop
  split <;> simp [h]
@[simp] theorem State.withdrawOne_mem (s : State) (c id : Nat) : (s.withdrawOne c id).mem = s.mem := by
  unfold State.withdrawOne
  split <;> simp
@[simp] theorem State.withdraw_mem (s : State) (c cs : Nat) : (s.withdraw c cs).mem = s.mem := by simp [State.withdraw, State.foldl_mem]
@[simp] theorem State.quiesceCrew_mem (s : State) (c cs : Nat) : (s.quiesceCrew c cs).mem = s.mem := by simp [State.quiesceCrew, State.foldl_mem]
@[simp] theorem execEngstopQuiesce_formKept {s : State} (h : Mem.wf s.mem = true) : FormKept (execEngstopQuiesce s) := by
  unfold execEngstopQuiesce
  split
  · simpa using h
  · refine onEng_formKept h _ _ fun c t ht => ?_
    grind [State.engFinish_mem, State.setEng_mem, State.foldl_mem, State.quiesceCrew_mem]
@[simp] theorem State.drainNotice_mem (s : State) (c cs : Nat) : (s.drainNotice c cs).mem = s.mem := by simp [State.drainNotice]
@[simp] theorem execQuiesceDrained_formKept {s : State} (h : Mem.wf s.mem = true) : FormKept (execQuiesceDrained s) := by
  unfold execQuiesceDrained
  split <;> simp [h, State.foldl_mem]
@[simp] theorem State.areaAccess_wf {s : State} (h : Mem.wf s.mem = true) (c n : Nat) (wr : Bool) (bs : List Byte) :
    Mem.wf (s.areaAccess c n wr bs).1.mem = true := by
  refine List.foldlRecOn _ _ (motive := fun x : State × Except RingRes (List Byte × Bool) => Mem.wf x.1.mem = true) h fun x hx p _ => ?_
  grind [State.unitWrite_wf, State.unitRead_wf]
@[simp] theorem State.areaFailed_mem (s : State) (c : Nat) (r : RingRes) : (s.areaFailed c r).mem = s.mem := by
  unfold State.areaFailed
  split <;> simp
@[simp] theorem State.unload_mem (s : State) (c cs : Nat) : (s.unload c cs).mem = s.mem := by simp [State.unload]
@[simp] theorem execEngstopPark_formKept {s : State} (h : Mem.wf s.mem = true) : FormKept (execEngstopPark s) := by
  refine onEng_formKept h _ _ fun c t ht => ?_
  grind [State.engFinish_mem, State.areaAccess_wf, State.areaFailed_mem, State.unload_mem, State.dropUnit_mem, State.setPhase_mem, State.bump_mem]
@[simp] theorem execEngstopRelease_formKept {s : State} (h : Mem.wf s.mem = true) : FormKept (execEngstopRelease s) := by
  unfold execEngstopRelease
  split
  · simpa using h
  · refine onEng_formKept h _ _ fun c t ht => ?_
    grind [State.engFinish_mem, State.setCore_mem]
@[simp] theorem State.decAll_mem (s : State) (c : Nat) (xs : List (Nat × Nat)) : (s.decAll c xs).mem = s.mem := by
  simp [State.decAll, State.foldl_mem]
@[simp] theorem State.killCrew_mem (s : State) (c cs : Nat) : (s.killCrew c cs).mem = s.mem := by simp [State.killCrew, State.foldl_mem]
@[simp] theorem execEngstopEnd_formKept {s : State} (h : Mem.wf s.mem = true) : FormKept (execEngstopEnd s) := by
  unfold execEngstopEnd
  split
  · simpa using h
  · refine onEng_formKept h _ _ fun c t ht => ?_
    grind [State.engFinish_mem, State.foldl_mem, State.killCrew_mem]
@[simp] theorem execEngstopRestoreRequest_formKept {s : State} (h : Mem.wf s.mem = true) : FormKept (execEngstopRestoreRequest s) := by
  refine onEng_formKept h _ _ fun c t ht => ?_
  grind [State.engFinish_mem, State.areaAccess_wf, State.areaFailed_mem, State.dropUnit_mem, State.setEng_mem, State.readTmpl_wf]
@[simp] theorem State.backLog_mem (s : State) (c cs : Nat) (e : LogEntry) : (s.backLog c cs e).mem = s.mem := by
  unfold State.backLog
  dsimp only
  (repeat' split) <;> simp
@[simp] theorem State.backSkid_mem (s : State) (c cs : Nat) (p : Parked) (e : Skid) : (s.backSkid c cs p e).mem = s.mem := by
  unfold State.backSkid
  dsimp only
  split <;> simp
@[simp] theorem State.backGangs_mem (s : State) (c cs : Nat) (p : Parked) : (s.backGangs c cs p).mem = s.mem := by
  unfold State.backGangs
  grind [State.setGang_mem, State.foldl_mem]
@[simp] theorem State.backMill_mem (s : State) (c cs : Nat) (p : Parked) : (s.backMill c cs p).mem = s.mem := by simp [State.backMill]
@[simp] theorem State.unparkCrew_mem (s : State) (c cs : Nat) (p : Parked) : (s.unparkCrew c cs p).mem = s.mem := by
  simp [State.unparkCrew, State.foldl_mem]
@[simp] theorem State.undefCrew_mem (s : State) (c cs : Nat) : (s.undefCrew c cs).mem = s.mem := by
  unfold State.undefCrew
  grind [State.setCrew_mem, State.bump_mem, State.setGang_mem, State.foldl_mem]
@[simp] theorem State.unparked_mem (s : State) (c cs : Nat) : (s.unparked c cs).mem = s.mem := by simp [State.unparked, State.foldl_mem]
@[simp] theorem State.unparkWith_mem (s : State) (c cs : Nat) (bs : List Byte) : (s.unparkWith c cs bs).mem = s.mem := by
  unfold State.unparkWith
  split <;> simp
@[simp] theorem execEngstopUnpark_formKept {s : State} (h : Mem.wf s.mem = true) : FormKept (execEngstopUnpark s) := by
  refine onEng_formKept h _ _ fun c t ht => ?_
  grind [State.engFinish_mem, State.areaAccess_wf, State.areaFailed_mem, State.dropUnit_mem, State.unparkWith_mem]

/-! #### Host -/

@[simp] theorem State.wakeCore_mem (s : State) (off : Nat) : (s.wakeCore off).mem = s.mem := by simp [State.wakeCore]
@[simp] theorem State.regWrite_mem (s : State) (off : Nat) (v : W64) : (s.regWrite off v).mem = s.mem := by
  delta State.regWrite
  rcases rwMask off with _ | m
  · rcases w1cMask off with _ | m
    · rcases windowOf off with _ | ⟨u, o⟩
      · dsimp only
        (repeat' split) <;> rfl
      · rfl
    · rfl
  · exact State.wakeCore_mem ..
@[simp] theorem execRegisterWrite_formKept {s : State} (h : Mem.wf s.mem = true) : FormKept (execRegisterWrite s) := by
  unfold execRegisterWrite
  split <;> simp [h]
@[simp] theorem State.ctxStat_mem (s : State) (set clear : W64) : (s.ctxStat set clear).mem = s.mem := by simp [State.ctxStat]
@[simp] theorem execCtxMakeLive_formKept {s : State} (h : Mem.wf s.mem = true) : FormKept (execCtxMakeLive s) := by
  unfold execCtxMakeLive
  split <;> simp [h]
@[simp] theorem State.clearJoin_mem (s : State) (ctx : Nat) : (s.clearJoin ctx).mem = s.mem := by
  refine State.foldl_mem (fun t u => ?_) _ s
  dsimp only
  rw [State.ite_mem, State.endEvent_mem, State.foldl_mem (fun _ _ => by simp), State.foldl_mem (fun _ _ => by simp),
    State.foldl_mem (fun _ _ => by simp), State.setUnit_mem, State.seeUnit_mem, ite_self]
@[simp] theorem State.clearCtx_mem (s : State) (ctx : Nat) : (s.clearCtx ctx).mem = s.mem := by
  unfold State.clearCtx
  dsimp only
  rw [State.foldl_mem (fun t d => by simp), State.clearJoin_mem]
@[simp] theorem execCtxMakeNotLive_formKept {s : State} (h : Mem.wf s.mem = true) : FormKept (execCtxMakeNotLive s) := by
  unfold execCtxMakeNotLive
  split <;> simp [h, State.foldl_mem]
@[simp] theorem execCtxNotLiveDone_formKept {s : State} (h : Mem.wf s.mem = true) : FormKept (execCtxNotLiveDone s) := by
  unfold execCtxNotLiveDone
  split <;> simp [h]
@[simp] theorem State.startSuper_mem (s : State) (c : Nat) (pc : W64) : (s.startSuper c pc).mem = s.mem := by simp [State.startSuper]
@[simp] theorem execSupgoStart_formKept {s : State} (h : Mem.wf s.mem = true) : FormKept (execSupgoStart s) := by
  unfold execSupgoStart
  split <;> simp [h, State.foldl_mem]
@[simp] theorem execSupresResume_formKept {s : State} (h : Mem.wf s.mem = true) : FormKept (execSupresResume s) := by
  unfold execSupresResume
  split <;> simp [h]
@[simp] theorem execSupervisorFrameWrite_formKept {s : State} (h : Mem.wf s.mem = true) : FormKept (execSupervisorFrameWrite s) := by
  unfold execSupervisorFrameWrite
  (repeat' split) <;> simp [h]
@[simp] theorem State.extend_mem (s : State) (n : Nat) (d : List Byte) : (s.extend n d).mem = s.mem := by simp [State.extend]
@[simp] theorem State.mbRefuse_mem (s : State) : s.mbRefuse.mem = s.mem := by simp [State.mbRefuse]
@[simp] theorem State.mbStart_mem (s : State) : s.mbStart.mem = s.mem := by simp [State.mbStart]
@[simp] theorem execMailboxRead_formKept {s : State} (h : Mem.wf s.mem = true) : FormKept (execMailboxRead s) := by
  unfold execMailboxRead
  (repeat' split) <;> grind [State.mbRefuse_mem, State.mbStart_mem, State.setDreg_mem, formKept_next, State.foldl_mem]
@[simp] theorem execMailboxExtend_formKept {s : State} (h : Mem.wf s.mem = true) : FormKept (execMailboxExtend s) := by
  unfold execMailboxExtend
  (repeat' split) <;> simp [h]
@[simp] theorem execMailboxDone_formKept {s : State} (h : Mem.wf s.mem = true) : FormKept (execMailboxDone s) := by simp [execMailboxDone, h]
@[simp] theorem execSpdmGetVersion_formKept {s : State} (h : Mem.wf s.mem = true) : FormKept (execSpdmGetVersion s) := by
  unfold execSpdmGetVersion
  split <;> simp [h]
@[simp] theorem execSpdmGetCapabilities_formKept {s : State} (h : Mem.wf s.mem = true) : FormKept (execSpdmGetCapabilities s) := by
  unfold execSpdmGetCapabilities
  split <;> simp [h]
@[simp] theorem execSpdmNegotiateAlgorithms_formKept {s : State} (h : Mem.wf s.mem = true) : FormKept (execSpdmNegotiateAlgorithms s) := by
  unfold execSpdmNegotiateAlgorithms
  split <;> simp [h]
@[simp] theorem execSpdmGetMeasurements_formKept {s : State} (h : Mem.wf s.mem = true) : FormKept (execSpdmGetMeasurements s) := by
  unfold execSpdmGetMeasurements
  split <;> simp [h]
@[simp] theorem execRasCountClear_formKept {s : State} (h : Mem.wf s.mem = true) : FormKept (execRasCountClear s) := by
  unfold execRasCountClear
  split <;> simp [h]
@[simp] theorem execLinkCrcReplay_formKept {s : State} (h : Mem.wf s.mem = true) : FormKept (execLinkCrcReplay s) := by
  unfold execLinkCrcReplay
  split <;> simp [h]
@[simp] theorem execUalinkLinkLoss_formKept {s : State} (h : Mem.wf s.mem = true) : FormKept (execUalinkLinkLoss s) := by
  unfold execUalinkLinkLoss
  split <;> simp [h]
@[simp] theorem execUalinkLinkRestored_formKept {s : State} (h : Mem.wf s.mem = true) : FormKept (execUalinkLinkRestored s) := by
  unfold execUalinkLinkRestored
  split <;> simp [h]
@[simp] theorem execScrubcfgWrite_formKept {s : State} (h : Mem.wf s.mem = true) : FormKept (execScrubcfgWrite s) := by
  unfold execScrubcfgWrite
  split <;> simp [h]
@[simp] theorem State.scrubFound_mem (s : State) (pa : Nat) : (s.scrubFound pa).mem = s.mem := by
  unfold State.scrubFound
  split <;> simp [State.foldl_mem]
@[simp] theorem execScrubUnitRead_formKept {s : State} (h : Mem.wf s.mem = true) : FormKept (execScrubUnitRead s) := by
  simp [execScrubUnitRead, h]
@[simp] theorem State.apertureWrite_mem (s : State) (a : Nat) (bs : List Byte) (source : Nat) :
    (s.apertureWrite a bs source).mem = s.mem := by
  simp [State.apertureWrite]
@[simp] theorem execPortApertureWrite_formKept {s : State} (h : Mem.wf s.mem = true) : FormKept (execPortApertureWrite s) := by
  unfold execPortApertureWrite
  split <;> simp [h]
@[simp] theorem execPortApertureRead_formKept {s : State} (h : Mem.wf s.mem = true) : FormKept (execPortApertureRead s) := by
  unfold execPortApertureRead
  split <;> simp [h]
@[simp] theorem State.iommuRefuse_mem (s : State) (a : Nat) : (s.iommuRefuse a).mem = s.mem := by simp [State.iommuRefuse]
@[simp] theorem State.pcieStore_wf {s : State} (h : Mem.wf s.mem = true) (a : Nat) (bs : List Byte) :
    Mem.wf (s.pcieStore a bs).mem = true := by
  unfold State.pcieStore
  grind [State.voids_wf, State.wrOver_wf, State.apertureWrite_mem, State.reply_mem]
@[simp] theorem execPcieWrite_formKept {s : State} (h : Mem.wf s.mem = true) : FormKept (execPcieWrite s) := by
  unfold execPcieWrite
  (repeat' split) <;> simp [h]
@[simp] theorem State.pcieRead_mem (s : State) (pl : Nat) : (s.pcieRead pl).mem = s.mem := by simp [State.pcieRead]
@[simp] theorem State.pcieWait_mem (s : State) (a n : Nat) : (s.pcieWait a n).mem = s.mem := by simp [State.pcieWait]
@[simp] theorem State.pcieLoad_wf {s : State} (h : Mem.wf s.mem = true) (a n : Nat) : Mem.wf (s.pcieLoad a n).mem = true := by
  simp [State.pcieLoad, State.foldl_mem, h]
@[simp] theorem execPcieRead_formKept {s : State} (h : Mem.wf s.mem = true) : FormKept (execPcieRead s) := by
  unfold execPcieRead
  (repeat' split) <;> simp [h]
@[simp] theorem execBaseDieResetRelease_formKept {s : State} (h : Mem.wf s.mem = true) : FormKept (execBaseDieResetRelease s) := by
  unfold execBaseDieResetRelease
  split
  · extract_lets r r1 r2
    split
    · exact (formKept_next _).mpr h
    · exact (formKept_next _).mpr h
  · exact (formKept_next _).mpr h

/-! #### Power -/

@[simp] theorem execPowerIntervalEnd_formKept {s : State} (h : Mem.wf s.mem = true) : FormKept (execPowerIntervalEnd s) := by
  unfold execPowerIntervalEnd
  (repeat' split) <;> grind [State.setDreg_mem, State.bump_mem, formKept_next, State.foldl_mem]
@[simp] theorem State.obsWrite_wf {s : State} (h : Mem.wf s.mem = true) (pa : Nat) (bs : List Byte) :
    Mem.wf (s.obsWrite pa bs).mem = true := State.foldl_wf (fun _ _ ht => State.lineWrite_wf ht ..) _ h
@[simp] theorem execObsTick_formKept {s : State} (h : Mem.wf s.mem = true) : FormKept (execObsTick s) := by
  unfold execObsTick
  dsimp only
  split
  · exact (formKept_next _).mpr h
  split
  · exact (formKept_next _).mpr h
  split
  · exact (formKept_next _).mpr h
  · rw [formKept_next, State.bump_mem]
    dsimp only
    rw [State.setDreg_mem]
    apply State.obsWrite_wf
    split <;> exact h
@[simp] theorem execObscfgWrite_formKept {s : State} (h : Mem.wf s.mem = true) : FormKept (execObscfgWrite s) := by
  unfold execObscfgWrite
  split <;> simp [h]
@[simp] theorem execObslostClear_formKept {s : State} (h : Mem.wf s.mem = true) : FormKept (execObslostClear s) := by
  unfold execObslostClear
  split <;> simp [h]

/-! #### Clock -/

@[simp] theorem State.countParts_mem (s : State) (c slot : Nat) : (s.countParts c slot).mem = s.mem := by
  simp [State.countParts]
@[simp] theorem State.countCrews_mem (s : State) : s.countCrews.mem = s.mem := by simp [State.countCrews, State.foldl_mem]
@[simp] theorem State.observeCore_mem (s : State) (c : Nat) : (s.observeCore c).mem = s.mem := by simp [State.observeCore, State.foldl_mem]
@[simp] theorem State.observeClock_mem (s : State) : s.observeClock.mem = s.mem := by
  unfold State.observeClock
  split
  · rfl
  · dsimp only
    rw [State.foldl_mem (fun _ _ => by simp), State.foldl_mem (fun _ _ => by simp)]
@[simp] theorem State.background_mem (s : State) : s.background.mem = s.mem := by simp [State.background, State.foldl_mem]
@[simp] theorem State.tick_mem (s : State) : s.tick.mem = s.mem := by simp [State.tick, State.foldl_mem]
@[simp] theorem State.noteTurn_mem (s : State) (p : Pending) : (s.noteTurn p).mem = s.mem := by
  unfold State.noteTurn
  (repeat' split) <;> simp
@[simp] theorem State.begin_mem (s : State) (p : Pending) : (s.begin p).mem = s.mem := by simp [State.begin]

/-! #### Dispatch and Step -/

theorem exec_formKept {s : State} (h : Mem.wf s.mem = true) (i : Instr) : FormKept (exec i s) := by
  have hs := slotExec_formKept h i
  cases i
  case bundleIssue => exact execBundleIssue_formKept h
  case bundleFetchReturn => exact execBundleFetchReturn_formKept h
  case fixedLatencyWriteback => exact execFixedLatencyWriteback_formKept h
  case waitTimerExpiry => exact execWaitTimerExpiry_formKept h
  case trapFrameWrite => exact execTrapFrameWrite_formKept h
  case asyncErrorTaken => exact execAsyncErrorTaken_formKept h
  case watchpointTrap => exact execWatchpointTrap_formKept h
  case translateAccess => exact execTranslateAccess_formKept h
  case fillComplete => exact execFillComplete_formKept h
  case migrationOffer => exact execMigrationOffer_formKept h
  case migrationDecline => exact execMigrationDecline_formKept h
  case migrationAccept => exact execMigrationAccept_formKept h
  case migrationLines => exact execMigrationLines_formKept h
  case migrationAck => exact execMigrationAck_formKept h
  case throttleExpiry => exact execThrottleExpiry_formKept h
  case faultRecordWrite => exact execFaultRecordWrite_formKept h
  case faultReturnToLog => exact execFaultReturnToLog_formKept h
  case faultRingHeadWrite => exact execFaultRingHeadWrite_formKept h
  case fresolveRetry => exact execFresolveRetry_formKept h
  case fresolveFail => exact execFresolveFail_formKept h
  case replay => exact execReplay_formKept h
  case memoryAccessPerform => exact execMemoryAccessPerform_formKept h
  case memoryOpComplete => exact execMemoryOpComplete_formKept h
  case remoteRequestArrival => exact execRemoteRequestArrival_formKept h
  case remoteAckArrival => exact execRemoteAckArrival_formKept h
  case rsptoExpiry => exact execRsptoExpiry_formKept h
  case peerWriteArrival => exact execPeerWriteArrival_formKept h
  case granuleZeroed => exact execGranuleZeroed_formKept h
  case stashLineFill => exact execStashLineFill_formKept h
  case coherenceRecall => exact execCoherenceRecall_formKept h
  case directoryRead => exact execDirectoryRead_formKept h
  case directoryOwnership => exact execDirectoryOwnership_formKept h
  case directoryWriteback => exact execDirectoryWriteback_formKept h
  case pcieWrite => exact execPcieWrite_formKept h
  case pcieRead => exact execPcieRead_formKept h
  case linkCrcReplay => exact execLinkCrcReplay_formKept h
  case ualinkLinkLoss => exact execUalinkLinkLoss_formKept h
  case peerLostReport => exact execPeerLostReport_formKept h
  case originLostReport => exact execOriginLostReport_formKept h
  case scrubUnitRead => exact execScrubUnitRead_formKept h
  case skidderUnitDone => exact execSkidderUnitDone_formKept h
  case skidderComplete => exact execSkidderComplete_formKept h
  case millGrant => exact execMillGrant_formKept h
  case millCommandDone => exact execMillCommandDone_formKept h
  case mreadyDone => exact execMreadyDone_formKept h
  case messageArrival => exact execMessageArrival_formKept h
  case portCreate => exact execPortCreate_formKept h
  case portModify => exact execPortModify_formKept h
  case portDestroy => exact execPortDestroy_formKept h
  case patternClaim => exact execPatternClaim_formKept h
  case patternRewrite => exact execPatternRewrite_formKept h
  case patternRelease => exact execPatternRelease_formKept h
  case queueCreate => exact execQueueCreate_formKept h
  case queueDestroy => exact execQueueDestroy_formKept h
  case queuePush => exact execQueuePush_formKept h
  case queuePopRequest => exact execQueuePopRequest_formKept h
  case queueTryRequest => exact execQueueTryRequest_formKept h
  case queueRefillDone => exact execQueueRefillDone_formKept h
  case queueRingWriteDone => exact execQueueRingWriteDone_formKept h
  case portApertureWrite => exact execPortApertureWrite_formKept h
  case portApertureRead => exact execPortApertureRead_formKept h
  case firingAtController => exact execFiringAtController_formKept h
  case templateReadDone => exact execTemplateReadDone_formKept h
  case admission => exact execAdmission_formKept h
  case gangRelease => exact execGangRelease_formKept h
  case sbarCarrArrival => exact execSbarCarrArrival_formKept h
  case gopenAtTable => exact execGopenAtTable_formKept h
  case stgAtTable => exact execStgAtTable_formKept h
  case stgLaneArrival => exact execStgLaneArrival_formKept h
  case gcommitAtTable => exact execGcommitAtTable_formKept h
  case commitPrepareSend => exact execCommitPrepareSend_formKept h
  case prepareArrival => exact execPrepareArrival_formKept h
  case prepareAnswerSend => exact execPrepareAnswerSend_formKept h
  case answerArrival => exact execAnswerArrival_formKept h
  case preptoExpiry => exact execPreptoExpiry_formKept h
  case commitArrival => exact execCommitArrival_formKept h
  case abortArrival => exact execAbortArrival_formKept h
  case groupAckArrival => exact execGroupAckArrival_formKept h
  case gresolveCommit => exact execGresolveCommit_formKept h
  case gresolveAbort => exact execGresolveAbort_formKept h
  case engstopQuiesce => exact execEngstopQuiesce_formKept h
  case quiesceDrained => exact execQuiesceDrained_formKept h
  case engstopPark => exact execEngstopPark_formKept h
  case engstopUnpark => exact execEngstopUnpark_formKept h
  case engstopRelease => exact execEngstopRelease_formKept h
  case engstopEnd => exact execEngstopEnd_formKept h
  case engstopRestoreRequest => exact execEngstopRestoreRequest_formKept h
  case engstopCommandDone => exact execEngstopCommandDone_formKept h
  case engstopCstop => exact execEngstopCstop_formKept h
  case engstopMstop => exact execEngstopMstop_formKept h
  case rngseedWrite => exact execRngseedWrite_formKept h
  case ferrClear => exact execFerrClear_formKept h
  case cprogWrite => exact execCprogWrite_formKept h
  case mprogWrite => exact execMprogWrite_formKept h
  case sldepthWrite => exact execSldepthWrite_formKept h
  case gtagWrite => exact execGtagWrite_formKept h
  case ticOnePage => exact execTicOnePage_formKept h
  case ticOneContext => exact execTicOneContext_formKept h
  case ticAllContexts => exact execTicAllContexts_formKept h
  case ticFinish => exact execTicFinish_formKept h
  case ctxMakeLive => exact execCtxMakeLive_formKept h
  case ctxMakeNotLive => exact execCtxMakeNotLive_formKept h
  case ctxNotLiveDone => exact execCtxNotLiveDone_formKept h
  case supgoStart => exact execSupgoStart_formKept h
  case supresResume => exact execSupresResume_formKept h
  case supervisorFrameWrite => exact execSupervisorFrameWrite_formKept h
  case mailboxRead => exact execMailboxRead_formKept h
  case mailboxExtend => exact execMailboxExtend_formKept h
  case mailboxDone => exact execMailboxDone_formKept h
  case spdmGetVersion => exact execSpdmGetVersion_formKept h
  case spdmGetCapabilities => exact execSpdmGetCapabilities_formKept h
  case spdmNegotiateAlgorithms => exact execSpdmNegotiateAlgorithms_formKept h
  case spdmGetMeasurements => exact execSpdmGetMeasurements_formKept h
  case obscfgWrite => exact execObscfgWrite_formKept h
  case obslostClear => exact execObslostClear_formKept h
  case rasCountClear => exact execRasCountClear_formKept h
  case scrubcfgWrite => exact execScrubcfgWrite_formKept h
  case registerWrite => exact execRegisterWrite_formKept h
  case powerIntervalEnd => exact execPowerIntervalEnd_formKept h
  case obsTick => exact execObsTick_formKept h
  case baseDieResetRelease => exact execBaseDieResetRelease_formKept h
  case windowImageReadDone => exact execWindowImageReadDone_formKept h
  case ualinkLinkRestored => exact execUalinkLinkRestored_formKept h
  all_goals exact hs
theorem step_formKept {s : State} (h : Mem.wf s.mem = true) : FormKept (step s) := by
  have hb (p : Pending) : FormKept (exec p.op (s.begin p)) := exec_formKept (by simpa using h) p.op
  unfold step
  split
  · split
    · exact hb _
    · simp [FormKept]
  · split
    · simp [FormKept]
    · split
      · exact hb _
      · simpa using h

/-- Settles O58: every row's meaning keeps the form, since each write goes byte by byte through Mem.write, which does. -/
theorem memoryFormKept : Obligations.MemoryFormKept := fun _ t h e => step_formKept h t e

end Sys2Proof.Machine
end
-- What a bundle does: the operations of its slots, the end of its issue, the traps it takes and the fetch of its line.
section
/-! SUPPORT. The rules of a bundle's issue (R201, R209, R216, R218, R396 to R402): a slot's operation runs with its row's meaning; what
the end of a bundle, the aging of the other candidates, a trap and a fetch change, and what each leaves. -/

namespace Sys2Proof.Machine
open Sys2Proof

/-! #### The operations a bundle can hold -/

/-- A bundle gives the operation the meaning its row has. -/
def RunsInSlot (i : Instr) : Prop := ∀ s, slotExec i s = exec i s
/-- What a slot's bits decode to, if anything, runs in a slot. -/
def DecodesInSlot (e : Except DecodeError Instr) : Prop := ∀ i, e = .ok i → RunsInSlot i

theorem decodesInSlot_ok {i : Instr} (h : RunsInSlot i) : DecodesInSlot (.ok i) := fun _ e => by cases e; exact h
theorem decodesInSlot_error (e : DecodeError) : DecodesInSlot (.error e) := fun _ h => by cases h
theorem decodesInSlot_accept {i : Instr} (h : RunsInSlot i) : DecodesInSlot (accept i) := by
  unfold accept
  split
  · exact decodesInSlot_ok h
  · exact decodesInSlot_error _
theorem decodesInSlot_acceptZ {z : Bool} {i : Instr} (h : RunsInSlot i) : DecodesInSlot (acceptZ z i) := by
  unfold acceptZ
  split
  · exact decodesInSlot_accept h
  · exact decodesInSlot_error _
theorem vInstr_runsInSlot {opc : Nat} {o : VOp} {i : Instr} (h : vInstr opc o = some i) : RunsInSlot i := by
  unfold vInstr at h
  split at h <;> cases h <;> exact fun _ => rfl
theorem mInstr_runsInSlot {opc : Nat} {o : MOp} {i : Instr} (h : mInstr opc o = some i) : RunsInSlot i := by
  unfold mInstr at h
  split at h <;> cases h <;> exact fun _ => rfl
theorem decodesInSlot_guarded {c : Prop} [Decidable c] {z : Bool} {i : Instr} (e : DecodeError) (h : RunsInSlot i) :
    DecodesInSlot (if c then acceptZ z i else .error e) := by
  split
  · exact decodesInSlot_acceptZ h
  · exact decodesInSlot_error e
/-- A V or M slot: the empty slot, or an operation of the opcode table. -/
theorem decodesInSlot_table {c : Prop} [Decidable c] {k : NopSlot} {e : DecodeError} {x : Option Instr} :
    (∀ i, x = some i → RunsInSlot i) →
      DecodesInSlot (if c then .ok (.nopSlot k) else match x with | some i => accept i | none => .error e) := by
  intro h
  split
  · exact decodesInSlot_ok fun _ => rfl
  · cases x with
    | some i => exact decodesInSlot_accept (h i rfl)
    | none => exact decodesInSlot_error e
theorem decodeV36_inSlot (w : Nat) : DecodesInSlot (decodeV36 w) := decodesInSlot_table fun _ => vInstr_runsInSlot
theorem decodeV76_inSlot (w : Nat) : DecodesInSlot (decodeV76 w) := decodesInSlot_table fun _ => vInstr_runsInSlot
theorem decodeM40_inSlot (w : Nat) : DecodesInSlot (decodeM40 w) := decodesInSlot_table fun _ => mInstr_runsInSlot
theorem decodeX32_inSlot (w : Nat) : DecodesInSlot (decodeX32 w) := by
  unfold decodeX32
  split
  case h_1 => exact decodesInSlot_ok fun _ => rfl
  case h_14 => exact decodesInSlot_error _
  all_goals exact decodesInSlot_acceptZ fun _ => rfl
theorem decodeX72_inSlot (w : Nat) : DecodesInSlot (decodeX72 w) := by
  unfold decodeX72
  split
  case h_1 => exact decodesInSlot_ok fun _ => rfl
  case h_11 => exact decodesInSlot_error _
  all_goals exact decodesInSlot_acceptZ fun _ => rfl
theorem decodeC12_inSlot (w : Nat) : DecodesInSlot (decodeC12 w) := by
  unfold decodeC12
  split
  case h_1 => exact decodesInSlot_ok fun _ => rfl
  case h_15 => exact decodesInSlot_error _
  all_goals exact decodesInSlot_acceptZ fun _ => rfl
theorem decodeC44_inSlot (w : Nat) : DecodesInSlot (decodeC44 w) := by
  unfold decodeC44
  split
  case h_1 => exact decodesInSlot_ok fun _ => rfl
  case h_5 | h_18 | h_19 | h_20 | h_21 => exact decodesInSlot_acceptZ fun _ => rfl
  case h_22 =>
    repeat' split
    case h_1 | h_2 | h_3 => exact decodesInSlot_ok fun _ => rfl
    all_goals exact decodesInSlot_error _
  case h_35 => exact decodesInSlot_error _
  all_goals exact decodesInSlot_guarded _ fun _ => rfl
/-- A decoded slot, where it holds an operation, holds one that runs in a slot. -/
def SlotCode.InSlot (x : SlotCode) : Prop := ∀ i, x = .op i → RunsInSlot i

theorem slotCode_of_inSlot {e : Except DecodeError Instr} (h : DecodesInSlot e) : SlotCode.InSlot (.of e) := by
  intro i hi
  cases e <;> cases hi
  exact h _ rfl
theorem decodeBundle_inSlot {b : Bundle} {k : BundleCode} (hk : decodeBundle b = .ok k) : ∀ p ∈ k.slots, SlotCode.InSlot p.2 := by
  unfold decodeBundle at hk
  dsimp only at hk
  split at hk <;> cases hk
  all_goals simp [slotCode_of_inSlot, decodeV36_inSlot, decodeV76_inSlot, decodeM40_inSlot, decodeX32_inSlot, decodeX72_inSlot,
    decodeC12_inSlot, decodeC44_inSlot]

/-! #### Counters of a crew -/

@[simp] theorem State.gang?_setCore_gangs (s : State) (c : Nat) (k : Core) (d g : Nat) (h : k.gangs = (s.core c).gangs) :
    (s.setCore c k).gang? d g = s.gang? d g := by
  unfold State.gang?
  by_cases hd : d = c
  · subst hd; simp [h]
  · rw [State.core_setCore_ne _ _ hd]
@[simp] theorem State.gang_setCore_gangs (s : State) (c : Nat) (k : Core) (d g : Nat) (h : k.gangs = (s.core c).gangs) :
    (s.setCore c k).gang d g = s.gang d g := congrArg (fun x : Option Gang => x.getD {}) (s.gang?_setCore_gangs c k d g h)
@[simp] theorem State.crew_setCore_crews (s : State) (c : Nat) (k : Core) (d w : Nat) (h : k.crews = (s.core c).crews) :
    (s.setCore c k).crew d w = s.crew d w := by
  unfold State.crew
  by_cases hd : d = c
  · subst hd; simp [h]
  · rw [State.core_setCore_ne _ _ hd]
theorem State.setCore_eq (s : State) (c : Nat) (k : Core) : s.setCore c k = { s with cores := (s.setCore c k).cores } := rfl
theorem State.setGang_eq (s : State) (c g : Nat) (x : Gang) : s.setGang c g x = { s with cores := (s.setGang c g x).cores } := rfl
@[simp] theorem State.setGang_issued (s : State) (c g : Nat) (x : Gang) (d : Nat) : ((s.setGang c g x).core d).issued = (s.core d).issued := by
  by_cases h : d = c
  · subst h; simp
  · rw [State.setGang_core_ne _ _ _ h]
@[simp] theorem State.setGang_hold (s : State) (c g : Nat) (x : Gang) (d : Nat) : ((s.setGang c g x).core d).hold = (s.core d).hold := by
  by_cases h : d = c
  · subst h; simp
  · rw [State.setGang_core_ne _ _ _ h]
theorem State.crew_pmcAdd_ite (s : State) (c k n d c' k' : Nat) : (s.pmcAdd c k n d).crew c' k' =
    if d ≠ 0 ∧ c' = c ∧ k' = k then { s.crew c k with pmc := mset (s.crew c k).pmc n (mget 0 (s.crew c k).pmc n + BitVec.ofNat 64 d) }
    else s.crew c' k' := by
  unfold State.pmcAdd
  by_cases hd : d = 0
  · simp [hd]
  by_cases h : c' = c ∧ k' = k
  · obtain ⟨rfl, rfl⟩ := h
    simp [hd]
  · rw [if_neg hd, if_neg (by tauto), State.crew_setCrew_ne _ _ (by tauto)]
/-- Of a crew a count changes the counters alone. -/
theorem State.crew_pmcAdd (s : State) (c k n d c' k' : Nat) :
    (s.pmcAdd c k n d).crew c' k' = { s.crew c' k' with pmc := ((s.pmcAdd c k n d).crew c' k').pmc } := by
  rw [State.crew_pmcAdd_ite]
  split
  · next h => obtain ⟨-, rfl, rfl⟩ := h; rfl
  · rfl
theorem State.pmcAdd_same (s : State) (c k n d : Nat) :
    mget 0 ((s.pmcAdd c k n d).crew c k).pmc n = mget 0 (s.crew c k).pmc n + BitVec.ofNat 64 d := by
  rw [State.crew_pmcAdd_ite]
  by_cases hd : d = 0 <;> simp [hd]
theorem State.pmcAdd_other (s : State) (c k d : Nat) {n m : Nat} (h : m ≠ n) (c' k' : Nat) :
    mget 0 ((s.pmcAdd c k n d).crew c' k').pmc m = mget 0 (s.crew c' k').pmc m := by
  rw [State.crew_pmcAdd_ite]
  split
  · next h => obtain ⟨-, rfl, rfl⟩ := h; simp [mget_mset_ne _ _ _ ‹m ≠ n›]
  · rfl
@[simp] theorem State.pmcAdd_issued (s : State) (c k n d c' : Nat) : ((s.pmcAdd c k n d).core c').issued = (s.core c').issued := by
  unfold State.pmcAdd
  split
  · rfl
  · by_cases h : c' = c
    · subst h; simp
    · rw [State.setCrew_core_ne _ _ _ h]

/-! #### A trap -/

@[simp] theorem State.tryOnce_gang (s : State) (c slot d g : Nat) : (s.tryOnce c slot).gang d g = s.gang d g := by simp [State.tryOnce]
@[simp] theorem State.tryOnce_gang? (s : State) (c slot d g : Nat) : (s.tryOnce c slot).gang? d g = s.gang? d g := by simp [State.tryOnce]
@[simp] theorem State.tryOnce_crew (s : State) (c slot d k : Nat) : (s.tryOnce c slot).crew d k = s.crew d k := by simp [State.tryOnce]

theorem timingWord_bit15 {w b r : Nat} (hw : w ≤ 1) (hb : b ≤ 7) (hr : r ≤ 16) :
    (BitVec.ofNat 16 (32768 + w * 16384 + b * 2048 + r)).getLsbD 15 = true := by
  have h : (32768 + w * 16384 + b * 2048 + r) / 32768 = 1 := by omega
  simp [BitVec.getLsbD_ofNat, Nat.testBit, Nat.shiftRight_eq_div_pow, h]
/-- Bit 15 of a slice's timing word says that the slice is there and has not ended (Table 14-4). -/
theorem Gang.timing_valid (g : Gang) (now seed k : Nat) : (g.timing now seed k).getLsbD 15 = (decide (k < g.nsl) && !(g.slice k).ended) := by
  unfold Gang.timing
  dsimp only
  by_cases h : k ≥ g.nsl ∨ (g.slice k).ended = true
  · rw [if_pos h]
    rcases h with h | h
    · simp [Nat.not_lt.mpr h]
    · simp [h]
  · rw [if_neg h, timingWord_bit15 (by split <;> omega) (Nat.min_le_left ..) (by (repeat' split) <;> omega)]
    simp only [not_or, ge_iff_le, Nat.not_le, Bool.not_eq_true] at h
    simp [h]
theorem Gang.endTimers_noTimer (g : Gang) (now : Nat) : ∀ p ∈ (g.endTimers now).parts, ∀ u y, p.2.wait ≠ .timer u y := by
  intro p hp u y
  obtain ⟨q, -, rfl⟩ := List.mem_map.mp hp
  cases h : q.2.wait <;> simp [h]

/-- The gang of the bundle under issue as a precise trap meets it: nothing fetched, and the error of a bad word that slots have read
pending (R80, R400). -/
def State.trapping (s : State) (tr : Trap) : Gang :=
  { s.me.setPart s.cur.lead { s.me.part s.cur.lead with fetched := none, fetchFault := none, bankPaid := false, bankd := 0 } with
    bad := s.me.bad && tr.slot == 4, asyncErr := s.me.asyncErr || (s.me.bad && tr.slot != 4) }

theorem State.takeTrap_gang_self (s : State) (tr : Trap) :
    (s.takeTrap tr).gang s.cur.core s.cur.slot = (s.trapping tr).freeze tr s.cur.pc s.clock s.free := by
  simp only [State.takeTrap, State.takeTrapAt]
  rw [show ∀ (t : State) i d g, State.gang { t with cur := i } d g = t.gang d g from fun _ _ _ _ => rfl, State.pmcAdd_gang]
  simp [State.setMe, State.trapping]
theorem State.takeTrap_gang?_ne (s : State) (tr : Trap) {d g : Nat} (h : d ≠ s.cur.core ∨ g ≠ s.cur.slot) :
    (s.takeTrap tr).gang? d g = s.gang? d g := by
  simp only [State.takeTrap, State.takeTrapAt]
  rw [show ∀ (t : State) i d g, State.gang? { t with cur := i } d g = t.gang? d g from fun _ _ _ _ => rfl, State.pmcAdd_gang?,
    State.gang?_setGang_ne _ _ h, State.setMe, State.gang?_setGang_ne _ _ h]
theorem Gang.freeze_eq (g : Gang) (t : Trap) (next : W64) (now seed : Nat) :
    g.freeze t next now seed = { g with
      frozen := true, frameOpen := true, limg0 := false, limgFlags := false
      frame := (g.freeze t next now seed).frame, parts := (g.freeze t next now seed).parts } := rfl
theorem State.trapping_eq (s : State) (tr : Trap) : s.trapping tr = { s.gang s.cur.core s.cur.slot with
    parts := (s.trapping tr).parts, bad := (s.trapping tr).bad, asyncErr := (s.trapping tr).asyncErr } := rfl
theorem State.takeTrap_crew (s : State) (tr : Trap) (d k : Nat) :
    (s.takeTrap tr).crew d k = (s.pmcAdd s.cur.core s.me.cslot 13 1).crew d k := by
  simp only [State.takeTrap, State.takeTrapAt]
  rw [show ∀ (t : State) i d k, State.crew { t with cur := i } d k = t.crew d k from fun _ _ _ _ => rfl, State.crew_pmcAdd_ite,
    State.crew_pmcAdd_ite]
  simp [State.setMe, Gang.setPart]
theorem State.takeTrap_eq (s : State) (tr : Trap) : s.takeTrap tr = { s with cores := (s.takeTrap tr).cores, cur := (s.takeTrap tr).cur } := by
  simp only [State.takeTrap, State.takeTrapAt]
  rw [State.pmcAdd_eq]
  rfl
/-- A precise trap of the bundle under issue is taken by its gang, and its partition has taken its bundle of this clock. -/
theorem State.takeTrap_trapTaken {s : State} {c slot : Nat} (hc : s.cur.core = c) (hs : s.cur.slot = slot) (tr : Trap) :
    TrapTaken s ((s.takeTrap tr).tryOnce c slot) c slot tr s.cur.pc := by
  subst hc hs
  have hg : ((s.takeTrap tr).tryOnce s.cur.core s.cur.slot).gang s.cur.core s.cur.slot = (s.trapping tr).freeze tr s.cur.pc s.clock s.free := by
    rw [State.tryOnce_gang, State.takeTrap_gang_self]
  constructor
  case gang => rw [hg, Gang.freeze_eq, State.trapping_eq]
  case errors => 
    intro hb
    rw [hg]
    have hb' : s.me.bad = false := hb
    simp [Gang.freeze, Gang.endTimers, State.trapping, hb']
    rfl
  case valid =>
    intro k hk
    refine Eq.trans ?_ ((s.trapping tr).timing_valid s.clock s.free k)
    rw [hg]
    simp [Gang.freeze, List.getD_eq_getElem?_getD, hk]
  case timers => rw [hg]; exact Gang.endTimers_noTimer _ _
  case counts => rw [State.tryOnce_crew, State.takeTrap_crew]; exact State.pmcAdd_same ..
  case crews => intro d k; rw [State.tryOnce_crew, State.takeTrap_crew]; exact State.crew_pmcAdd ..
  case others => intro d g h; rw [State.tryOnce_gang?, State.takeTrap_gang?_ne _ _ h]
  case mem => simp
  case rest => 
    rw [State.tryOnce, State.setCore_eq, State.takeTrap_eq]
  all_goals rw [hg]; rfl

/-! #### The end of a bundle -/

theorem Gang.slice_setSlice (g : Gang) (k j : Nat) (x : Slice) (hj : j < g.slices.length) :
    (g.setSlice k x).slice j = if k = j then x else g.slice j := by
  simp only [Gang.slice, Gang.setSlice, List.getD_eq_getElem?_getD, List.getElem?_set]
  by_cases h : k = j
  · subst h; simp [hj]
  · simp [h]
theorem Gang.slice_setSlice_ne (g : Gang) {k j : Nat} (x : Slice) (h : k ≠ j) : (g.setSlice k x).slice j = g.slice j := by
  simp [Gang.slice, Gang.setSlice, List.getD_eq_getElem?_getD, List.getElem?_set_ne h]

/-- Every slice of a list goes to its address, under the lead of that address, and takes the latch result. -/
def Gang.advanceAll (g : Gang) (lead : W64 → Nat) (e : Option Latch) (pcs : List (Nat × W64)) : Gang :=
  pcs.foldl (fun g x => g.setSlice x.1 ((g.slice x.1).advance x.2 (lead x.2) e)) g

theorem Gang.advanceAll_eq (g : Gang) (lead : W64 → Nat) (e : Option Latch) (pcs : List (Nat × W64)) :
    g.advanceAll lead e pcs = { g with slices := (g.advanceAll lead e pcs).slices } := by
  induction pcs generalizing g with
  | nil => rfl
  | cons x r ih => exact (ih _).trans (by rfl)
theorem Gang.advanceAll_slice_of_notMem {k : Nat} (lead : W64 → Nat) (e : Option Latch) (pcs : List (Nat × W64)) (h : k ∉ pcs.map Prod.fst)
    (g : Gang) : (g.advanceAll lead e pcs).slice k = g.slice k := by
  induction pcs generalizing g with
  | nil => rfl
  | cons x r ih =>
    rw [List.map_cons, List.mem_cons, not_or] at h
    exact (ih h.2 _).trans (g.slice_setSlice_ne _ fun hk => h.1 hk.symm)
theorem Gang.advanceAll_slice_of_mem {k : Nat} {pc : W64} (lead : W64 → Nat) (e : Option Latch) {pcs : List (Nat × W64)}
    (h : (k, pc) ∈ pcs) (hn : (pcs.map Prod.fst).Nodup) {g : Gang} (hk : k < g.slices.length) :
    (g.advanceAll lead e pcs).slice k = (g.slice k).advance pc (lead pc) e := by
  induction pcs generalizing g with
  | nil => simp at h
  | cons x r ih =>
    rw [List.map_cons, List.nodup_cons] at hn
    obtain rfl | h := List.mem_cons.mp h
    · refine (Gang.advanceAll_slice_of_notMem lead e r hn.1 _).trans ?_
      rw [Gang.slice_setSlice _ _ _ _ hk, if_pos rfl]
    · have hx : x.1 ≠ k := fun hx => hn.1 (hx ▸ List.mem_map_of_mem (f := Prod.fst) h)
      refine (ih h hn.2 (g := g.setSlice x.1 _) (by simpa [Gang.setSlice] using hk)).trans ?_
      rw [Gang.slice_setSlice_ne _ _ hx]

/-- A part stands at the lead of every address that a list names. -/
def Gang.splitParts (g : Gang) (lead : W64 → Nat) (p : Part) (pcs : List (Nat × W64)) : Gang :=
  pcs.foldl (fun g x => if lead x.2 = x.1 then g.setPart x.1 p else g) g

theorem Gang.splitParts_cons (g : Gang) (lead : W64 → Nat) (p : Part) (x : Nat × W64) (r : List (Nat × W64)) :
    g.splitParts lead p (x :: r) = (if lead x.2 = x.1 then g.setPart x.1 p else g).splitParts lead p r := rfl
theorem Gang.splitParts_eq (g : Gang) (lead : W64 → Nat) (p : Part) (pcs : List (Nat × W64)) :
    g.splitParts lead p pcs = { g with parts := (g.splitParts lead p pcs).parts } := by
  induction pcs generalizing g with
  | nil => rfl
  | cons x r ih =>
    rw [Gang.splitParts_cons]
    split <;> exact (ih _).trans rfl
theorem Gang.splitParts_part (g : Gang) (lead : W64 → Nat) (p : Part) (pcs : List (Nat × W64)) (k : Nat) :
    mget? (g.splitParts lead p pcs).parts k = if ∃ x ∈ pcs, x.1 = k ∧ lead x.2 = k then some p else mget? g.parts k := by
  induction pcs generalizing g with
  | nil => simp [Gang.splitParts]
  | cons x r ih =>
    rw [Gang.splitParts_cons, ih]
    by_cases hr : ∃ x ∈ r, x.1 = k ∧ lead x.2 = k
    · rw [if_pos hr, if_pos]
      obtain ⟨y, hy, h⟩ := hr
      exact ⟨y, List.mem_cons_of_mem _ hy, h⟩
    · rw [if_neg hr]
      by_cases hx : x.1 = k ∧ lead x.2 = k
      · rw [if_pos (hx.2.trans hx.1.symm), if_pos ⟨x, List.mem_cons_self, hx⟩]
        simp [hx.1, Gang.setPart]
      · have hn : ¬ ∃ y ∈ x :: r, y.1 = k ∧ lead y.2 = k := by simpa [hx] using hr
        rw [if_neg hn]
        by_cases hl : lead x.2 = x.1
        · have hk : k ≠ x.1 := by rintro rfl; exact hx ⟨rfl, hl⟩
          simp [hl, Gang.setPart, mget?_mset_ne _ _ hk]
        · rw [if_neg hl]
theorem Gang.noteDest_eq (g : Gang) (slices : List Nat) (d : Dest) (m : BitVec 32) :
    g.noteDest slices d m = { g with foreign := (g.noteDest slices d m).foreign } := rfl
theorem Gang.foldl_noteDest_eq {α : Type} (slices : List Nat) (d : α → Dest) (m : α → BitVec 32) (l : List α) (g : Gang) :
    l.foldl (fun g a => g.noteDest slices (d a) (m a)) g = { g with foreign := (l.foldl (fun g a => g.noteDest slices (d a) (m a)) g).foreign } := by
  induction l generalizing g with
  | nil => rfl
  | cons a r ih => exact (ih _).trans (by rfl)
theorem Gang.noteWrites_eq (g : Gang) (slices : List Nat) (now : Nat) :
    g.noteWrites slices now = { g with foreign := (g.noteWrites slices now).foreign } := by
  unfold Gang.noteWrites
  dsimp only
  rw [Gang.foldl_noteDest_eq, Gang.foldl_noteDest_eq]

/-- The lead of the slices that go to an address. -/
def State.leadAt (s : State) (pc : W64) : Nat := ((s.nextPcs.find? (fun x => x.2 == pc)).map Prod.fst).getD s.cur.lead
/-- The part whose bundle has issued. -/
def State.nextPart (s : State) : Part :=
  { s.me.part s.cur.lead with
    next := max (s.me.part s.cur.lead).next s.nextClock, age := 0, fetched := none, bankPaid := false, bankd := 0 }
/-- The gang's slices and parts at the end of the bundle. -/
def State.movedGang (s : State) : Gang :=
  let g := s.me.advanceAll s.leadAt s.cur.latch s.nextPcs
  { g with parts := mdel g.parts s.cur.lead }.splitParts s.leadAt s.nextPart s.nextPcs
/-- The gang at the end of the bundle. -/
def State.closedGang (s : State) : Gang :=
  let g := (match s.cur.rng with | some r => { s.movedGang with rng := r } | none => s.movedGang).noteWrites s.cur.slices s.clock
  let h := if s.cur.latch.isSome then g.noteDest s.cur.slices .lv (BitVec.allOnes 32) else g
  if s.cur.bad then { h with bad := false, asyncErr := true } else h

theorem State.closeBundle_eq (s : State) : s.closeBundle =
    (((s.setCore s.cur.core { s.core s.cur.core with issued := mset (s.core s.cur.core).issued (partOf s.cur.slot) s.clock }).setMe s.closedGang).pmc
      0 1).pmc 8 (if (s.me.part s.cur.lead).bankPaid then (s.me.part s.cur.lead).bankd else 0) := rfl
theorem State.movedGang_eq (s : State) : s.movedGang = { s.me with slices := s.movedGang.slices, parts := s.movedGang.parts } := by
  unfold State.movedGang
  dsimp only
  rw [Gang.splitParts_eq, Gang.advanceAll_eq]
theorem Gang.setRng_eq (g : Gang) (r : Option Lanes) :
    (match r with | some x => { g with rng := x } | none => g) = { g with rng := match r with | some x => x | none => g.rng } := by
  cases r <;> rfl
theorem Gang.setBad_eq (g : Gang) (b : Bool) :
    (if b then { g with bad := false, asyncErr := true } else g) = { g with bad := g.bad && !b, asyncErr := g.asyncErr || b } := by
  cases b <;> simp
theorem Gang.noteLatch_eq (g : Gang) (b : Bool) (slices : List Nat) (m : BitVec 32) :
    ∃ f, (if b then g.noteDest slices .lv m else g) = { g with foreign := f } := by
  cases b
  · exact ⟨_, rfl⟩
  · exact ⟨_, g.noteDest_eq slices .lv m⟩
theorem State.closedGang_eq (s : State) : ∃ f, s.closedGang = { s.movedGang with
    foreign := f
    rng := match s.cur.rng with | some r => r | none => s.movedGang.rng
    bad := s.movedGang.bad && !s.cur.bad, asyncErr := s.movedGang.asyncErr || s.cur.bad } := by
  unfold State.closedGang
  dsimp only
  rw [Gang.setRng_eq, Gang.noteWrites_eq, Gang.setBad_eq]
  obtain ⟨f, hf⟩ := Gang.noteLatch_eq _ s.cur.latch.isSome s.cur.slices (BitVec.allOnes 32)
  rw [hf]
  exact ⟨f, rfl⟩
theorem State.closeBundle_me (s : State) : s.closeBundle.me = s.closedGang := by
  simp [State.closeBundle_eq]

theorem State.nextPcs_fst (s : State) : s.nextPcs.map Prod.fst = s.cur.slices.filter (fun k => !(s.me.slice k).ended) := by
  simp [State.nextPcs, Function.comp_def]
theorem State.mem_nextPcs {s : State} {k : Nat} (hk : k ∈ s.cur.slices) (he : (s.me.slice k).ended = false) :
    (k, mget (s.cur.pc + 16) s.cur.next k) ∈ s.nextPcs := by
  simp [State.nextPcs, hk, he]
theorem State.notMem_nextPcs {s : State} {k : Nat} (h : k ∉ s.cur.slices ∨ (s.me.slice k).ended = true) : k ∉ s.nextPcs.map Prod.fst := by
  rw [State.nextPcs_fst, List.mem_filter]
  rcases h with h | h <;> simp [h]
theorem State.movedGang_slice (s : State) (k : Nat) :
    s.movedGang.slice k = (s.me.advanceAll s.leadAt s.cur.latch s.nextPcs).slice k := by
  unfold State.movedGang
  dsimp only
  rw [Gang.splitParts_eq]
  rfl
theorem State.movedGang_part (s : State) (k : Nat) : mget? s.movedGang.parts k =
    if ∃ x ∈ s.nextPcs, x.1 = k ∧ s.leadAt x.2 = k then some s.nextPart else mget? (mdel s.me.parts s.cur.lead) k := by
  unfold State.movedGang
  dsimp only
  rw [Gang.splitParts_part, Gang.advanceAll_eq]
theorem State.nextClock_eq (s : State) : s.nextClock = s.earliest := by
  unfold State.nextClock State.earliest
  dsimp only
  split <;> split <;> omega
theorem State.closeBundle_gang?_ne (s : State) {c g : Nat} (h : c ≠ s.cur.core ∨ g ≠ s.cur.slot) : s.closeBundle.gang? c g = s.gang? c g := by
  simp only [State.closeBundle_eq, State.pmc, State.pmcAdd_gang?, State.setMe]
  rw [State.gang?_setGang_ne _ _ (by simpa using h)]
  simp
theorem State.closeBundle_rest (s : State) : s.closeBundle = { s with cores := s.closeBundle.cores } := by
  rw [State.closeBundle_eq, State.pmc, State.pmcAdd_eq, State.pmc, State.pmcAdd_eq]
  rfl
/-- The end of a bundle's issue. -/
theorem State.closeBundle_closed (s : State) : Closed s s.closeBundle := by
  obtain ⟨f, hf⟩ := s.closedGang_eq
  have hm : s.closeBundle.me = _ := s.closeBundle_me.trans hf
  have hsl (k : Nat) : s.closeBundle.me.slice k = s.movedGang.slice k := by rw [hm]; rfl
  have hp : s.closeBundle.me.parts = s.movedGang.parts := by rw [hm]
  constructor
  case pcs =>
    intro k hk he hl hn
    rw [hsl, State.movedGang_slice, Gang.advanceAll_slice_of_mem _ _ (State.mem_nextPcs hk he) (by rw [State.nextPcs_fst]; exact hn.filter _) hl]
    exact ⟨rfl, rfl⟩
  case slices =>
    intro k h
    rw [hsl, State.movedGang_slice, Gang.advanceAll_slice_of_notMem _ _ _ (State.notMem_nextPcs h)]
  case parts =>
    intro k hl hk
    rw [hp, State.movedGang_part, if_neg, mget?_mdel_ne _ hl]
    rintro ⟨x, hx, rfl, -⟩
    exact State.notMem_nextPcs (.inl hk) (List.mem_map_of_mem hx)
  case stays =>
    intro pc hh ha
    obtain ⟨r, hr⟩ : ∃ r, s.nextPcs = (s.cur.lead, pc) :: r := by
      obtain ⟨l, hl⟩ := List.head?_eq_some_iff.mp hh
      obtain ⟨he, hpc⟩ := ha s.cur.lead (by simp [hl])
      rw [← hpc, State.nextPcs, hl, List.filter_cons_of_pos (by simp [he])]
      exact ⟨_, rfl⟩
    have hlead : s.leadAt pc = s.cur.lead := by simp [State.leadAt, hr]
    have hpart : s.closeBundle.me.part s.cur.lead = s.nextPart := by
      rw [Gang.part, mget, hp, State.movedGang_part, if_pos ⟨_, by rw [hr]; exact List.mem_cons_self, rfl, hlead⟩]
      rfl
    rw [hpart, ← State.nextClock_eq]
    exact ⟨rfl, rfl, rfl⟩
  case gang =>
    rw [hm, State.movedGang_eq] <;> rfl
  case issued => simp [State.closeBundle_eq, State.pmc, State.setMe]
  case others => exact fun c g => s.closeBundle_gang?_ne
  case counter =>
    have hc : s.closedGang.cslot = s.me.cslot := by rw [hf, State.movedGang_eq]
    have hcur : s.closeBundle.cur = s.cur := by rw [State.closeBundle_rest]
    rw [State.myCrew, hcur, State.closeBundle_me, hc, State.closeBundle_eq, State.pmc, State.pmcAdd_other _ _ _ _ (by decide), State.pmc,
      State.me_setMe, hc]
    refine (State.pmcAdd_same ..).trans ?_
    simp [State.myCrew]
  case crews =>
    intro c k
    rw [State.closeBundle_eq, State.pmc, State.crew_pmcAdd, State.pmc, State.crew_pmcAdd]
    simp
  case mem => simp [State.closeBundle_eq, State.setMe]
  case rest => exact s.closeBundle_rest

/-! #### The other candidates -/

/-- A candidate that has not issued ages by the clock. -/
def State.ageOne (s : State) (c : Nat) (y : Nat × Nat) : State :=
  s.setGang c y.1 ((s.gang c y.1).setPart y.2 { (s.gang c y.1).part y.2 with age := min 65535 (((s.gang c y.1).part y.2).age + 1) })

theorem State.ageOthers_cons (s : State) (c : Nat) (y : Nat × Nat) (l : List (Nat × Nat)) :
    s.ageOthers c (y :: l) = (s.ageOne c y).ageOthers c l := rfl
theorem Gang.part_setPart (g : Gang) (k j : Nat) (p : Part) : (g.setPart k p).part j = if j = k then p else g.part j := by
  simp only [Gang.part, Gang.setPart, mget_mset]
theorem State.ageOne_gang (s : State) (c : Nat) (y : Nat × Nat) (d x : Nat) :
    (s.ageOne c y).gang d x = { s.gang d x with parts := ((s.ageOne c y).gang d x).parts } := by
  unfold State.ageOne
  by_cases h : d = c ∧ x = y.1
  · obtain ⟨rfl, rfl⟩ := h
    rw [State.gang_setGang_self]
    rfl
  · rw [State.gang_setGang_ne _ _ (by tauto)]
theorem State.ageOne_part (s : State) (c : Nat) (y : Nat × Nat) (d x k : Nat) : ((s.ageOne c y).gang d x).part k =
    if d = c ∧ (x, k) = y then { (s.gang d x).part k with age := min 65535 (((s.gang d x).part k).age + 1) } else (s.gang d x).part k := by
  unfold State.ageOne
  by_cases h : d = c ∧ x = y.1
  · obtain ⟨rfl, rfl⟩ := h
    rw [State.gang_setGang_self, Gang.part_setPart]
    by_cases hk : k = y.2
    · subst hk; simp
    · rw [if_neg hk, if_neg]
      rintro ⟨-, h⟩
      exact hk (congrArg Prod.snd h)
  · rw [State.gang_setGang_ne _ _ (by tauto), if_neg]
    rintro ⟨rfl, rfl⟩
    exact h ⟨rfl, rfl⟩
theorem State.ageOthers_gang (s : State) (c : Nat) (l : List (Nat × Nat)) (d x : Nat) :
    (s.ageOthers c l).gang d x = { s.gang d x with parts := ((s.ageOthers c l).gang d x).parts } := by
  induction l generalizing s with
  | nil => rfl
  | cons y r ih => rw [State.ageOthers_cons, ih, State.ageOne_gang]
theorem State.ageOthers_part (s : State) (c : Nat) (l : List (Nat × Nat)) (d x k : Nat) : ((s.ageOthers c l).gang d x).part k =
    { (s.gang d x).part k with age := (((s.ageOthers c l).gang d x).part k).age } := by
  induction l generalizing s with
  | nil => rfl
  | cons y r ih =>
    rw [State.ageOthers_cons, ih, State.ageOne_part]
    split <;> rfl
theorem State.ageOthers_kept (s : State) {c : Nat} {l : List (Nat × Nat)} {d x k : Nat} (h : d ≠ c ∨ (x, k) ∉ l) :
    ((s.ageOthers c l).gang d x).part k = (s.gang d x).part k := by
  induction l generalizing s with
  | nil => rfl
  | cons y r ih =>
    rw [List.mem_cons, not_or] at h
    rw [State.ageOthers_cons, ih _ (by tauto), State.ageOne_part, if_neg (by tauto)]
theorem State.ageOthers_mono (s : State) (c : Nat) (l : List (Nat × Nat)) (d x k : Nat) :
    min 65535 ((s.gang d x).part k).age ≤ (((s.ageOthers c l).gang d x).part k).age := by
  induction l generalizing s with
  | nil => exact Nat.min_le_right ..
  | cons y r ih =>
    refine le_trans ?_ (ih (s.ageOne c y))
    rw [State.ageOne_part]
    split
    · dsimp only; omega
    · exact le_rfl
theorem State.ageOthers_aged (s : State) {c : Nat} {l : List (Nat × Nat)} {x k : Nat} (h : (x, k) ∈ l) :
    min 65535 (((s.gang c x).part k).age + 1) ≤ (((s.ageOthers c l).gang c x).part k).age := by
  induction l generalizing s with
  | nil => cases h
  | cons y r ih =>
    rw [State.ageOthers_cons]
    by_cases hy : (x, k) = y
    · refine le_trans ?_ (State.ageOthers_mono ..)
      rw [State.ageOne_part, if_pos ⟨rfl, hy⟩]
      dsimp only
      omega
    · have := ih (s.ageOne c y) ((List.mem_cons.mp h).resolve_left hy)
      rwa [State.ageOne_part, if_neg (by tauto)] at this
theorem State.ageOthers_crew (s : State) (c : Nat) (l : List (Nat × Nat)) (d k : Nat) : (s.ageOthers c l).crew d k = s.crew d k := by
  induction l generalizing s with
  | nil => rfl
  | cons y r ih => rw [State.ageOthers_cons, ih, State.ageOne, State.crew_setGang]
theorem State.ageOthers_rest (s : State) (c : Nat) (l : List (Nat × Nat)) : s.ageOthers c l = { s with cores := (s.ageOthers c l).cores } := by
  induction l generalizing s with
  | nil => rfl
  | cons y r ih => exact (ih _).trans rfl
/-- A part has issued: the other candidates of its partition age. -/
theorem State.ageOthers_isAged (s v : State) (c slot lead : Nat) :
    Aged s v (v.ageOthers c ((s.candidates c (partOf slot)).filter (· != (slot, lead)))) c slot lead where
  gangs := v.ageOthers_gang c _
  parts := v.ageOthers_part c _
  kept d x k h := by
    refine congrArg Part.age (v.ageOthers_kept ?_)
    rw [List.mem_filter, bne_iff_ne]
    tauto
  aged x k h hn := v.ageOthers_aged (List.mem_filter.mpr ⟨h, by simpa using hn⟩)
  crews := v.ageOthers_crew c _
  rest := v.ageOthers_rest c _

/-! #### The slots in order -/

theorem runSlots_append {pre : List (Slot × SlotCode)} (post : List (Slot × SlotCode)) {s u : State} (h : Runs pre s u)
    (hi : ∀ p ∈ pre, SlotCode.InSlot p.2) : runSlots (pre ++ post) s = runSlots post u := by
  induction h with
  | done s => rfl
  | op hx ht _ ih =>
    rw [List.forall_mem_cons] at hi
    rw [List.cons_append, runSlots, hi.1 _ rfl, hx]
    dsimp only
    rw [ht]
    exact ih hi.2
theorem runSlots_of_runs {l : List (Slot × SlotCode)} {s u : State} (h : Runs l s u) (hi : ∀ p ∈ l, SlotCode.InSlot p.2) :
    runSlots l s = (u, none) := by
  have := runSlots_append [] h hi
  rwa [List.append_nil] at this
theorem runSlots_trap {l pre post : List (Slot × SlotCode)} {sl : Slot} {i : Instr} {s u v : State} {tr : Trap}
    (hl : l = pre ++ (sl, .op i) :: post) (hi : ∀ p ∈ l, SlotCode.InSlot p.2) (h : Runs pre s u) (hx : exec i u = .next v)
    (ht : v.cur.trap = some tr) : runSlots l s = (v, some tr) := by
  subst hl
  rw [List.forall_mem_append, List.forall_mem_cons] at hi
  rw [runSlots_append _ h hi.1, runSlots, hi.2.1 _ rfl, hx]
  dsimp only
  rw [ht]
theorem runSlots_bad {l pre post : List (Slot × SlotCode)} {sl : Slot} {e : DecodeError} {s u : State}
    (hl : l = pre ++ (sl, .bad e) :: post) (hi : ∀ p ∈ l, SlotCode.InSlot p.2) (h : Runs pre s u) :
    runSlots l s = (u, some (illegal sl)) := by
  subst hl
  rw [List.forall_mem_append] at hi
  rw [runSlots_append _ h hi.1, runSlots]

/-! #### The issue of a bundle -/

theorem State.openBundle_eq (s : State) (c slot lead gap : Nat) :
    s.openBundle c slot lead gap = { s with cur := s.opened c slot lead gap } := rfl
theorem State.issueBundle_error {b : Bundle} {e : DecodeError} (h : decodeBundle b = .error e) (s : State) (c slot lead : Nat) :
    s.issueBundle c slot lead b = ((s.openBundle c slot lead 0).takeTrap { tcause := 0x60 }).tryOnce c slot := by
  unfold State.issueBundle
  rw [h]
theorem State.issueBundle_trap {b : Bundle} {k : BundleCode} (h : decodeBundle b = .ok k) {s u : State} {c slot lead : Nat} {t : Trap}
    (hr : runSlots k.slots (s.openBundle c slot lead k.gap) = (u, some t)) (hp : t.page = none) :
    s.issueBundle c slot lead b = ((s.openBundle c slot lead k.gap).takeTrap t).tryOnce c slot := by
  unfold State.issueBundle
  rw [h]
  dsimp only
  rw [hr]
  dsimp only
  rw [State.trapBundle, hp]
theorem State.issueBundle_runs {b : Bundle} {k : BundleCode} (h : decodeBundle b = .ok k) {s u : State} {c slot lead : Nat}
    (hr : runSlots k.slots (s.openBundle c slot lead k.gap) = (u, none)) :
    s.issueBundle c slot lead b = u.closeBundle.ageOthers c ((s.candidates c (partOf slot)).filter (· != (slot, lead))) := by
  unfold State.issueBundle
  rw [h]
  dsimp only
  rw [hr]
/-- Where the operations of a bundle run, the bundle's end follows. -/
theorem State.issueBundle_closes {b : Bundle} {k : BundleCode} (h : decodeBundle b = .ok k) {s u : State} {c slot lead : Nat}
    (hr : Runs k.slots { s with cur := s.opened c slot lead k.gap } u) :
    ∃ v, Closed u v ∧ Aged s v (s.issueBundle c slot lead b) c slot lead := by
  refine ⟨u.closeBundle, u.closeBundle_closed, ?_⟩
  rw [State.issueBundle_runs h (runSlots_of_runs hr (decodeBundle_inSlot h))]
  exact State.ageOthers_isAged ..
/-- A trap recorded in a state whose bundle under issue alone differs. -/
theorem TrapTaken.of_cur {s t : State} {i : Issue} {c slot : Nat} {x : Trap} {next : W64} (h : TrapTaken { s with cur := i } t c slot x next) :
    TrapTaken s t c slot x next := by
  obtain ⟨h1, h2, h3, h4, h5, h6, h7, h8, h9, h10, h11, h12, h13, h14, h15, h16⟩ := h
  exact ⟨h1, h2, h3, h4, h5, h6, h7, h8, h9, h10, h11, h12, h13, h14, h15, h16⟩
theorem State.openBundle_trapTaken (s : State) (c slot lead gap : Nat) (tr : Trap) :
    TrapTaken s (((s.openBundle c slot lead gap).takeTrap tr).tryOnce c slot) c slot tr ((s.gang c slot).slice lead).pc :=
  .of_cur (State.takeTrap_trapTaken (s := s.openBundle c slot lead gap) rfl rfl tr)

theorem Gang.bundle?_of_fetched {g : Gang} {lead : Nat} {b : Bundle} (h : (g.part lead).fetched = some ((g.slice lead).pc, b)) :
    g.bundle? lead = some b := by
  unfold Gang.bundle?
  rw [h]
  exact if_pos rfl
theorem execBundleIssue_fault {s : State} {c slot lead cause info : Nat} (he : s.ev = .part c slot lead)
    (hs : s.select c (partOf slot) = some (slot, lead)) (hf : ((s.gang c slot).part lead).fetchFault = some (cause, info)) :
    execBundleIssue s = .next (((s.openBundle c slot lead 0).takeTrap (fetchTrap cause info none)).tryOnce c slot) := by
  unfold execBundleIssue
  rw [he]
  dsimp only
  rw [if_neg (not_not.mpr hs), hf]
theorem execBundleIssue_held {s : State} {c slot lead : Nat} {b : Bundle} (he : s.ev = .part c slot lead)
    (hs : s.select c (partOf slot) = some (slot, lead)) (hf : ((s.gang c slot).part lead).fetchFault = none)
    (hb : ((s.gang c slot).part lead).fetched = some (((s.gang c slot).slice lead).pc, b))
    (hd : 0 < ((s.gang c slot).part lead).owed ((s.gang c slot).wide s.clock s.free) b) :
    execBundleIssue s = .next (s.holdBank c slot lead (((s.gang c slot).part lead).owed ((s.gang c slot).wide s.clock s.free) b)) := by
  unfold execBundleIssue
  rw [he]
  dsimp only
  rw [if_neg (not_not.mpr hs), hf, Gang.bundle?_of_fetched hb]
  dsimp only
  rw [if_pos hd]
theorem execBundleIssue_issues {s : State} {c slot lead : Nat} {b : Bundle} (he : s.ev = .part c slot lead)
    (hs : s.select c (partOf slot) = some (slot, lead)) (hf : ((s.gang c slot).part lead).fetchFault = none)
    (hb : ((s.gang c slot).part lead).fetched = some (((s.gang c slot).slice lead).pc, b))
    (hd : ((s.gang c slot).part lead).owed ((s.gang c slot).wide s.clock s.free) b = 0) :
    execBundleIssue s = .next (s.issueBundle c slot lead b) := by
  unfold execBundleIssue
  rw [he]
  dsimp only
  rw [if_neg (not_not.mpr hs), hf, Gang.bundle?_of_fetched hb]
  dsimp only
  rw [if_neg (by omega)]
theorem State.holdBank_gang?_ne (s : State) {c slot d g : Nat} (lead n : Nat) (h : d ≠ c ∨ g ≠ slot) :
    (s.holdBank c slot lead n).gang? d g = s.gang? d g := by
  rw [State.holdBank, State.gang?_setGang_ne _ _ h]
  simp
theorem bundleIssueResults : BundleIssueResults := by
  intro s c slot lead he hs
  refine ⟨fun cause info hf => ⟨_, execBundleIssue_fault he hs hf, s.openBundle_trapTaken c slot lead 0 _⟩, fun b hf hb => ⟨fun hd => ?_, fun hd => ?_⟩⟩
  · refine ⟨_, execBundleIssue_held he hs hf hb hd, ?_, ?_, ?_, ?_⟩
    · exact fun _ => rfl
    · exact fun d g h => s.holdBank_gang?_ne lead _ h
    · simp [State.holdBank]
    · simp [State.holdBank]
  · have hx := execBundleIssue_issues he hs hf hb hd
    refine ⟨fun e hk => ⟨_, hx, ?_⟩, fun k hk => ⟨fun u hu => ?_, ?_, ?_⟩⟩
    · rw [State.issueBundle_error hk]
      exact s.openBundle_trapTaken c slot lead 0 _
    · obtain ⟨v, hv, ha⟩ := State.issueBundle_closes hk hu
      exact ⟨v, _, hx, hv, ha⟩
    · intro pre sl i post u v tr hl hu hv ht hp
      refine ⟨_, hx, ?_⟩
      rw [State.issueBundle_trap hk (runSlots_trap hl (decodeBundle_inSlot hk) hu hv ht) hp]
      exact State.takeTrap_trapTaken rfl rfl tr
    · intro pre sl r post u hl hu
      refine ⟨_, hx, ?_⟩
      rw [State.issueBundle_trap hk (runSlots_bad hl (decodeBundle_inSlot hk) hu) rfl]
      exact State.takeTrap_trapTaken rfl rfl (illegal sl)

/-! #### The fetch of a bundle -/

theorem State.gang_of_gang? {s : State} {c slot : Nat} {g : Gang} (h : s.gang? c slot = some g) : s.gang c slot = g := by
  rw [show s.gang c slot = (s.gang? c slot).getD {} from rfl, h]
  rfl
theorem Gang.bundle?_of_unfetched {g : Gang} {lead : Nat} (h : (g.part lead).fetched = none) : g.bundle? lead = none := by
  unfold Gang.bundle?
  rw [h]
/-- A cached translation that permits the access is the answer; of the machine only a count changes. -/
theorem State.translate_cached {s : State} {ctx va acc pa : Nat} (h : Cached s ctx va acc pa) :
    ∃ f p c l g, s.translate ctx va acc = (s.observe 2 (tslice ctx va) 2 1, .ok f p c l g) ∧ 4096 * f + va % 4096 = pa := by
  obtain ⟨e, he, hs, ha, rfl⟩ := h
  refine ⟨ptePpn e.pte.toNat, e.pte.toNat, e.comp.toNat, e.level, e.gpte.toNat, ?_, rfl⟩
  unfold State.translate
  dsimp only
  rw [he]
  simp [hs, ha]
theorem State.fetchLook_cached {s : State} {ctx a pa n : Nat} (hc : canonical a = true) (h : Cached s ctx (a % 2 ^ 57) 3 pa)
    (hm : s.migrating ctx (a % 2 ^ 57 / 4096) = false) (hf : s.filling ctx (a % 2 ^ 57 / 4096) = false) (hl : s.lineHeld (pa / 128) = false)
    (hp : s.poisoned pa n = false) : s.fetchLook ctx a n = (s.observe 2 (tslice ctx (a % 2 ^ 57)) 2 1, .ok pa) := by
  obtain ⟨f, p, c, l, g, ht, rfl⟩ := State.translate_cached h
  have hp' : (s.observe 2 (tslice ctx (a % 2 ^ 57)) 2 1).poisoned (4096 * f + a % 2 ^ 57 % 4096) n = false := hp
  unfold State.fetchLook
  simp only [hc, hm, hf, ht, hl, hp']
  rfl
theorem State.fetchLook_noncanonical {a : Nat} (h : canonical a = false) (s : State) (ctx n : Nat) :
    s.fetchLook ctx a n = (s, .fault 0x06 none) := by
  unfold State.fetchLook
  simp [h]
theorem execBundleFetchReturn_fetches {s : State} {c slot lead : Nat} (he : s.ev = .part c slot lead) (hz : (s.gang c slot).frozen = false)
    (hw : ((s.gang c slot).part lead).wait = .none) (hb : ((s.gang c slot).part lead).fetched = none)
    (hf : ((s.gang c slot).part lead).fetchFault = none)
    (hl : (s.fetchLook (s.ctxOf c slot) ((s.gang c slot).slice lead).pc.toNat 16).2 ≠ .wait) :
    execBundleFetchReturn s = .next (s.fetchPart c slot lead) := by
  have hd : s.fetchDue c slot lead = true := by
    unfold State.fetchDue
    simp [hz, hw, hf, Gang.bundle?_of_unfetched hb, hl]
  unfold execBundleFetchReturn
  simp [he, hd, Gang.bundle?_of_unfetched hb]
theorem State.migTouch_local (s : State) (ctx vpn : Nat) : s.migTouch ctx vpn none = { s with tlb := (s.migTouch ctx vpn none).tlb } := by
  unfold State.migTouch
  split
  · rfl
  · dsimp only
    split <;> rfl
theorem State.fetchPart_ok {s t : State} {c slot lead pa : Nat} (h : s.fetchLook (s.ctxOf c slot) ((s.gang c slot).slice lead).pc.toNat 16 = (t, .ok pa))
    (hw : ((t.gang c slot).part lead).wait = .none) : s.fetchPart c slot lead =
      (t.setGang c slot ((t.gang c slot).setPart lead { (t.gang c slot).part lead with
        fetched := some (((s.gang c slot).slice lead).pc, BitVec.ofNat 128 (t.rd pa 16)) })).migTouch (s.ctxOf c slot)
          (((s.gang c slot).slice lead).pc.toNat % 2 ^ 57 / 4096) none := by
  unfold State.fetchPart
  dsimp only
  rw [h]
  dsimp only
  rw [hw, if_neg (by decide)]
theorem State.fetchPart_fault {s : State} {c slot lead cause : Nat}
    (h : s.fetchLook (s.ctxOf c slot) ((s.gang c slot).slice lead).pc.toNat 16 = (s, .fault cause none)) : s.fetchPart c slot lead =
      s.setGang c slot ((s.gang c slot).setPart lead { (s.gang c slot).part lead with fetchFault := some (cause, 0) }) := by
  unfold State.fetchPart
  dsimp only
  rw [h]
  rfl
theorem bundleFetchResults : BundleFetchResults := by
  intro s c slot lead g he hg hz hw hb hf
  obtain rfl := State.gang_of_gang? hg
  refine ⟨fun pa hc ht hm hfi hl hp => ?_, fun hc => ?_⟩
  · have hk := State.fetchLook_cached hc ht hm hfi hl hp
    refine ⟨_, execBundleFetchReturn_fetches he hz hw hb hf (by rw [hk]; simp), ?_⟩
    rw [State.fetchPart_ok hk hw, State.migTouch_local]
    exact ⟨fun _ => rfl, fun d x h => State.gang?_setGang_ne _ _ h, State.gang?_setGang_self ..⟩
  · have hk := s.fetchLook_noncanonical hc (s.ctxOf c slot) 16
    refine ⟨_, execBundleFetchReturn_fetches he hz hw hb hf (by rw [hk]; simp), ?_⟩
    rw [State.fetchPart_fault hk]
    exact ⟨fun _ => rfl, fun d x h => State.gang?_setGang_ne _ _ h, State.gang?_setGang_self ..⟩

/-- Settles O51: the issue of a bundle by the rules of its trap, its bank delay and its end, the fetch by the cached translation's. -/
theorem bundleResults : Obligations.BundleResults := ⟨bundleIssueResults, bundleFetchResults⟩

/-! #### A step -/

/-- An event's place in its clock's order is noted in the units alone (R369). -/
theorem State.noteTurn_eq (s : State) (p : Pending) :
    s.noteTurn p = { s with joinSeen := (s.noteTurn p).joinSeen, join := (s.noteTurn p).join } := by
  have hu (u : Nat) : s.seeUnit u = { s with joinSeen := (s.seeUnit u).joinSeen } := by
    unfold State.seeUnit
    split <;> rfl
  unfold State.noteTurn
  split
  · rfl
  · dsimp only
    rw [hu]
    split <;> rfl
theorem State.noteTurn_bundleIssue (s : State) {p : Pending} (h : p.op = .bundleIssue) : s.noteTurn p = s := by
  unfold State.noteTurn State.eventUnit
  rw [h]
theorem State.begin_eq (s : State) (p : Pending) : s.begin p =
    { s with ev := p.arg, agenda := s.agenda.erase p, inbox := s.inbox.erase p, free := s.free + 1
             joinSeen := (s.begin p).joinSeen, join := (s.begin p).join } := by
  unfold State.begin
  dsimp only
  rw [State.noteTurn_eq]
theorem State.begin_gang (s : State) (p : Pending) (c g : Nat) : (s.begin p).gang c g = s.gang c g := by
  rw [State.begin_eq]
  rfl

theorem State.foldl_clock {α : Type} {f : State → α → State} (h : ∀ s a, (f s a).clock = s.clock) (l : List α) (s : State) :
    (l.foldl f s).clock = s.clock := by
  induction l generalizing s with
  | nil => rfl
  | cons a r ih => exact (ih _).trans (h s a)
@[simp] theorem State.answer_clock (s : State) (id i cause out : Nat) : (s.answer id i cause out).clock = s.clock := by
  unfold State.answer
  (repeat' split) <;> simp
@[simp] theorem State.givePop_clock (s : State) (id : Nat) (rec_ : List W64) : (s.givePop id rec_).clock = s.clock := by
  unfold State.givePop
  split <;> simp
@[simp] theorem State.pushQueue_clock (s : State) (u k : Nat) (rec_ : List W64) (id : Nat) : (s.pushQueue u k rec_ id).1.clock = s.clock := by
  unfold State.pushQueue
  dsimp only
  (repeat' split) <;> simp
@[simp] theorem State.wakeNotices_clock (s : State) (u k : Nat) : (s.wakeNotices u k).clock = s.clock :=
  State.foldl_clock (fun t c => by split <;> simp) _ s
@[simp] theorem State.serveQueue_clock (s : State) (u k : Nat) : (s.serveQueue u k).clock = s.clock := by
  unfold State.serveQueue
  dsimp only
  split <;> simp
@[simp] theorem State.fire_clock (s : State) (u i : Nat) : (s.fire u i).clock = s.clock := by
  unfold State.fire
  dsimp only
  (repeat' split) <;> simp
@[simp] theorem State.fireOn_clock (fuel : Nat) (s : State) (u : Nat) : (State.fireOn fuel s u).clock = s.clock := by
  induction fuel generalizing s with
  | zero => rfl
  | succ n ih =>
    unfold State.fireOn
    split
    · simp
    · split
      · simp
      · rw [ih, State.serveQueue_clock]
@[simp] theorem State.withdrawOne_clock (s : State) (c id : Nat) : (s.withdrawOne c id).clock = s.clock := by
  unfold State.withdrawOne
  split <;> simp
@[simp] theorem State.withdraw_clock (s : State) (c cs : Nat) : (s.withdraw c cs).clock = s.clock := State.foldl_clock (by simp) _ s
@[simp] theorem State.background_clock (s : State) : s.background.clock = s.clock := by
  unfold State.background
  dsimp only
  rw [State.foldl_clock fun t x => State.foldl_clock (fun t w => by split <;> simp) _ t, State.foldl_clock fun t u => by split <;> simp]
/-- The end of a clock begins the next one. -/
theorem State.tick_clock (s : State) : s.tick.clock = s.clock + 1 := State.background_clock _

theorem State.begin_joins {s : State} {p : Pending} (h : p.op = .bundleIssue) :
    (s.begin p).joinSeen = s.joinSeen ∧ (s.begin p).join = s.join := by
  unfold State.begin
  rw [State.noteTurn_bundleIssue s h]
  exact ⟨rfl, rfl⟩
theorem step_halted_idle {s : State} {n : Nat} (h : s.halted = some n) (hn : ∀ p ∈ s.inbox, p.op ≠ .baseDieResetRelease) :
    step s = .fault .bootHalted := by
  have hf : s.inbox.find? (fun p => p.op == .baseDieResetRelease) = none := by simpa using hn
  unfold step
  rw [h]
  dsimp only
  rw [hf]
theorem step_halted_reset {s : State} {n : Nat} {p : Pending} (h : s.halted = some n)
    (hf : s.inbox.find? (fun p => p.op == .baseDieResetRelease) = some p) : step s = exec .baseDieResetRelease (s.begin p) := by
  have ho : p.op = .baseDieResetRelease := by simpa using List.find?_some hf
  unfold step
  rw [h]
  dsimp only
  rw [hf]
  dsimp only
  rw [ho]
theorem step_belowMinimum {s : State} {d : Nat} (h : s.halted = none) (hd : s.belowMinimum = some d) : step s = .fault (.belowMinimum d) := by
  unfold step
  rw [h]
  dsimp only
  rw [hd]
theorem step_tick {s : State} (h : s.halted = none) (hd : s.belowMinimum = none) (hm : s.nextMove = none) : step s = .next s.tick := by
  unfold step
  rw [h]
  dsimp only
  rw [hd]
  dsimp only
  rw [hm]
theorem step_event {s : State} {p : Pending} (h : s.halted = none) (hd : s.belowMinimum = none) (hm : s.nextMove = some p) :
    step s = exec p.op (s.begin p) := by
  unfold step
  rw [h]
  dsimp only
  rw [hd]
  dsimp only
  rw [hm]
/-- A bundle whose operations run issues, and its end follows. -/
theorem exec_bundleIssue_closes {s u : State} {c slot lead : Nat} {b : Bundle} {k : BundleCode} (he : s.ev = .part c slot lead)
    (hs : s.select c (partOf slot) = some (slot, lead)) (hf : ((s.gang c slot).part lead).fetchFault = none)
    (hb : ((s.gang c slot).part lead).fetched = some (((s.gang c slot).slice lead).pc, b))
    (hd : ((s.gang c slot).part lead).owed ((s.gang c slot).wide s.clock s.free) b = 0) (hk : decodeBundle b = .ok k)
    (hu : Runs k.slots { s with cur := s.opened c slot lead k.gap } u) :
    ∃ v t, exec .bundleIssue s = .next t ∧ Closed u v ∧ Aged s v t c slot lead := by
  obtain ⟨v, hv, ha⟩ := State.issueBundle_closes hk hu
  exact ⟨v, _, execBundleIssue_issues he hs hf hb hd, hv, ha⟩

/-- Settles O53: a step by its cases, and the issue of a bundle by the rule of its end. -/
theorem stepRunsDecodedBundle : Obligations.StepRunsDecodedBundle := by
  intro s
  refine ⟨fun n h hn => step_halted_idle h hn, fun n p h hf => ⟨_, s.begin_eq p, step_halted_reset h hf⟩, fun d h hd => step_belowMinimum h hd,
    fun h hd hm => ⟨_, step_tick h hd hm, s.tick_clock, fun a => by rw [State.tick_mem]⟩, fun h hd p hm => ?_⟩
  refine ⟨_, s.begin_eq p, fun c slot lead ho _ => State.begin_joins ho, step_event h hd hm, ?_⟩
  intro c slot lead b k ho ha hs hf hb hw hk
  have hev : (s.begin p).ev = .part c slot lead := by rw [State.begin_eq]; exact ha
  have hx {u : State} (hu : Runs k.slots { s.begin p with cur := (s.begin p).opened c slot lead k.gap } u) :
      ∃ v t, step s = .next t ∧ Closed u v ∧ Aged (s.begin p) v t c slot lead := by
    rw [step_event h hd hm, ho]
    rw [← State.begin_gang s p] at hf hb hw
    exact exec_bundleIssue_closes hev hs hf hb hw hk hu
  refine ⟨fun i sl hsl u hi ht => hx ?_, fun u hu => hx hu⟩
  rw [hsl]
  exact .op hi ht (.done u)

/-- Settles O55: each word is evaluated. -/
theorem decodedWords : Obligations.DecodedWords := by
  unfold Obligations.DecodedWords
  decide +kernel

end Sys2Proof.Machine
end
-- Accesses: what the performance of a piece writes, at memory, a scratchpad or an accumulator, and what it leaves.
section
/-! SUPPORT. The rules of a piece's performance (R54, R59, R72, R74, R79, R110, R126, R267, R281): its frame on gangs, crews and requests,
the bytes it writes, the values it takes. -/

namespace Sys2Proof.Machine
open Sys2Proof

/-! #### What leaves gangs, crews and requests as they are -/

/-- Gangs, crews and requests are as before. -/
structure Calm (s t : State) : Prop where
  gangs : GangsKept s t
  reqs : t.reqs = s.reqs

theorem Calm.refl (s : State) : Calm s s := ⟨⟨fun _ _ => rfl, fun _ _ => rfl⟩, rfl⟩
theorem GangsKept.trans {s t u : State} (h : GangsKept s t) (k : GangsKept t u) : GangsKept s u :=
  ⟨fun c g => (k.1 c g).trans (h.1 c g), fun c w => (k.2 c w).trans (h.2 c w)⟩
theorem Calm.trans {s t u : State} (h : Calm s t) (k : Calm t u) : Calm s u := ⟨h.gangs.trans k.gangs, k.reqs.trans h.reqs⟩
theorem Calm.ite {s a b : State} {c : Prop} [Decidable c] (ha : Calm s a) (hb : Calm s b) : Calm s (if c then a else b) := by
  split
  · exact ha
  · exact hb
theorem Calm.foldl {α : Type} {f : State → α → State} (h : ∀ s a, Calm s (f s a)) (l : List α) (s : State) : Calm s (l.foldl f s) := by
  induction l generalizing s with
  | nil => exact .refl s
  | cons a r ih => exact (h s a).trans (ih _)
/-- A change outside the cores and the requests. -/
theorem Calm.of_cores {s t : State} (hc : t.cores = s.cores) (hr : t.reqs = s.reqs) : Calm s t := by
  refine ⟨⟨fun c g => ?_, fun c k => ?_⟩, hr⟩
  · simp only [State.gang?, State.core, hc]
  · simp only [State.crew, State.core, hc]
theorem State.setCore_calm (s : State) (c : Nat) {k : Core} (hg : k.gangs = (s.core c).gangs) (hw : k.crews = (s.core c).crews) :
    Calm s (s.setCore c k) :=
  ⟨⟨fun _ _ => State.gang?_setCore_gangs _ _ _ _ _ hg, fun _ _ => State.crew_setCore_crews _ _ _ _ _ hw⟩, rfl⟩
theorem State.setDir_calm (s : State) (pl : Nat) (d : Nat × Nat × Nat) : Calm s (s.setDir pl d) := .of_cores rfl rfl
theorem State.power_calm (s : State) (c j d : Nat) : Calm s (s.power c j d) := .of_cores rfl rfl
theorem State.observe_calm (s : State) (k i j d : Nat) : Calm s (s.observe k i j d) := .of_cores rfl rfl
theorem State.dirWriteback_calm (s : State) (pl : Nat) : Calm s (s.dirWriteback pl) := by
  unfold State.dirWriteback
  exact .ite (.of_cores rfl rfl) (.of_cores rfl rfl)
theorem State.dirDrop_calm (s : State) (pl c : Nat) : Calm s (s.dirDrop pl c) := by
  unfold State.dirDrop
  exact .ite (.refl s) (.ite (s.setDir_calm ..) (s.setDir_calm ..))
theorem State.recall_calm (s : State) (c ctx line : Nat) : Calm s (s.recall c ctx line) := by
  unfold State.recall
  dsimp only
  refine .ite (.trans (.trans (s.setCore_calm c ?_ ?_) (State.dirDrop_calm ..)) (State.dirWriteback_calm ..))
    (.trans (s.setCore_calm c ?_ ?_) (State.dirDrop_calm ..)) <;> rfl
theorem State.recallAll_calm (s : State) (pl : Nat) : Calm s (s.recallAll pl) := by
  have hf : Calm s ((s.holders pl).foldl (fun t h => t.recall h.1 h.2.1 h.2.2) s) := .foldl (fun t h => t.recall_calm ..) _ s
  unfold State.recallAll
  dsimp only
  refine hf.trans (.trans (.ite (.trans (.ite (State.dirWriteback_calm ..) (.refl _)) (State.dirDrop_calm ..)) (.refl _)) (.of_cores rfl rfl))
theorem State.l2Evict_calm (s : State) (x : L2Line) : Calm s (s.l2Evict x) := by
  unfold State.l2Evict
  exact (s.recallAll_calm x.line).trans (.ite (.of_cores rfl rfl) (.of_cores rfl rfl))
theorem State.l2Use_calm (s : State) (pl rank : Nat) (last wr fetch : Bool) : Calm s (s.l2Use pl rank last wr fetch) := by
  have hv : Calm s (if (s.l2Mates pl).length < 12 then s else (match l2Victim (s.l2Mates pl) with | some x => s.l2Evict x | none => s)) := by
    refine .ite (.refl s) ?_
    split
    · exact s.l2Evict_calm _
    · exact .refl s
  unfold State.l2Use
  exact .ite (.of_cores rfl rfl) (hv.trans (.ite (.of_cores rfl rfl) (.of_cores rfl rfl)))
theorem State.atSlice_calm (s : State) (pa : Nat) : Calm s (s.atSlice pa) := (s.recallAll_calm _).trans (State.setDir_calm ..)
theorem State.yields_calm (s : State) (pl : Nat) : Calm s (s.yields pl) := .ite (s.setDir_calm ..) (.refl s)
theorem State.grantOf_calm (s : State) (r : Req) (l : LaneAcc) : Calm s (s.grantOf r l) := .ite (.refl s) (.of_cores rfl rfl)
theorem State.reach_calm (s : State) (r : Req) (l : LaneAcc) (line n : Nat) : Calm s (s.reach r l line n) := by
  unfold State.reach
  dsimp only
  refine .ite (.trans ?_ (State.grantOf_calm ..)) ?_
  · exact (s.l2Use_calm ..).trans (.ite (State.atSlice_calm ..) (State.yields_calm ..))
  · have hk : Calm s ((s.setCore r.core (if (r.writes && ((s.core r.core).stLine r.ctx line).st == 2) = true then
        ((s.core r.core).touch r.ctx line (retention l.evl1 (r.pol.toNat % 8)) s.clock).setLine r.ctx line
          { (s.core r.core).stLine r.ctx line with st := 4 }
        else (s.core r.core).touch r.ctx line (retention l.evl1 (r.pol.toNat % 8)) s.clock)).power r.core 2 ((n + 7) / 8)) := by
      refine (s.setCore_calm r.core ?_ ?_).trans (State.power_calm ..) <;> split <;> rfl
    exact .ite (hk.trans (State.setDir_calm ..)) hk
theorem State.poisonRange_calm (s : State) (pa n : Nat) : Calm s (s.poisonRange pa n) := .of_cores rfl rfl
theorem State.wrBytes_calm (s : State) (pa : Nat) (bs : List Byte) : Calm s (s.wrBytes pa bs) := .of_cores rfl rfl
theorem State.wroteLine_calm (s : State) (r : Req) (l : LaneAcc) (line : Nat) (keep : List Nat) : Calm s (s.wroteLine r l line keep) := by
  unfold State.wroteLine
  dsimp only
  refine .trans (.ite (.of_cores ?_ ?_) (.refl s)) (.ite (.refl _) (.ite (.trans (.of_cores ?_ ?_) (State.setCore_calm _ _ ?_ ?_))
    (State.setCore_calm _ _ ?_ ?_))) <;> rfl
theorem State.cleanLog_calm (s : State) (c : Nat) : Calm s (s.cleanLog c) := .ite (.refl s) (s.setCore_calm c rfl rfl)

/-! #### The request whose piece is performed -/

theorem mget?_map {α β : Type} (f : α → β) (m : Map α) (k : Nat) : mget? (m.map fun q => (q.1, f q.2)) k = (mget? m k).map f := by
  induction m with
  | nil => rfl
  | cons q r ih =>
    obtain ⟨j, a⟩ := q
    simp only [List.map_cons, mget?]
    split
    · rfl
    · exact ih
/-- A request after a write by `o` of `n` bytes at `pa`: its early loads of them read again. -/
def State.voided (s : State) (o : Observer) (pa n : Nat) (q : Req) : Req :=
  if q.writes then q
  else { q with lanes := q.lanes.map (fun l =>
    if l.early && (rangesMeet l.pa l.size pa n || (l.sva.isSome && rangesMeet l.spa 1 pa n)) && s.inScope q.core q.slot (s.within q l) o
    then l.again else l) }

theorem State.voids_reqs (s : State) (o : Observer) (pa n : Nat) :
    (s.voids o pa n).reqs = s.reqs.map fun q => (q.1, s.voided o pa n q.2) := by
  refine List.map_congr_left fun q _ => ?_
  unfold State.voided
  split <;> rfl
theorem State.voids_req (s : State) (o : Observer) (pa n j : Nat) :
    mget? (s.voids o pa n).reqs j = (mget? s.reqs j).map (s.voided o pa n) := by
  rw [State.voids_reqs, mget?_map]
theorem State.voided_writes (s : State) (o : Observer) (pa n : Nat) {q : Req} (h : q.writes = true) : s.voided o pa n q = q := if_pos h
theorem OtherReqsKept.of_eq {s t : State} (id : Nat) (h : t.reqs = s.reqs) : OtherReqsKept s t id := by
  intro j _
  rw [h]
  refine ⟨fun h => h, fun q hq => ⟨q, hq, rfl, rfl, fun n p p' hp hp' => .inl ?_⟩⟩
  rw [hp] at hp'
  exact (Option.some.inj hp').symm
theorem State.voids_others (s : State) (o : Observer) (pa n id : Nat) : OtherReqsKept s (s.voids o pa n) id := by
  intro j _
  rw [State.voids_req]
  refine ⟨fun h => by rw [h]; rfl, fun q hq => ⟨s.voided o pa n q, by rw [hq]; rfl, ?_⟩⟩
  by_cases hw : q.writes = true
  · rw [State.voided_writes s o pa n hw]
    refine ⟨rfl, rfl, fun n p p' hp hp' => .inl ?_⟩
    rw [hp] at hp'
    exact (Option.some.inj hp').symm
  · rw [State.voided, if_neg hw]
    refine ⟨rfl, List.length_map .., fun n p p' hp hp' => ?_⟩
    rw [List.getElem?_map, hp] at hp'
    obtain rfl := Option.some.inj hp'
    dsimp only
    split
    · next hc =>
      simp only [Bool.and_eq_true] at hc
      exact .inr ⟨hc.1.1, rfl⟩
    · exact .inl rfl
theorem OtherReqsKept.trans_eq {s t u : State} {id : Nat} (h : OtherReqsKept s t id) (k : u.reqs = t.reqs) : OtherReqsKept s u id := by
  intro j hj
  rw [k]
  exact h j hj
/-- The piece is replaced in a state that has kept the other requests. -/
theorem State.setPiece_becomes {s t : State} {id : Nat} (i : Nat) {r : Req} (m : LaneAcc) (h : mget? t.reqs id = some r)
    (ho : OtherReqsKept s t id) : PieceBecomes s (t.setPiece id i m) id i r m := by
  have hs : t.setPiece id i m = t.setReq id (r.setLane i m) := by
    unfold State.setPiece State.req
    rw [h]
  rw [hs]
  refine ⟨mget?_mset_self .., fun j hj => ?_⟩
  have hr : mget? (t.setReq id (r.setLane i m)).reqs j = mget? t.reqs j := mget?_mset_ne _ _ hj
  rw [hr]
  exact ho j hj
theorem PieceBecomes.of_reqs {s t u : State} {id i : Nat} {r : Req} {m : LaneAcc} (h : PieceBecomes s t id i r m) (k : u.reqs = t.reqs) :
    PieceBecomes s u id i r m := by
  refine ⟨?_, h.2.trans_eq k⟩
  rw [k]
  exact h.1
theorem State.setPiece_kept (s : State) (id i : Nat) (m : LaneAcc) : GangsKept s (s.setPiece id i m) := by
  unfold State.setPiece
  split
  · exact ⟨fun _ _ => rfl, fun _ _ => rfl⟩
  · exact (Calm.refl s).gangs
theorem State.voids_kept (s : State) (o : Observer) (pa n : Nat) : GangsKept s (s.voids o pa n) := ⟨fun _ _ => rfl, fun _ _ => rfl⟩

/-! #### The piece's turn -/

theorem State.inTurn_of_settled {s : State} {r : Req} (l : LaneAcc) (h : ∀ d ∈ r.deps, s.settled d = true) : s.inTurn r l = true := by
  unfold State.inTurn Req.reasons
  rw [List.all_map, List.all_eq_true]
  intro k hk
  have hd : r.deps.getD k 0 ∈ r.deps := by
    rw [List.mem_range] at hk
    rw [List.getD_eq_getElem?_getD, List.getElem?_eq_getElem hk]
    exact List.getElem_mem hk
  simp only [Function.comp_apply, State.binds, h _ hd]
  rfl
theorem State.heldPiece_of_budget {s : State} {r : Req} (l : LaneAcc) (h : s.budgetOk r.core = true) : s.heldPiece r l = false := by
  simp [State.heldPiece, h]
theorem State.heldRead_of_inTurn {s : State} {r : Req} {l : LaneAcc} (h : InTurn s r l) : s.heldRead r l = false := by
  obtain ⟨-, -, hl, -, hs⟩ := h
  unfold State.heldRead
  cases hv : l.sva <;> cases hc : l.scale <;> simp_all
/-- The event of a piece whose turn has come performs it. -/
theorem execMemoryAccessPerform_performs {s : State} {id i : Nat} {r : Req} {l : LaneAcc} (hp : PieceAt s id i r l) (hs : l.stage = 1)
    (hi : l.isPeer r = false) (hr : s.heldRead r l = false) (he : l.early = false) (hh : s.heldPiece r l = false) (ht : s.inTurn r l = true) :
    execMemoryAccessPerform s = .next ((s.performPiece id i r l).cleanLog r.core) := by
  obtain ⟨hev, hq, hl⟩ := hp
  have hq' : s.req id = some r := hq
  unfold execMemoryAccessPerform
  simp [hev, hq', hl, hs, hi, hr, he, hh, ht]
theorem execPeerWriteArrival_performs {s : State} {id i : Nat} {r : Req} {l : LaneAcc} (hp : PieceAt s id i r l) (hs : l.stage = 1)
    (hi : l.isPeer r = true) : execPeerWriteArrival s = .next (s.performPiece id i r l) := by
  obtain ⟨hev, hq, hl⟩ := hp
  have hq' : s.req id = some r := hq
  unfold execPeerWriteArrival
  simp [hev, hq', hl, hs, hi]
/-- The kinds whose pieces have a performance of their own. -/
def ownKinds : List ReqKind := [.lblk, .blkwb, .blkdrop, .pref, .stg]

theorem State.performPiece_mem {s : State} {r : Req} (hk : r.kind ∉ ownKinds) {l : LaneAcc} (hp : l.path = 0) (id i : Nat) : s.performPiece id i r l =
    (if r.writes then (s.performMem r l).1.voids r.agent l.pa l.size else (s.performMem r l).1).setPiece id i (s.performMem r l).2 := by
  unfold State.performPiece
  split
  case h_6 => simp only [hp]
  all_goals exact absurd hk (by simp [ownKinds, *])

/-! #### Bytes -/

theorem bytesLE_length (n v : Nat) : (bytesLE n v).length = n := by
  induction n generalizing v with
  | zero => rfl
  | succ n ih => rw [bytesLE, List.length_cons, ih]
theorem bytesLE_eq_map (n v : Nat) : bytesLE n v = (List.range n).map fun k => BitVec.ofNat 8 (v / 256 ^ k) := by
  induction n generalizing v with
  | zero => rfl
  | succ n ih =>
    rw [bytesLE, ih, List.range_succ_eq_map, List.map_cons, List.map_map]
    simp [Function.comp_def, Nat.pow_succ', Nat.div_div_eq_div_mul]
theorem bytesLE_getD {n i : Nat} (v : Nat) (h : i < n) : (bytesLE n v).getD i 0 = BitVec.ofNat 8 (v / 256 ^ i) := by
  rw [bytesLE_eq_map]
  simp [List.getD_eq_getElem?_getD, h]
theorem ofBytesLE_bytesLE {n v : Nat} (h : v < 256 ^ n) : ofBytesLE (bytesLE n v) = v := by
  induction n generalizing v with
  | zero => simp at h; simp [bytesLE, ofBytesLE, h]
  | succ n ih =>
    rw [Nat.pow_succ'] at h
    rw [bytesLE, ofBytesLE, ih (Nat.div_lt_of_lt_mul h), BitVec.toNat_ofNat]
    exact Nat.mod_add_div v 256
theorem ofBytesLE_lt (l : List Byte) : ofBytesLE l < 256 ^ l.length := by
  induction l with
  | nil => simp [ofBytesLE]
  | cons b r ih =>
    have hb := b.isLt
    rw [ofBytesLE, List.length_cons, Nat.pow_succ']
    omega
theorem State.rd_lt (s : State) (pa n : Nat) : s.rd pa n < 256 ^ n := by
  have h := ofBytesLE_lt (Mem.bytes s.mem pa n)
  rwa [Mem.bytes, List.length_map, List.length_range] at h
/-- Single bytes written at offsets of a place. -/
theorem Mem.read_foldl_wrBytes (b : Nat → Byte) (pa : Nat) (l : List Nat) {s : State} (hw : Mem.wf s.mem = true) (a : Nat) :
    Mem.read (l.foldl (fun t i => t.wrBytes (pa + i) [b i]) s).mem a = if pa ≤ a ∧ a - pa ∈ l then b (a - pa) else Mem.read s.mem a := by
  induction l generalizing s with
  | nil => simp
  | cons i r ih =>
    have hs : (s.wrBytes (pa + i) [b i]).mem = Mem.write s.mem (pa + i) (b i) := rfl
    rw [List.foldl_cons, ih (State.wrBytes_wf hw ..), hs]
    by_cases hr : pa ≤ a ∧ a - pa ∈ r
    · rw [if_pos hr, if_pos ⟨hr.1, List.mem_cons_of_mem _ hr.2⟩]
    · rw [if_neg hr]
      by_cases hi : a = pa + i
      · subst hi
        rw [Mem.read_write_self hw, if_pos ⟨Nat.le_add_right .., by simp⟩]
        simp
      · rw [Mem.read_write_ne _ _ hi, if_neg]
        rintro ⟨hp, hm⟩
        rcases List.mem_cons.mp hm with h | h
        · exact hi (by omega)
        · exact hr ⟨hp, h⟩

/-! #### A piece on a page of HBM -/

theorem Req.mem_openBytes_store {r : Req} (h : r.atomic = false) (l : LaneAcc) (k : Nat) : k ∈ r.openBytes l ↔ k < l.size ∧ ¬ r.coversByte l k := by
  unfold Req.openBytes Req.coversByte
  rw [List.mem_filter, List.mem_range, h, Bool.false_or, Bool.not_eq_true', ← Bool.not_eq_true, List.any_eq_true]
  refine and_congr_right fun _ => not_congr (exists_congr fun m => ?_)
  cases l.base? m with
  | none => simp
  | some x =>
    obtain ⟨a, b⟩ := x
    simp [and_assoc]
theorem Req.openBytes_atomic {r : Req} (h : r.atomic = true) (l : LaneAcc) : r.openBytes l = List.range l.size := by
  simp [Req.openBytes, h]
theorem Req.kind_of_writes {r : Req} (h : r.writes = true) : (r.kind == .load) = false ∧ r.kind ∉ ownKinds := by
  unfold Req.writes at h
  cases hk : r.kind <;> simp_all [ownKinds]
theorem Req.copying_eq_false {r : Req} (h3 : r.opc ≠ 0x43) (h4 : r.opc ≠ 0x44) : r.copying = false := by simp [Req.copying, h3, h4]

/-- The state once a piece has written a value at its place. -/
def State.written (s : State) (r : Req) (l : LaneAcc) (v : Nat) : State :=
  ((r.openBytes l).foldl (fun t i => t.wrBytes (l.pa + i) [(bytesLE l.size v).getD i 0])
    (s.reach r l (l.ia.toNat % 2 ^ 57 / 128) l.size)).wroteLine r l (l.ia.toNat % 2 ^ 57 / 128) (r.openBytes l)

theorem State.written_calm (s : State) (r : Req) (l : LaneAcc) (v : Nat) : Calm s (s.written r l v) :=
  (s.reach_calm ..).trans ((Calm.foldl (fun _ _ => State.wrBytes_calm ..) _ _).trans (State.wroteLine_calm ..))
theorem State.written_read {s : State} (hw : Mem.wf s.mem = true) (r : Req) (l : LaneAcc) (v a : Nat) :
    Mem.read (s.written r l v).mem a =
      if l.pa ≤ a ∧ a - l.pa ∈ r.openBytes l then (bytesLE l.size v).getD (a - l.pa) 0 else Mem.read s.mem a := by
  rw [State.written, State.wroteLine_mem, Mem.read_foldl_wrBytes _ _ _ (by rwa [State.reach_mem]), State.reach_mem]
theorem State.written_outside {s : State} (hw : Mem.wf s.mem = true) (r : Req) (l : LaneAcc) (v : Nat) :
    KeptOutside s (s.written r l v) l.pa l.size := by
  intro a ha
  rw [State.written_read hw, if_neg]
  rintro ⟨hp, hm⟩
  have : a - l.pa < l.size := List.mem_range.mp (List.mem_filter.mp hm).1
  omega
theorem State.written_byte {s : State} (hw : Mem.wf s.mem = true) {r : Req} {l : LaneAcc} (v : Nat) {k : Nat} (hk : k ∈ r.openBytes l) :
    Mem.read (s.written r l v).mem (l.pa + k) = BitVec.ofNat 8 (v / 256 ^ k) := by
  have hs : k < l.size := List.mem_range.mp (List.mem_filter.mp hk).1
  rw [State.written_read hw, Nat.add_sub_cancel_left, if_pos ⟨Nat.le_add_right .., hk⟩, bytesLE_getD v hs]
theorem State.written_covered {s : State} (hw : Mem.wf s.mem = true) {r : Req} {l : LaneAcc} (v : Nat) {k : Nat} (hk : k ∉ r.openBytes l) :
    Mem.read (s.written r l v).mem (l.pa + k) = Mem.read s.mem (l.pa + k) := by
  rw [State.written_read hw, Nat.add_sub_cancel_left, if_neg fun h => hk h.2]
/-- An atomic leaves the bytes of its value. -/
theorem State.written_value {s : State} (hw : Mem.wf s.mem = true) {r : Req} (ha : r.atomic = true) (l : LaneAcc) {v : Nat} (hv : v < 256 ^ l.size) :
    ofBytesLE ((List.range l.size).map fun k => Mem.read (s.written r l v).mem (l.pa + k)) = v := by
  have hb : ((List.range l.size).map fun k => Mem.read (s.written r l v).mem (l.pa + k)) = bytesLE l.size v := by
    rw [bytesLE_eq_map]
    refine List.map_congr_left fun k hk => State.written_byte hw v ?_
    rwa [Req.openBytes_atomic ha]
  rw [hb, ofBytesLE_bytesLE hv]

theorem State.performMem_writes {s : State} {r : Req} {l : LaneAcc} {v : Nat} (hc : r.copying = false)
    (hw : r.writes = true) (hf : l.fmt = 0)
    (hu : l.undef = false) (hb : r.atomic = true → s.consumes r.core r.ctx (l.ia.toNat % 2 ^ 57 / 128) l.pa l.size = false)
    (hv : r.update l (s.rd l.pa l.size) = some v) :
    s.performMem r l = (s.written r l v, { l with stage := 2, out := s.rd l.pa l.size, undef := false }) := by
  have hl := (Req.kind_of_writes hw).1
  have hn : l.unit r = (l.pa, l.size) := by simp [LaneAcc.unit, hl, hf]
  have ha : (r.atomic && s.consumes r.core r.ctx (l.ia.toNat % 2 ^ 57 / 128) l.pa l.size) = false := by
    cases h : r.atomic
    · rfl
    · rw [hb h]; rfl
  unfold State.performMem
  simp only [hc, hn, hw, hl, hf, hv, hu, ha, Nat.reduceBEq, Bool.and_false, Bool.false_and, Bool.or_false, Bool.false_eq_true, if_false, if_true]
  rfl
theorem State.performMem_keeps {s : State} {r : Req} {l : LaneAcc} (hc : r.copying = false) (hw : r.writes = true) (hf : l.fmt = 0)
    (hb : s.consumes r.core r.ctx (l.ia.toNat % 2 ^ 57 / 128) l.pa l.size = false) (hv : r.update l (s.rd l.pa l.size) = none) :
    s.performMem r l = (s.reach r l (l.ia.toNat % 2 ^ 57 / 128) l.size, { l with stage := 2, out := s.rd l.pa l.size }) := by
  have hl := (Req.kind_of_writes hw).1
  have hn : l.unit r = (l.pa, l.size) := by simp [LaneAcc.unit, hl, hf]
  unfold State.performMem
  simp only [hc, hn, hw, hl, hf, hv, hb, Nat.reduceBEq, Bool.and_false, Bool.false_and, Bool.or_false, Bool.false_eq_true, if_false, if_true]
/-- A load that is not decoded takes its bytes, or the cause of poison. -/
theorem State.performMem_reads {s : State} {r : Req} {l : LaneAcc} (hc : r.copying = false) (hw : r.writes = false) (hf : l.fmt = 0)
    (hp : r.kind = .load → r.peer = none) : ∃ m, s.performMem r l = (s.reach r l (l.ia.toNat % 2 ^ 57 / 128) l.size, m) ∧ m.stage = 2 ∧
      (s.consumes r.core r.ctx (l.ia.toNat % 2 ^ 57 / 128) l.pa l.size = false → m.out = s.rd l.pa l.size ∧ m.cause = l.cause) ∧
      (s.consumes r.core r.ctx (l.ia.toNat % 2 ^ 57 / 128) l.pa l.size = true → m.cause = 0x20 ∧ m.undef = true) := by
  have hl : (r.peer.isSome && r.kind == .load) = false := by
    by_cases h : r.kind = .load
    · simp [hp h]
    · simp [h]
  have hn : l.unit r = (l.pa, l.size) := by simp [LaneAcc.unit, hl, hf]
  unfold State.performMem
  dsimp only
  generalize l.ia.toNat % 2 ^ 57 / 128 = line
  have hcoded : (l.fmt == 1 || (r.peer.isSome && r.kind == .load && l.attr == 1)) = false := by rw [hf, hl]; rfl
  rw [hcoded, hn]
  cases hb : s.consumes r.core r.ctx line l.pa l.size
  · cases hpe : r.peer.isSome <;> simp [hc, hw, hf]
  · simp [hc, hw]

/-! #### The value an atomic writes -/

theorem signed_f32_lt {neg : Bool} {mag : Nat} (h : mag < 2 ^ 31) : Num.signed Num.f32 neg mag < 2 ^ 32 := by
  have hb : 2 ^ (Num.f32.ebits + Num.f32.mbits) = 2 ^ 31 := rfl
  unfold Num.signed
  rw [hb]
  split <;> omega
theorem overflowMag_f32_lt (mode : Nat) (neg : Bool) : Num.overflowMag Num.f32 mode neg < 2 ^ 31 := by
  unfold Num.overflowMag
  dsimp only
  (repeat' split) <;> decide
theorem clipped_f32_lt (sat : Bool) (mode : Nat) (neg : Bool) (mag : Nat) :
    (if mag > Num.f32.maxFin then
      Num.signed Num.f32 neg (if sat || !Num.f32.hasInf then Num.f32.maxFin else Num.overflowMag Num.f32 mode neg)
    else Num.signed Num.f32 neg mag) < 2 ^ 32 := by
  have hm : Num.f32.maxFin < 2 ^ 31 := by decide
  split
  · refine signed_f32_lt ?_
    split
    · exact hm
    · exact overflowMag_f32_lt mode neg
  · next h => exact signed_f32_lt (lt_of_le_of_lt (Nat.not_lt.mp h) hm)
/-- Every rounded F32 is a pattern of 32 bits. -/
theorem round_f32_lt (sat : Bool) (mode r : Nat) (x : Num.XR) : Num.round Num.f32 sat mode r x < 2 ^ 32 := by
  unfold Num.round
  cases x with
  | nan => exact (by decide : Num.f32.qnan < 2 ^ 32)
  | inf neg => exact signed_f32_lt (by split <;> decide)
  | fin neg num den e sticky =>
    dsimp only
    by_cases hz : (decide (num = 0) && !sticky) = true
    · rw [if_pos hz]
      exact signed_f32_lt (by decide)
    · rw [if_neg hz]
      exact clipped_f32_lt sat mode neg _
theorem fmin_f32_lt {a b : Nat} (ha : a < 2 ^ 32) (hb : b < 2 ^ 32) : Num.fmin Num.f32 a b < 2 ^ 32 := by
  have hq : Num.f32.qnan < 2 ^ 32 := by decide
  unfold Num.fmin
  dsimp only
  (repeat' split) <;> assumption
theorem fmax_f32_lt {a b : Nat} (ha : a < 2 ^ 32) (hb : b < 2 ^ 32) : Num.fmax Num.f32 a b < 2 ^ 32 := by
  have hq : Num.f32.qnan < 2 ^ 32 := by decide
  unfold Num.fmax
  dsimp only
  (repeat' split) <;> assumption
theorem sextInt_eq_toInt {w a : Nat} (hw : 0 < w) (h : a < 2 ^ w) : sextInt a w = (BitVec.ofNat w a).toInt := by
  have h2 : 2 ^ w = 2 * 2 ^ (w - 1) := by rw [← Nat.pow_succ']; congr 1; omega
  unfold sextInt
  rw [BitVec.toInt_eq_toNat_cond, BitVec.toNat_ofNat, Nat.mod_eq_of_lt h, if_neg (by omega)]
  split <;> split <;> omega
/-- The lesser of two, whichever is looked at first. -/
theorem ite_lt_swap {α : Type} [LinearOrder α] {a b : Nat} {x y : α} (h : x = y → a = b) : (if y < x then b else a) = if x < y then a else b := by
  rcases lt_trichotomy x y with hl | he | hg
  · rw [if_neg hl.not_gt, if_pos hl]
  · rw [if_neg he.not_gt, if_neg he.not_lt, h he]
  · rw [if_pos hg, if_neg hg.not_gt]
/-- The value the model computes is that of Table 9-3. -/
theorem atomOp_eq {opc w old v : Nat} (op : Nat) (hw : 0 < w) (ho : old < 2 ^ w) (hv : v < 2 ^ w) :
    atomOp op (atomType opc) w old v = atomicValue op (opc % 4 == 1) (opc % 4 == 3) w old v := by
  have ha : (BitVec.ofNat w old).toNat = old := Nat.mod_eq_of_lt ho
  have hb : (BitVec.ofNat w v).toNat = v := Nat.mod_eq_of_lt hv
  have hu : (BitVec.ofNat w old).ult (BitVec.ofNat w v) = decide (old < v) := by rw [BitVec.ult, ha, hb]
  have hs : (BitVec.ofNat w old).slt (BitVec.ofNat w v) = decide (sextInt old w < sextInt v w) := by
    rw [BitVec.slt, sextInt_eq_toInt hw ho, sextInt_eq_toInt hw hv]
  have hx : sextInt old w = sextInt v w → old = v := by
    rw [sextInt_eq_toInt hw ho, sextInt_eq_toInt hw hv, BitVec.toInt_inj]
    intro h
    rw [← ha, h, hb]
  unfold atomOp atomicValue
  have h4 : opc % 4 = 1 ∧ atomType opc = 1 ∨ opc % 4 = 3 ∧ atomType opc = 2 ∨ (opc % 4 ≠ 1 ∧ opc % 4 ≠ 3) ∧ atomType opc = 0 := by
    unfold atomType
    split <;> simp_all
  match op with
  | 0 => rcases h4 with ⟨h, ht⟩ | ⟨h, ht⟩ | ⟨h, ht⟩ <;> simp [h, ht, BitVec.toNat_add, ha, hb]
  | 1 =>
    rcases h4 with ⟨h, ht⟩ | ⟨h, ht⟩ | ⟨h, ht⟩
    · simpa [h, ht, ha, hb, hs, Alu.iminS] using ite_lt_swap hx
    · simp [h, ht]
    · simpa [h, ht, ha, hb, hu, Alu.iminN] using ite_lt_swap fun e => e
  | 2 =>
    rcases h4 with ⟨h, ht⟩ | ⟨h, ht⟩ | ⟨h, ht⟩
    · simp [h, ht, ha, hb, hs, Alu.imaxS]
    · simp [h, ht]
    · simp [h, ht, ha, hb, hu, Alu.imaxN]
  | 3 => simp [ha, hb]
  | 4 => simp [ha, hb]
  | 5 => simp [ha, hb]
  | _ + 6 => simp [hb]
theorem atomOp_lt {opc w old v : Nat} (op : Nat) (hw : 0 < w) (hf : opc % 4 = 3 → w = 32) (ho : old < 2 ^ w) (hv : v < 2 ^ w) :
    atomOp op (atomType opc) w old v < 2 ^ w := by
  have hb {n : BitVec w} : n.toNat < 2 ^ w := n.isLt
  rw [atomOp_eq op hw ho hv]
  unfold atomicValue
  by_cases h : opc % 4 = 3
  · obtain rfl := hf h
    dsimp only
    split
    · exact round_f32_lt ..
    · split
      · exact fmin_f32_lt ho hv
      · split
        · exact fmax_f32_lt ho hv
        · (repeat' split) <;> exact hb
  · have hn : (opc % 4 == 3) = false := by simpa using h
    simp only [hn, Bool.false_eq_true, false_and, if_false]
    (repeat' split) <;> exact hb

/-! #### An access of HBM -/

/-- An access on PATH 0 whose turn has come takes effect at its place. -/
theorem exec_performMem {s t : State} {id i : Nat} {r : Req} {l m : LaneAcc} (hp : PieceAt s id i r l) (hs : l.stage = 1) (h0 : l.path = 0)
    (ht : InTurn s r l) (hk : r.kind ∉ ownKinds) (hm : s.performMem r l = (t, m)) (hc : Calm s t) :
    ∃ u, exec .memoryAccessPerform s = .next u ∧ u.mem = t.mem ∧ GangsKept s u ∧ PieceBecomes s u id i r m := by
  have hr := State.heldRead_of_inTurn ht
  obtain ⟨he, hd, -, hb, -⟩ := ht
  have hi : l.isPeer r = false := by simp [LaneAcc.isPeer, h0]
  refine ⟨_, execMemoryAccessPerform_performs hp hs hi hr he (State.heldPiece_of_budget l hb) (State.inTurn_of_settled l hd), ?_, ?_, ?_⟩
  all_goals rw [State.performPiece_mem hk h0, hm]
  all_goals dsimp only
  · rw [State.cleanLog_mem, State.setPiece_mem]
    split <;> rfl
  · refine hc.gangs.trans (GangsKept.trans ?_ ((State.setPiece_kept ..).trans (State.cleanLog_calm ..).gangs))
    split
    · exact State.voids_kept ..
    · exact (Calm.refl t).gangs
  · refine PieceBecomes.of_reqs (State.setPiece_becomes i m ?_ ?_) (State.cleanLog_calm ..).reqs
    · split
      · next hw => rw [State.voids_req, hc.reqs, hp.2.1, Option.map_some, State.voided_writes _ _ _ _ hw]
      · rw [hc.reqs]; exact hp.2.1
    · split
      · have hv := t.voids_others r.agent l.pa l.size id
        rw [OtherReqsKept, hc.reqs] at hv
        exact hv
      · exact .of_eq id hc.reqs

theorem accessPerform : AccessPerform := by
  intro s id i r l hp hs h0 ht h3 h4 hw hz hd hf
  have hc := Req.copying_eq_false h3 h4
  refine ⟨fun hk hu => ?_, fun hk hpe => ?_, fun hk hu hsz hop hb => ?_, fun hk hu hb => ?_⟩
  · have hrw : r.writes = true ∧ r.atomic = false ∧ r.update l (s.rd l.pa l.size) = some l.data := by
      simp only [plainStores, List.mem_cons, List.not_mem_nil, or_false] at hk
      rcases hk with h | h | h | h <;> simp [Req.writes, Req.atomic, Req.update, h]
    obtain ⟨hwr, ha, hup⟩ := hrw
    obtain ⟨u, hx, hmem, hg, hb⟩ := exec_performMem hp hs h0 ht (Req.kind_of_writes hwr).2
      (State.performMem_writes hc hwr hf hu (by simp [ha]) hup) (s.written_calm r l l.data)
    refine ⟨u, hx, ?_, hg, fun k hk hcov => ?_, fun k hk hcov => ?_, _, hb, rfl, rfl⟩
    · unfold KeptOutside
      rw [hmem]
      exact State.written_outside hw r l l.data
    · rw [hmem, State.written_covered hw]
      exact fun hmo => ((Req.mem_openBytes_store ha l k).mp hmo).2 hcov
    · rw [hmem, State.written_byte hw _ ((Req.mem_openBytes_store ha l k).mpr ⟨hk, hcov⟩)]
  · have hrw : r.writes = false ∧ r.kind ∉ ownKinds := by
      simp only [plainLoads, List.mem_cons, List.not_mem_nil, or_false] at hk
      rcases hk with h | h | h | h | h | h <;> simp [Req.writes, ownKinds, h]
    obtain ⟨m, hm, h2, hgood, hbad⟩ := s.performMem_reads hc hrw.1 hf hpe
    obtain ⟨u, hx, hmem, hg, hb⟩ := exec_performMem hp hs h0 ht hrw.2 hm (s.reach_calm ..)
    refine ⟨u, m, hx, fun a => ?_, hg, hb, h2, hgood, hbad⟩
    rw [hmem, State.reach_mem]
  · have hrw : r.writes = true ∧ r.atomic = true ∧
        r.update l (s.rd l.pa l.size) = some (atomOp r.z (atomType r.opc) (8 * l.size) (s.rd l.pa l.size) l.data) := by
      rcases hk with h | h <;> simp [Req.writes, Req.atomic, Req.update, h]
    obtain ⟨hwr, ha, hup⟩ := hrw
    obtain ⟨u, hx, hmem, hg, hbec⟩ := exec_performMem hp hs h0 ht (Req.kind_of_writes hwr).2
      (State.performMem_writes hc hwr hf hu (fun _ => hb) hup) (s.written_calm r l _)
    have h256 : 256 ^ l.size = 2 ^ (8 * l.size) := by rw [Nat.pow_mul]
    have hold := s.rd_lt l.pa l.size
    rw [h256] at hold hd
    have hlt := atomOp_lt (opc := r.opc) r.z (by omega) (fun h => by rw [hop h]) hold hd
    refine ⟨u, _, hx, ?_, hg, hbec, rfl, rfl, ?_⟩
    · unfold KeptOutside
      rw [hmem]
      exact State.written_outside hw r l _
    · rw [hmem, State.written_value hw ha l (by rwa [h256])]
      exact atomOp_eq r.z (by omega) hold hd
  · have hwr : r.writes = true ∧ r.atomic = true := by simp [Req.writes, Req.atomic, hk]
    by_cases hcmp : s.rd l.pa l.size = l.cmp
    · have hup : r.update l (s.rd l.pa l.size) = some l.data := by simp [Req.update, hk, hcmp]
      obtain ⟨u, hx, hmem, hg, hbec⟩ := exec_performMem hp hs h0 ht (Req.kind_of_writes hwr.1).2
        (State.performMem_writes hc hwr.1 hf hu (fun _ => hb) hup) (s.written_calm r l _)
      refine ⟨u, _, hx, ?_, hg, hbec, rfl, rfl, fun k hk => ?_⟩
      · unfold KeptOutside
        rw [hmem]
        exact State.written_outside hw r l _
      · rw [hmem, State.written_byte hw _ (by rwa [Req.openBytes_atomic hwr.2, List.mem_range])]
        exact (if_pos hcmp).symm
    · have hup : r.update l (s.rd l.pa l.size) = none := by simp [Req.update, hk, hcmp]
      obtain ⟨u, hx, hmem, hg, hbec⟩ := exec_performMem hp hs h0 ht (Req.kind_of_writes hwr.1).2
        (State.performMem_keeps hc hwr.1 hf hb hup) (s.reach_calm ..)
      refine ⟨u, _, hx, fun a _ => ?_, hg, hbec, rfl, rfl, fun k _ => ?_⟩
      · rw [hmem, State.reach_mem]
      · rw [hmem, State.reach_mem]
        exact (if_neg hcmp).symm

/-! #### An element of a decoding load -/

theorem elementSize_eq (fmt : Nat) : elementSize fmt = elemBytes fmt := rfl
theorem decodeElem_eq {fmt : Nat} (h1 : 1 ≤ fmt) (h4 : fmt ≤ 4) (x nib scale : Nat) : decodeElem fmt x nib scale = elementValue fmt x nib scale := by
  obtain rfl | rfl | rfl | rfl : fmt = 1 ∨ fmt = 2 ∨ fmt = 3 ∨ fmt = 4 := by omega
  all_goals rfl
theorem elementValue_scale {fmt : Nat} (h : fmt ≠ 1) (x nib a b : Nat) : elementValue fmt x nib a = elementValue fmt x nib b := by
  unfold elementValue
  split
  · exact absurd rfl h
  all_goals rfl
theorem State.performMem_decodes {s : State} {r : Req} {l : LaneAcc} (hc : r.copying = false) (hk : r.kind = .load) (hpe : r.peer = none)
    (h1 : 1 ≤ l.fmt) (h4 : l.fmt ≤ 4) : ∃ m, s.performMem r l = (s.reach r l (l.ia.toNat % 2 ^ 57 / 128) (elementSize l.fmt), m) ∧ m.stage = 2 ∧
      ((s.consumes r.core r.ctx (l.ia.toNat % 2 ^ 57 / 128) l.pa (elementSize l.fmt) || (l.fmt == 1 && (s.scaleOf l).2)) = false →
        m.out = elementValue l.fmt (s.rd l.pa (elementSize l.fmt)) (l.off % 2) (s.scaleOf l).1) ∧
      ((s.consumes r.core r.ctx (l.ia.toNat % 2 ^ 57 / 128) l.pa (elementSize l.fmt) || (l.fmt == 1 && (s.scaleOf l).2)) = true →
        m.cause = 0x20 ∧ m.undef = true) := by
  have hw : r.writes = false := by simp [Req.writes, hk]
  have hf : l.fmt ≠ 0 := by omega
  have hn : l.unit r = (l.pa, elementSize l.fmt) := by simp [LaneAcc.unit, hpe, hf, elementSize_eq]
  have hcoded : (l.fmt == 1 || (r.peer.isSome && r.kind == .load && l.attr == 1)) = (l.fmt == 1) := by simp [hpe]
  unfold State.performMem
  dsimp only
  rw [hcoded, hn]
  generalize l.ia.toNat % 2 ^ 57 / 128 = line
  dsimp only
  cases hb : s.consumes r.core r.ctx line l.pa (elementSize l.fmt) || (l.fmt == 1 && (s.scaleOf l).2)
  · simp [hc, hw, hpe, hf, decodeElem_eq h1 h4]
  · simp [hc, hw]

theorem State.rd_one (s : State) (pa : Nat) : s.rd pa 1 = (Mem.read s.mem pa).toNat := by
  simp [State.rd, Mem.word, Mem.bytes, ofBytesLE]
theorem decodedElements : DecodedElements := by
  intro s id i r l hp hs h0 ht h3 h4 hk hpe h1 hf4 hsc
  obtain ⟨m, hm, h2, hgood, hbad⟩ := s.performMem_decodes (Req.copying_eq_false h3 h4) hk hpe h1 hf4
  obtain ⟨u, hx, hmem, hg, hb⟩ := exec_performMem hp hs h0 ht (by simp [ownKinds, hk]) hm (s.reach_calm ..)
  refine ⟨u, m, hx, fun a => by rw [hmem, State.reach_mem], hg, hb, h2, ?_⟩
  by_cases hf : l.fmt = 1
  · have hs : s.scaleOf l = match l.scale with
        | some b => b
        | none => ((Mem.read s.mem l.spa).toNat, s.poisoned l.spa 1) := by
      unfold State.scaleOf
      cases hls : l.scale with
      | some b => rfl
      | none =>
        have hv : l.sva.isNone = false := by
          rw [Option.isNone_eq_false_iff, Option.isSome_iff_ne_none]
          simpa [hls] using hsc hf
        rw [← State.rd_one, hv]
        rfl
    rw [hs] at hgood hbad
    exact ⟨hgood, hbad⟩
  · have hf' : (l.fmt == 1) = false := by simpa using hf
    simp only [hf', Bool.false_and, Bool.or_false] at hgood hbad ⊢
    exact ⟨fun h => (hgood h).trans (elementValue_scale hf ..), hbad⟩

/-! #### A piece on a scratchpad or an accumulator -/

/-- The scratchpads hold the same bytes, and no store has been discarded. -/
structure PadsKept (s t : State) : Prop where
  scratch : ∀ d, (t.core d).scratch = (s.core d).scratch
  stale : ∀ d, (t.core d).scrstale = (s.core d).scrstale

theorem PadsKept.refl (s : State) : PadsKept s s := ⟨fun _ => rfl, fun _ => rfl⟩
theorem PadsKept.trans {s t u : State} (h : PadsKept s t) (k : PadsKept t u) : PadsKept s u :=
  ⟨fun d => (k.scratch d).trans (h.scratch d), fun d => (k.stale d).trans (h.stale d)⟩
theorem PadsKept.of_cores {s t : State} (h : t.cores = s.cores) : PadsKept s t := by
  constructor <;> intro d <;> simp only [State.core, h]
theorem State.setCore_pads (s : State) (c : Nat) {k : Core} (h : k.scratch = (s.core c).scratch) (h' : k.scrstale = (s.core c).scrstale) :
    PadsKept s (s.setCore c k) := by
  constructor <;> intro d <;> rcases eq_or_ne d c with rfl | hd
  · rw [State.core_setCore_self, h]
  · rw [State.core_setCore_ne _ _ hd]
  · rw [State.core_setCore_self, h']
  · rw [State.core_setCore_ne _ _ hd]
theorem State.setGang_pads (s : State) (c g : Nat) (x : Gang) : PadsKept s (s.setGang c g x) := s.setCore_pads c rfl rfl
theorem State.setCrew_pads (s : State) (c k : Nat) (x : Crew) : PadsKept s (s.setCrew c k x) := s.setCore_pads c rfl rfl
theorem State.setPiece_pads (s : State) (id i : Nat) (l : LaneAcc) : PadsKept s (s.setPiece id i l) := by
  unfold State.setPiece
  split
  · exact .of_cores rfl
  · exact .refl s
theorem State.cleanLog_pads (s : State) (c : Nat) : PadsKept s (s.cleanLog c) := by
  unfold State.cleanLog
  dsimp only
  split
  · exact .refl s
  · exact s.setCore_pads c rfl rfl
theorem State.noteUnready_cases (s : State) (id : Nat) (r : Req) (l : LaneAcc) :
    s.noteUnready id r l = s ∨ (r.writes = true ∨ r.kind = .accst) ∧ ∃ g, s.noteUnready id r l = s.setGang r.core r.slot g := by
  unfold State.noteUnready
  split
  · dsimp only
    split
    · exact .inl rfl
    · split
      · next h => exact .inr ⟨.inl h.2, _, rfl⟩
      · split
        · next h => exact .inr ⟨.inr h.2.1, _, rfl⟩
        · exact .inl rfl
  · exact .inl rfl
theorem State.noteUnready_reqs (s : State) (id : Nat) (r : Req) (l : LaneAcc) : (s.noteUnready id r l).reqs = s.reqs := by
  rcases s.noteUnready_cases id r l with h | ⟨-, g, h⟩ <;> rw [h]
  rfl
theorem State.noteUnready_pads (s : State) (id : Nat) (r : Req) (l : LaneAcc) : PadsKept s (s.noteUnready id r l) := by
  rcases s.noteUnready_cases id r l with h | ⟨-, g, h⟩ <;> rw [h]
  · exact .refl s
  · exact s.setGang_pads ..
theorem State.noteUnready_crew (s : State) (id : Nat) (r : Req) (l : LaneAcc) (c k : Nat) : (s.noteUnready id r l).crew c k = s.crew c k := by
  rcases s.noteUnready_cases id r l with h | ⟨-, g, h⟩ <;> rw [h]
  exact State.crew_setGang ..
theorem State.noteUnready_reads (s : State) (id : Nat) {r : Req} (l : LaneAcc) (hw : r.writes = false) (hk : r.kind ≠ .accst) :
    s.noteUnready id r l = s := by
  rcases s.noteUnready_cases id r l with h | ⟨h, -⟩
  · exact h
  · rcases h with h | h
    · rw [hw] at h; cases h
    · exact absurd h hk
theorem State.freeElems_pads (s : State) (c k : Nat) (es : List Nat) : PadsKept s (s.freeElems c k es) := by
  unfold State.freeElems
  split
  · exact .refl s
  · exact (s.setCrew_pads ..).trans (.of_cores rfl)
theorem State.freeElems_reqs (s : State) (c k : Nat) (es : List Nat) : (s.freeElems c k es).reqs = s.reqs := by
  unfold State.freeElems
  split <;> rfl
theorem State.spoil_pads (s : State) (c k kind lo len req : Nat) : PadsKept s (s.spoil c k kind lo len req) := by
  unfold State.spoil
  dsimp only
  split
  · exact .refl s
  · refine .trans (s.setCore_pads c ?_ ?_) (State.freeElems_pads ..) <;> rfl
theorem State.spoil_reqs (s : State) (c k kind lo len req : Nat) : (s.spoil c k kind lo len req).reqs = s.reqs := by
  unfold State.spoil
  dsimp only
  split
  · rfl
  · rw [State.freeElems_reqs]; rfl
theorem Core.swr_scrstale (k : Core) (a : Alloc) (ofs : Nat) (bs : List Byte) : (k.swr a ofs bs).scrstale = k.scrstale := by
  unfold Core.swr
  split
  · rfl
  · dsimp only
    split <;> rfl
theorem State.scratchWrite_reqs (s : State) (c k : Nat) (a : Alloc) (ofs : Nat) (bs : List Byte) (bad : Bool) (req : Nat) :
    (s.scratchWrite c k a ofs bs bad req).reqs = s.reqs := by
  unfold State.scratchWrite
  exact (State.spoil_reqs ..).trans rfl
/-- A write of a scratchpad leaves its bytes there, and discards none. -/
theorem State.scratchWrite_scratch (s : State) (c k : Nat) (a : Alloc) (ofs : Nat) (bs : List Byte) (req : Nat) :
    ((s.scratchWrite c k a ofs bs false req).core c).scratch = ((s.core c).swr a ofs bs).scratch ∧
      ((s.scratchWrite c k a ofs bs false req).core c).scrstale = (s.core c).scrstale := by
  have h := State.spoil_pads (s.setCore c ((s.core c).swr a ofs bs)) c k 0 ofs bs.length req
  have hs := h.scratch c
  have ht := h.stale c
  rw [State.core_setCore_self] at hs ht
  exact ⟨hs, ht.trans (Core.swr_scrstale ..)⟩
theorem any_key_eq {α : Type} (m : Map α) (k : Nat) : m.any (fun x => x.1 == k) = (mget? m k).isSome := by
  induction m with
  | nil => rfl
  | cons x r ih =>
    obtain ⟨j, a⟩ := x
    rw [List.any_cons, ih, mget?]
    by_cases h : j = k <;> simp [h]

theorem State.performPiece_scratch {s : State} {r : Req} (hk : r.kind ∉ ownKinds) {l : LaneAcc} (hp : l.path = 1 ∨ l.path = 2) (id i : Nat)
    (hd : ¬ (r.kind = .load ∧ l.fmt = 0 ∧ l.off = 0 ∧ (s.core l.core).accepts l.alloc l.pa = true ∧ gtFmt ((s.core l.core).tagAt l.alloc l.pa) ≠ 0)) :
    s.performPiece id i r l = ((s.performScratch id r l).1.setPiece id i (s.performScratch id r l).2).noteUnready id r l := by
  unfold State.performPiece
  split
  case h_6 => rcases hp with hp | hp <;> simp only [hp, if_neg hd]
  all_goals exact absurd hk (by simp [ownKinds, *])
theorem State.performPiece_decodes {s : State} {r : Req} {l : LaneAcc} (hp : l.path = 1 ∨ l.path = 2) (id i : Nat)
    (hd : r.kind = .load ∧ l.fmt = 0 ∧ l.off = 0 ∧ (s.core l.core).accepts l.alloc l.pa = true ∧ gtFmt ((s.core l.core).tagAt l.alloc l.pa) ≠ 0) :
    s.performPiece id i r l = (s.setReq id (r.decoded l.lane (s.decodeScratch r l))).power l.core 2
      (((s.decodeScratch r l).map (fun m => m.alloc.gen * 65536 + m.pa / 8)).eraseDups).length := by
  unfold State.performPiece
  split
  case h_6 => rcases hp with hp | hp <;> simp only [hp, if_pos hd]
  all_goals simp_all
theorem State.performPiece_acc {s : State} {r : Req} (hk : r.kind ∉ ownKinds) {l : LaneAcc} (hp : l.path = 8) (id i : Nat) :
    s.performPiece id i r l = ((s.performAcc r l).1.setPiece id i (s.performAcc r l).2).noteUnready id r l := by
  unfold State.performPiece
  split
  case h_6 => simp only [hp]
  all_goals exact absurd hk (by simp [ownKinds, *])
/-- An access of a scratchpad or accumulator whose turn has come, or that arrives at a stand peer's core, takes effect at its place. -/
theorem exec_performNear {s : State} {id i : Nat} {r : Req} {l : LaneAcc} {peer : Bool} (hp : PieceAt s id i r l) (hs : l.stage = 1)
    (hpath : l.path = 1 ∨ l.path = 2 ∨ l.path = 8) (hk : r.kind ∉ ownKinds) (hpe : peer = true ↔ l.core ≠ r.core ∧ r.peer = none)
    (hf : peer = false → l.early = false ∧ ∀ d ∈ r.deps, s.settled d = true) :
    ∃ u, exec (if peer then .peerWriteArrival else .memoryAccessPerform) s = .next u ∧ u.mem = (s.performPiece id i r l).mem ∧
      Calm (s.performPiece id i r l) u ∧ PadsKept (s.performPiece id i r l) u := by
  have hi : l.isPeer r = peer := by
    rw [Bool.eq_iff_iff, hpe]
    rcases hpath with h | h | h <;> simp [LaneAcc.isPeer, h]
  cases peer with
  | true => exact ⟨_, execPeerWriteArrival_performs hp hs hi, rfl, .refl _, .refl _⟩
  | false =>
    obtain ⟨he, hd⟩ := hf rfl
    have h0 : l.path ≠ 0 ∧ l.path ≠ 3 ∧ l.path ≠ 5 ∧ l.path ≠ 6 := by omega
    have hr : s.heldRead r l = false := by simp [State.heldRead, h0]
    have hh : s.heldPiece r l = false := by
      simp only [ownKinds, List.mem_cons, List.not_mem_nil, or_false, not_or] at hk
      simp [State.heldPiece, State.atArbiter, h0, hk]
    exact ⟨_, execMemoryAccessPerform_performs hp hs hi hr he hh (State.inTurn_of_settled l hd), State.cleanLog_mem .., State.cleanLog_calm ..,
      State.cleanLog_pads ..⟩

/-! #### What an access of a scratchpad or an accumulator takes and leaves -/

/-- The state of a piece performed near: memory as it was, the piece replaced, and scratchpads and crews as its performance leaves them. -/
structure NearTaken (s t u : State) (id i : Nat) (r : Req) (m : LaneAcc) : Prop where
  mem : MemKept s u
  piece : PieceBecomes s u id i r m
  pads : PadsKept t u
  crews : ∀ c k, u.crew c k = t.crew c k

/-- A performance near that leaves memory and requests takes effect; one that writes nothing changes no gang either. -/
theorem exec_takesNear {s t : State} {id i : Nat} {r : Req} {l m : LaneAcc} {peer : Bool} (hp : PieceAt s id i r l) (hs : l.stage = 1)
    (hpath : l.path = 1 ∨ l.path = 2 ∨ l.path = 8) (hk : r.kind ∉ ownKinds) (hpe : peer = true ↔ l.core ≠ r.core ∧ r.peer = none)
    (hf : peer = false → l.early = false ∧ ∀ d ∈ r.deps, s.settled d = true)
    (h : s.performPiece id i r l = (t.setPiece id i m).noteUnready id r l) (hm : t.mem = s.mem) (hr : t.reqs = s.reqs) :
    ∃ u, exec (if peer then .peerWriteArrival else .memoryAccessPerform) s = .next u ∧ NearTaken s t u id i r m ∧
      (r.writes = false → r.kind ≠ .accst → GangsKept t u) := by
  obtain ⟨u, hx, hmem, hc, hpads⟩ := exec_performNear hp hs hpath hk hpe hf
  rw [h] at hmem hc hpads
  have hset := t.setPiece_kept id i m
  refine ⟨u, hx, ⟨fun a => ?_, ?_, ?_, fun c k => ?_⟩, fun hw ha => ?_⟩
  · rw [hmem, State.noteUnready_mem, State.setPiece_mem, hm]
  · refine PieceBecomes.of_reqs (State.setPiece_becomes i m ?_ (.of_eq id hr)) (hc.reqs.trans (State.noteUnready_reqs ..))
    rw [hr]
    exact hp.2.1
  · exact (t.setPiece_pads id i m).trans ((State.noteUnready_pads ..).trans hpads)
  · rw [hc.gangs.2, State.noteUnready_crew, hset.2]
  · rw [State.noteUnready_reads _ _ _ hw ha] at hc
    exact hset.trans hc.gangs

/-- A store none of whose other pieces has been performed writes all its bytes. -/
theorem Req.openBytes_first {r : Req} (h : r.lanes.all (fun m => m.stage != 2 && !m.early) = true) (l : LaneAcc) :
    r.openBytes l = List.range l.size := by
  refine List.filter_eq_self.mpr fun k _ => ?_
  rw [Bool.or_eq_true, Bool.not_eq_true', List.any_eq_false]
  refine .inr fun m hm => ?_
  have := List.all_eq_true.mp h m hm
  simp_all

theorem State.performScratch_stale {s : State} {r : Req} {l : LaneAcc} (id : Nat) (hw : r.writes = true)
    (ha : (s.core l.core).accepts l.alloc l.pa = false) :
    s.performScratch id r l = (s.setCore l.core (s.core l.core).stale, { l with stage := 2, undef := true }) := by
  simp [State.performScratch, ha, hw]
theorem State.performScratch_reads {s : State} {r : Req} {l : LaneAcc} (id : Nat) (hw : r.writes = false)
    (ha : (s.core l.core).accepts l.alloc l.pa = true) :
    s.performScratch id r l = (s.power l.core 2 ((l.size + 7) / 8), { l with
      stage := 2, out := (s.core l.core).srd l.alloc l.pa l.size, undef := (s.core l.core).spoison l.alloc l.pa l.size,
      cause := if (s.core l.core).spoison l.alloc l.pa l.size then 0x20 else 0 }) := by
  simp [State.performScratch, ha, hw]
theorem State.performScratch_keeps {s : State} {r : Req} {l : LaneAcc} (id : Nat) (hw : r.writes = true)
    (ha : (s.core l.core).accepts l.alloc l.pa = true) (hb : r.atomic = true → (s.core l.core).spoison l.alloc l.pa l.size = false)
    (hv : r.update l ((s.core l.core).srd l.alloc l.pa l.size) = none) :
    s.performScratch id r l = (s, { l with stage := 2, out := (s.core l.core).srd l.alloc l.pa l.size }) := by
  have hn : (r.atomic && (s.core l.core).spoison l.alloc l.pa l.size) = false := by
    cases h : r.atomic
    · rfl
    · rw [hb h]; rfl
  simp [State.performScratch, ha, hw, hn, hv]
theorem State.performScratch_writes {s : State} {r : Req} {l : LaneAcc} {v : Nat} (id : Nat) (hw : r.writes = true)
    (ha : (s.core l.core).accepts l.alloc l.pa = true) (hb : r.atomic = true → (s.core l.core).spoison l.alloc l.pa l.size = false)
    (ho : r.openBytes l = List.range l.size) (hu : l.undef = false)
    (hv : r.update l ((s.core l.core).srd l.alloc l.pa l.size) = some v) :
    s.performScratch id r l = (s.scratchWrite l.core l.cslot l.alloc l.pa (bytesLE l.size v) false id,
      { l with stage := 2, out := (s.core l.core).srd l.alloc l.pa l.size, undef := false }) := by
  have hn : (r.atomic && (s.core l.core).spoison l.alloc l.pa l.size) = false := by
    cases h : r.atomic
    · rfl
    · rw [hb h]; rfl
  simp [State.performScratch, ha, hw, hn, hv, ho, hu]

/-- The crew of an accumulator access is of the stand it was issued for. -/
def State.accHere (s : State) (l : LaneAcc) : Prop :=
  (mget? (s.core l.core).crews l.cslot).isSome = true ∧ (s.crew l.core l.cslot).stand = l.stand

theorem State.performAcc_reads {s : State} {r : Req} {l : LaneAcc} (hk : r.kind = .accld) (h : s.accHere l) :
    ∃ m, s.performAcc r l = (s, m) ∧ m.stage = 2 ∧ m.out = (mget 0 (s.crew l.core l.cslot).acc l.pa).toNat ∧
      (l.pa ∈ (s.crew l.core l.cslot).accPoison → m.cause = 0x20 ∧ m.undef = true) := by
  obtain ⟨hc, hst⟩ := h
  unfold State.performAcc
  dsimp only
  rw [any_key_eq, hc, hst, hk]
  simp +contextual
theorem State.performAcc_writes {s : State} {r : Req} {l : LaneAcc} (hk : r.kind = .accst) (h : s.accHere l) :
    s.performAcc r l = (s.accWrite l.core l.cslot l.pa l.data (r.opc == 0x2C), { l with stage := 2 }) := by
  obtain ⟨hc, hst⟩ := h
  unfold State.performAcc
  dsimp only
  rw [any_key_eq, hc, hst, hk]
  simp
theorem State.performAcc_stale {s : State} {r : Req} {l : LaneAcc} (hk : r.kind = .accst) (h : ¬ s.accHere l) :
    s.performAcc r l = (s.setCore l.core (s.core l.core).stale, { l with stage := 2, undef := true }) := by
  have hn : ((mget? (s.core l.core).crews l.cslot).isSome && (s.crew l.core l.cslot).stand == l.stand) = false := by
    rw [← Bool.not_eq_true, Bool.and_eq_true, beq_iff_eq]
    exact h
  unfold State.performAcc
  rw [any_key_eq]
  simp [hn, hk]
theorem State.accWrite_pads (s : State) (c k e v : Nat) (add : Bool) : PadsKept s (s.accWrite c k e v add) := State.setCrew_pads ..
theorem State.accWrite_crew_ne (s : State) {c k c' k' : Nat} (e v : Nat) (add : Bool) (h : c' ≠ c ∨ k' ≠ k) :
    (s.accWrite c k e v add).crew c' k' = s.crew c' k' := State.crew_setCrew_ne _ _ h
theorem State.accWrite_acc (s : State) (c k e v : Nat) (add : Bool) (j : Nat) : mget 0 ((s.accWrite c k e v add).crew c k).acc j =
    if j = e then BitVec.ofNat 32 (if add then Num.fadd Num.f32 0 0 (mget 0 (s.crew c k).acc j).toNat v else v) else mget 0 (s.crew c k).acc j := by
  unfold State.accWrite
  dsimp only
  rw [State.crew_setCrew_self, mget_mset]
  by_cases h : j = e
  · rw [if_pos h, if_pos h, h]
  · rw [if_neg h, if_neg h]
theorem State.core_stale (s : State) (c : Nat) : ((s.setCore c (s.core c).stale).core c).scratch = (s.core c).scratch ∧
    ((s.setCore c (s.core c).stale).core c).scrstale = min (2 ^ 32 - 1) ((s.core c).scrstale + 1) := by
  rw [State.core_setCore_self]
  exact ⟨rfl, rfl⟩

/-- An element of a lane's decoding load from a tagged granule. -/
theorem State.decodeScratch_element {s : State} {r : Req} {l : LaneAcc} {fmt j : Nat} (hf : gtFmt ((s.core l.core).tagAt l.alloc l.ofs) = fmt)
    (h1 : 1 ≤ fmt) (h4 : fmt ≤ 4) (hj : j < r.group) : ∃ m ∈ s.decodeScratch r l, m.lane = l.lane ∧ m.off = j ∧ m.stage = 2 ∧ m.fmt = fmt ∧
      (let k := s.core l.core
       let p := swizzle r.z (elementAt fmt l.ofs j)
       let tag := k.tagAt l.alloc p
       m.out = elementValue fmt (k.srd l.alloc p (elementSize fmt)) (if fmt = 1 then j % 2 else 0)
         (k.srd l.alloc (gtSgran tag * 4096 + gtSslot tag * 512 + p % 4096 / 8) 1)) := by
  have ha : elemAddr fmt l.ofs j = (elementAt fmt l.ofs j, if fmt = 1 then j % 2 else 0) := by
    obtain rfl | rfl | rfl | rfl : fmt = 1 ∨ fmt = 2 ∨ fmt = 3 ∨ fmt = 4 := by omega
    all_goals rfl
  unfold State.decodeScratch
  dsimp only
  rw [hf]
  refine ⟨_, List.mem_map_of_mem (List.mem_range.mpr hj), rfl, rfl, rfl, rfl, ?_⟩
  dsimp only
  rw [ha, decodeElem_eq h1 h4]
  rfl

section
variable {s : State} {id i : Nat} {r : Req} {l : LaneAcc} {peer : Bool}

/-- A piece on a scratchpad that is not decoded. -/
theorem exec_performScratch (hp : PieceAt s id i r l) (hs : l.stage = 1) (hpe : peer = true ↔ l.core ≠ r.core ∧ r.peer = none)
    (hf : peer = false → l.early = false ∧ ∀ d ∈ r.deps, s.settled d = true) (hpath : l.path = 1 ∨ l.path = 2) (hk : r.kind ∉ ownKinds)
    (hl : r.kind ≠ .load) {t : State} {m : LaneAcc} (h : s.performScratch id r l = (t, m)) (hr : t.reqs = s.reqs) :
    ∃ u, exec (if peer then .peerWriteArrival else .memoryAccessPerform) s = .next u ∧ NearTaken s t u id i r m ∧
      (r.writes = false → r.kind ≠ .accst → GangsKept t u) := by
  have hm : t.mem = s.mem := by
    have := s.performScratch_mem id r l
    rwa [h] at this
  refine exec_takesNear hp hs (by omega) hk hpe hf ?_ hm hr
  rw [State.performPiece_scratch hk hpath id i fun hd => hl hd.1, h]
/-- A piece on an accumulator element. -/
theorem exec_performAcc (hp : PieceAt s id i r l) (hs : l.stage = 1) (hpe : peer = true ↔ l.core ≠ r.core ∧ r.peer = none)
    (hf : peer = false → l.early = false ∧ ∀ d ∈ r.deps, s.settled d = true) (hpath : l.path = 8) (hk : r.kind ∉ ownKinds)
    {t : State} {m : LaneAcc} (h : s.performAcc r l = (t, m)) (hr : t.reqs = s.reqs) :
    ∃ u, exec (if peer then .peerWriteArrival else .memoryAccessPerform) s = .next u ∧ NearTaken s t u id i r m ∧
      (r.writes = false → r.kind ≠ .accst → GangsKept t u) := by
  have hm : t.mem = s.mem := by
    have := s.performAcc_mem r l
    rwa [h] at this
  refine exec_takesNear hp hs (by omega) hk hpe hf ?_ hm hr
  rw [State.performPiece_acc hk hpath, h]

/-- R54, R75, R110: a store. -/
theorem exec_storeScratch (hp : PieceAt s id i r l) (hs : l.stage = 1) (hpe : peer = true ↔ l.core ≠ r.core ∧ r.peer = none)
    (hf : peer = false → l.early = false ∧ ∀ d ∈ r.deps, s.settled d = true) (hpath : l.path = 1 ∨ l.path = 2) (hk : r.kind ∈ plainStores)
    (hu : l.undef = false) (hl : r.lanes.all (fun m => m.stage != 2 && !m.early) = true) :
    ∃ t m, exec (if peer then .peerWriteArrival else .memoryAccessPerform) s = .next t ∧ MemKept s t ∧ PieceBecomes s t id i r m ∧ m.stage = 2 ∧
      ((s.core l.core).accepts l.alloc l.pa = false →
        (t.core l.core).scrstale = min (2 ^ 32 - 1) ((s.core l.core).scrstale + 1) ∧ (t.core l.core).scratch = (s.core l.core).scratch) ∧
      ((s.core l.core).accepts l.alloc l.pa = true → (t.core l.core).scrstale = (s.core l.core).scrstale ∧
        (t.core l.core).scratch = ((s.core l.core).swr l.alloc l.pa (bytesLE l.size l.data)).scratch) := by
  have hrw : r.writes = true ∧ r.atomic = false ∧ r.update l ((s.core l.core).srd l.alloc l.pa l.size) = some l.data ∧ r.kind ≠ .load := by
    simp only [plainStores, List.mem_cons, List.not_mem_nil, or_false] at hk
    rcases hk with h | h | h | h <;> simp [Req.writes, Req.atomic, Req.update, h]
  obtain ⟨hw, ha, hv, hnl⟩ := hrw
  have hown := (Req.kind_of_writes hw).2
  cases hacc : (s.core l.core).accepts l.alloc l.pa
  · obtain ⟨u, hx, hn, -⟩ := exec_performScratch hp hs hpe hf hpath hown hnl (State.performScratch_stale id hw hacc) rfl
    obtain ⟨hsc, hst⟩ := s.core_stale l.core
    exact ⟨u, _, hx, hn.mem, hn.piece, rfl, fun _ => ⟨(hn.pads.stale _).trans hst, (hn.pads.scratch _).trans hsc⟩, by simp⟩
  · obtain ⟨u, hx, hn, -⟩ := exec_performScratch hp hs hpe hf hpath hown hnl
      (State.performScratch_writes id hw hacc (by simp [ha]) (Req.openBytes_first hl l) hu hv) (State.scratchWrite_reqs ..)
    obtain ⟨hsc, hst⟩ := s.scratchWrite_scratch l.core l.cslot l.alloc l.pa (bytesLE l.size l.data) id
    exact ⟨u, _, hx, hn.mem, hn.piece, rfl, by simp, fun _ => ⟨(hn.pads.stale _).trans hst, (hn.pads.scratch _).trans hsc⟩⟩
/-- R54, R79: a raw or scalar load. -/
theorem exec_loadScratch (hp : PieceAt s id i r l) (hs : l.stage = 1) (hpe : peer = true ↔ l.core ≠ r.core ∧ r.peer = none)
    (hf : peer = false → l.early = false ∧ ∀ d ∈ r.deps, s.settled d = true) (hpath : l.path = 1 ∨ l.path = 2)
    (hk : r.kind ∈ [ReqKind.rawLoad, .loadS, .ldx]) (hacc : (s.core l.core).accepts l.alloc l.pa = true) :
    ∃ t m, exec (if peer then .peerWriteArrival else .memoryAccessPerform) s = .next t ∧ MemKept s t ∧ GangsKept s t ∧ PieceBecomes s t id i r m ∧
      m.stage = 2 ∧ m.out = (s.core l.core).srd l.alloc l.pa l.size ∧ m.undef = (s.core l.core).spoison l.alloc l.pa l.size := by
  have hrw : r.writes = false ∧ r.kind ∉ ownKinds ∧ r.kind ≠ .load ∧ r.kind ≠ .accst := by
    simp only [List.mem_cons, List.not_mem_nil, or_false] at hk
    rcases hk with h | h | h <;> simp [Req.writes, ownKinds, h]
  obtain ⟨hw, hown, hnl, hna⟩ := hrw
  obtain ⟨u, hx, hn, hg⟩ := exec_performScratch hp hs hpe hf hpath hown hnl (State.performScratch_reads id hw hacc) rfl
  exact ⟨u, _, hx, hn.mem, (State.power_calm ..).gangs.trans (hg hw hna), hn.piece, rfl, rfl, rfl⟩
/-- R54, R72: an atomic that meets no poison, whatever it writes. -/
theorem exec_atomicScratch (hp : PieceAt s id i r l) (hs : l.stage = 1) (hpe : peer = true ↔ l.core ≠ r.core ∧ r.peer = none)
    (hf : peer = false → l.early = false ∧ ∀ d ∈ r.deps, s.settled d = true) (hpath : l.path = 1 ∨ l.path = 2)
    (hk : r.atomic = true) (hu : l.undef = false) (hacc : (s.core l.core).accepts l.alloc l.pa = true)
    (hb : (s.core l.core).spoison l.alloc l.pa l.size = false) :
    ∃ t m, exec (if peer then .peerWriteArrival else .memoryAccessPerform) s = .next t ∧ MemKept s t ∧ PieceBecomes s t id i r m ∧ m.stage = 2 ∧
      m.out = (s.core l.core).srd l.alloc l.pa l.size ∧
      (t.core l.core).scratch = (match r.update l ((s.core l.core).srd l.alloc l.pa l.size) with
        | none => (s.core l.core).scratch
        | some v => ((s.core l.core).swr l.alloc l.pa (bytesLE l.size v)).scratch) := by
  have hrw : r.writes = true ∧ r.kind ≠ .load := by
    unfold Req.atomic at hk
    cases h : r.kind <;> simp_all [Req.writes]
  obtain ⟨hw, hnl⟩ := hrw
  have hown := (Req.kind_of_writes hw).2
  cases hv : r.update l ((s.core l.core).srd l.alloc l.pa l.size) with
  | none =>
    obtain ⟨u, hx, hn, -⟩ := exec_performScratch hp hs hpe hf hpath hown hnl (State.performScratch_keeps id hw hacc (fun _ => hb) hv) rfl
    exact ⟨u, _, hx, hn.mem, hn.piece, rfl, rfl, hn.pads.scratch _⟩
  | some v =>
    obtain ⟨u, hx, hn, -⟩ := exec_performScratch hp hs hpe hf hpath hown hnl
      (State.performScratch_writes id hw hacc (fun _ => hb) (Req.openBytes_atomic hk l) hu hv) (State.scratchWrite_reqs ..)
    obtain ⟨hsc, -⟩ := s.scratchWrite_scratch l.core l.cslot l.alloc l.pa (bytesLE l.size v) id
    exact ⟨u, _, hx, hn.mem, hn.piece, rfl, rfl, (hn.pads.scratch _).trans hsc⟩
/-- R56, R267: a decoding load from a tagged granule leaves the lane's decoded elements with its request. -/
theorem exec_decodeScratch (hp : PieceAt s id i r l) (hs : l.stage = 1) (hpe : peer = true ↔ l.core ≠ r.core ∧ r.peer = none)
    (hf : peer = false → l.early = false ∧ ∀ d ∈ r.deps, s.settled d = true) (hpath : l.path = 1 ∨ l.path = 2)
    (hd : r.kind = .load ∧ l.fmt = 0 ∧ l.off = 0 ∧ (s.core l.core).accepts l.alloc l.pa = true ∧ gtFmt ((s.core l.core).tagAt l.alloc l.pa) ≠ 0) :
    ∃ t, exec (if peer then .peerWriteArrival else .memoryAccessPerform) s = .next t ∧ MemKept s t ∧ GangsKept s t ∧
      mget? t.reqs id = some (r.decoded l.lane (s.decodeScratch r l)) := by
  obtain ⟨u, hx, hmem, hc, -⟩ := exec_performNear hp hs (by omega) (by simp [ownKinds, hd.1]) hpe hf
  rw [State.performPiece_decodes hpath id i hd] at hmem hc
  refine ⟨u, hx, fun a => by rw [hmem]; rfl, hc.gangs, ?_⟩
  rw [hc.reqs]
  exact mget?_mset_self ..
end

/-- The value an atomic leaves, from what its operation gives. -/
theorem Req.update_atomic {r : Req} (hk : r.kind ∈ [ReqKind.atom, .redm, .cas]) {l : LaneAcc} {old : Nat} (hz : l.size = 4 ∨ l.size = 8)
    (ho : old < 256 ^ l.size) (hd : l.data < 256 ^ l.size) {α : Type} (x : α) (f : Nat → α) :
    (match r.update l old with | none => x | some v => f v) = if r.kind = .cas ∧ old ≠ l.cmp then x else
      f (if r.kind = .cas then l.data else atomicValue r.z (r.opc % 4 == 1) (r.opc % 4 == 3) (8 * l.size) old l.data) := by
  have h256 : 256 ^ l.size = 2 ^ (8 * l.size) := by rw [Nat.pow_mul]
  rw [h256] at ho hd
  have hv := atomOp_eq (opc := r.opc) r.z (by omega) ho hd
  simp only [List.mem_cons, List.not_mem_nil, or_false] at hk
  rcases hk with h | h | h
  · simp [Req.update, h, hv]
  · simp [Req.update, h, hv]
  · by_cases hc : old = l.cmp <;> simp [Req.update, h, hc]

theorem Core.srd_lt (k : Core) (a : Alloc) (ofs n : Nat) : k.srd a ofs n < 256 ^ n := by
  have h : k.srd a ofs n < 256 ^ _ := ofBytesLE_lt _
  rwa [List.length_map, List.length_range] at h

theorem scratchAccessPerform : ScratchAccessPerform := by
  intro s id i r l peer hp hs op hpe hf
  refine ⟨exec_storeScratch hp hs hpe hf, exec_loadScratch hp hs hpe hf, fun hpath hk h0 hoff hacc => ?_,
    fun hpath hk hu hz hop hacc hb hd => ?_, fun h8 hk hc hst => ?_, fun h8 hk hop hc hst => ?_, fun h8 hk hop => ?_⟩
  · intro k fmt htag h1 h4
    obtain ⟨t, hx, hmem, hg, hr⟩ := exec_decodeScratch hp hs hpe hf hpath ⟨hk, h0, hoff, hacc, htag⟩
    refine ⟨t, _, hx, hmem, hg, hr, fun j hj => ?_⟩
    obtain ⟨m, hm, hval⟩ := State.decodeScratch_element (s := s) (r := r) (l := l) rfl h1 h4 hj
    exact ⟨m, List.mem_append_right _ hm, hval⟩
  · have ha : r.atomic = true := by
      simp only [List.mem_cons, List.not_mem_nil, or_false] at hk
      rcases hk with h | h | h <;> simp [Req.atomic, h]
    obtain ⟨t, m, hx, hmem, hpiece, h2, hout, hsc⟩ := exec_atomicScratch hp hs hpe hf hpath ha hu hacc hb
    refine ⟨t, m, hx, hmem, hpiece, h2, hout, hsc.trans ?_⟩
    exact Req.update_atomic hk hz (Core.srd_lt ..) hd _ fun v => ((s.core l.core).swr l.alloc l.pa (bytesLE l.size v)).scratch
  · obtain ⟨m, hm, h2, hout, hbad⟩ := State.performAcc_reads hk ⟨hc, hst⟩
    obtain ⟨t, hx, hn, hg⟩ := exec_performAcc hp hs hpe hf h8 (by simp [ownKinds, hk]) hm rfl
    exact ⟨t, m, hx, hn.mem, hg (by simp [Req.writes, hk]) (by simp [hk]), hn.piece, h2, hout, hbad⟩
  · obtain ⟨t, hx, hn, -⟩ := exec_performAcc hp hs hpe hf h8 (by simp [ownKinds, hk]) (State.performAcc_writes hk ⟨hc, hst⟩) rfl
    refine ⟨t, _, hx, hn.mem, hn.piece, rfl, fun c k hne => ?_, fun e => ?_⟩
    · rw [hn.crews, State.accWrite_crew_ne _ _ _ _ hne]
    · rw [hn.crews, State.accWrite_acc, hop]
      rfl
  · by_cases hh : s.accHere l
    · obtain ⟨t, hx, hn, -⟩ := exec_performAcc hp hs hpe hf h8 (by simp [ownKinds, hk]) (State.performAcc_writes hk hh) rfl
      refine ⟨t, _, hx, hn.mem, hn.piece, rfl, fun c k hne => ?_, fun _ => ⟨?_, fun e => ?_⟩, fun hn => absurd hh hn⟩
      · rw [hn.crews, State.accWrite_crew_ne _ _ _ _ hne]
      · exact (hn.pads.stale _).trans ((State.accWrite_pads ..).stale _)
      · rw [hn.crews, State.accWrite_acc, hop]
        rfl
    · obtain ⟨t, hx, hn, -⟩ := exec_performAcc hp hs hpe hf h8 (by simp [ownKinds, hk]) (State.performAcc_stale hk hh) rfl
      have hcrew : ∀ c k, t.crew c k = s.crew c k := fun c k => by
        rw [hn.crews]
        refine (s.setCore_calm l.core ?_ ?_).gangs.2 c k <;> rfl
      exact ⟨t, _, hx, hn.mem, hn.piece, rfl, fun c k _ => hcrew c k, fun h => absurd h hh,
        fun _ => ⟨(hn.pads.stale _).trans (s.core_stale l.core).2, hcrew ..⟩⟩

/-- Settles O31: an access of HBM, a decoded element, and an access of a scratchpad or an accumulator. -/
theorem accessResults : Obligations.AccessResults := ⟨accessPerform, decodedElements, scratchAccessPerform⟩

end Sys2Proof.Machine
end
-- Homes: what the directory, the L2 and the writes at home slices leave of the machine.
section
/-! SUPPORT. The frame of the directory, the L2 and the home slices (R65 to R72): which parts of the machine their operations reach. -/

namespace Sys2Proof.Machine
open Sys2Proof

/-- Nothing has changed but the cores, memory and its poison, the requests, the directory, the L2, the counts and the agenda. -/
def HomeOnly (s t : State) : Prop :=
  t = { s with cores := t.cores, mem := t.mem, poison := t.poison, hbmBad := t.hbmBad, reqs := t.reqs, dir := t.dir, l2 := t.l2,
               counts := t.counts, agenda := t.agenda }

theorem HomeOnly.refl (s : State) : HomeOnly s s := rfl
theorem HomeOnly.trans {s t u : State} (h : HomeOnly s t) (k : HomeOnly t u) : HomeOnly s u := by
  unfold HomeOnly at *
  rw [k, h]
theorem HomeOnly.ite {s a b : State} {c : Prop} [Decidable c] (ha : HomeOnly s a) (hb : HomeOnly s b) :
    HomeOnly s (if c then a else b) := by
  split
  · exact ha
  · exact hb
theorem HomeOnly.foldl {α : Type} {f : State → α → State} (h : ∀ s a, HomeOnly s (f s a)) (l : List α) (s : State) : HomeOnly s (l.foldl f s) := by
  induction l generalizing s with
  | nil => exact .refl s
  | cons a r ih => exact (h s a).trans (ih _)

theorem State.dirWriteback_home (s : State) (pl : Nat) : HomeOnly s (s.dirWriteback pl) := by
  unfold State.dirWriteback
  exact .ite rfl rfl
theorem State.dirDrop_home (s : State) (pl c : Nat) : HomeOnly s (s.dirDrop pl c) := by
  unfold State.dirDrop
  exact .ite rfl (.ite rfl rfl)
theorem State.recall_home (s : State) (c ctx line : Nat) : HomeOnly s (s.recall c ctx line) := by
  unfold State.recall
  dsimp only
  refine .ite (.trans (.trans (t := s.setCore c _) rfl (State.dirDrop_home ..)) (State.dirWriteback_home ..)) (.trans (t := s.setCore c _) rfl (State.dirDrop_home ..))
theorem State.recallAll_home (s : State) (pl : Nat) : HomeOnly s (s.recallAll pl) := by
  have hf : HomeOnly s ((s.holders pl).foldl (fun t h => t.recall h.1 h.2.1 h.2.2) s) := .foldl (fun t _ => t.recall_home ..) _ s
  unfold State.recallAll
  dsimp only
  exact hf.trans (.trans (.ite (.trans (.ite (State.dirWriteback_home ..) (.refl _)) (State.dirDrop_home ..)) (.refl _)) rfl)
theorem State.l2Evict_home (s : State) (x : L2Line) : HomeOnly s (s.l2Evict x) := by
  unfold State.l2Evict
  exact (s.recallAll_home x.line).trans (.ite rfl rfl)
theorem State.l2Use_home (s : State) (pl rank : Nat) (last wr fetch : Bool) : HomeOnly s (s.l2Use pl rank last wr fetch) := by
  have hv : HomeOnly s (if (s.l2Mates pl).length < 12 then s else (match l2Victim (s.l2Mates pl) with | some x => s.l2Evict x | none => s)) := by
    refine .ite (.refl s) ?_
    split
    · exact s.l2Evict_home _
    · exact .refl s
  unfold State.l2Use
  exact .ite rfl (hv.trans (.ite rfl rfl))
theorem State.atSlice_home (s : State) (pa : Nat) : HomeOnly s (s.atSlice pa) := (s.recallAll_home _).trans rfl
theorem State.wrOver_home (s : State) (pa : Nat) (bs : List Byte) : HomeOnly s (s.wrOver pa bs) := by
  unfold State.wrOver
  exact (HomeOnly.foldl (fun t l => t.atSlice_home (128 * l)) _ s).trans rfl
theorem State.lineWrite_home (s : State) (pa : Nat) (bs : List Byte) : HomeOnly s (s.lineWrite pa bs) :=
  (s.l2Use_home ..).trans ((State.atSlice_home ..).trans rfl)
theorem State.recallPage_home (s : State) (f : Nat → Nat → Bool) : HomeOnly s (s.recallPage f) := .foldl (fun t _ => t.recall_home ..) _ s
theorem State.recallPage_calm (s : State) (f : Nat → Nat → Bool) : Calm s (s.recallPage f) := .foldl (fun t _ => t.recall_calm ..) _ s

/-- A change outside the cores keeps gangs and crews. -/
theorem GangsKept.of_cores {s t : State} (h : t.cores = s.cores) : GangsKept s t := by
  refine ⟨fun c g => ?_, fun c k => ?_⟩
  · simp only [State.gang?, State.core, h]
  · simp only [State.crew, State.core, h]
/-- Equal memory reads the same. -/
theorem MemKept.of_eq {s t : State} (h : t.mem = s.mem) : MemKept s t := fun a => by rw [h]

end Sys2Proof.Machine
end
-- Contexts: the removal of translations and the life of a context.
section
/-! SUPPORT. TIC commands and contexts (R28, R30, R31, R390, R426): what each command removes, and what a context that is unmade loses. -/

namespace Sys2Proof.Machine
open Sys2Proof

/-! #### Device registers -/

@[simp] theorem State.dreg_setDreg (s : State) (off : Nat) (v : W64) : (s.setDreg off v).dreg off = v := by
  simp [State.dreg, State.setDreg]
theorem State.dreg_setDreg_ne (s : State) {off o : Nat} (v : W64) (h : o ≠ off) : (s.setDreg off v).dreg o = s.dreg o := by
  simp [State.dreg, State.setDreg, mget?_mset_ne _ _ h]
theorem State.dreg_of_dregs {s t : State} (h : t.dregs = s.dregs) (off : Nat) : t.dreg off = s.dreg off := by
  unfold State.dreg
  rw [h]
theorem HomeOnly.dreg {s t : State} (h : HomeOnly s t) (off : Nat) : t.dreg off = s.dreg off := by
  rw [h]
  rfl
theorem HomeOnly.ctx {s t : State} (h : HomeOnly s t) (c : Nat) : t.ctx c = s.ctx c := by
  rw [h]
  rfl
/-- A bit that a CTXSTAT change sets is set, one that it clears alone is clear. -/
theorem State.ctxStat_bit (s : State) (set clear : W64) (i : Nat) (hi : i < 64) :
    ((s.ctxStat set clear).dreg 0x18).getLsbD i = (((s.dreg 0x18).getLsbD i && !clear.getLsbD i) || set.getLsbD i) := by
  simp [State.ctxStat, hi]

/-! #### TIC -/

/-- A translation that a TIC command covers. -/
theorem ticCovers_iff (w : W64) (e : Tlb) : ticCovers w e.ctx e.vpn e.level = true ↔ (match w.toNat / 2 ^ 62 with
    | 0 => e.ctx = bitsOf w.toNat 61 50 ∧ e.vpn / 512 ^ e.level = w.toNat % 2 ^ 45 / 512 ^ e.level
    | 1 => e.ctx = bitsOf w.toNat 61 50
    | _ => True) := by
  unfold ticCovers
  generalize w.toNat / 2 ^ 62 = op
  rcases op with _ | _ | _ <;> simp
theorem ticWalks_iff (w : W64) (ctx : Nat) :
    ticWalks w ctx = true ↔ 2 ≤ w.toNat / 2 ^ 62 ∨ w.toNat / 2 ^ 62 = 1 ∧ ctx = bitsOf w.toNat 61 50 := by
  unfold ticWalks
  generalize w.toNat / 2 ^ 62 = op
  rcases op with _ | _ | _ <;> simp
/-- A write of TIC, whatever its OP, runs that command. -/
theorem exec_tic {s : State} {off size : Nat} {v : W64} (h : s.ev = .reg off v size) :
    exec (match v.toNat / 2 ^ 62 with | 0 => .ticOnePage | 1 => .ticOneContext | _ => .ticAllContexts) s = .next (s.ticWrite v size) := by
  have h1 : execTicOnePage s = .next (s.ticWrite v size) := by unfold execTicOnePage; rw [h]
  have h2 : execTicOneContext s = .next (s.ticWrite v size) := by unfold execTicOneContext; rw [h]
  have h3 : execTicAllContexts s = .next (s.ticWrite v size) := by unfold execTicAllContexts; rw [h]
  split
  · exact h1
  · exact h2
  · exact h3
/-- A command that is taken. -/
theorem State.ticWrite_taken {s : State} {v : W64} (ho : v.toNat / 2 ^ 62 < 3) (hq : s.ticq.length < 16) : s.ticWrite v 8 =
    ({ s.tlbDrop (ticCovers v) with ticq := s.ticq ++ [v], walkc := s.walkc.filter (fun w => !ticWalks v w.ctx) } : State).setDreg 0x28
      (s.dreg 0x28 ||| 1) := by
  unfold State.ticWrite
  rw [if_neg (by simp), if_neg (by omega)]
theorem State.ticWrite_dropped {s : State} {v : W64} (h : 16 ≤ s.ticq.length ∨ v.toNat / 2 ^ 62 = 3) :
    s.ticWrite v 8 = s.setDreg 0x28 (s.dreg 0x28 ||| 2) := by
  unfold State.ticWrite
  rw [if_neg (by simp), if_pos h]

/-- R30, R31: a command that is taken. -/
theorem State.ticWrite_removes {s : State} {v : W64} (ho : v.toNat / 2 ^ 62 < 3) (hq : s.ticq.length < 16) :
    GangsKept s (s.ticWrite v 8) ∧ (s.ticWrite v 8).ticq = s.ticq ++ [v] ∧ ((s.ticWrite v 8).dreg 0x28).getLsbD 0 = true ∧
      (∀ e, e ∈ (s.ticWrite v 8).tlb ↔ e ∈ s.tlb ∧ ¬ ticCovers v e.ctx e.vpn e.level = true) ∧
      ∀ w, w ∈ (s.ticWrite v 8).walkc ↔ w ∈ s.walkc ∧ ¬ ticWalks v w.ctx = true := by
  rw [State.ticWrite_taken ho hq]
  refine ⟨.of_cores rfl, rfl, ?_, fun e => ?_, fun w => ?_⟩
  · rw [State.dreg_setDreg]
    simp
  · rw [State.setDreg_tlb, State.tlbDrop]
    simp
  · rw [State.setDreg_walkc]
    simp

/-- The head command finishes (R31). -/
theorem execTicFinish_finishes {s : State} {w : W64} {rest : List W64} (h : s.ticq = w :: rest) :
    ∃ t, execTicFinish s = .next t ∧ MemKept s t ∧ GangsKept s t ∧ t.ticq = rest ∧ (rest = [] → t.dreg 0x28 = s.dreg 0x28 &&& 2) ∧
      (rest ≠ [] → t.dreg 0x28 = s.dreg 0x28) := by
  unfold execTicFinish
  rw [h]
  dsimp -zeta only
  extract_lets c s0 s1 s2
  have h0 : HomeOnly { s with ticq := rest } s0 := State.recallPage_home ..
  have hg : GangsKept s s0 := (State.recallPage_calm { s with ticq := rest } _).gangs
  have h2 : GangsKept s0 s2 ∧ s2.mem = s0.mem ∧ s2.ticq = s0.ticq ∧ s2.dregs = s0.dregs := by
    unfold s2
    split <;> exact ⟨.of_cores rfl, rfl, rfl, rfl⟩
  obtain ⟨hg2, hm2, hq2, hd2⟩ := h2
  have hm : s2.mem = s.mem := hm2.trans (State.recallPage_mem { s with ticq := rest } _)
  have hq : s2.ticq = rest := by rw [hq2, h0]
  have hd : s2.dreg 0x28 = s.dreg 0x28 := (State.dreg_of_dregs hd2 _).trans (h0.dreg _)
  refine ⟨_, rfl, .of_eq ?_, ?_, ?_, fun hr => ?_, fun hr => ?_⟩
  · split <;> exact hm
  · refine (hg.trans hg2).trans ?_
    split <;> exact .of_cores rfl
  · split <;> exact hq
  · rw [if_pos (by simp [hr]), State.dreg_setDreg, hd]
  · rw [if_neg (by simp [hr]), hd]

/-! #### A context is made live -/

/-- R28: the MODEs of a context's words that make it live. -/
def modesOk (w0 w1 : W64) : Prop := w0.toNat / 2 ^ 60 = 10 ∧ (w1.toNat / 2 ^ 60 = 0 ∨ w1.toNat / 2 ^ 60 = 10)

theorem State.ctx_mset (s : State) (c : Nat) (x : Ctx) (d : Nat) :
    ({ s with ctxs := mset s.ctxs c x } : State).ctx d = if d = c then x else s.ctx d := mget_mset ..

theorem State.readCtx_ctx (s : State) (c d : Nat) : (s.readCtx c).ctx d = if d = c then { s.ctx c with
    catp := BitVec.ofNat 64 (s.rd (s.ctxWordPa c 0) 8), chgatp := BitVec.ofNat 64 (s.rd (s.ctxWordPa c 1) 8)
    cxcfg := BitVec.ofNat 64 (s.rd (s.ctxWordPa c 2) 8), sched := BitVec.ofNat 64 (s.rd (s.ctxWordPa c 7) 8) } else s.ctx d := s.ctx_mset c _ d
theorem execCtxMakeLive_reads {s : State} {off : Nat} {v : W64} (he : s.ev = .reg off v 8) (hb : (s.dreg 0x18).getLsbD 0 = false) :
    let c := v.toNat % 4096
    let w (i : Nat) : W64 := BitVec.ofNat 64 (s.rd (s.ctxWordPa c i) 8)
    ∃ t, execCtxMakeLive s = .next t ∧ MemKept s t ∧ GangsKept s t ∧ ((t.ctx c).live = true ↔ modesOk (w 0) (w 1)) ∧
      (t.ctx c).catp = w 0 ∧ (t.ctx c).chgatp = w 1 ∧ (t.ctx c).cxcfg = w 2 ∧ (t.ctx c).sched = w 7 ∧ (∀ x, x ≠ c → t.ctx x = s.ctx x) ∧
      ((t.dreg 0x18).getLsbD 2 = true ↔ ¬ modesOk (w 0) (w 1)) := by
  intro c w
  unfold execCtxMakeLive
  rw [he]
  dsimp -zeta only
  rw [if_neg (by simp), if_neg (by rw [hb]; decide)]
  extract_lets t m h ok
  have hc : t.ctx c = { s.ctx c with catp := w 0, chgatp := w 1, cxcfg := w 2, sched := w 7 } := (s.readCtx_ctx c c).trans (if_pos rfl)
  have hok : ok = true ↔ modesOk (w 0) (w 1) := by simp [ok, m, h, hc, modesOk]
  have hu (d : Nat) : (State.ctxStat { t with ctxs := mset t.ctxs c { t.ctx c with live := ok } } (if ok = true then 0 else 4) 4).ctx d =
      if d = c then { t.ctx c with live := ok } else t.ctx d := t.ctx_mset c _ d
  have hself := (hu c).trans (if_pos rfl)
  refine ⟨_, rfl, fun _ => rfl, .of_cores rfl, ?_, ?_, ?_, ?_, ?_, fun x hx => ?_, ?_⟩
  · rw [hself]
    exact hok
  · rw [hself, hc]
  · rw [hself, hc]
  · rw [hself, hc]
  · rw [hself, hc]
  · rw [hu, if_neg hx]
    exact (s.readCtx_ctx c x).trans (if_neg hx)
  · rw [State.ctxStat_bit _ _ _ _ (by decide), ← hok]
    cases ok <;> simp

/-! #### What a context loses (R426) -/

/-- Nothing has changed but the join units and what the window shows of them, the requests, the counts and the agenda. -/
def JoinOnly (s t : State) : Prop :=
  t = { s with join := t.join, joinSeen := t.joinSeen, reqs := t.reqs, counts := t.counts, agenda := t.agenda }

theorem JoinOnly.refl (s : State) : JoinOnly s s := rfl
theorem JoinOnly.trans {s t u : State} (h : JoinOnly s t) (k : JoinOnly t u) : JoinOnly s u := by
  unfold JoinOnly at *
  rw [k, h]
theorem JoinOnly.ite {s a b : State} {c : Prop} [Decidable c] (ha : JoinOnly s a) (hb : JoinOnly s b) : JoinOnly s (if c then a else b) := by
  split
  · exact ha
  · exact hb
theorem JoinOnly.foldl {α : Type} {f : State → α → State} (h : ∀ s a, JoinOnly s (f s a)) (l : List α) (s : State) : JoinOnly s (l.foldl f s) := by
  induction l generalizing s with
  | nil => exact .refl s
  | cons a r ih => exact (h s a).trans (ih _)

theorem State.setUnit_joinOnly (s : State) (u : Nat) (x : JoinUnit) : JoinOnly s (s.setUnit u x) := rfl
theorem State.setReq_joinOnly (s : State) (id : Nat) (r : Req) : JoinOnly s (s.setReq id r) := rfl
theorem State.later_joinOnly (s : State) (op : Instr) (a : Event) : JoinOnly s (s.later op a) := rfl
theorem State.dropUnit_joinOnly (s : State) (core : Nat) : JoinOnly s (s.dropUnit core) := rfl
theorem State.answer_joinOnly (s : State) (id i cause out : Nat) : JoinOnly s (s.answer id i cause out) := by
  unfold State.answer
  split
  · exact .refl s
  · split
    · exact .refl s
    · exact .ite (.refl s) rfl
theorem State.pushQueue_joinOnly (s : State) (u k : Nat) (r : List W64) (id : Nat) : JoinOnly s (s.pushQueue u k r id).1 := by
  unfold State.pushQueue
  dsimp only
  split
  · exact .refl s
  split
  · exact (s.setUnit_joinOnly ..).trans (State.answer_joinOnly ..)
  split
  · exact rfl
  · exact .refl s
theorem State.wakeNotices_joinOnly (s : State) (u k : Nat) : JoinOnly s (s.wakeNotices u k) := .foldl (fun t _ => .ite (t.later_joinOnly ..) (.refl t)) _ s
theorem State.givePop_joinOnly (s : State) (id : Nat) (r : List W64) : JoinOnly s (s.givePop id r) := by
  unfold State.givePop
  split
  · exact .refl s
  · exact (State.setReq_joinOnly ..).trans (State.answer_joinOnly ..)
theorem State.serveQueue_joinOnly (s : State) (u k : Nat) : JoinOnly s (s.serveQueue u k) := by
  unfold State.serveQueue
  dsimp only
  split
  · exact (s.setUnit_joinOnly ..).trans ((State.givePop_joinOnly ..).trans (State.wakeNotices_joinOnly ..))
  · exact rfl
theorem State.fire_joinOnly (s : State) (u i : Nat) : JoinOnly s (s.fire u i) := by
  unfold State.fire
  extract_lets x p ports pay x1 x2 s1 e
  have h1 : JoinOnly s s1 := rfl
  split
  · split
    · exact h1.trans (State.pushQueue_joinOnly ..)
    · exact h1
  · exact h1.trans rfl
theorem State.fireOn_joinOnly (n : Nat) (s : State) (u : Nat) : JoinOnly s (State.fireOn n s u) := by
  induction n generalizing s with
  | zero => exact rfl
  | succ n ih =>
    unfold State.fireOn
    split
    · exact (s.fire_joinOnly u _).trans rfl
    · split
      · exact rfl
      · exact (s.serveQueue_joinOnly u _).trans (ih _)
theorem State.seeUnit_joinOnly (s : State) (u : Nat) : JoinOnly s (s.seeUnit u) := .ite (.refl s) rfl
theorem State.killQueue_joinOnly (s : State) (u k : Nat) : JoinOnly s (s.killQueue u k) := by
  unfold State.killQueue
  dsimp only
  exact (s.dropUnit_joinOnly _).trans ((State.setUnit_joinOnly ..).trans ((JoinOnly.foldl (fun t _ => t.answer_joinOnly ..) _ _).trans (.foldl (fun t _ => t.answer_joinOnly ..) _ _)))
theorem State.clearJoin_joinOnly (s : State) (ctx : Nat) : JoinOnly s (s.clearJoin ctx) := by
  refine .foldl (fun t u => ?_) _ s
  extract_lets _ x ports pats queues t0 t1 t2
  refine .ite (.refl t) ?_
  have h0 : JoinOnly t t0 := (t.seeUnit_joinOnly u).trans (State.setUnit_joinOnly ..)
  have h1 : JoinOnly t0 t1 := .foldl (fun t _ => t.setUnit_joinOnly ..) _ _
  have h2 : JoinOnly t1 t2 := .foldl (fun t _ => t.setUnit_joinOnly ..) _ _
  exact h0.trans (h1.trans (h2.trans ((JoinOnly.foldl (fun t _ => t.killQueue_joinOnly ..) _ _).trans (State.fireOn_joinOnly ..))))
/-- What a context loses stands in the join units, the requests, the agenda and six tables. -/
theorem State.clearCtx_eq (s : State) (ctx : Nat) : ∃ j js rs cs ag la ds, s.clearCtx ctx = { s with
    launches := s.launches.filter (fun l => l.ctx != ctx), saved := s.saved.filter (fun x => x.ctx != ctx)
    recs := s.recs.filter (fun r => r.ctx != ctx || r.answer.isSome)
    join := j, joinSeen := js, reqs := rs, counts := cs, agenda := ag, landing := la, dests := ds } := by
  unfold State.clearCtx
  extract_lets s1 s2
  have h2 : JoinOnly s1 s2 := s1.clearJoin_joinOnly ctx
  have hf (l : List DestGroup) (t : State) : ∃ la ds, l.foldl (fun t d => t.freeDest d.odev d.octx d.group d.dctx) t =
      { t with landing := la, dests := ds } :=
    List.foldlRecOn l _ (motive := fun u : State => ∃ la ds, u = { t with landing := la, dests := ds }) ⟨_, _, rfl⟩
      fun u hu d _ => by obtain ⟨la, ds, rfl⟩ := hu; exact ⟨_, _, rfl⟩
  obtain ⟨la, ds, h⟩ := hf (s2.dests.filter (fun d => d.dctx == ctx && !d.prepared)) s2
  refine ⟨s2.join, s2.joinSeen, s2.reqs, s2.counts, s2.agenda, la, ds, h.trans ?_⟩
  conv_lhs => rw [h2]

/-! #### A context is unmade (R426) -/

/-- The crews of the context have been ended, and no core waits for a record of it. -/
def State.crewsKilled (s : State) (ctx : Nat) : State :=
  let crews := s.cores.flatMap (fun x => (x.2.crews.filter (fun w => w.2.ctx == ctx)).map (fun w => (x.1, w.1)))
  let t := crews.foldl (fun t x => t.killCrew x.1 x.2) s
  let mine := (s.recs.filter (fun r => r.ctx == ctx)).map (fun r => some (r.ring, r.seq))
  { t with cores := t.cores.map (fun x =>
    if mine.contains x.2.engstop.record then (x.1, { x.2 with engstop := { x.2.engstop with record := none } }) else x) }

theorem State.crewsKilled_mem (s : State) (ctx : Nat) : (s.crewsKilled ctx).mem = s.mem := by
  simp [State.crewsKilled, State.foldl_mem]
theorem execCtxMakeNotLive_refused {s : State} {off : Nat} {v : W64} (he : s.ev = .reg off v 8)
    (h : (s.dreg 0x18).getLsbD 0 = true ∨ v.toNat % 4096 = 0) : execCtxMakeNotLive s = .next (s.ctxStat 2 0) := by
  unfold execCtxMakeNotLive
  rw [he]
  dsimp only
  rw [if_neg (by simp), if_pos h]
theorem execCtxMakeNotLive_starts {s : State} {off : Nat} {v : W64} (he : s.ev = .reg off v 8) (hb : (s.dreg 0x18).getLsbD 0 = false)
    (hc : v.toNat % 4096 ≠ 0) : execCtxMakeNotLive s = .next (((((s.crewsKilled (v.toNat % 4096)).clearCtx (v.toNat % 4096)).setDreg 0x10 v).ctxStat
      1 0).later .ctxNotLiveDone (.host (v.toNat % 4096) 0)) := by
  unfold execCtxMakeNotLive
  rw [he]
  dsimp only
  rw [if_neg (by simp), if_neg (by rw [hb]; simp [hc])]
  rfl
/-- R426: the command that unmakes a context begins. -/
theorem execCtxMakeNotLive_clears {s : State} {off : Nat} {v : W64} (he : s.ev = .reg off v 8) (hb : (s.dreg 0x18).getLsbD 0 = false)
    (hc : v.toNat % 4096 ≠ 0) : ∃ t, execCtxMakeNotLive s = .next t ∧ MemKept s t ∧ (t.dreg 0x18).getLsbD 0 = true ∧ t.dreg 0x10 = v ∧
      (∀ l ∈ t.launches, l.ctx ≠ v.toNat % 4096) ∧ ⟨.ctxNotLiveDone, .host (v.toNat % 4096) 0, 0⟩ ∈ t.agenda := by
  refine ⟨_, execCtxMakeNotLive_starts he hb hc, .of_eq ?_, ?_, ?_, ?_, ?_⟩
  · rw [State.later_mem, State.ctxStat_mem, State.setDreg_mem, State.clearCtx_mem, State.crewsKilled_mem]
  · rw [State.dreg_of_dregs (State.later_dregs ..), State.ctxStat_bit _ _ _ _ (by decide)]
    simp
  · rw [State.dreg_of_dregs (State.later_dregs ..), State.ctxStat, State.dreg_setDreg_ne _ _ (by decide), State.dreg_setDreg]
  · intro l hl
    obtain ⟨j, js, rs, cs, ag, la, ds, h⟩ := (s.crewsKilled (v.toNat % 4096)).clearCtx_eq (v.toNat % 4096)
    rw [h] at hl
    simpa using (List.mem_filter.mp hl).2
  · exact List.mem_append_right _ (List.mem_singleton.mpr rfl)
/-- R426: it ends once nothing of the context is left. -/
theorem execCtxNotLiveDone_ends {s : State} {ctx x : Nat} (he : s.ev = .host ctx x) (hd : s.dying ctx = true) (hi : s.ctxIdle ctx = true) :
    ∃ t, execCtxNotLiveDone s = .next t ∧ MemKept s t ∧ GangsKept s t ∧ (t.ctx ctx).live = false ∧ (t.dreg 0x18).getLsbD 0 = false ∧
      ∀ y, y ≠ ctx → t.ctx y = s.ctx y := by
  unfold execCtxNotLiveDone
  rw [he]
  dsimp only
  rw [if_neg (by simp [hd, hi])]
  obtain ⟨j, js, rs, cs, ag, la, ds, h⟩ := s.clearCtx_eq ctx
  rw [h]
  have hc (y : Nat) := s.ctx_mset ctx { s.ctx ctx with live := false } y
  refine ⟨_, rfl, fun _ => rfl, .of_cores rfl, ?_, ?_, fun y hy => ?_⟩
  · exact congrArg Ctx.live ((hc ctx).trans (if_pos rfl))
  · rw [State.ctxStat_bit _ _ _ _ (by decide)]
    simp
  · exact (hc y).trans (if_neg hy)

/-- Settles O47: a TIC command by what its OP covers, a context by the words and registers it is made and unmade with. -/
theorem contextResults : Obligations.ContextResults := by
  intro s
  refine ⟨fun off v he => ⟨fun ho hq => ?_, fun ho hq => ?_, fun h => ?_⟩, fun w rest h => execTicFinish_finishes h,
    fun v he hb => execCtxMakeLive_reads he hb, fun v he => ⟨fun h => ?_, fun hb hc => execCtxMakeNotLive_clears he hb hc⟩,
    fun ctx x he hd hi => execCtxNotLiveDone_ends he hd hi⟩
  · obtain ⟨hg, ht, hb, htlb, -⟩ := s.ticWrite_removes ho hq
    exact ⟨_, exec_tic he, .of_eq (State.ticWrite_mem ..), hg, ht, hb,
      fun e => (htlb e).trans (and_congr_right' (not_congr (ticCovers_iff v e)))⟩
  · obtain ⟨-, -, -, -, hw⟩ := s.ticWrite_removes ho hq
    refine ⟨_, exec_tic he, fun w => ?_⟩
    rw [hw, ticWalks_iff]
    generalize v.toNat / 2 ^ 62 = op at ho
    obtain rfl | h : op = 2 ∨ op < 2 := by omega
    · simp
    · simp [Nat.not_le.mpr h, Nat.ne_of_lt h]
  · have hx := exec_tic he
    rw [State.ticWrite_dropped h] at hx
    exact ⟨_, hx, fun _ => rfl, .of_cores rfl, rfl, rfl, State.dreg_setDreg ..⟩
  · refine ⟨_, execCtxMakeNotLive_refused he h, .of_eq (State.ctxStat_mem ..), .of_cores rfl, ?_⟩
    rw [State.ctxStat, State.dreg_setDreg]
    exact congrArg (· ||| 2) (BitVec.and_allOnes)

end Sys2Proof.Machine
end
-- Peers: the service of a peer's requests, the answers to the device's own, and losses.
section
/-! SUPPORT. What passes between devices (R24, R101, R148, R164, R169): packets sent, answers taken, requests and groups of a lost peer. -/

namespace Sys2Proof.Machine
open Sys2Proof

/-! #### Packets -/

theorem State.send_eq (s : State) (p : Packet) : s.send p = { s with outbox := (s.send p).outbox, agenda := (s.send p).agenda } := by
  unfold State.send
  split <;> rfl
@[simp] theorem State.send_cores (s : State) (p : Packet) : (s.send p).cores = s.cores := by rw [State.send_eq]
@[simp] theorem State.send_reqs (s : State) (p : Packet) : (s.send p).reqs = s.reqs := by rw [State.send_eq]
@[simp] theorem State.send_nextId (s : State) (p : Packet) : (s.send p).nextId = s.nextId := by rw [State.send_eq]
@[simp] theorem State.send_devId (s : State) (p : Packet) : (s.send p).devId = s.devId := by rw [State.send_eq]; rfl
theorem State.send_sent (s : State) (p : Packet) : Sent s (s.send p) [p] := by
  unfold State.send
  split
  · next h => constructor <;> simp [h, State.later]
  · next h => constructor <;> simp [h]
theorem Sent.trans {s t u : State} {ps qs : List Packet} (h : Sent s t ps) (hd : t.devId = s.devId) (k : Sent t u qs) : Sent s u (ps ++ qs) := by
  obtain ⟨ho, ha⟩ := h
  obtain ⟨ko, ka⟩ := k
  rw [hd] at ko ka
  constructor
  · rw [ko, ho, List.append_assoc, List.filter_append]
  · rw [ka, ha, List.append_assoc, List.filter_append, List.map_append]
/-- A later change that keeps the packets on their way. -/
theorem Sent.of_eq {s t u : State} {ps : List Packet} (h : Sent s t ps) (ho : u.outbox = t.outbox) (ha : u.agenda = t.agenda) : Sent s u ps := by
  obtain ⟨h1, h2⟩ := h
  exact ⟨ho.trans h1, ha.trans h2⟩

/-! #### A peer's request -/

section
variable {s : State} {p : Packet} (he : s.ev = .packet p)
include he

/-- R24: a context that is not live refuses it. -/
theorem execRemoteRequestArrival_refuses (hl : (s.ctx p.ctx).live = false) : execRemoteRequestArrival s =
    .next ((s.send { kind := 1, dev := p.dev, ctx := p.peerCtx, tag := p.tag }).send
      { kind := 2, dev := p.dev, ctx := p.peerCtx, peerCtx := p.ctx, tag := p.tag, a := 0x17 }) := by
  unfold execRemoteRequestArrival
  simp [he, hl]
/-- R148, R169: it is acknowledged and served. -/
theorem execRemoteRequestArrival_serves (hl : (s.ctx p.ctx).live = true) :
    ∃ t q, execRemoteRequestArrival s = .next t ∧ MemKept s t ∧ GangsKept s t ∧
      Sent s t [{ kind := 1, dev := p.dev, ctx := p.peerCtx, tag := p.tag }] ∧ t.reqs = mset s.reqs s.nextId q ∧ t.nextId = s.nextId + 1 ∧
      q.kind = opcKind (p.a % 2 ^ 8) ∧ q.opc = p.a % 2 ^ 8 ∧ q.z = p.a / 2 ^ 8 % 2 ^ 8 ∧ q.pol = BitVec.ofNat 8 (p.a / 2 ^ 16) ∧
      q.group = p.a / 2 ^ 24 % 2 ^ 16 ∧ q.words = p.words ∧ q.ctx = p.ctx ∧ q.peer = some (p.dev, p.peerCtx, p.tag) ∧
      q.lanes = p.lanes.map (fun l => { l.carried with fwds := p.fwd }) ∧ (p.b ≠ 1 → q.deps = []) ∧
      (p.b = 1 → q.held = true ∧ ∀ id r, (id, r) ∈ s.reqs → r.held = true → (∃ x, r.peer = some (p.dev, x)) → r.ctx = p.ctx →
        (∃ m ∈ r.lanes, m.ia.toNat / 4096 = p.va / 4096) → id ∈ q.deps) := by
  unfold execRemoteRequestArrival
  rw [he]
  dsimp -zeta only
  rw [hl, if_neg (by simp)]
  extract_lets opc before
  refine ⟨_, _, rfl, .of_eq (s.send_mem _), .of_cores (s.send_cores _), (s.send_sent _).of_eq rfl rfl,
    congrArg₂ (fun a n => mset a n _) (s.send_reqs _) (s.send_nextId _), ?_, rfl, rfl, rfl, rfl, rfl, rfl, rfl,
    rfl, rfl, fun hb => if_neg hb, fun hb => ⟨beq_iff_eq.mpr hb, fun id r hr hh hx hc hm => ?_⟩⟩
  · exact congrArg (· + 1) (s.send_nextId _)
  · obtain ⟨x, hx⟩ := hx
    have hr' : (id, r) ∈ (s.send { kind := 1, dev := p.dev, ctx := p.peerCtx, tag := p.tag }).reqs := by rwa [State.send_reqs]
    have hk : id ∈ before := by
      unfold before
      rw [if_pos hb]
      refine List.mem_map.mpr ⟨(id, r), List.mem_filter.mpr ⟨hr', ?_⟩, rfl⟩
      simpa [hh, hx, hc] using hm
    exact hk
end

/-- A piece as a peer's request carries it. -/
theorem carried_getElem? {ls : List LaneAcc} {fwd n : Nat} {x m : LaneAcc} (hx : ls[n]? = some x)
    (hm : (ls.map (fun l => { l.carried with fwds := fwd }))[n]? = some m) : m = { x.carried with fwds := fwd } := by
  rw [List.getElem?_map, hx] at hm
  exact (Option.some.inj hm).symm
theorem LaneAcc.carried_ia (l : LaneAcc) : l.carried.ia.toNat = l.ia.toNat % 2 ^ 57 :=
  Nat.mod_eq_of_lt (lt_trans (Nat.mod_lt _ (by decide)) (by decide))

/-! #### Answers and timeouts -/

theorem State.mem_dropRspto (s : State) (id i : Nat) (x : Pending) :
    x ∈ (s.dropRspto id i).agenda ↔ x ∈ s.agenda ∧ ¬(x.op = .rsptoExpiry ∧ x.arg = .req id i) := by
  simp only [State.dropRspto, List.mem_filter, Bool.not_eq_true', Bool.and_eq_false_iff, beq_eq_false_iff_ne]
  tauto
theorem State.failSent_eq {s : State} {id i : Nat} {r : Req} {l : LaneAcc} (hr : mget? s.reqs id = some r) (hl : r.lanes[i]? = some l)
    (cause : Nat) : s.failSent id i cause = s.setReq id (r.failed l i cause) := by
  have hr' : s.req id = some r := hr
  unfold State.failSent
  rw [hr']
  dsimp only
  rw [hl]
  rfl

/-- The pieces at given places of a request take what comes for each. -/
def Req.takes (f : LaneAcc → LaneAcc → LaneAcc) (ps : List (Nat × LaneAcc)) (r : Req) : Req :=
  ps.foldl (fun q x => match q.lanes[x.1]? with
    | some m => q.setLane x.1 (f m x.2)
    | none => q) r

theorem Req.takes_other (f : LaneAcc → LaneAcc → LaneAcc) {ps : List (Nat × LaneAcc)} (r : Req) {j : Nat} (h : j ∉ ps.map Prod.fst) :
    (Req.takes f ps r).lanes[j]? = r.lanes[j]? := by
  unfold Req.takes
  induction ps generalizing r with
  | nil => rfl
  | cons x ps ih =>
    rw [List.map_cons, List.mem_cons, not_or] at h
    rw [List.foldl_cons, ih _ h.2]
    split
    · exact List.getElem?_set_ne (Ne.symm h.1)
    · rfl
theorem Req.takes_self (f : LaneAcc → LaneAcc → LaneAcc) {ps : List (Nat × LaneAcc)} {r : Req} {j : Nat} {x m : LaneAcc} (h : (j, x) ∈ ps)
    (hn : (ps.map Prod.fst).Nodup) (hm : r.lanes[j]? = some m) : (Req.takes f ps r).lanes[j]? = some (f m x) := by
  induction ps generalizing r with
  | nil => cases h
  | cons y ps ih =>
    rw [List.map_cons, List.nodup_cons] at hn
    have hs : Req.takes f (y :: ps) r = Req.takes f ps (match r.lanes[y.1]? with | some m => r.setLane y.1 (f m y.2) | none => r) := rfl
    rw [hs]
    obtain rfl | h := List.mem_cons.mp h
    · rw [hm, Req.takes_other f _ hn.1]
      exact List.getElem?_set_self (List.getElem?_eq_some_iff.mp hm).1
    · refine ih h hn.2 ?_
      have hj : y.1 ≠ j := fun e => hn.1 (e ▸ List.mem_map_of_mem (f := Prod.fst) h)
      split
      · exact (List.getElem?_set_ne hj).trans hm
      · exact hm

/-- A piece that is no element of a decoding load takes a peer's answer. -/
theorem LaneAcc.answered_takes {r : Req} {l : LaneAcc} (hk : r.kind ≠ .load) (hf : l.fmt = 0) (x : LaneAcc) : TakesAnswer x (l.answered r x) := by
  unfold LaneAcc.answered
  by_cases hx : x.cause ≠ 0 ∧ x.cause ≠ 0x20
  · rw [if_pos hx]
    exact ⟨rfl, by omega, fun _ _ => rfl⟩
  · rw [if_neg hx]
    refine ⟨rfl, fun _ => ⟨rfl, ?_, rfl⟩, by omega⟩
    simp [hf, hk]

section
variable {s : State} {p : Packet} {r : Req} {l : LaneAcc} (hr : mget? s.reqs (p.tag / 1024) = some r) (hl : r.lanes[p.tag % 1024]? = some l)
  (h6 : l.stage = 6) (hs : l.sent = p.tag % 1024)
include hr hl h6 hs

/-- An answer to a message ends its piece. -/
theorem State.answerPiece_message (hk : p.kind = 4) : s.answerPiece p = (s.dropRspto (p.tag / 1024) (p.tag % 1024)).setReq (p.tag / 1024)
    { r with lanes := r.lanes.set (p.tag % 1024) { l with stage := if p.a = 0 ∨ p.a = 0x20 then 2 else 4, cause := p.a } } := by
  have hr' : (s.dropRspto (p.tag / 1024) (p.tag % 1024)).req (p.tag / 1024) = some r := hr
  have hp (m : LaneAcc) : (s.dropRspto (p.tag / 1024) (p.tag % 1024)).setPiece (p.tag / 1024) (p.tag % 1024) m =
      (s.dropRspto (p.tag / 1024) (p.tag % 1024)).setReq (p.tag / 1024) (r.setLane (p.tag % 1024) m) := by
    unfold State.setPiece
    rw [hr']
  unfold State.answerPiece
  simp only [hr', hl, h6, hs, hk, hp]
  rw [if_neg (by simp), if_pos True.intro]
  by_cases ha : p.a = 0 ∨ p.a = 0x20
  · rw [if_neg (by omega), if_pos ha]
    rfl
  · rw [if_pos (by omega), if_neg ha]
    rfl
/-- A refused request fails. -/
theorem State.answerPiece_refused (hk : p.kind ≠ 4) (ha : p.a ≠ 0) : s.answerPiece p =
    (s.dropRspto (p.tag / 1024) (p.tag % 1024)).setReq (p.tag / 1024) (r.failed l (p.tag % 1024) p.a) := by
  have hr' : (s.dropRspto (p.tag / 1024) (p.tag % 1024)).req (p.tag / 1024) = some r := hr
  have hf := State.failSent_eq (s := s.dropRspto (p.tag / 1024) (p.tag % 1024)) hr hl p.a
  unfold State.answerPiece
  simp only [hr', hl, h6, hs]
  rw [if_neg (by simp), if_neg hk, if_pos ha, hf]
/-- The pieces of a request that is answered take their values or causes, and a decoding load its elements. -/
theorem State.answerPiece_answers (hk : p.kind ≠ 4) (ha : p.a = 0) : s.answerPiece p =
    let q := Req.takes (fun m x => m.answered r (if m.fmt = 1 ∧ x.attr ≠ 1 then
        { x with attr := 1, cmp := (Config.freeByte s.free (32 * m.lane + m.off)).toNat } else x)) ((r.awaiting l (p.tag % 1024)).zip p.lanes) r
    (s.dropRspto (p.tag / 1024) (p.tag % 1024)).setReq (p.tag / 1024)
      (if r.kind = .load ∧ r.peer = none then q.laneNos.foldl (fun q n => s.decodeRemote q n) q else q) := by
  have hr' : (s.dropRspto (p.tag / 1024) (p.tag % 1024)).req (p.tag / 1024) = some r := hr
  unfold State.answerPiece
  simp only [hr', hl, h6, hs]
  rw [if_neg (by simp), if_neg hk, if_neg (by simp [ha])]
  rfl
end

theorem Req.awaiting_nodup (r : Req) (l : LaneAcc) (i : Nat) : (r.awaiting l i).Nodup := List.nodup_range.filter _
theorem Req.mem_awaiting {r : Req} {l : LaneAcc} {i j : Nat} (h : j ∈ r.awaiting l i) : ∃ m, r.lanes[j]? = some m ∧ m ∈ r.lanes := by
  obtain ⟨m, hm, -⟩ := (Option.any_eq_true ..).mp (List.mem_filter.mp h).2
  exact ⟨m, hm, List.mem_of_getElem? hm⟩

/-! #### A decoding load answered by a peer (R101, R267) -/

theorem one_le_elementSize (fmt : Nat) : 1 ≤ elementSize fmt := by
  unfold elementSize
  split <;> omega
theorem elemAddr_eq {fmt : Nat} (h1 : 1 ≤ fmt) (h4 : fmt ≤ 4) (a i : Nat) : elemAddr fmt a i = (elementAt fmt a i, if fmt = 1 then i % 2 else 0) := by
  obtain rfl | rfl | rfl | rfl : fmt = 1 ∨ fmt = 2 ∨ fmt = 3 ∨ fmt = 4 := by omega
  all_goals rfl
/-- The first of the bytes that came for a piece, and how many: of a lone byte of a BF16 page its whole element. -/
def LaneAcc.cameFrom (m : LaneAcc) : Nat := if m.attr = 4 ∧ m.size = 1 then m.ia.toNat / 2 * 2 else m.ia.toNat
def LaneAcc.cameSize (m : LaneAcc) : Nat := if m.attr = 4 ∧ m.size = 1 then 2 else m.size

/-- An element of a lane that one answered piece covers. -/
theorem State.remoteElems_covered {s : State} {r : Req} {m : LaneAcc} (hr : r.lanes = [m]) (hf : m.fmt = 0) (hp : m.path = 3) (hst : m.stage = 2)
    (h1 : 1 ≤ m.attr) (h4 : m.attr ≤ 4) (hia : m.ia.toNat < 2 ^ 57) (hend : m.cameFrom + m.cameSize ≤ 2 ^ 57) {j : Nat} (hj : j < r.group)
    (hlo : m.cameFrom ≤ elementAt m.attr m.ia.toNat j)
    (hhi : elementAt m.attr m.ia.toNat j + elementSize m.attr ≤ m.cameFrom + m.cameSize) :
    ∃ e ∈ s.remoteElems r m, e.lane = m.lane ∧ e.off = j ∧ e.fmt = m.attr ∧ e.stage = 2 ∧ e.cause = m.cause ∧
      e.out = elementValue m.attr (m.out / 256 ^ (elementAt m.attr m.ia.toNat j - m.cameFrom)) (if m.attr = 1 then j % 2 else 0) m.cmp := by
  have hva : m.ia.toNat % 2 ^ 57 = m.ia.toNat := Nat.mod_eq_of_lt hia
  have hsz := one_le_elementSize m.attr
  have he : (elemPiece m (m.ia.toNat % 2 ^ 57) m.attr j).ia.toNat = elementAt m.attr m.ia.toNat j := by
    simp only [elemPiece, elemAddr_eq h1 h4, hva, Nat.div_eq_of_lt hia, Nat.zero_mul, Nat.zero_add]
    exact Nat.mod_eq_of_lt (by omega)
  have hfind : (r.of m.lane).find? (fun x => x.fmt == 0 && x.path == 3 && (x.stage == 2 || x.stage == 4) &&
      decide (x.cameFrom ≤ elementAt m.attr m.ia.toNat j) &&
      decide (elementAt m.attr m.ia.toNat j + elementSize m.attr ≤ x.cameFrom + x.cameSize)) = some m := by
    have hl : r.of m.lane = [m] := by simp [Req.of, hr]
    rw [hl, List.find?_cons_of_pos]
    simp [hf, hp, hst, hlo, hhi]
  refine ⟨_, List.mem_map_of_mem (List.mem_range.mpr hj), ?_⟩
  dsimp only
  rw [he, elemAddr_eq h1 h4]
  have hsize : (elemPiece m (m.ia.toNat % 2 ^ 57) m.attr j).size = elementSize m.attr := rfl
  rw [hsize]
  split
  swap
  · next h => exact absurd (h.symm.trans hfind) nofun
  next m' h =>
  obtain rfl : m = m' := Option.some.inj (hfind.symm.trans h)
  refine ⟨rfl, rfl, rfl, hst, rfl, ?_⟩
  dsimp only
  rw [decodeElem_eq h1 h4]
  by_cases ha : m.attr = 1
  · rw [if_pos ha, if_pos ha]
    rfl
  · exact elementValue_scale ha ..

/-- A lane of a decoding load whose one piece a peer answers without error. -/
theorem LaneAcc.answered_whole {r : Req} {l x : LaneAcc} (hk : r.kind = .load) (hr : r.lanes = [l]) (ho : l.off = 0) (hf : l.fmt = 0)
    (hc : x.cause = 0) : l.answered r x = { l with stage := 2, out := x.out, cause := 0, undef := x.undef, attr := x.attr, cmp := x.cmp } := by
  unfold LaneAcc.answered
  simp [hk, hr, ho, hf, hc]

theorem Req.decoded_mem {r : Req} {m : LaneAcc} {ls : List LaneAcc} {lane : Nat} (h : m ∈ ls) : m ∈ (r.decoded lane ls).lanes :=
  List.mem_append_right _ h
/-- The one piece of a decoding load is answered, and its lane decoded. -/
theorem State.decodeRemote_alone {s : State} {r : Req} {m : LaneAcc} (hr : r.lanes = [m]) (ho : m.off = 0) (hf : m.fmt = 0) (hp : m.path = 3)
    (hst : m.stage = 2) (ha : m.attr ≠ 0) : s.decodeRemote r m.lane = r.decoded m.lane (s.remoteElems r m) := by
  have hl : r.of m.lane = [m] := by simp [Req.of, hr]
  unfold State.decodeRemote
  simp [hl, ho, hf, hp, hst, ha]
theorem State.decodeRemote_laneNos {s : State} {r : Req} {m : LaneAcc} (hr : r.lanes = [m]) (ho : m.off = 0) (hf : m.fmt = 0) (hp : m.path = 3)
    (hst : m.stage = 2) (ha : m.attr ≠ 0) : r.laneNos.foldl (fun q n => s.decodeRemote q n) r = r.decoded m.lane (s.remoteElems r m) := by
  have hn : r.laneNos = [m.lane] := by simp [Req.laneNos, hr, List.eraseDups_cons]
  rw [hn]
  exact State.decodeRemote_alone hr ho hf hp hst ha

/-- R101, R267: the elements of a lane that a peer's bytes cover, under the page's format and the scale byte that came with them. -/
theorem State.answerPiece_decodes {s : State} {p : Packet} {r : Req} {l x : LaneAcc} (hr : mget? s.reqs (p.tag / 1024) = some r)
    (hl : r.lanes[p.tag % 1024]? = some l) (h6 : l.stage = 6) (hs : l.sent = p.tag % 1024) (hk : p.kind ≠ 4) (ha : p.a = 0)
    (hld : r.kind = .load) (hpe : r.peer = none) (hlane : r.lanes = [l]) (ho : l.off = 0) (hf : l.fmt = 0) (hpath : l.path = 3)
    (hpl : p.lanes = [x]) (hc : x.cause = 0) (h1 : 1 ≤ x.attr) :
    let m : LaneAcc := { l with stage := 2, out := x.out, cause := 0, undef := x.undef, attr := x.attr, cmp := x.cmp }
    let q := { r with lanes := [m] }
    s.answerPiece p = (s.dropRspto (p.tag / 1024) (p.tag % 1024)).setReq (p.tag / 1024) (q.decoded m.lane (s.remoteElems q m)) := by
  intro m q
  have hi : p.tag % 1024 = 0 := by
    by_contra h
    rw [hlane, List.getElem?_eq_none (by simp; omega)] at hl
    cases hl
  have hw : r.awaiting l (p.tag % 1024) = [0] := by
    simp [Req.awaiting, hlane, LaneAcc.awaits, h6, hs]
  have hq : Req.takes (fun m x => m.answered r (if m.fmt = 1 ∧ x.attr ≠ 1 then
      { x with attr := 1, cmp := (Config.freeByte s.free (32 * m.lane + m.off)).toNat } else x)) ((r.awaiting l (p.tag % 1024)).zip p.lanes) r = q := by
    rw [hw, hpl]
    simp only [Req.takes, List.zip_cons_cons, List.zip_nil_left, List.foldl_cons, List.foldl_nil, hlane, List.getElem?_cons_zero]
    rw [if_neg (by simp [hf]), LaneAcc.answered_whole hld hlane ho hf hc]
    simp [q, m, Req.setLane, hlane]
  rw [State.answerPiece_answers hr hl h6 hs hk ha]
  dsimp only
  rw [hq, if_pos ⟨hld, hpe⟩]
  exact congrArg _ (State.decodeRemote_laneNos (s := s) (r := q) (m := m) rfl ho hf hpath rfl (Nat.one_le_iff_ne_zero.mp h1))

/-! #### Losses -/

theorem State.freeDests_dests (l : List DestGroup) (s : State) (d : DestGroup) :
    d ∈ (l.foldl (fun t d => t.freeDest d.odev d.octx d.group d.dctx) s).dests ↔
      d ∈ s.dests ∧ ∀ e ∈ l, d.of e.odev e.octx e.group e.dctx = false := by
  induction l generalizing s with
  | nil => simp
  | cons e l ih =>
    rw [List.foldl_cons, ih]
    simp [State.freeDest, and_assoc]
theorem State.freeDests_kept (l : List DestGroup) (s : State) :
    GangsKept s (l.foldl (fun t d => t.freeDest d.odev d.octx d.group d.dctx) s) :=
  (Calm.foldl (f := fun (t : State) (d : DestGroup) => t.freeDest d.odev d.octx d.group d.dctx) (fun _ _ => .of_cores rfl rfl) l s).gangs
/-- R164: of a lost origin only the prepared groups stay. -/
theorem execOriginLostReport_frees {s : State} {dev x : Nat} (he : s.ev = .host dev x) : ∃ t, execOriginLostReport s = .next t ∧ MemKept s t ∧
    GangsKept s t ∧ (∀ d, d ∈ t.dests → d.odev = dev → d.prepared = true) ∧ ∀ d ∈ s.dests, d.odev ≠ dev → d ∈ t.dests := by
  unfold execOriginLostReport
  rw [he]
  refine ⟨_, rfl, .of_eq (by simp [State.foldl_mem]), State.freeDests_kept .., fun d hd ho => ?_, fun d hd ho => ?_⟩
  · rw [State.freeDests_dests] at hd
    by_contra hp
    have := hd.2 d (List.mem_filter.mpr ⟨hd.1, by simp [ho, hp]⟩)
    simp [DestGroup.of] at this
  · rw [State.freeDests_dests]
    refine ⟨hd, fun e hm => ?_⟩
    have : e.odev = dev := by simpa using (Bool.and_eq_true_iff.mp (List.mem_filter.mp hm).2).1
    simp [DestGroup.of, this, ho]
/-- R148: every piece that waits for a lost peer fails. -/
theorem execPeerLostReport_fails {s : State} {dev x : Nat} (he : s.ev = .host dev x) : ∃ t, execPeerLostReport s = .next t ∧ MemKept s t ∧
    (s.groups = [] → t = s.dropPeer dev) := by
  unfold execPeerLostReport
  rw [he]
  refine ⟨_, rfl, .of_eq (by simp [State.foldl_mem]), fun hg => ?_⟩
  rw [hg]
  rfl
theorem State.dropPeer_req {s : State} {id : Nat} {r : Req} (h : mget? s.reqs id = some r) (dev : Nat) : mget? (s.dropPeer dev).reqs id =
    some { r with lanes := r.lanes.map (fun l => if l.stage = 6 ∧ l.peer ≠ 0 ∧ aperDev l.peer = dev then { l with stage := 4, cause := 0x17 } else l) } := by
  refine (mget?_map (fun q : Req => { q with lanes := q.lanes.map (fun l : LaneAcc =>
    if l.stage = 6 ∧ l.peer ≠ 0 ∧ aperDev l.peer = dev then { l with stage := 4, cause := 0x17 } else l) }) s.reqs id).trans ?_
  rw [h]
  rfl

/-- Settles O36: the arrival of a request, the answers by what each piece takes, and the losses. -/
theorem peerServiceResults : Obligations.PeerServiceResults := by
  intro s
  refine ⟨fun p he hl => ?_, fun p he hl => ?_, fun p he => ?_, fun id i r l hp => ?_, fun p r l he hr hl h6 hs => ?_, fun dev x he => ?_,
    fun dev x he => execOriginLostReport_frees he⟩
  · obtain ⟨t, q, hx, hm, hg, hsent, hrq, hn, h1, h2, h3, h4, h5, h7, h8, h9, hq, hd, hb⟩ := execRemoteRequestArrival_serves he hl
    refine ⟨t, q, hx, hm, hg, hsent, hrq, hn, h1, h2, h3, h4, h5, h7, h8, h9, by rw [hq, List.length_map], fun n x m hx hm => ?_, hd, hb⟩
    rw [hq] at hm
    obtain rfl := carried_getElem? hx hm
    exact ⟨rfl, rfl, rfl, rfl, rfl, x.carried_ia, rfl, rfl, rfl, rfl, rfl⟩
  · refine ⟨_, execRemoteRequestArrival_refuses he hl, .of_eq (by simp), .of_cores (by simp), by simp, ?_⟩
    exact (s.send_sent _).trans (s.send_devId _) (State.send_sent ..)
  · have hx : execRemoteAckArrival s = .next (s.dropRspto (p.tag / 1024) (p.tag % 1024)) := by unfold execRemoteAckArrival; rw [he]
    exact ⟨_, hx, fun _ => rfl, .of_cores rfl, rfl, s.mem_dropRspto _ _⟩
  · obtain ⟨hev, hr, hl⟩ := hp
    have hx : execRsptoExpiry s = .next (s.failSent id i 0x17) := by unfold execRsptoExpiry; rw [hev]
    rw [State.failSent_eq hr hl] at hx
    exact ⟨_, hx, fun _ => rfl, .of_cores rfl, rfl⟩
  · have hx : exec .memoryOpComplete s = .next (s.answerPiece p) := by
      change execMemoryOpComplete s = _
      unfold execMemoryOpComplete
      rw [he]
    refine ⟨fun hk => ?_, fun hk ha => ?_, fun hk ha hld hf hn => ?_, fun x hk ha hld hpe hlane ho hf hpath hend hpl hc h1 h4 => ?_⟩
    · rw [State.answerPiece_message hr hl h6 hs hk] at hx
      exact ⟨_, _, hx, fun _ => rfl, .of_cores rfl, rfl, rfl, rfl⟩
    · rw [State.answerPiece_refused hr hl h6 hs hk ha] at hx
      exact ⟨_, hx, fun _ => rfl, .of_cores rfl, rfl⟩
    · rw [State.answerPiece_answers hr hl h6 hs hk ha] at hx
      dsimp only at hx
      rw [if_neg (by simp [hld])] at hx
      have hkeys : ((r.awaiting l (p.tag % 1024)).zip p.lanes).map Prod.fst = r.awaiting l (p.tag % 1024) := List.map_fst_zip hn.ge
      refine ⟨_, _, hx, fun _ => rfl, .of_cores rfl, rfl, fun j hj => Req.takes_other _ _ (by rwa [hkeys]), fun n j x hj hxn => ?_⟩
      obtain ⟨m, hm, hmem⟩ := Req.mem_awaiting (List.mem_of_getElem? hj)
      refine ⟨_, Req.takes_self _ (List.mem_of_getElem? (List.getElem?_zip_eq_some.mpr ⟨hj, hxn⟩)) (by rw [hkeys]; exact r.awaiting_nodup ..) hm, ?_⟩
      rw [if_neg (by simp [hf m hmem])]
      exact LaneAcc.answered_takes hld (hf m hmem) x
    · intro whole lo n
      let m : LaneAcc := { l with stage := 2, out := x.out, cause := 0, undef := x.undef, attr := x.attr, cmp := x.cmp }
      rw [State.answerPiece_decodes hr hl h6 hs hk ha hld hpe hlane ho hf hpath hpl hc h1] at hx
      refine ⟨_, _, hx, fun _ => rfl, .of_cores rfl, rfl, fun j hj hlo hhi => ?_⟩
      have hsz := one_le_elementSize x.attr
      have hn : 1 ≤ n := by omega
      have hia : l.ia.toNat < 2 ^ 57 ∧ lo + n ≤ 2 ^ 57 := by
        unfold n at hn
        unfold lo n
        split at hn
        · next hw => rw [if_pos hw, if_pos hw]; have := hw.2; omega
        · next hw => rw [if_neg hw, if_neg hw]; omega
      obtain ⟨e, he, h⟩ := State.remoteElems_covered (s := s) (r := { r with lanes := [m] }) (m := m) rfl hf hpath rfl h1 h4 hia.1 hia.2 hj hlo hhi
      exact ⟨e, Req.decoded_mem he, h⟩
  · obtain ⟨t, hx, hm, ht⟩ := execPeerLostReport_fails he
    refine ⟨t, hx, hm, fun hg => ?_, fun hg id r hr => ?_⟩
    · rw [ht hg]
      exact .of_cores rfl
    · rw [ht hg]
      exact State.dropPeer_req hr dev

end Sys2Proof.Machine
end
-- Stores: what writes at home slices leave in memory.
section
/-! SUPPORT. Bytes and words read back after writes, and the frame of the units' stores (R10, R65, R72). -/

namespace Sys2Proof.Machine
open Sys2Proof

theorem ofBytesLE_bytesLE_mod (n v : Nat) : ofBytesLE (bytesLE n v) = v % 256 ^ n := by
  induction n generalizing v with
  | zero => simp [bytesLE, ofBytesLE, Nat.mod_one]
  | succ n ih =>
    rw [bytesLE, ofBytesLE, ih, BitVec.toNat_ofNat]
    exact (Nat.mod_mul (x := v) (a := 256) (b := 256 ^ n)).symm.trans (congrArg (v % ·) (pow_succ' 256 n).symm)
theorem ofBytesLE_bytesLE_word (v : Nat) : ofBytesLE (bytesLE 8 v) = v % 2 ^ 64 := ofBytesLE_bytesLE_mod 8 v
theorem Mem.bytes_congr {m m' : List Host.Cell} {a n : Nat} (h : ∀ k, k < n → Mem.read m (a + k) = Mem.read m' (a + k)) :
    Mem.bytes m a n = Mem.bytes m' a n :=
  List.map_congr_left fun k hk => h k (List.mem_range.mp hk)
theorem State.rd_congr {s t : State} {pa n : Nat} (h : ∀ k, k < n → Mem.read t.mem (pa + k) = Mem.read s.mem (pa + k)) : t.rd pa n = s.rd pa n :=
  congrArg ofBytesLE (Mem.bytes_congr h)
theorem State.rd_of_mem {s t : State} (h : t.mem = s.mem) (pa n : Nat) : t.rd pa n = s.rd pa n := by
  unfold State.rd
  rw [h]
/-- Part of the bytes written. -/
theorem Mem.bytes_put {m : List Host.Cell} (hw : Mem.wf m = true) (a : Nat) (bs : List Byte) {o n : Nat} (h : o + n ≤ bs.length) :
    Mem.bytes (Mem.put m a bs) (a + o) n = (bs.drop o).take n := by
  refine List.ext_getElem (by simp [Mem.bytes]; omega) fun k h1 h2 => ?_
  have hk : k < n := by simpa [Mem.bytes] using h1
  simp only [Mem.bytes, List.getElem_map, List.getElem_range, List.getElem_take, List.getElem_drop, Nat.add_assoc]
  exact Mem.read_put_in hw a bs (by omega)
/-- A word written is read back. -/
theorem State.rd_put {s t : State} (hw : Mem.wf s.mem = true) {pa n v : Nat} (h : t.mem = Mem.put s.mem pa (bytesLE n v)) :
    t.rd pa n = v % 256 ^ n := by
  have hb := Mem.bytes_put hw pa (bytesLE n v) (o := 0) (n := n) (by simp [bytesLE_length])
  rw [Nat.add_zero, List.drop_zero, List.take_of_length_le (by simp [bytesLE_length])] at hb
  unfold State.rd Mem.word
  rw [h, hb, ofBytesLE_bytesLE_mod]
theorem KeptOutside.of_put {s t : State} {pa : Nat} {bs : List Byte} (h : t.mem = Mem.put s.mem pa bs) : KeptOutside s t pa bs.length := by
  intro a ha
  rw [h, Mem.read_put_out _ _ _ ha]
/-- A word away from what was written. -/
theorem State.rd_put_out {s t : State} {pa q n : Nat} {bs : List Byte} (h : t.mem = Mem.put s.mem pa bs) (hd : q + n ≤ pa ∨ pa + bs.length ≤ q) :
    t.rd q n = s.rd q n :=
  State.rd_congr fun k hk => KeptOutside.of_put h _ (by omega)

theorem State.writeEntry_mem (s : State) (pa e : Nat) : (s.writeEntry pa e).mem = Mem.put s.mem pa (bytesLE 8 e) := by
  simp [State.writeEntry, State.wr, State.wrBytes]
theorem State.wr_home (s : State) (pa n v : Nat) : HomeOnly s (s.wr pa n v) := rfl
theorem State.voids_home (s : State) (o : Observer) (pa n : Nat) : HomeOnly s (s.voids o pa n) := rfl
theorem State.writeEntry_home (s : State) (pa e : Nat) : HomeOnly s (s.writeEntry pa e) :=
  (s.l2Use_home ..).trans ((State.atSlice_home ..).trans (State.wr_home ..))
theorem State.writeEntry_calm (s : State) (pa e : Nat) : Calm s (s.writeEntry pa e) :=
  (s.l2Use_calm ..).trans ((State.atSlice_calm ..).trans (State.wrBytes_calm ..))
theorem State.lineWrite_mem (s : State) (pa : Nat) (bs : List Byte) : (s.lineWrite pa bs).mem = Mem.put s.mem pa bs := by
  simp [State.lineWrite, State.wrLine, State.wrBytes]
theorem State.wrLine_calm (s : State) (pa : Nat) (bs : List Byte) : Calm s (s.wrLine pa bs) := .of_cores rfl rfl
theorem State.lineWrite_calm (s : State) (pa : Nat) (bs : List Byte) : Calm s (s.lineWrite pa bs) :=
  (s.l2Use_calm ..).trans ((State.atSlice_calm ..).trans (State.wrLine_calm ..))
theorem State.wrOver_calm (s : State) (pa : Nat) (bs : List Byte) : Calm s (s.wrOver pa bs) := by
  unfold State.wrOver
  exact (Calm.foldl (fun t l => t.atSlice_calm (128 * l)) _ s).trans (.of_cores rfl rfl)
@[simp] theorem State.unitStore_mem (s : State) (pa : Nat) (bs : List Byte) : (s.unitStore pa bs).mem = Mem.put s.mem pa bs := s.wrOver_mem pa bs
theorem State.unitStore_home (s : State) (pa : Nat) (bs : List Byte) : HomeOnly s (s.unitStore pa bs) := (s.wrOver_home pa bs).trans (State.voids_home ..)
theorem State.unitStore_kept (s : State) (pa : Nat) (bs : List Byte) : GangsKept s (s.unitStore pa bs) :=
  (s.wrOver_calm pa bs).gangs.trans (State.voids_kept ..)

theorem State.unitStore_twice_home (s : State) (a : Nat) (x : List Byte) (b : Nat) (y : List Byte) :
    HomeOnly s ((s.unitStore a x).unitStore b y) := (s.unitStore_home ..).trans (State.unitStore_home ..)
/-- A record of two words and the 4-byte index after it. -/
theorem State.unitStore_record {s : State} (hw : Mem.wf s.mem = true) {ea ia x y n : Nat} (hd : ea + 16 ≤ ia ∨ ia + 4 ≤ ea) :
    let t := (s.unitStore ea (bytesLE 8 x ++ bytesLE 8 y)).unitStore ia (bytesLE 4 n)
    t.rd ea 8 = x % 2 ^ 64 ∧ t.rd (ea + 8) 8 = y % 2 ^ 64 ∧ t.rd ia 4 = n % 2 ^ 32 := by
  intro t
  let bs := bytesLE 8 x ++ bytesLE 8 y
  have h1 : (s.unitStore ea bs).mem = Mem.put s.mem ea bs := s.unitStore_mem ea bs
  have h2 : t.mem = Mem.put (s.unitStore ea bs).mem ia (bytesLE 4 n) := State.unitStore_mem ..
  have hw1 : Mem.wf (s.unitStore ea bs).mem = true := by rw [h1]; exact Mem.wf_put hw ..
  have hlen : bs.length = 16 := by simp [bs, bytesLE_length]
  have hword {o : Nat} (ho : o + 8 ≤ 16) : t.rd (ea + o) 8 = ofBytesLE ((bs.drop o).take 8) := by
    rw [State.rd_put_out h2 (by rw [bytesLE_length]; omega), State.rd, Mem.word, h1, Mem.bytes_put hw ea bs (by omega)]
  refine ⟨?_, ?_, State.rd_put hw1 h2⟩
  · have h0 := hword (o := 0) (by omega)
    rwa [Nat.add_zero, List.drop_zero, List.take_left' (bytesLE_length 8 x), ofBytesLE_bytesLE_word] at h0
  · rw [hword (by omega), List.drop_left' (bytesLE_length 8 x), List.take_of_length_le (bytesLE_length 8 y).le, ofBytesLE_bytesLE_word]

theorem HomeOnly.migr {s t : State} (h : HomeOnly s t) : t.migr = s.migr := by rw [h]
theorem HomeOnly.irqs {s t : State} (h : HomeOnly s t) : t.irqs = s.irqs := by rw [h]
/-- One interrupt register decides one interrupt. -/
theorem State.irq_irqs_congr {s t : State} {i : Nat} (hd : t.dreg (0x400 + 8 * i) = s.dreg (0x400 + 8 * i)) (hq : t.irqs = s.irqs) :
    (t.irq i).irqs = (s.irq i).irqs := by
  unfold State.irq
  rw [hd, hq]
  dsimp only
  split
  · rfl
  · exact hq
theorem State.irq_eq (s : State) (i : Nat) : s.irq i = { s with irqs := (s.irq i).irqs } := by
  unfold State.irq
  dsimp only
  split <;> rfl
theorem State.irq_migr (s : State) (i : Nat) : (s.irq i).migr = s.migr := by rw [State.irq_eq]
theorem State.irq_kept (s : State) (i : Nat) : GangsKept s (s.irq i) := by
  rw [State.irq_eq]
  exact .of_cores rfl

end Sys2Proof.Machine
end
-- Moves: a page that goes to another device, or stays.
section
/-! SUPPORT. The exchange of a page between devices (R39, R167 to R170), packet by packet. -/

namespace Sys2Proof.Machine
open Sys2Proof

theorem State.send_tlb (s : State) (p : Packet) : (s.send p).tlb = s.tlb := by rw [State.send_eq]
theorem State.send_migr (s : State) (p : Packet) : (s.send p).migr = s.migr := by rw [State.send_eq]

section
variable {s : State} {p : Packet} (he : s.ev = .packet p)
include he

/-- A page that has no level-0 entry is declined. -/
theorem execMigrationOffer_declines (h : s.leaf0 p.ctx (p.va / 4096) = none) : execMigrationOffer s =
    .next (s.send { kind := 13, dev := p.dev, ctx := p.peerCtx, peerCtx := p.ctx, va := p.va }) := by
  unfold execMigrationOffer
  rw [he]
  dsimp only
  rw [h]
/-- The exchange that an offer begins where its page's entry forwards to the sender. -/
def Packet.exchange (p : Packet) (pa e f : Nat) : Migr :=
  { ctx := p.ctx, vpn := p.va / 4096, dev := p.dev, rctx := p.peerCtx, home := false, step := 2, frame := f,
    pte := BitVec.ofNat 64 e, pteAddr := pa, count := p.a, age := p.b }
/-- A page whose entry forwards to the sender is accepted into the slice's spare frame. -/
theorem execMigrationOffer_accepts {pa e c f : Nat} (h : s.leaf0 p.ctx (p.va / 4096) = some (pa, e, c)) (h0 : e % 2 = 0)
    (hfw : bitsOf e 63 54 = 0x3FF) (hv : (s.imageAper p.ctx (bitsOf e 15 10)).getLsbD 63 = true)
    (hd : aperDev (s.imageAper p.ctx (bitsOf e 15 10)) = p.dev) (hc : aperCtx (s.imageAper p.ctx (bitsOf e 15 10)) = p.peerCtx)
    (h58 : c.testBit 58 = true) (hl : (s.ctx p.ctx).live = true) (hs : mget? s.spare (4096 * tslice p.ctx p.va + p.ctx) = some f) :
    execMigrationOffer s = .next (({ s with spare := mdel s.spare (4096 * tslice p.ctx p.va + p.ctx), migr := s.migr ++ [p.exchange pa e f] } : State).send
      { kind := 14, dev := p.dev, ctx := p.peerCtx, peerCtx := p.ctx, va := p.va }) := by
  have ht : s.takeFrame p.ctx (tslice p.ctx p.va) = ({ s with spare := mdel s.spare (4096 * tslice p.ctx p.va + p.ctx) }, .ok f) := by
    unfold State.takeFrame
    rw [hs]
  rw [he] at ht
  unfold execMigrationOffer
  rw [he]
  dsimp only
  rw [h]
  dsimp only
  rw [if_neg (by simp [h0, hfw, hv, hd, hc, h58, hl]), ht]
  rfl
/-- A declined page stays. -/
theorem execMigrationDecline_ends {m : Migr} (h : s.migOf p.ctx (p.va / 4096) true = some m) :
    execMigrationDecline s = .next { s with migr := s.migr.erase m } := by
  unfold execMigrationDecline
  rw [he]
  dsimp only
  rw [h]

omit he in
theorem State.tlbDrop_kept (s : State) (cov : Nat → Nat → Nat → Bool) : GangsKept s (s.tlbDrop cov) := .of_cores rfl

/-- What an accepted page leaves at home (R169): its entry forwards, its translation and the first-level copies are gone. -/
def State.forwarded (s : State) (ctx vpn pa fe : Nat) : State :=
  ((s.writeEntry pa fe).tlbDrop (fun c v _ => c == ctx && v == vpn)).recallPage (fun c v => c == ctx && v == vpn)

omit he in
theorem State.forwarded_mem (s : State) (ctx vpn pa fe : Nat) : (s.forwarded ctx vpn pa fe).mem = Mem.put s.mem pa (bytesLE 8 fe) := by
  rw [State.forwarded, State.recallPage_mem, State.tlbDrop_mem, State.writeEntry_mem]
omit he in
theorem State.forwarded_kept (s : State) (ctx vpn pa fe : Nat) : GangsKept s (s.forwarded ctx vpn pa fe) :=
  (s.writeEntry_calm pa fe).gangs.trans ((State.tlbDrop_kept ..).trans (State.recallPage_calm ..).gangs)
omit he in
theorem State.forwarded_uncached (s : State) (ctx vpn pa fe : Nat) : (s.forwarded ctx vpn pa fe).tlbFind ctx vpn = none := by
  rw [State.forwarded, State.tlbFind, State.recallPage_home]
  simp only [State.tlbDrop, List.find?_eq_none, List.mem_filter]
  exact fun x hx h => by simp [h] at hx

theorem execMigrationAccept_forwards {m : Migr} {pa e c n : Nat} (hm : s.migOf p.ctx (p.va / 4096) true = some m) (h9 : m.step ≠ 9)
    (hl : s.leaf0 p.ctx (p.va / 4096) = some (pa, e, c))
    (htr : ∀ tr, s.tlbFind p.ctx (p.va / 4096) = some tr → leafFrame e 0 (p.va / 4096) = ptePpn tr.pte.toNat)
    (hn : s.aperTo p.ctx p.dev p.peerCtx = some n) (hk : pteKind e 0 = .leaf) :
    ∃ mig q, execMigrationAccept s =
      .next (({ s.forwarded p.ctx (p.va / 4096) pa (0x3FF * 2 ^ 54 + n * 2 ^ 10 + e % 256 / 2 * 2) with migr := mig } : State).send q) := by
  have hall : (s.tlbFind p.ctx (p.va / 4096)).all (fun t => ptePpn t.pte.toNat == leafFrame e 0 (p.va / 4096)) = true := by
    cases ht : s.tlbFind p.ctx (p.va / 4096) with
    | none => rfl
    | some tr => exact beq_iff_eq.mpr (htr tr ht).symm
  unfold execMigrationAccept
  rw [he]
  dsimp only
  rw [hm]
  dsimp only
  rw [if_neg h9, hl, hn]
  dsimp only
  rw [if_neg (by simp [hk, hall])]
  exact ⟨_, _, rfl⟩
end

/-! #### The lines of a page -/

/-- Lines written one after another from a place. -/
def State.linesWrite (s : State) (frame : Nat) (bs : List Byte) (n : Nat) : State :=
  (List.range n).foldl (fun t i => t.lineWrite (frame + 128 * i) ((bs.drop (128 * i)).take 128)) s

theorem State.linesWrite_succ (s : State) (frame : Nat) (bs : List Byte) (n : Nat) : s.linesWrite frame bs (n + 1) =
    (s.linesWrite frame bs n).lineWrite (frame + 128 * n) ((bs.drop (128 * n)).take 128) := by
  simp [State.linesWrite, List.range_succ]
theorem State.linesWrite_home (s : State) (frame : Nat) (bs : List Byte) (n : Nat) : HomeOnly s (s.linesWrite frame bs n) :=
  .foldl (fun t _ => t.lineWrite_home ..) _ s
theorem State.linesWrite_calm (s : State) (frame : Nat) (bs : List Byte) (n : Nat) : Calm s (s.linesWrite frame bs n) :=
  .foldl (fun t _ => t.lineWrite_calm ..) _ s
theorem State.linesWrite_wf {s : State} (hw : Mem.wf s.mem = true) (frame : Nat) (bs : List Byte) (n : Nat) :
    Mem.wf (s.linesWrite frame bs n).mem = true :=
  State.foldl_wf (fun _ _ h => State.lineWrite_wf h ..) _ hw
/-- Each line holds its bytes, and nothing else has changed. -/
theorem State.linesWrite_read {s : State} (hw : Mem.wf s.mem = true) (frame : Nat) {bs : List Byte} {n : Nat} (h : 128 * n ≤ bs.length) (a : Nat) :
    Mem.read (s.linesWrite frame bs n).mem a = if frame ≤ a ∧ a < frame + 128 * n then bs.getD (a - frame) 0 else Mem.read s.mem a := by
  induction n with
  | zero => rw [if_neg (by omega)]; rfl
  | succ n ih =>
    have hlen : ((bs.drop (128 * n)).take 128).length = 128 := by simp; omega
    rw [State.linesWrite_succ, State.lineWrite_mem]
    by_cases hin : frame + 128 * n ≤ a ∧ a < frame + 128 * n + 128
    · obtain ⟨k, rfl⟩ := Nat.exists_eq_add_of_le hin.1
      rw [Mem.read_put_in (State.linesWrite_wf hw ..) _ _ (by omega), if_pos (by omega)]
      have hk : frame + 128 * n + k - frame = 128 * n + k := by omega
      rw [hk, List.getD_eq_getElem _ _ (show 128 * n + k < _ by omega), List.getElem_take, List.getElem_drop]
    · rw [Mem.read_put_out _ _ _ (by omega), ih (by omega)]
      by_cases hlt : frame ≤ a ∧ a < frame + 128 * n
      · rw [if_pos hlt, if_pos (by omega)]
      · rw [if_neg hlt, if_neg (by omega)]

/-- Nothing has changed but the thrash histories and the agenda. -/
def ThrashOnly (s t : State) : Prop := t = { s with thrash := t.thrash, agenda := t.agenda }
theorem ThrashOnly.ite {s a b : State} {c : Prop} [Decidable c] (ha : ThrashOnly s a) (hb : ThrashOnly s b) : ThrashOnly s (if c then a else b) := by
  split
  · exact ha
  · exact hb
theorem State.thrashEnter_only (s : State) (ctx vpn count age : Nat) : ThrashOnly s (s.thrashEnter ctx vpn count age) := .ite rfl rfl
theorem State.thrashEnter_migr (s : State) (ctx vpn count age : Nat) : (s.thrashEnter ctx vpn count age).migr = s.migr := by
  rw [s.thrashEnter_only ctx vpn count age]
theorem State.thrashEnter_cores (s : State) (ctx vpn count age : Nat) : (s.thrashEnter ctx vpn count age).cores = s.cores := by
  rw [s.thrashEnter_only ctx vpn count age]

theorem State.tlbInstall_migr (s : State) (ctx vpn pte comp level gpte : Nat) : (s.tlbInstall ctx vpn pte comp level gpte).migr = s.migr := rfl
theorem State.tlbInstall_cores (s : State) (ctx vpn pte comp level gpte : Nat) : (s.tlbInstall ctx vpn pte comp level gpte).cores = s.cores := rfl

/-- The entry of a page that has arrived: present and accessed, its other low bits as before (R169). -/
def arrivedPte (m : Migr) : Nat := (m.frame / 4096 * 2 ^ 10 + m.pte.toNat % 256 / 2 * 2) ||| 0x41

theorem arrivedPte_lt {m : Migr} (h : m.frame < hbmSize) : arrivedPte m < 256 ^ 8 := by
  have hs : hbmSize < 2 ^ 40 := by decide
  unfold arrivedPte
  exact Nat.or_lt_two_pow (n := 64) (by omega) (by decide)

/-- The lines in their frame, and the exchange over. -/
def State.linesTaken (s : State) (m : Migr) (bs : List Byte) : State :=
  { s.linesWrite m.frame bs 32 with migr := s.migr.erase m }

theorem State.linesTaken_kept (s : State) (m : Migr) (bs : List Byte) : GangsKept s (s.linesTaken m bs) :=
  have h : (s.linesTaken m bs).cores = (s.linesWrite m.frame bs 32).cores := by
    unfold State.linesTaken
    generalize s.linesWrite m.frame bs 32 = u
    rfl
  (s.linesWrite_calm m.frame bs 32).gangs.trans (.of_cores h)

/-- The page mapped again, and its history entered. -/
def State.pageArrived (s : State) (p : Packet) (m : Migr) : State :=
  ((s.writeEntry m.pteAddr (arrivedPte m)).tlbInstall p.ctx (p.va / 4096) (arrivedPte m) (s.rd (m.pteAddr + 4096) 8) 0 noGStage).thrashEnter p.ctx
    (p.va / 4096) p.a p.b

theorem State.pageArrived_mem (s : State) (p : Packet) (m : Migr) : (s.pageArrived p m).mem = Mem.put s.mem m.pteAddr (bytesLE 8 (arrivedPte m)) := by
  unfold State.pageArrived
  rw [State.thrashEnter_mem, State.tlbInstall_mem, State.writeEntry_mem]
theorem State.pageArrived_migr (s : State) (p : Packet) (m : Migr) : (s.pageArrived p m).migr = s.migr := by
  unfold State.pageArrived
  rw [State.thrashEnter_migr, State.tlbInstall_migr]
  exact (s.writeEntry_home ..).migr
theorem State.pageArrived_kept (s : State) (p : Packet) (m : Migr) : GangsKept s (s.pageArrived p m) := by
  refine (s.writeEntry_calm m.pteAddr (arrivedPte m)).gangs.trans (.of_cores ?_)
  unfold State.pageArrived
  rw [State.thrashEnter_cores, State.tlbInstall_cores]

/-- R169: the lines fill the frame, and the entry is written where it has not changed. -/
theorem execMigrationLines_arrives {s : State} {p : Packet} {m : Migr} (he : s.ev = .packet p) (hm : s.migOf p.ctx (p.va / 4096) false = some m)
    (hn : s.migOf p.ctx (p.va / 4096) true = none) (hp : p.words = []) (hpte : (s.linesTaken m p.bytes).rd m.pteAddr 8 = m.pte.toNat) :
    execMigrationLines s = .next (((s.linesTaken m p.bytes).pageArrived p m).send
      { kind := 16, dev := p.dev, ctx := p.peerCtx, peerCtx := p.ctx, va := p.va }) := by
  have hback : (s.linesTaken m p.bytes).migOf p.ctx (p.va / 4096) true = none := by
    rw [State.migOf, List.find?_eq_none] at hn ⊢
    exact fun x hx => hn x (List.mem_of_mem_erase hx)
  have hmig := (s.linesWrite_home m.frame p.bytes 32).migr
  unfold execMigrationLines
  rw [he]
  dsimp only
  rw [hm, hp]
  dsimp only [List.foldl_nil]
  unfold State.linesTaken State.linesWrite at hpte hback ⊢
  unfold State.linesWrite at hmig
  generalize (List.range 32).foldl (fun t i => t.lineWrite (m.frame + 128 * i) ((p.bytes.drop (128 * i)).take 128)) s = u at hmig hpte hback ⊢
  dsimp only at hpte hback
  rw [hmig]
  refine (if_pos hpte).trans ?_
  rw [hback]
  rfl

/-! #### The return of a frame -/

/-- R170: the vacated frame's record, the ring's index after it, and the interrupt. -/
theorem execMigrationAck_returns {s : State} {p : Packet} {m : Migr} (he : s.ev = .packet p) (hm : s.migOf p.ctx (p.va / 4096) true = some m)
    (h9 : m.step ≠ 9) :
    let ring := s.rd (s.ctxWordPa p.ctx 5) 8
    let ipa := s.ctxWordPa p.ctx 6
    let tail := s.rd (ipa + 4) 4
    let ea := bitsOf ring 55 12 * 4096 + 16 * (tail % 2 ^ (ring / 2 ^ 60 + 6))
    execMigrationAck s = .next ((((({ s with migr := s.migr.erase m } : State).wakePage p.ctx (p.va / 4096)).unitStore ea
      (bytesLE 8 m.frame ++ bytesLE 8 (4096 * (p.va / 4096)))).unitStore (ipa + 4) (bytesLE 4 ((tail + 1) % 2 ^ 32))).irq
        (bitsOf (s.ctx p.ctx).cxcfg.toNat 62 59)) := by
  intro ring ipa tail ea
  unfold execMigrationAck
  rw [he]
  dsimp only
  rw [hm]
  dsimp only
  rw [if_neg h9]
  rw [((State.unitStore_home ..).trans (State.unitStore_home ..)).ctx]
  rfl

theorem execThrottleExpiry_ends {s : State} {ctx vpn : Nat} (he : s.ev = .page ctx vpn) :
    execThrottleExpiry s = .next { s with thrash := s.thrash.filter (fun t => !(t.ctx == ctx && t.vpn == vpn)) } := by
  unfold execThrottleExpiry
  rw [he]

/-- Settles O48, packet by packet. -/
theorem migrationResults : Obligations.MigrationResults := by
  intro s
  refine ⟨fun p he => ⟨fun h => ?_, fun pa e c f h h0 hfw hv hd hc h58 hl hs => ?_, fun m hm => ?_, fun m pa e c n hm h9 hl htr hn hk hw => ?_,
    fun m hm hn hdis hf hp hone hpte hlen hw => ?_, fun m hm h9 => ?_⟩, fun ctx vpn he => ?_⟩
  · exact ⟨_, execMigrationOffer_declines he h, .of_eq (by simp), .of_cores (by simp), State.send_migr .., State.send_sent ..⟩
  · refine ⟨_, _, execMigrationOffer_accepts he h h0 hfw hv hd hc h58 hl hs, .of_eq (by simp), .of_cores (by simp), State.send_migr .., rfl, rfl, rfl,
      rfl, rfl, ?_⟩
    exact State.send_sent _ _
  · exact ⟨_, execMigrationDecline_ends he hm, fun _ => rfl, .of_cores rfl, rfl, rfl⟩
  · obtain ⟨mig, q, hx⟩ := execMigrationAccept_forwards he hm h9 hl htr hn hk
    have hmem := s.forwarded_mem p.ctx (p.va / 4096) pa (0x3FF * 2 ^ 54 + n * 2 ^ 10 + e % 256 / 2 * 2)
    refine ⟨_, hx, (s.forwarded_kept ..).trans (.of_cores (State.send_cores ..)), ?_, ?_, ?_⟩
    · rw [← bytesLE_length 8]
      exact KeptOutside.of_put ((State.send_mem ..).trans hmem)
    · exact State.rd_put hw ((State.send_mem ..).trans hmem)
    · rw [State.tlbFind, State.send_tlb]
      exact s.forwarded_uncached ..
  · have hread := State.linesWrite_read hw m.frame (bs := p.bytes) (n := 32) (by omega)
    have hx := execMigrationLines_arrives he hm hn hp (hpte ▸ State.rd_congr fun k hk => (hread _).trans (if_neg (by omega)))
    have hmem := ((State.send_mem _ { kind := 16, dev := p.dev, ctx := p.peerCtx, peerCtx := p.ctx, va := p.va }).trans
      ((s.linesTaken m p.bytes).pageArrived_mem p m))
    refine ⟨_, hx, ?_, ?_, fun k hk => ?_, ?_, fun a ha hb => ?_⟩
    · exact (s.linesTaken_kept m p.bytes).trans (((s.linesTaken m p.bytes).pageArrived_kept p m).trans (.of_cores (State.send_cores ..)))
    · exact (State.send_migr ..).trans (State.pageArrived_migr ..)
    · rw [hmem, Mem.read_put_out _ _ _ (by rw [bytesLE_length]; omega)]
      refine (hread _).trans ?_
      rw [if_pos (by omega), Nat.add_sub_cancel_left]
    · rw [State.rd_put (s := s.linesTaken m p.bytes) (State.linesWrite_wf hw m.frame p.bytes 32) hmem, Nat.mod_eq_of_lt (arrivedPte_lt hf)]
      rfl
    · rw [hmem, Mem.read_put_out _ _ _ (by rw [bytesLE_length]; omega)]
      exact (hread _).trans (if_neg (by omega))
  · intro ring tail ea hdis hw
    let t0 : State := ({ s with migr := s.migr.erase m } : State).wakePage p.ctx (p.va / 4096)
    obtain ⟨hx, hy, hn⟩ := t0.unitStore_record hw (x := m.frame) (y := 4096 * (p.va / 4096)) (n := (tail + 1) % 2 ^ 32)
      (show ea + 16 ≤ s.ctxWordPa p.ctx 6 + 4 ∨ s.ctxWordPa p.ctx 6 + 4 + 4 ≤ ea by omega)
    have hh := t0.unitStore_twice_home ea (bytesLE 8 m.frame ++ bytesLE 8 (4096 * (p.va / 4096))) (s.ctxWordPa p.ctx 6 + 4)
      (bytesLE 4 ((tail + 1) % 2 ^ 32))
    refine ⟨_, execMigrationAck_returns he hm h9, ?_, ?_, ?_, ?_, ?_, ?_⟩
    · exact (GangsKept.of_cores rfl).trans ((t0.unitStore_kept ..).trans ((State.unitStore_kept ..).trans (State.irq_kept ..)))
    · exact (State.irq_migr ..).trans hh.migr
    · exact (State.rd_of_mem (State.irq_mem ..) ..).trans hx
    · exact (State.rd_of_mem (State.irq_mem ..) ..).trans hy
    · exact (State.rd_of_mem (State.irq_mem ..) ..).trans (hn.trans (Nat.mod_mod _ _))
    · exact State.irq_irqs_congr (hh.dreg _) hh.irqs
  · exact ⟨_, execThrottleExpiry_ends he, fun _ => rfl, .of_cores rfl, fun x => by simp only [List.mem_filter, Bool.not_eq_true', Bool.and_eq_false_iff, beq_eq_false_iff_ne]; tauto⟩

end Sys2Proof.Machine
end
-- Faults: records, the operand log, and answers.
section
/-! SUPPORT. Fault records and what is bound to them (R42 to R47, R428): the record's bytes, log entries, and the two answers. -/

namespace Sys2Proof.Machine
open Sys2Proof

/-! #### Parts of the state -/

theorem mget_map {α : Type} (d : α) {f : α → α} (h : f d = d) (m : Map α) (k : Nat) :
    mget d (m.map fun q => (q.1, f q.2)) k = f (mget d m k) := by
  rw [mget, mget, mget?_map]
  cases mget? m k with
  | none => exact h.symm
  | some x => rfl
theorem mget?_mapKey {α : Type} (f : Nat → α → α) (m : Map α) (k : Nat) : mget? (m.map fun q => (q.1, f q.1 q.2)) k = (mget? m k).map (f k) := by
  induction m with
  | nil => rfl
  | cons q r ih =>
    simp only [List.map_cons, mget?]
    split
    · next h => rw [← h]; rfl
    · exact ih
theorem mget?_mem {α : Type} {m : Map α} {k : Nat} {x : α} (h : mget? m k = some x) : (k, x) ∈ m := by
  induction m with
  | nil => cases h
  | cons q r ih =>
    simp only [mget?] at h
    split at h
    · next hk => exact List.mem_cons.mpr (.inl (by rw [← hk, ← Option.some.inj h]))
    · exact List.mem_cons_of_mem _ (ih h)
/-- A map of which some entries change. -/
theorem mget?_map_ite {α : Type} (p : α → Prop) [DecidablePred p] (g : α → α) (m : Map α) (k : Nat) :
    mget? (m.map fun e => if p e.2 then (e.1, g e.2) else e) k = (mget? m k).map fun x => if p x then g x else x := by
  have hf : (fun e : Nat × α => if p e.2 then (e.1, g e.2) else e) = fun e => (e.1, if p e.2 then g e.2 else e.2) := by
    funext e
    split <;> rfl
  rw [hf]
  exact mget?_map (fun x => if p x then g x else x) m k
theorem GangsKept.of_core {s t : State} (hg : ∀ c, (t.core c).gangs = (s.core c).gangs) (hw : ∀ c, (t.core c).crews = (s.core c).crews) :
    GangsKept s t := by
  refine ⟨fun c g => ?_, fun c k => ?_⟩
  · rw [State.gang?, State.gang?, hg]
  · rw [State.crew, State.crew, hw]

/-- Nothing has changed but the notices of the cores and the agenda. -/
def NoticeOnly (s t : State) : Prop :=
  t = { s with cores := t.cores, agenda := t.agenda } ∧ ∀ c, t.core c = { s.core c with notices := (t.core c).notices }

theorem NoticeOnly.refl (s : State) : NoticeOnly s s := ⟨rfl, fun _ => rfl⟩
theorem NoticeOnly.trans {s t u : State} (h : NoticeOnly s t) (k : NoticeOnly t u) : NoticeOnly s u := by
  obtain ⟨h1, h2⟩ := h
  obtain ⟨k1, k2⟩ := k
  refine ⟨by rw [k1, h1], fun c => ?_⟩
  rw [k2, h2]
theorem State.notify_only (s : State) (c slot code dcause : Nat) (w1 w2 : W64) : NoticeOnly s (s.notify c slot code dcause w1 w2) := by
  have hh (ws : List W64) : NoticeOnly s (s.holdNotice c slot code ws) := by
    refine ⟨rfl, fun d => ?_⟩
    rw [State.holdNotice, State.core_setCore]
    split
    · next h => subst h; rfl
    · rfl
  unfold State.notify State.notice
  dsimp only
  split
  · exact (hh _).trans ⟨rfl, fun _ => rfl⟩
  · exact hh _
theorem State.answered_only (s : State) (ws : List (Nat × Nat)) : NoticeOnly s (s.answered ws) := by
  unfold State.answered
  induction ws generalizing s with
  | nil => exact .refl s
  | cons w ws ih =>
    refine NoticeOnly.trans ?_ (ih _)
    dsimp only
    split
    · exact .refl s
    · exact State.notify_only ..
theorem NoticeOnly.gangsKept {s t : State} (h : NoticeOnly s t) : GangsKept s t :=
  .of_core (fun c => by rw [h.2]) (fun c => by rw [h.2])

/-! #### The record and its ring -/

theorem bytesLE_append {a n : Nat} (h : a < 256 ^ n) (m b : Nat) : bytesLE (n + m) (a + 256 ^ n * b) = bytesLE n a ++ bytesLE m b := by
  induction n generalizing a with
  | zero =>
    obtain rfl : a = 0 := by simpa using h
    simp [bytesLE]
  | succ n ih =>
    have hd : (a + 256 ^ (n + 1) * b) / 256 = a / 256 + 256 ^ n * b := by
      rw [pow_succ', mul_assoc, Nat.add_mul_div_left _ _ (by norm_num)]
    have hm : BitVec.ofNat 8 (a + 256 ^ (n + 1) * b) = BitVec.ofNat 8 a := by
      rw [pow_succ', mul_assoc]
      exact BitVec.eq_of_toNat_eq (by simp only [BitVec.toNat_ofNat]; omega)
    rw [show n + 1 + m = (n + m) + 1 by omega, bytesLE, bytesLE, hd, hm, ih (by rw [pow_succ'] at h; omega)]
    rfl
/-- A number that leaves its high bytes 0. -/
theorem bytesLE_zeros {a n : Nat} (h : a < 256 ^ n) (m : Nat) : bytesLE (n + m) a = bytesLE n a ++ bytesLE m 0 := by
  simpa using bytesLE_append h m 0
/-- Table 1-17 field by field. -/
theorem FaultRec.bytes_fields {r : FaultRec} (hs : r.seq < 2 ^ 32) (hx : r.ctx < 4096) (hc : r.cause < 256) (hk : r.core < 2 ^ 16) :
    bytesLE 4 r.seq ++ bytesLE 2 (r.ctx + (if r.cause = 0x16 then 2 ^ 15 else 0)) ++ bytesLE 1 r.cause ++ bytesLE 1 r.access ++ bytesLE 8 r.ia ++
      bytesLE 8 r.gpa ++ bytesLE 2 r.core ++ bytesLE 6 0 ++ bytesLE 8 r.time ++ bytesLE 24 0 = r.bytes := by
  have hx' : r.ctx + (if r.cause = 0x16 then 2 ^ 15 else 0) < 256 ^ 2 := by split <;> omega
  have h1 : bytesLE 8 (r.seq + 2 ^ 32 * (r.ctx + if r.cause = 0x16 then 2 ^ 15 else 0) + 2 ^ 48 * r.cause + 2 ^ 56 * r.access) =
      bytesLE 4 r.seq ++ (bytesLE 2 (r.ctx + (if r.cause = 0x16 then 2 ^ 15 else 0)) ++ (bytesLE 1 r.cause ++ bytesLE 1 r.access)) := by
    rw [← bytesLE_append (by omega), ← bytesLE_append hx', ← bytesLE_append (by omega)]
    congr 1
    omega
  have h2 : bytesLE 8 r.core = bytesLE 2 r.core ++ bytesLE 6 0 := bytesLE_zeros (by omega) 6
  rw [FaultRec.bytes, h1, h2]
  simp only [List.append_assoc]
theorem FaultRec.bytes_length (r : FaultRec) : r.bytes.length = 64 := by simp [FaultRec.bytes, bytesLE_length]

/-- R43, R428: TAIL advances, and the record is written. -/
def State.tailPast (s : State) (ring fri : Nat) (r : FaultRec) : State :=
  { s.setDreg (0x108 + 16 * ring) (BitVec.ofNat 64 ((fri / 2 ^ 32 + 1) % 2 ^ 32 * 2 ^ 32 + fri % 2 ^ 32)) with
    recs := s.recs.map (fun x => if x = r then { x with written := true } else x) }

theorem State.tailPast_mem (s : State) (ring fri : Nat) (r : FaultRec) : (s.tailPast ring fri r).mem = s.mem := rfl
theorem State.tailPast_irqs (s : State) (ring fri : Nat) (r : FaultRec) : (s.tailPast ring fri r).irqs = s.irqs := rfl
theorem State.tailPast_kept (s : State) (ring fri : Nat) (r : FaultRec) : GangsKept s (s.tailPast ring fri r) := .of_cores rfl
theorem State.tailPast_fri (s : State) (ring fri : Nat) (r : FaultRec) :
    ((s.tailPast ring fri r).dreg (0x108 + 16 * ring)).toNat = (fri / 2 ^ 32 + 1) % 2 ^ 32 * 2 ^ 32 + fri % 2 ^ 32 := by
  have h : (s.tailPast ring fri r).dreg (0x108 + 16 * ring) = BitVec.ofNat 64 ((fri / 2 ^ 32 + 1) % 2 ^ 32 * 2 ^ 32 + fri % 2 ^ 32) :=
    s.dreg_setDreg ..
  rw [h, BitVec.toNat_ofNat]
  exact Nat.mod_eq_of_lt (by omega)
theorem State.tailPast_dreg (s : State) {ring o : Nat} (fri : Nat) (r : FaultRec) (h : o ≠ 0x108 + 16 * ring) :
    (s.tailPast ring fri r).dreg o = s.dreg o := s.dreg_setDreg_ne _ h
theorem State.tailPast_rec {s : State} {r : FaultRec} (h : r ∈ s.recs) (ring fri : Nat) : { r with written := true } ∈ (s.tailPast ring fri r).recs :=
  List.mem_map.mpr ⟨r, h, if_pos rfl⟩

theorem execFaultRecordWrite_records {s : State} {ring seq c : Nat} {r : FaultRec} (he : s.ev = .fault ring seq c)
    (hr : s.recs.find? (fun x => x.ring == ring && x.seq == seq) = some r) (hs : r.seq < 2 ^ 32) (hx : r.ctx < 4096) (hc : r.cause < 256)
    (hk : r.core < 2 ^ 16) :
    let frb := (s.dreg (0x100 + 16 * ring)).toNat
    let fri := (s.dreg (0x108 + 16 * ring)).toNat
    let a := bitsOf frb 55 12 * 4096 + 64 * (fri / 2 ^ 32 % 2 ^ (frb / 2 ^ 60 + 6))
    execFaultRecordWrite s = .next (((s.unitStore a r.bytes).tailPast ring fri r).irq ring) := by
  intro frb fri a
  unfold execFaultRecordWrite
  rw [he]
  dsimp only
  rw [hr]
  dsimp only
  rw [FaultRec.bytes_fields hs hx hc hk]
  dsimp only [a, frb, fri]
  generalize s.unitStore _ r.bytes = u
  rfl

theorem State.irq_dreg (s : State) (i o : Nat) : (s.irq i).dreg o = s.dreg o := State.dreg_of_dregs (by rw [State.irq_eq]) o
theorem State.irq_recs (s : State) (i : Nat) : (s.irq i).recs = s.recs := by rw [State.irq_eq]
theorem State.unitStore_recs (s : State) (a : Nat) (bs : List Byte) : (s.unitStore a bs).recs = s.recs := by rw [State.unitStore_home]

/-- R43, R428: the record lies in its place, TAIL past it, and the interrupt is sent. -/
theorem State.recorded_results {s : State} (hw : Mem.wf s.mem = true) {ring : Nat} (hring : ring < 16) {r : FaultRec} (hr : r ∈ s.recs) (a fri : Nat) :
    let t := ((s.unitStore a r.bytes).tailPast ring fri r).irq ring
    GangsKept s t ∧ KeptOutside s t a 64 ∧ t.rdBytes a 64 = r.bytes ∧
      (t.dreg (0x108 + 16 * ring)).toNat = (fri / 2 ^ 32 + 1) % 2 ^ 32 * 2 ^ 32 + fri % 2 ^ 32 ∧ t.irqs = (s.irq ring).irqs ∧
      { r with written := true } ∈ t.recs := by
  have hh := s.unitStore_home a r.bytes
  have hg := s.unitStore_kept a r.bytes
  have hm := s.unitStore_mem a r.bytes
  rw [← s.unitStore_recs a r.bytes] at hr
  generalize s.unitStore a r.bytes = u at hh hg hm hr ⊢
  intro t
  have hmem : t.mem = Mem.put s.mem a r.bytes := (State.irq_mem ..).trans ((State.tailPast_mem ..).trans hm)
  have hb := Mem.bytes_put hw a r.bytes (o := 0) (n := 64) r.bytes_length.ge
  rw [Nat.add_zero, List.drop_zero, List.take_of_length_le r.bytes_length.le] at hb
  have hout := KeptOutside.of_put hmem
  rw [r.bytes_length] at hout
  refine ⟨?_, hout, ?_, ?_, ?_, ?_⟩
  · exact hg.trans ((State.tailPast_kept ..).trans (State.irq_kept ..))
  · exact (congrArg (Mem.bytes · a 64) hmem).trans hb
  · rw [State.irq_dreg, State.tailPast_fri]
  · exact State.irq_irqs_congr ((State.tailPast_dreg _ _ _ (by omega)).trans (hh.dreg _)) ((State.tailPast_irqs ..).trans hh.irqs)
  · rw [State.irq_recs]
    exact State.tailPast_rec hr ..

/-! #### The operand log -/

theorem maskOf_getLsbD (ls : List Nat) {n : Nat} (hn : n < 32) : (maskOf ls).getLsbD n = ls.contains n := by
  have h (m : BitVec 32) : (ls.foldl (fun m l => m ||| (1#32 <<< l)) m).getLsbD n = (m.getLsbD n || ls.contains n) := by
    induction ls generalizing m with
    | nil => simp
    | cons l ls ih =>
      rw [List.foldl_cons, ih, BitVec.getLsbD_or, List.contains_cons, Bool.or_assoc]
      congr 2
      simp only [BitVec.getLsbD_shiftLeft, BitVec.getLsbD_one, hn]
      grind
  simpa [maskOf] using h 0
theorem freeSlot_none {α : Type} {n : Nat} {m : Map α} (h : ∀ e, e < n → (mget? m e).isSome = true) : freeSlot n m = none :=
  List.find?_eq_none.mpr fun e he => by
    simpa [Option.isSome_iff_ne_none] using h e (List.mem_range.mp he)
theorem freeSlot_lowest {α : Type} {n e : Nat} {m : Map α} (he : e < n) (hn : mget? m e = none) (h : ∀ j, j < e → (mget? m j).isSome = true) :
    freeSlot n m = some e := by
  refine List.find?_range_eq_some.mpr ⟨by simp [hn], List.mem_range.mpr he, fun j hj => ?_⟩
  simpa [Option.isSome_iff_ne_none] using h j hj


section
variable {s : State} {id i : Nat} {r : Req} {l : LaneAcc} (hp : PieceAt s id i r l) (hlog : ∀ p ∈ (s.core r.core).log, p.2.req ≠ id)

/-- The pieces that one record has faulted. -/
def LaneAcc.faultedAs (m l : LaneAcc) : Bool := m.stage == 3 && m.frec == l.frec

include hlog
theorem replaying_none : (((s.core r.core).log.find? (fun e => e.2.req == id && e.2.state == 3 &&
    (e.2.mask &&& maskOf ((r.lanes.filter (·.faultedAs l)).map (·.lane))) == maskOf ((r.lanes.filter (·.faultedAs l)).map (·.lane)))).map Prod.fst)
    = none := by
  rw [Option.map_eq_none_iff, List.find?_eq_none]
  intro p hp
  simp [hlog p hp]

include hp
/-- R45: a full log takes nothing. -/
theorem execFaultReturnToLog_full (hf : freeSlot 256 (s.core r.core).log = none) : execFaultReturnToLog s = .next s := by
  obtain ⟨he, hr, hl⟩ := hp
  have hr' : s.req id = some r := hr
  unfold execFaultReturnToLog
  rw [he]
  dsimp only
  rw [hr']
  dsimp only
  rw [hl]
  dsimp only
  have h := replaying_none (l := l) hlog
  unfold LaneAcc.faultedAs at h
  rw [h, hf]

end

/-- The log entry of the pieces that one record has faulted. -/
def Req.logEntry (r : Req) (id : Nat) (l : LaneAcc) : LogEntry :=
  { state := 1, slot := r.slot, flag := r.flag, req := id, mask := maskOf ((r.lanes.filter (·.faultedAs l)).map (·.lane)), cause := l.cause,
    record := l.frec }
/-- The request whose faulted pieces stand in the log. -/
def Req.logged (r : Req) (l : LaneAcc) : Req :=
  { r with lanes := r.lanes.map (fun m => if m.faultedAs l then { m with stage := 7 } else m) }
/-- R45: the entry and the request. -/
def State.logged (s : State) (id : Nat) (r : Req) (l : LaneAcc) (e : Nat) : State :=
  (s.setCore r.core { s.core r.core with log := mset (s.core r.core).log e (r.logEntry id l) }).setReq id (r.logged l)

theorem execFaultReturnToLog_logs {s : State} {id i e : Nat} {r : Req} {l : LaneAcc} (hp : PieceAt s id i r l)
    (hlog : ∀ p ∈ (s.core r.core).log, p.2.req ≠ id) (hf : freeSlot 256 (s.core r.core).log = some e) : execFaultReturnToLog s =
      .next ((if inLoadQ r.opc then (s.logged id r l e).againAfter id else s.logged id r l e).pmcAdd r.core (s.gang r.core r.slot).cslot 12 1) := by
  obtain ⟨he, hr, hl⟩ := hp
  have hr' : s.req id = some r := hr
  unfold execFaultReturnToLog
  rw [he]
  dsimp only
  rw [hr']
  dsimp only
  rw [hl]
  dsimp only
  have h := replaying_none (l := l) hlog
  unfold LaneAcc.faultedAs at h
  rw [h, hf]
  rfl

theorem LogEntry.mask_getLsbD (r : Req) (id : Nat) (l : LaneAcc) {n : Nat} (hn : n < 32) :
    (r.logEntry id l).mask.getLsbD n = r.lanes.any (fun m => m.lane == n && m.stage == 3 && m.frec == l.frec) := by
  rw [Req.logEntry, maskOf_getLsbD _ hn, Bool.eq_iff_iff]
  simp only [List.contains_iff_mem, List.mem_map, List.mem_filter, List.any_eq_true, LaneAcc.faultedAs, Bool.and_eq_true, beq_iff_eq]
  constructor
  · rintro ⟨m, ⟨hm, h3, hf⟩, rfl⟩
    exact ⟨m, hm, ⟨rfl, h3⟩, hf⟩
  · rintro ⟨m, hm, ⟨rfl, h3⟩, hf⟩
    exact ⟨m, ⟨hm, h3, hf⟩, rfl⟩
theorem State.againAfter_req (s : State) (id j : Nat) : mget? (s.againAfter id).reqs j = (mget? s.reqs j).map fun q =>
    if q.writes = false ∧ id ∈ q.deps then { q with lanes := q.lanes.map (fun m => if m.early = true then m.again else m) } else q := by
  have hf : (fun q : Nat × Req => if q.2.writes || !q.2.deps.contains id then q
      else (q.1, { q.2 with lanes := q.2.lanes.map (fun l => if l.early then l.again else l) })) =
      fun q => (q.1, if q.2.writes = false ∧ id ∈ q.2.deps then { q.2 with lanes := q.2.lanes.map (fun m => if m.early = true then m.again else m) }
        else q.2) := by
    funext q
    by_cases h : q.2.writes = false ∧ id ∈ q.2.deps
    · rw [if_pos h, if_neg (by simp [h])]
    · rw [if_neg h, if_pos (by simpa [Classical.or_iff_not_imp_left] using h)]
  unfold State.againAfter
  rw [hf]
  exact mget?_map (fun q : Req => if q.writes = false ∧ id ∈ q.deps then
    { q with lanes := q.lanes.map (fun m => if m.early = true then m.again else m) } else q) s.reqs j

theorem State.logged_gangs (s : State) (id : Nat) (r : Req) (l : LaneAcc) (e : Nat) : GangsKept s (s.logged id r l e) :=
  (s.setCore_calm r.core (k := { s.core r.core with log := mset (s.core r.core).log e (r.logEntry id l) }) rfl rfl).gangs.trans (.of_cores rfl)
theorem State.logged_entry (s : State) (id : Nat) (r : Req) (l : LaneAcc) (e : Nat) :
    mget? ((s.logged id r l e).core r.core).log e = some (r.logEntry id l) := by
  have h : (s.logged id r l e).core r.core = { s.core r.core with log := mset (s.core r.core).log e (r.logEntry id l) } := s.core_setCore_self ..
  rw [h]
  exact mget?_mset_self ..
theorem Req.logged_eq (r : Req) (l : LaneAcc) :
    r.logged l = { r with lanes := r.lanes.map (fun m => if m.stage = 3 ∧ m.frec = l.frec then { m with stage := 7 } else m) } := by
  simp [Req.logged, LaneAcc.faultedAs]

/-! #### Pieces made again -/

theorem foldl_unchanged {α β : Type} {f : β → α → β} {b : β} {l : List α} (h : ∀ a ∈ l, f b a = b) : l.foldl f b = b := by
  induction l with
  | nil => rfl
  | cons a l ih => rw [List.foldl_cons, h a List.mem_cons_self, ih fun x hx => h x (List.mem_cons_of_mem _ hx)]
/-- No lane of a plain request decodes again. -/
theorem Req.again_plain {r : Req} (h : r.plain) (f : LaneAcc → Bool) :
    r.again f = { r with lanes := r.lanes.map (fun m => if f m = true then m.fresh else m) } := by
  refine foldl_unchanged fun m hm => if_neg fun hc => ?_
  exact hc.2.1 (h hc.1 m (List.mem_filter.mp hm).1)

theorem execReplay_replays {s : State} {c e : Nat} {x : LogEntry} {r : Req} (he : s.ev = .entry c e) (hx : mget? (s.core c).log e = some x)
    (h2 : x.state = 2) (hh : x.held = false) (hr : mget? s.reqs x.req = some r) : execReplay s =
      .next ((s.setCore c { s.core c with log := mset (s.core c).log e { x with state := 3, cause := 0 } }).setReq x.req
        (r.again (fun m => m.stage == 7 && x.part m))) := by
  have hr' : s.req x.req = some r := hr
  unfold execReplay
  rw [he]
  dsimp only
  rw [hx]
  dsimp only
  rw [if_neg (by simp [h2, hh]), hr']

/-! #### Answers -/

/-- A core whose log entries and skidder operations bound to a record are to be made again (R44). -/
def Core.retried (b : Option (Nat × Nat)) (k : Core) : Core :=
  { k with
    log := k.log.map (fun e => if e.2.state = 1 ∧ e.2.record = b then (e.1, { e.2 with state := 2 }) else e)
    skid := k.skid.map (fun e => if e.2.state = 3 ∧ e.2.record = b then (e.1, { e.2 with state := 1, cause := 0, record := none }) else e)
    engstop := if k.engstop.record = b then { k.engstop with record := none } else k.engstop }
/-- A core whose log entries bound to a record are gone, and whose skidder operations fail (R44). -/
def Core.failed (b : Option (Nat × Nat)) (c : Nat) (k : Core) : Core :=
  { k with
    log := k.log.filter (fun e => !(e.2.state == 1 && e.2.record == b))
    skid := k.skid.map (fun e => if e.2.state = 3 ∧ e.2.record = b then
      (e.1, { e.2 with state := 1, cause := 0, record := none, err := if e.2.err = 0 then c else e.2.err, failed := true }) else e)
    engstop := if k.engstop.record = b then { k.engstop with record := none, failed := c } else k.engstop }

theorem State.core_map {s t : State} {f : Core → Core} (h0 : f {} = {}) (h : t.cores = s.cores.map (fun x => (x.1, f x.2))) (c : Nat) :
    t.core c = f (s.core c) := by
  rw [State.core, h]
  exact mget_map {} h0 s.cores c

/-- R44, RETRY: everything bound to a record is to be made again. -/
def State.retried (s : State) (b : Option (Nat × Nat)) : State :=
  { s with
    cores := s.cores.map (fun x => (x.1, x.2.retried b))
    reqs := s.reqs.map (fun q => (q.1, q.2.again (fun l => l.stage == 3 && l.frec == b)))
    join := s.join.map (fun u => (u.1, { u.2 with queues := u.2.queues.map (fun q =>
      if q.2.faulted = b then (q.1, { q.2 with faulted := none }) else q) }))
    launches := s.launches.map (fun l => if l.faulted = b then { l with faulted := none } else l) }

theorem fresolveOf_reg {v : W64} {act : Nat} (h : v.toNat / 2 ^ 62 = act) :
    fresolveOf (.reg 0x30 v 8) act = some (bitsOf v.toNat 35 32, v.toNat % 2 ^ 32, bitsOf v.toNat 55 48) := by
  unfold fresolveOf
  exact if_pos ⟨rfl, rfl, h⟩

theorem execFresolveRetry_retries {s : State} {v : W64} {r : FaultRec} (he : s.ev = .reg 0x30 v 8) (h0 : v.toNat / 2 ^ 62 = 0)
    (hr : s.openRec (bitsOf v.toNat 35 32) (v.toNat % 2 ^ 32) = some r) : execFresolveRetry s =
      .next (((s.retried (some (bitsOf v.toNat 35 32, v.toNat % 2 ^ 32))).closeRec r 0 0).answered
        (s.awaiting (bitsOf v.toNat 35 32) (v.toNat % 2 ^ 32))) := by
  have hf : fresolveOf s.ev 0 = some (bitsOf v.toNat 35 32, v.toNat % 2 ^ 32, bitsOf v.toNat 55 48) := he ▸ fresolveOf_reg h0
  unfold execFresolveRetry
  rw [hf]
  dsimp only
  rw [hr]
  rfl

theorem State.openRec_mem {s : State} {ring seq : Nat} {r : FaultRec} (h : s.openRec ring seq = some r) : r ∈ s.recs := by
  unfold State.openRec at h
  split at h
  · cases h
  · exact List.mem_of_find?_eq_some h
theorem State.closeRec_answered {s : State} {r : FaultRec} (h : r ∈ s.recs) (act cause : Nat) :
    { r with answer := some (act, cause) } ∈ (s.closeRec r act cause).recs := List.mem_map.mpr ⟨r, h, if_pos rfl⟩

theorem State.retried_core (s : State) (b : Nat × Nat) (c : Nat) : (s.retried (some b)).core c = (s.core c).retried (some b) :=
  State.core_map (by simp [Core.retried]) rfl c
theorem State.retried_kept (s : State) (b : Nat × Nat) : GangsKept s (s.retried (some b)) :=
  .of_core (fun c => by rw [State.retried_core]; rfl) (fun c => by rw [State.retried_core]; rfl)
theorem Core.retried_log (k : Core) (b : Option (Nat × Nat)) (e : Nat) : mget? (k.retried b).log e = (mget? k.log e).map fun x =>
    if x.state = 1 ∧ x.record = b then { x with state := 2 } else x :=
  mget?_map_ite (fun x : LogEntry => x.state = 1 ∧ x.record = b) (fun x => { x with state := 2 }) k.log e
theorem Core.retried_skid (k : Core) (b : Option (Nat × Nat)) (e : Nat) : mget? (k.retried b).skid e = (mget? k.skid e).map fun x =>
    if x.state = 3 ∧ x.record = b then { x with state := 1, cause := 0, record := none } else x :=
  mget?_map_ite (fun x : Skid => x.state = 3 ∧ x.record = b) (fun x => { x with state := 1, cause := 0, record := none }) k.skid e
theorem State.retried_req (s : State) (b : Option (Nat × Nat)) (id : Nat) :
    mget? (s.retried b).reqs id = (mget? s.reqs id).map fun q => q.again (fun l => l.stage == 3 && l.frec == b) :=
  mget?_map (fun q : Req => q.again (fun l => l.stage == 3 && l.frec == b)) s.reqs id
theorem State.retried_launches (s : State) (b : Nat × Nat) : ∀ x ∈ (s.retried (some b)).launches, x.faulted ≠ some b := by
  intro x hx
  obtain ⟨y, -, rfl⟩ := List.mem_map.mp hx
  split
  · nofun
  · assumption

/-! #### FAIL -/

/-- The lanes of the log entries bound to a record. -/
def State.boundLanes (s : State) (b : Option (Nat × Nat)) : List (Nat × BitVec 32) :=
  s.cores.flatMap (fun x => (x.2.log.filter (fun e => e.2.state == 1 && e.2.record == b)).map (fun e => (e.2.req, e.2.mask)))
/-- The pops and pushes that wait for a queue bound to a record. -/
def State.boundWaits (s : State) (b : Option (Nat × Nat)) : List Nat :=
  s.join.flatMap (fun u => u.2.queues.flatMap (fun q => if q.2.faulted = b then q.2.pops ++ q.2.spills.map (fun p => p.2.2) else []))
/-- The pieces of a request that a record's failure ends. -/
abbrev State.endedBy (s : State) (b : Option (Nat × Nat)) (id : Nat) (l : LaneAcc) : Prop :=
  (l.stage = 3 ∧ l.frec = b) ∨ (l.stage = 7 ∧ l.frec = b ∧ (s.boundLanes b).any (fun d => d.1 == id && d.2.getLsbD l.lane)) ∨
    (l.stage = 6 ∧ (s.boundWaits b).contains id)

/-- R44, FAIL: everything bound to a record ends in error. -/
def State.failedBound (s : State) (b : Option (Nat × Nat)) (c : Nat) (r : FaultRec) : State :=
  { s with
    cores := s.cores.map (fun x => (x.1, x.2.failed b c))
    reqs := s.reqs.map (fun q => (q.1, { q.2 with lanes := q.2.lanes.map (fun l =>
      if s.endedBy b q.1 l then { l with stage := 4, cause := c, frec := none } else l) }))
    join := s.join.map (fun u => (u.1, { u.2 with queues := u.2.queues.map (fun q =>
      if q.2.faulted = b then (q.1, q.2.fail c (r.access == 0)) else q) }))
    joinSeen := (((s.join.filter (fun u => u.2.queues.any (fun q => q.2.faulted == b))).map Prod.fst).foldl State.seeUnit s).joinSeen
    launches := s.launches.map (fun l => if l.faulted = b then { l with faulted := none, failed := true } else l) }

/-- The end of the event at each of some join units that is not busy. -/
def State.endEvents (s : State) (us : List Nat) : State := us.foldl (fun t u => if (t.unit u).busy then t else t.endEvent u) s

theorem execFresolveFail_fails {s : State} {v : W64} {r : FaultRec} (he : s.ev = .reg 0x30 v 8) (h1 : v.toNat / 2 ^ 62 = 1)
    (hr : s.openRec (bitsOf v.toNat 35 32) (v.toNat % 2 ^ 32) = some r) :
    let b := some (bitsOf v.toNat 35 32, v.toNat % 2 ^ 32)
    let c := if bitsOf v.toNat 55 48 = 0 then r.cause else bitsOf v.toNat 55 48
    ∃ us, execFresolveFail s = .next ((((s.failedBound b c r).closeRec r 1 c).answered
        (s.awaiting (bitsOf v.toNat 35 32) (v.toNat % 2 ^ 32))).endEvents us) := by
  have hf : fresolveOf s.ev 1 = some (bitsOf v.toNat 35 32, v.toNat % 2 ^ 32, bitsOf v.toNat 55 48) := he ▸ fresolveOf_reg h1
  intro b c
  unfold execFresolveFail
  rw [hf]
  dsimp only
  rw [hr]
  exact ⟨_, rfl⟩

/-- Every request is still there, and its pieces but those that waited for an answer are as before. -/
def PiecesStay (s t : State) : Prop :=
  ∀ id q, mget? s.reqs id = some q → ∃ q', mget? t.reqs id = some q' ∧ ∀ (i : Nat) (l : LaneAcc), q.lanes[i]? = some l → l.stage ≠ 6 →
    q'.lanes[i]? = some l

theorem PiecesStay.of_eq {s t : State} (h : t.reqs = s.reqs) : PiecesStay s t := fun _ q hq => ⟨q, h ▸ hq, fun _ _ hl _ => hl⟩
theorem PiecesStay.trans {s t u : State} (h : PiecesStay s t) (k : PiecesStay t u) : PiecesStay s u := by
  intro id q hq
  obtain ⟨q', hq', h'⟩ := h id q hq
  obtain ⟨q'', hq'', k'⟩ := k id q' hq'
  exact ⟨q'', hq'', fun i l hl h6 => k' i l (h' i l hl h6) h6⟩
theorem PiecesStay.foldl {α : Type} {f : State → α → State} (h : ∀ s a, PiecesStay s (f s a)) (l : List α) (s : State) : PiecesStay s (l.foldl f s) := by
  induction l generalizing s with
  | nil => exact .of_eq rfl
  | cons a r ih => exact (h s a).trans (ih _)
theorem PiecesStay.setReq {s : State} {id : Nat} {r r' : Req} (hr : mget? s.reqs id = some r)
    (h : ∀ (i : Nat) (l : LaneAcc), r.lanes[i]? = some l → l.stage ≠ 6 → r'.lanes[i]? = some l) : PiecesStay s (s.setReq id r') := by
  intro j q hq
  by_cases hj : j = id
  · subst hj
    obtain rfl : r = q := Option.some.inj (hr.symm.trans hq)
    exact ⟨r', mget?_mset_self .., h⟩
  · exact ⟨q, (mget?_mset_ne _ _ hj).trans hq, fun _ _ hl _ => hl⟩
theorem State.answer_stay (s : State) (id i cause out : Nat) : PiecesStay s (s.answer id i cause out) := by
  unfold State.answer
  split
  · exact .of_eq rfl
  next r hr =>
  split
  · exact .of_eq rfl
  next l hl =>
  split
  · exact .of_eq rfl
  next h6 =>
  refine .setReq hr fun j m hm hm6 => ?_
  have hij : i ≠ j := fun h => hm6 (by rw [← h, hl] at hm; obtain rfl := Option.some.inj hm; exact not_not.mp h6)
  exact (List.getElem?_set_ne hij).trans hm
theorem State.pushQueue_stay (s : State) (u k : Nat) (r : List W64) (id : Nat) : PiecesStay s (s.pushQueue u k r id).1 := by
  unfold State.pushQueue
  dsimp only
  split
  · exact .of_eq rfl
  split
  · exact (PiecesStay.of_eq (s := s) (t := s.setUnit u _) rfl).trans (State.answer_stay _ _ _ _ _)
  split
  · exact .of_eq rfl
  · exact .of_eq rfl
theorem State.wakeNotices_stay (s : State) (u k : Nat) : PiecesStay s (s.wakeNotices u k) := by
  refine .foldl (fun t c => ?_) _ s
  split
  · exact .of_eq rfl
  · exact .of_eq rfl
theorem State.givePop_stay (s : State) (id : Nat) (r : List W64) : PiecesStay s (s.givePop id r) := by
  unfold State.givePop
  split
  · exact .of_eq rfl
  next q hq => exact (PiecesStay.setReq (r' := { q with words := r }) hq fun _ _ hl _ => hl).trans (State.answer_stay _ _ _ _ _)
theorem State.serveQueue_stay (s : State) (u k : Nat) : PiecesStay s (s.serveQueue u k) := by
  unfold State.serveQueue
  dsimp only
  split
  · exact (PiecesStay.of_eq (s := s) (t := s.setUnit u _) rfl).trans ((State.givePop_stay _ _ _).trans (State.wakeNotices_stay _ _ _))
  · exact .of_eq rfl
theorem State.fire_stay (s : State) (u i : Nat) : PiecesStay s (s.fire u i) := by
  unfold State.fire
  extract_lets x p ports pay x1 x2 s1 e
  have h1 : PiecesStay s s1 := .of_eq rfl
  split
  · split
    · exact h1.trans (State.pushQueue_stay _ _ _ _ _)
    · exact h1
  · exact h1.trans (.of_eq rfl)
theorem State.fireOn_stay (n : Nat) (s : State) (u : Nat) : PiecesStay s (State.fireOn n s u) := by
  induction n generalizing s with
  | zero => exact .of_eq rfl
  | succ n ih =>
    unfold State.fireOn
    split
    · exact (s.fire_stay u _).trans (.of_eq rfl)
    · split
      · exact .of_eq rfl
      · exact (s.serveQueue_stay u _).trans (ih _)
theorem State.endEvents_stay (s : State) (us : List Nat) : PiecesStay s (s.endEvents us) := by
  refine .foldl (fun t u => ?_) us s
  split
  · exact .of_eq rfl
  · exact t.fireOn_stay _ u
theorem State.endEvents_joinOnly (s : State) (us : List Nat) : JoinOnly s (s.endEvents us) :=
  .foldl (fun t u => .ite (.refl t) (t.fireOn_joinOnly _ u)) us s

theorem State.failedBound_core (s : State) (b : Nat × Nat) (c : Nat) (r : FaultRec) (d : Nat) :
    (s.failedBound (some b) c r).core d = (s.core d).failed (some b) c :=
  State.core_map (by simp [Core.failed]) rfl d
theorem State.failedBound_kept (s : State) (b : Nat × Nat) (c : Nat) (r : FaultRec) : GangsKept s (s.failedBound (some b) c r) :=
  .of_core (fun d => by rw [State.failedBound_core]; rfl) (fun d => by rw [State.failedBound_core]; rfl)
theorem State.failedBound_launches (s : State) (b : Nat × Nat) (c : Nat) (r : FaultRec) :
    ∀ x ∈ (s.failedBound (some b) c r).launches, x.faulted ≠ some b := by
  intro x hx
  obtain ⟨y, -, rfl⟩ := List.mem_map.mp hx
  split
  · nofun
  · assumption
theorem Core.failed_log (k : Core) (b : Option (Nat × Nat)) (c : Nat) : ∀ p ∈ (k.failed b c).log, ¬(p.2.state = 1 ∧ p.2.record = b) := by
  intro p hp h
  have := (List.mem_filter.mp hp).2
  simp [h] at this
theorem Core.failed_skid (k : Core) (b : Option (Nat × Nat)) (c e : Nat) : mget? (k.failed b c).skid e = (mget? k.skid e).map fun x =>
    if x.state = 3 ∧ x.record = b then
      { x with state := 1, cause := 0, record := none, err := if x.err = 0 then c else x.err, failed := true } else x :=
  mget?_map_ite (fun x : Skid => x.state = 3 ∧ x.record = b)
    (fun x => { x with state := 1, cause := 0, record := none, err := if x.err = 0 then c else x.err, failed := true }) k.skid e
/-- A log entry bound to a record stands for its lanes. -/
theorem State.boundLanes_any {s : State} {b : Option (Nat × Nat)} {k id lane : Nat} {p : Nat × LogEntry} (hp : p ∈ (s.core k).log)
    (h1 : p.2.state = 1) (hb : p.2.record = b) (hi : p.2.req = id) (hm : p.2.mask.getLsbD lane = true) :
    (s.boundLanes b).any (fun d => d.1 == id && d.2.getLsbD lane) = true := by
  obtain ⟨x, hx, hxk⟩ : ∃ x ∈ s.cores, x.2 = s.core k := by
    cases hc : mget? s.cores k with
    | none => simp [State.core, mget, hc] at hp
    | some y => exact ⟨_, mget?_mem hc, by simp [State.core, mget, hc]⟩
  refine List.any_eq_true.mpr ⟨(p.2.req, p.2.mask), List.mem_flatMap.mpr ⟨x, hx, List.mem_map.mpr ⟨p, ?_, rfl⟩⟩, by simp [hi, hm]⟩
  exact List.mem_filter.mpr ⟨hxk ▸ hp, by simp [h1, hb]⟩
theorem State.failedBound_req (s : State) (b : Option (Nat × Nat)) (c : Nat) (r : FaultRec) {id : Nat} {q : Req} (hq : mget? s.reqs id = some q) :
    mget? (s.failedBound b c r).reqs id = some { q with lanes := q.lanes.map (fun l =>
      if s.endedBy b id l then { l with stage := 4, cause := c, frec := none } else l) } := by
  refine (mget?_mapKey (fun id (q : Req) => { q with lanes := q.lanes.map (fun l =>
    if s.endedBy b id l then { l with stage := 4, cause := c, frec := none } else l) }) s.reqs id).trans ?_
  rw [hq]
  rfl

theorem execFaultRingHeadWrite_writes {s : State} {ring : Nat} {val : W64} (he : s.ev = .reg (0x108 + 16 * ring) val 8) :
    execFaultRingHeadWrite s = .next (s.setDreg (0x108 + 16 * ring)
      (BitVec.ofNat 64 ((s.dreg (0x108 + 16 * ring)).toNat / 2 ^ 32 * 2 ^ 32 + val.toNat % 2 ^ 32))) := by
  unfold execFaultRingHeadWrite
  rw [he]
  exact if_pos rfl

theorem State.pmcAdd_log (s : State) (c k n d c' : Nat) : ((s.pmcAdd c k n d).core c').log = (s.core c').log := by
  unfold State.pmcAdd
  split
  · rfl
  · rw [State.setCrew, State.core_setCore]
    split
    · next h => rw [h]
    · rfl

/-- R42, R45, R47: what the log takes, the request keeps, and the later loads lose. -/
theorem State.logged_results {s : State} {id i e : Nat} {r : Req} {l : LaneAcc} (hp : PieceAt s id i r l) (hd : id ∉ r.deps)
    (hlog : ∀ p ∈ (s.core r.core).log, p.2.req ≠ id) (hf : freeSlot 256 (s.core r.core).log = some e) :
    ∃ t x, exec .faultReturnToLog s = .next t ∧ MemKept s t ∧ (∀ c g, t.gang? c g = s.gang? c g) ∧
      mget? (t.core r.core).log e = some x ∧ x.state = 1 ∧ x.slot = r.slot ∧ x.flag = r.flag ∧ x.req = id ∧ x.cause = l.cause ∧
      x.record = l.frec ∧
      (∀ n, n < 32 → x.mask.getLsbD n = r.lanes.any (fun m => m.lane == n && m.stage == 3 && m.frec == l.frec)) ∧
      mget? t.reqs id = some { r with lanes := r.lanes.map (fun m =>
        if m.stage = 3 ∧ m.frec = l.frec then { m with stage := 7 } else m) } ∧
      (∀ j q, j ≠ id → mget? s.reqs j = some q → mget? t.reqs j = some (if inLoadQ r.opc = true ∧ q.writes = false ∧ id ∈ q.deps then
        { q with lanes := q.lanes.map (fun m => if m.early = true then m.again else m) } else q)) ∧
      ∀ n, mget 0 (t.crew r.core (s.gang r.core r.slot).cslot).pmc n =
        mget 0 (s.crew r.core (s.gang r.core r.slot).cslot).pmc n + if n = 12 then 1 else 0 := by
  let u := if inLoadQ r.opc then (s.logged id r l e).againAfter id else s.logged id r l e
  have hx : execFaultReturnToLog s = .next (u.pmcAdd r.core (s.gang r.core r.slot).cslot 12 1) := execFaultReturnToLog_logs hp hlog hf
  have hcores : u.cores = (s.logged id r l e).cores := by unfold u; split <;> rfl
  have hmem : u.mem = s.mem := by unfold u; split <;> rfl
  have hg : GangsKept s u := (s.logged_gangs id r l e).trans (.of_cores hcores)
  have hself : mget? (s.logged id r l e).reqs id = some (r.logged l) := mget?_mset_self ..
  have hother (j : Nat) (hj : j ≠ id) : mget? (s.logged id r l e).reqs j = mget? s.reqs j := mget?_mset_ne _ _ hj
  refine ⟨_, _, hx, .of_eq ((State.pmcAdd_mem ..).trans hmem), fun c g => (State.pmcAdd_gang? ..).trans (hg.1 c g), ?_, rfl, rfl, rfl, rfl, rfl, rfl,
    fun n hn => LogEntry.mask_getLsbD r id l hn, ?_, fun j q hj hq => ?_, fun n => ?_⟩
  · rw [State.pmcAdd_log, show u.core r.core = (s.logged id r l e).core r.core by rw [State.core, State.core, hcores]]
    exact s.logged_entry id r l e
  · rw [State.pmcAdd_eq, ← Req.logged_eq]
    unfold u
    split
    · rw [State.againAfter_req, hself, Option.map_some, if_neg (by exact fun h => hd h.2)]
    · exact hself
  · rw [State.pmcAdd_eq]
    unfold u
    by_cases hq' : inLoadQ r.opc = true
    · rw [if_pos hq', State.againAfter_req, hother j hj, hq]
      simp only [hq', true_and, Option.map_some]
    · rw [if_neg hq', hother j hj, hq]
      exact congrArg some (if_neg fun h => hq' h.1).symm
  · by_cases hn : n = 12
    · subst hn
      rw [State.pmcAdd_same, hg.2]
      rfl
    · rw [State.pmcAdd_other _ _ _ _ hn, hg.2, if_neg hn]
      exact (BitVec.add_zero _).symm

theorem NoticeOnly.kept {s t : State} (h : NoticeOnly s t) : t.mem = s.mem ∧ t.reqs = s.reqs ∧ t.launches = s.launches ∧ t.recs = s.recs ∧
    ∀ c, (t.core c).log = (s.core c).log ∧ (t.core c).skid = (s.core c).skid := by
  obtain ⟨h1, h2⟩ := h
  refine ⟨?_, ?_, ?_, ?_, fun c => ?_⟩
  · rw [h1]
  · rw [h1]
  · rw [h1]
  · rw [h1]
  · rw [h2]
    exact ⟨rfl, rfl⟩

theorem JoinOnly.kept {s t : State} (h : JoinOnly s t) : t.mem = s.mem ∧ t.cores = s.cores ∧ t.launches = s.launches ∧ t.recs = s.recs := by
  rw [h]
  exact ⟨rfl, rfl, rfl, rfl⟩

/-- R44, RETRY. -/
theorem State.retried_results {s : State} {v : W64} {r : FaultRec} (he : s.ev = .reg 0x30 v 8) (h0 : v.toNat / 2 ^ 62 = 0)
    (hr : s.openRec (bitsOf v.toNat 35 32) (v.toNat % 2 ^ 32) = some r) :
    let b := (bitsOf v.toNat 35 32, v.toNat % 2 ^ 32)
    ∃ t, exec .fresolveRetry s = .next t ∧ MemKept s t ∧ GangsKept s t ∧
      (∀ c e x, mget? (s.core c).log e = some x → mget? (t.core c).log e =
        some (if x.state = 1 ∧ x.record = some b then { x with state := 2 } else x)) ∧
      (∀ c e x, mget? (s.core c).skid e = some x → x.state = 3 → x.record = some b →
        mget? (t.core c).skid e = some { x with state := 1, cause := 0, record := none }) ∧
      (∀ id q, mget? s.reqs id = some q → q.plain → mget? t.reqs id =
        some { q with lanes := q.lanes.map (fun l => if l.stage = 3 ∧ l.frec = some b then l.fresh else l) }) ∧
      (∀ x ∈ t.launches, x.faulted ≠ some b) ∧ ∃ x ∈ t.recs, x = { r with answer := some (0, 0) } := by
  intro b
  let u := (s.retried (some b)).closeRec r 0 0
  have hn : NoticeOnly u (u.answered (s.awaiting b.1 b.2)) := u.answered_only _
  obtain ⟨hmem, hreqs, hlaunch, hrecs, hcore⟩ := hn.kept
  refine ⟨_, execFresolveRetry_retries he h0 hr, .of_eq hmem, (s.retried_kept b).trans (.trans (.of_cores rfl) hn.gangsKept),
    fun c e x hx => ?_, fun c e x hx h3 hb => ?_, fun id q hq hpl => ?_, ?_, _, ?_, rfl⟩
  · refine (congrArg (mget? · e) ((hcore c).1.trans (congrArg Core.log (s.retried_core b c)))).trans ?_
    rw [Core.retried_log, hx, Option.map_some]
  · refine (congrArg (mget? · e) ((hcore c).2.trans (congrArg Core.skid (s.retried_core b c)))).trans ?_
    rw [Core.retried_skid, hx, Option.map_some, if_pos ⟨h3, hb⟩]
  · refine (congrArg (mget? · id) hreqs).trans ((s.retried_req (some b) id).trans ?_)
    rw [hq, Option.map_some, Req.again_plain hpl]
    simp
  · intro x hx
    rw [hlaunch] at hx
    exact s.retried_launches b x hx
  · rw [hrecs]
    exact State.closeRec_answered (State.openRec_mem hr) 0 0

/-- R44, FAIL. -/
theorem State.failed_results {s : State} {v : W64} {r : FaultRec} (he : s.ev = .reg 0x30 v 8) (h1 : v.toNat / 2 ^ 62 = 1)
    (hr : s.openRec (bitsOf v.toNat 35 32) (v.toNat % 2 ^ 32) = some r) :
    let b := (bitsOf v.toNat 35 32, v.toNat % 2 ^ 32)
    let c := if bitsOf v.toNat 55 48 = 0 then r.cause else bitsOf v.toNat 55 48
    ∃ t, exec .fresolveFail s = .next t ∧ MemKept s t ∧ GangsKept s t ∧
      (∀ k, ∀ p ∈ (t.core k).log, ¬(p.2.state = 1 ∧ p.2.record = some b)) ∧
      (∀ id q, mget? s.reqs id = some q → ∃ q', mget? t.reqs id = some q' ∧ ∀ (i : Nat) (l : LaneAcc), q.lanes[i]? = some l →
        l.frec = some b →
        (l.stage = 3 ∨ l.stage = 7 ∧ ∃ k, ∃ p ∈ (s.core k).log, p.2.state = 1 ∧ p.2.record = some b ∧ p.2.req = id ∧ p.2.mask.getLsbD l.lane = true) →
        ∃ m : LaneAcc, q'.lanes[i]? = some m ∧ m.stage = 4 ∧ m.cause = c) ∧
      (∀ k e x, mget? (s.core k).skid e = some x → x.state = 3 → x.record = some b → x.err = 0 →
        ∃ y, mget? (t.core k).skid e = some y ∧ y.failed = true ∧ y.err = c) ∧
      (∀ x ∈ t.launches, x.faulted ≠ some b) ∧ ∃ x ∈ t.recs, x = { r with answer := some (1, c) } := by
  intro b c
  obtain ⟨us, hx⟩ := execFresolveFail_fails he h1 hr
  let u := (s.failedBound (some b) c r).closeRec r 1 c
  have hn : NoticeOnly u (u.answered (s.awaiting b.1 b.2)) := u.answered_only _
  obtain ⟨hmem, hreqs, hlaunch, hrecs, hcore⟩ := hn.kept
  have hj := (u.answered (s.awaiting b.1 b.2)).endEvents_joinOnly us
  have hstay := (u.answered (s.awaiting b.1 b.2)).endEvents_stay us
  obtain ⟨jmem, jcores, jlaunch, jrecs⟩ := hj.kept
  have hcore' (k : Nat) : (((u.answered (s.awaiting b.1 b.2)).endEvents us).core k) = (u.answered (s.awaiting b.1 b.2)).core k :=
    congrArg (fun m => mget ({} : Core) m k) jcores
  refine ⟨_, hx, .of_eq (jmem.trans hmem), ?_, fun k p hp => ?_, fun id q hq => ?_, fun k e x hx h3 hb h0 => ?_, fun x hx => ?_, _, ?_, rfl⟩
  · exact (s.failedBound_kept b c r).trans (.trans (.of_cores rfl) (hn.gangsKept.trans (.of_cores jcores)))
  · rw [hcore', (hcore k).1] at hp
    refine Core.failed_log (s.core k) (some b) c p ?_
    rwa [← s.failedBound_core b c r]
  · obtain ⟨q', hq', hl'⟩ := hstay id _ ((congrArg (mget? · id) hreqs).trans (s.failedBound_req (some b) c r hq))
    refine ⟨q', hq', fun i l hl hb hend => ?_⟩
    have he : s.endedBy (some b) id l := by
      obtain h3 | ⟨h7, k, p, hp, hp1, hpb, hpi, hpm⟩ := hend
      · exact .inl ⟨h3, hb⟩
      · exact .inr (.inl ⟨h7, hb, State.boundLanes_any hp hp1 hpb hpi hpm⟩)
    refine ⟨{ l with stage := 4, cause := c, frec := none }, hl' i _ ?_ (by simp), rfl, rfl⟩
    rw [List.getElem?_map, hl, Option.map_some, if_pos he]
  · have hskid : mget? ((s.core k).failed (some b) c).skid e =
        some { x with state := 1, cause := 0, record := none, err := c, failed := true } := by
      rw [Core.failed_skid, hx, Option.map_some, if_pos ⟨h3, hb⟩, if_pos h0]
    rw [← s.failedBound_core b c r k] at hskid
    refine ⟨{ x with state := 1, cause := 0, record := none, err := c, failed := true }, ?_, rfl, rfl⟩
    rw [hcore', (hcore k).2]
    exact hskid
  · rw [jlaunch, hlaunch] at hx
    exact s.failedBound_launches b c r x hx
  · rw [jrecs, hrecs]
    exact State.closeRec_answered (State.openRec_mem hr) 1 c

/-- Settles O34: the ring, the log, the replay, and the two answers. -/
theorem faultResults : Obligations.FaultResults := by
  intro s
  refine ⟨fun ring seq c r he hring hw hr hs hx hc ha hk => ?_, fun ring val he => ?_, fun id i r l hp h3 hd hlog => ⟨fun e he hn hlow => ?_, fun hfull => ?_⟩,
    fun c e x r he hx h2 hh hr hpl => ?_, fun v r he => ?_⟩
  · intro frb fri a
    obtain ⟨hg, hout, hin, hfri, hirq, hrec⟩ := State.recorded_results hw hring (List.mem_of_find?_eq_some hr) a fri
    exact ⟨_, execFaultRecordWrite_records he hr hs hx hc hk, hg, hout, hin, hfri, hirq, _, hrec, rfl⟩
  · refine ⟨_, execFaultRingHeadWrite_writes he, fun _ => rfl, .of_cores rfl, ?_⟩
    rw [State.dreg_setDreg, BitVec.toNat_ofNat]
    exact Nat.mod_eq_of_lt (by omega)
  · exact State.logged_results hp hd hlog (freeSlot_lowest he hn hlow)
  · exact execFaultReturnToLog_full hp hlog (freeSlot_none hfull)
  · refine ⟨_, execReplay_replays he hx h2 hh hr, fun _ => rfl, ?_, ?_, ?_⟩
    · exact (s.setCore_calm c (k := { s.core c with log := mset (s.core c).log e { x with state := 3, cause := 0 } }) rfl rfl).gangs.trans
        (.of_cores rfl)
    · exact (congrArg (fun k : Core => mget? k.log e) (s.core_setCore_self c _)).trans (mget?_mset_self ..)
    · rw [Req.again_plain hpl]
      simp [State.setReq, State.setCore]
  · intro ring seq hr
    refine ⟨fun h0 => ?_, fun h1 => ?_⟩
    · exact State.retried_results he h0 hr
    · exact State.failed_results he h1 hr

end Sys2Proof.Machine
end
-- Waits: WAITF, REGANG, SLEEP and YIELD, and the ends of their waits.
section
/-! SUPPORT. The waits of the C slot (R48, R132, R185, R331, R341, R396): what their issue leaves, and what a test of them finds. -/

namespace Sys2Proof.Machine
open Sys2Proof

/-! #### The frame of a C-slot operation -/

theorem CFrame.setMe (s : State) (g : Gang) : CFrame s (s.setMe g) := by
  constructor
  case mem => exact fun _ => rfl
  case rest => rfl
  case issue => rfl
  case cores =>
    intro c
    by_cases hc : c = s.cur.core
    · subst hc; rw [State.setMe, State.setGang_core_self]
    · rw [State.setMe, State.setGang_core_ne _ _ _ hc]
  case gangs => exact fun c k h => s.gang?_setGang_ne g h
theorem CFrame.trans {s t u : State} (h : CFrame s t) (k : CFrame t u) : CFrame s u := by
  obtain ⟨hm, hr, hi, hc, hg⟩ := h
  obtain ⟨km, kr, ki, kc, kg⟩ := k
  have hcur : t.cur.core = s.cur.core ∧ t.cur.slot = s.cur.slot := by rw [hi]; exact ⟨rfl, rfl⟩
  constructor
  case mem => exact fun a => (km a).trans (hm a)
  case rest => rw [kr, hr]
  case issue => rw [ki, hi]
  case cores => intro c; rw [kc, hc]
  case gangs =>
    rw [hcur.1, hcur.2] at kg
    exact fun c x h => (kg c x h).trans (hg c x h)
theorem CFrame.setWait (s : State) (w : WaitC) : CFrame s (s.setWait w) := by
  obtain ⟨hm, -, -, hc, hg⟩ := CFrame.setMe s (s.me.setPart s.cur.lead { s.me.part s.cur.lead with wait := w })
  exact ⟨hm, rfl, rfl, hc, hg⟩
theorem State.setWait_me (s : State) (w : WaitC) : (s.setWait w).me = s.me.setPart s.cur.lead { s.me.part s.cur.lead with wait := w } :=
  s.me_setMe _

theorem Gang.eq_of_setPart {g h : Gang} {k : Nat} {p : Part} (he : h = g.setPart k p) : h = { g with parts := h.parts } := by rw [he]; rfl

theorem mget?_foldl_mset {α : Type} (a : α) {l : List Nat} {k : Nat} (h : k ∈ l) (m : Map α) :
    mget? (l.foldl (fun m k => mset m k a) m) k = some a := by
  have keep (l : List Nat) (m : Map α) (hm : mget? m k = some a) : mget? (l.foldl (fun m k => mset m k a) m) k = some a := by
    induction l generalizing m with
    | nil => exact hm
    | cons j r ih =>
      refine ih _ ?_
      rw [mget?_mset]
      split
      · rfl
      · exact hm
  induction l generalizing m with
  | nil => cases h
  | cons j r ih =>
    obtain rfl | h := List.mem_cons.mp h
    · exact keep r _ (mget?_mset_self ..)
    · exact ih h _
/-- The part waits at its bundle. -/
theorem PartWaits.setWait (s : State) (w : WaitC) : PartWaits s (s.setWait w) w := by
  refine ⟨?_, fun k hk => ?_, fun k hk => mget?_foldl_mset _ hk _⟩
  · rw [State.setWait_me, Gang.part_setPart, if_pos rfl]
  · rw [State.setWait_me, Gang.part_setPart, if_neg hk]

/-! #### REGANG at issue -/

theorem Gang.mem_liveSlices {g : Gang} {k : Nat} : k ∈ g.liveSlices ↔ k < g.nsl ∧ (g.slice k).ended = false := by
  simp [Gang.liveSlices]
theorem Gang.othersAtRegang_iff (s : State) : s.me.othersAtRegang s.cur.lead = true ↔ OthersAtRegang s := by
  rw [Gang.othersAtRegang, List.all_eq_true]
  refine ⟨fun h k hk he hl => ?_, fun h k hk => ?_⟩
  · have := h k (Gang.mem_liveSlices.mpr ⟨hk, he⟩)
    rw [Bool.or_eq_true, beq_iff_eq] at this
    replace this := this.resolve_left hl
    split at this
    · next n hw => exact ⟨n, hw⟩
    · cases this
  · obtain ⟨hn, he⟩ := Gang.mem_liveSlices.mp hk
    rw [Bool.or_eq_true, beq_iff_eq, or_iff_not_imp_left]
    intro hl
    obtain ⟨n, hw⟩ := h k hn he hl
    rw [hw]
theorem Gang.sameAddress_iff (g : Gang) : g.sameAddress = true ↔
    ∀ j k, j < g.nsl → k < g.nsl → (g.slice j).ended = false → (g.slice k).ended = false → (g.slice j).pc = (g.slice k).pc := by
  have hall : g.sameAddress = true ↔ ∀ j ∈ g.liveSlices, ∀ k ∈ g.liveSlices, (g.slice j).pc = (g.slice k).pc := by
    unfold Gang.sameAddress
    split
    · next h => simp [h]
    · next x r h =>
      rw [h, List.all_eq_true]
      refine ⟨fun ha => ?_, fun ha j hj => beq_iff_eq.mpr (ha j (List.mem_cons_of_mem _ hj) x List.mem_cons_self)⟩
      have hx : ∀ j ∈ x :: r, (g.slice j).pc = (g.slice x).pc := fun j hj => by
        obtain rfl | hj := List.mem_cons.mp hj
        · rfl
        · exact beq_iff_eq.mp (ha j hj)
      exact fun j hj k hk => (hx j hj).trans (hx k hk).symm
  rw [hall]
  refine ⟨fun h j k hj hk ej ek => h j (Gang.mem_liveSlices.mpr ⟨hj, ej⟩) k (Gang.mem_liveSlices.mpr ⟨hk, ek⟩), fun h j hj k hk => ?_⟩
  obtain ⟨hj, ej⟩ := Gang.mem_liveSlices.mp hj
  obtain ⟨hk, ek⟩ := Gang.mem_liveSlices.mp hk
  exact h j k hj hk ej ek

/-- Slices changed one after another, each once. -/
def Gang.mapSlices (g : Gang) (f : Slice → Slice) (ks : List Nat) : Gang := ks.foldl (fun g k => g.setSlice k (f (g.slice k))) g
theorem Gang.mapSlices_eq (g : Gang) (f : Slice → Slice) (ks : List Nat) : g.mapSlices f ks = { g with slices := (g.mapSlices f ks).slices } := by
  unfold Gang.mapSlices
  induction ks generalizing g with
  | nil => rfl
  | cons k r ih => exact (ih _).trans rfl
theorem Gang.mapSlices_slice (g : Gang) (f : Slice → Slice) {ks : List Nat} (hn : ks.Nodup) (hb : ∀ k ∈ ks, k < g.slices.length) (j : Nat) :
    (g.mapSlices f ks).slice j = if j ∈ ks then f (g.slice j) else g.slice j := by
  unfold Gang.mapSlices
  induction ks generalizing g with
  | nil => simp
  | cons k r ih =>
    rw [List.nodup_cons] at hn
    have hlen : (g.setSlice k (f (g.slice k))).slices.length = g.slices.length := by simp [Gang.setSlice]
    rw [List.foldl_cons, ih _ hn.2 (fun i hi => by rw [hlen]; exact hb i (List.mem_cons_of_mem _ hi))]
    by_cases hk : k = j
    · subst hk
      rw [if_neg hn.1, if_pos List.mem_cons_self, Gang.slice_setSlice _ _ _ _ (hb k List.mem_cons_self), if_pos rfl]
    · rw [Gang.slice_setSlice_ne _ _ hk]
      simp [Ne.symm hk]

/-! #### Issue -/

section
variable {s : State}

theorem execWaitf_waits {ne : BitVec 1} {f : BitVec 5} (h : opLegal (.waitf ne f) s.me.regs = true) :
    execWaitf ne f s = .next (s.setWait (.flag f.toNat (ne == 1))) := by
  unfold execWaitf cRun illegalTrap
  rw [if_pos h]
  rfl
/-- The trap of slices that have come to two addresses. -/
theorem execRegang_mismatch (h : opLegal .regang s.me.regs = true) (hm : OthersAtRegang s ∧ ¬OneAddress s) :
    execRegang s = .next (s.takeTrap { tcause := 0x69, slot := 3 }) := by
  have hc : (s.me.othersAtRegang s.cur.lead && !s.me.sameAddress) = true := by
    rw [Bool.and_eq_true, Gang.othersAtRegang_iff, Bool.not_eq_true', ← Bool.not_eq_true, Gang.sameAddress_iff]
    exact hm
  unfold execRegang cRun illegalTrap
  rw [if_pos h]
  dsimp only
  rw [if_pos hc]
  rfl
theorem execRegang_arrives (h : opLegal .regang s.me.regs = true) (hm : ¬(OthersAtRegang s ∧ ¬OneAddress s)) :
    execRegang s = .next (if s.me.liveSlices.all (fun k => s.cur.slices.contains k) then s.setMe (s.me.noteMerge s.cur.slices)
      else (s.setMe (s.me.mapSlices (fun x => { x with rgw := true }) s.cur.slices)).setWait (.regang s.clock)) := by
  have hc : ¬(s.me.othersAtRegang s.cur.lead && !s.me.sameAddress) = true := by
    rw [Bool.and_eq_true, Gang.othersAtRegang_iff, Bool.not_eq_true', ← Bool.not_eq_true, Gang.sameAddress_iff]
    exact hm
  unfold execRegang cRun illegalTrap
  rw [if_pos h]
  dsimp only
  rw [if_neg hc]
  rfl
theorem exec_timer (sleep : Bool) (n : BitVec 8) (h : opLegal (if sleep then .sleep n else .yield n) s.me.regs = true) :
    exec (if sleep then .sleep n else .yield n) s =
      .next (s.setTimer (s.clock + (if sleep then 256 else 4) * (n.toNat + 1)) (!sleep)) := by
  cases sleep with
  | false =>
    have h : opLegal (.yield n) s.me.regs = true := h
    change execYield n s = _
    unfold execYield cRun illegalTrap
    rw [if_pos h]
    rfl
  | true =>
    have h : opLegal (.sleep n) s.me.regs = true := h
    change execSleep n s = _
    unfold execSleep cRun illegalTrap
    rw [if_pos h]
    rfl
end

/-- The waits at issue. -/
theorem waitIssue : WaitIssue := by
  intro s hok
  refine ⟨fun ne f h => ?_, fun sleep n => ?_, fun h => ⟨execRegang_mismatch h, fun hm => ⟨fun hall => ?_, fun hsome => ?_⟩⟩⟩
  · exact ⟨_, execWaitf_waits h, CFrame.setWait .., Gang.eq_of_setPart (State.setWait_me ..), PartWaits.setWait ..⟩
  · intro i h
    have hme : (s.setTimer (s.clock + (if sleep then 256 else 4) * (n.toNat + 1)) (!sleep)).me =
        s.me.setPart s.cur.lead { s.me.part s.cur.lead with wait := .timer (s.clock + (if sleep then 256 else 4) * (n.toNat + 1)) (!sleep) } :=
      s.me_setMe _
    refine ⟨_, exec_timer sleep n h, fun _ => rfl, rfl, Gang.eq_of_setPart hme, rfl, fun c g hcg => s.gang?_setGang_ne _ hcg, ?_, rfl⟩
    rw [hme, Gang.part_setPart, if_pos rfl]
  · have hx := execRegang_arrives h hm
    rw [if_pos (List.all_eq_true.mpr fun k hk => by
      obtain ⟨hn, he⟩ := Gang.mem_liveSlices.mp hk
      exact List.contains_iff_mem.mpr (hall k hn he))] at hx
    exact ⟨_, hx, CFrame.setMe .., rfl, by rw [State.me_setMe]; rfl⟩
  · have hx := execRegang_arrives h hm
    obtain ⟨k, hk, he, hks⟩ := hsome
    rw [if_neg fun ha => hks (List.contains_iff_mem.mp (List.all_eq_true.mp ha k (Gang.mem_liveSlices.mpr ⟨hk, he⟩)))] at hx
    have hme := s.me_setMe (s.me.mapSlices (fun x => { x with rgw := true }) s.cur.slices)
    have heq := Gang.mapSlices_eq s.me (fun x => { x with rgw := true }) s.cur.slices
    obtain ⟨hp, ho, hn⟩ := PartWaits.setWait (s.setMe (s.me.mapSlices (fun x => { x with rgw := true }) s.cur.slices)) (.regang s.clock)
    have hpart (j : Nat) : (s.me.mapSlices (fun x => { x with rgw := true }) s.cur.slices).part j = s.me.part j := by rw [heq]; rfl
    rw [hme] at hp ho
    refine ⟨_, hx, (CFrame.setMe ..).trans (CFrame.setWait ..), ?_, ⟨?_, fun j hj => ?_, hn⟩, fun j => ?_⟩
    · rw [State.setWait_me, hme, heq]
      rfl
    · exact hp.trans (by rw [← hpart]; rfl)
    · exact (ho j hj).trans (hpart j)
    · rw [State.setWait_me, hme]
      exact Gang.mapSlices_slice s.me _ hok.1 hok.2 j

/-! #### The ends of waits -/

/-- A trap taken by the gang in a slot outside its issue. -/
theorem State.takeTrapAt_trapTaken (s : State) (c slot : Nat) (tr : Trap) (next : W64) : TrapTaken s (s.takeTrapAt c slot tr next) c slot tr next := by
  have hg : (s.takeTrapAt c slot tr next).gang c slot = (s.gang c slot).freeze tr next s.clock s.free := by
    rw [State.takeTrapAt, State.pmcAdd_gang, State.gang_setGang_self]
  have hk (d k : Nat) : (s.takeTrapAt c slot tr next).crew d k = (s.pmcAdd c (s.gang c slot).cslot 13 1).crew d k := by
    rw [State.takeTrapAt, State.crew_pmcAdd_ite, State.crew_pmcAdd_ite]
    simp only [State.crew_setGang]
  constructor
  case gang => rw [hg, Gang.freeze_eq]
  case errors => intro hb; rw [hg]; exact ⟨hb, rfl⟩
  case valid =>
    intro k hk
    refine Eq.trans ?_ ((s.gang c slot).timing_valid s.clock s.free k)
    rw [hg]
    simp [Gang.freeze, List.getD_eq_getElem?_getD, hk]
  case timers => rw [hg]; exact Gang.endTimers_noTimer _ _
  case counts => rw [hk]; exact State.pmcAdd_same ..
  case crews => intro d k; rw [hk]; exact State.crew_pmcAdd ..
  case others => intro d g h; rw [State.takeTrapAt, State.pmcAdd_gang?, State.gang?_setGang_ne _ _ h]
  case mem => simp
  case rest =>
    rw [State.takeTrapAt, State.pmcAdd_eq]
    rfl
  all_goals rw [hg]; rfl

/-- Nothing has changed but registers and the results on their way. -/
def ValuesOnly (g h : Gang) : Prop := h = { g with pend := h.pend, v := h.v, s := h.s, p := h.p }
theorem ValuesOnly.foldl {α : Type} {f : Gang → α → Gang} (h : ∀ g a, ValuesOnly g (f g a)) (l : List α) (g : Gang) : ValuesOnly g (l.foldl f g) := by
  induction l generalizing g with
  | nil => rfl
  | cons a r ih =>
    have h1 := h g a
    have h2 := ih (f g a)
    unfold ValuesOnly at *
    rw [List.foldl_cons, h2, h1]
/-- An observation takes the flag's old marks away, and leaves slices, parts and flags as they are (R132). -/
theorem Gang.observe_kept (g : Gang) (f now k : Nat) :
    (g.observe f now k).parts = g.parts ∧ (g.observe f now k).slices = g.slices ∧ (g.observe f now k).flags = g.flags ∧
      (g.observe f now k).nsl = g.nsl ∧ (g.observe f now k).marks = g.marks.filter (fun m => !(m.flag == f && m.born < now)) := by
  have hv : ValuesOnly { g with
      marks := g.marks.filter (fun m => !(m.flag == f && m.born < now))
      unready := g.unready ++ (g.copied.filter (fun x => x.1 == f)).map (·.2)
      copied := g.copied.filter (fun x => x.1 != f) } (g.observe f now k) := by
    refine .foldl (fun h m => ?_) _ _
    dsimp only
    split
    · rfl
    split
    · rfl
    · rfl
    · split <;> rfl
    · rfl
  rw [hv]
  exact ⟨rfl, rfl, rfl, rfl, rfl⟩
theorem Gang.endWait_eq (g : Gang) (lead at_ : Nat) : g.endWait lead at_ =
    (g.mapSlices (fun x => { x with pc := x.pc + 16, rgw := false }) (g.partSlices lead)).setPart lead { g.part lead with
      wait := .none, macq := false, next := max (g.part lead).next at_, fetched := none, fetchFault := none } := rfl
theorem Gang.partSlices_nodup (g : Gang) (lead : Nat) : (g.partSlices lead).Nodup := List.nodup_range.filter _

theorem State.observeAt_others (s : State) (c slot f : Nat) {d x : Nat} (h : d ≠ c ∨ x ≠ slot) : (s.observeAt c slot f).gang? d x = s.gang? d x := by
  unfold State.observeAt
  dsimp only
  refine (State.gang?_setGang_ne _ _ h).trans (State.gang?_setCore_gangs _ _ _ _ _ rfl)
theorem State.observeAt_gang (s : State) (c slot f : Nat) : (s.observeAt c slot f).gang c slot = (s.gang c slot).observe f s.clock s.free :=
  State.gang_setGang_self ..

section
variable {s : State} {c slot lead : Nat} (h : WaitTested s c slot lead)
include h

theorem WaitTested.testPart {w : WaitC} (hw : ((s.gang c slot).part lead).wait = w) (hn : w ≠ .none) : s.testPart c slot lead =
    match s.testWait c slot w with
    | .trap t => s.takeTrapAt c slot t ((s.gang c slot).slice lead).pc
    | .waits => s
    | .holds =>
      if ((s.gang c slot).part lead).macq && (s.core c).mill.owner != some slot then s
      else
        let t := s.leaveWait c slot w
        let h := t.gang c slot
        if w.inside then t.setGang c slot (h.endWait lead (s.clock + 1))
        else t.setGang c slot (h.setPart lead { h.part lead with macq := false, next := max ((s.gang c slot).part lead).next (s.clock + 1) }) := by
  obtain ⟨-, hf, hp, ht, -⟩ := h
  unfold State.testPart
  dsimp only
  rw [if_neg (by simp [hf, hp, hw, hn, ht]), hw] <;> cases s.testWait c slot w <;> rfl

/-- R331, R132: a WAITF at a flag of count 0 ends. -/
theorem WaitTested.testPart_flagOver {f : Nat} {ne : Bool} (hw : ((s.gang c slot).part lead).wait = .flag f ne)
    (h0 : ((s.gang c slot).flag f).count = 0) (he : ((s.gang c slot).flag f).err = false ∨ ne = true) (hm : MillIsOurs s c slot lead) :
    s.testPart c slot lead = (s.observeAt c slot f).setGang c slot (((s.gang c slot).observe f s.clock s.free).endWait lead (s.clock + 1)) := by
  have ht : s.testWait c slot (.flag f ne) = .holds := by
    unfold State.testWait
    dsimp only
    rw [if_pos h0, if_neg (by simpa [Classical.or_iff_not_imp_left] using he)]
  rw [h.testPart hw (by simp), ht]
  dsimp only
  rw [if_neg (by simpa using (show _ → _ from hm)), if_pos (by rfl), State.leaveWait, State.observeAt_gang]

/-- A flag whose error is not ignored. -/
theorem WaitTested.testPart_flagError {f : Nat} (hw : ((s.gang c slot).part lead).wait = .flag f false)
    (h0 : ((s.gang c slot).flag f).count = 0) (he : ((s.gang c slot).flag f).err = true) :
    s.testPart c slot lead = s.takeTrapAt c slot { tcause := 0x6C, slot := 3, dcause := ((s.gang c slot).flag f).cause, flag := f }
      ((s.gang c slot).slice lead).pc := by
  have ht : s.testWait c slot (.flag f false) = .trap { tcause := 0x6C, slot := 3, dcause := ((s.gang c slot).flag f).cause, flag := f } := by
    unfold State.testWait
    dsimp only
    rw [if_pos h0, if_pos (by simp [he])]
  rw [h.testPart hw (by simp), ht]
/-- A flag that still counts. -/
theorem WaitTested.testPart_flagCounts {f : Nat} {ne : Bool} (hw : ((s.gang c slot).part lead).wait = .flag f ne)
    (h0 : ((s.gang c slot).flag f).count ≠ 0) : s.testPart c slot lead = match s.faultOn c slot f with
      | some (cause, info) => s.takeTrapAt c slot { tcause := 0x6D, slot := 3, dcause := cause, flag := f, info := info } ((s.gang c slot).slice lead).pc
      | none => s := by
  rw [h.testPart hw (by simp)]
  unfold State.testWait
  dsimp only
  rw [if_neg h0]
  cases s.faultOn c slot f <;> rfl
end

/-- What the end of a part's wait does to its gang. -/
theorem Gang.endWait_results {g : Gang} {lead : Nat} (hb : ∀ k ∈ g.partSlices lead, k < g.slices.length) (at_ : Nat) :
    (g.endWait lead at_).part lead = { g.part lead with wait := .none, macq := false, next := max (g.part lead).next at_, fetched := none, fetchFault := none } ∧
      (∀ k, k ≠ lead → (g.endWait lead at_).part k = g.part k) ∧
      (∀ k, (g.endWait lead at_).slice k = if k ∈ g.partSlices lead then { g.slice k with pc := (g.slice k).pc + 16, rgw := false } else g.slice k) ∧
      (g.endWait lead at_).flags = g.flags ∧ (g.endWait lead at_).marks = g.marks := by
  have hm := g.mapSlices_eq (fun x => { x with pc := x.pc + 16, rgw := false }) (g.partSlices lead)
  rw [Gang.endWait_eq]
  refine ⟨?_, fun k hk => ?_, fun k => ?_, ?_, ?_⟩
  · rw [Gang.part_setPart, if_pos rfl]
  · rw [Gang.part_setPart, if_neg hk, hm]
    rfl
  · exact g.mapSlices_slice (fun x => { x with pc := x.pc + 16, rgw := false }) (g.partSlices_nodup lead) hb k
  · rw [hm]
    rfl
  · rw [hm]
    rfl

theorem execWaitTimerExpiry_ends {s : State} {c slot lead u : Nat} {y : Bool} {g : Gang} (he : s.ev = .part c slot lead) (hg : s.gang? c slot = some g)
    (hw : (g.part lead).wait = .timer u y) (hu : u ≤ s.clock) : execWaitTimerExpiry s = .next (s.setGang c slot (g.setPart lead { g.part lead with
      wait := .none, macq := (g.part lead).macq && (s.core c).mill.owner != some slot, next := max (g.part lead).next u,
      age := if y then 0 else (g.part lead).age })) := by
  unfold execWaitTimerExpiry
  rw [he]
  dsimp only
  rw [hg]
  dsimp only
  rw [hw]
  exact if_pos hu

theorem waitEnds : WaitEnds := by
  intro s c slot lead h g t
  refine ⟨fun f ne hw => ⟨fun h0 he hm => ?_, fun h0 he hne => ?_, fun cause info h0 hf => ?_, fun h0 hf => ?_⟩, fun u y hw he hu => ?_⟩
  · obtain ⟨hp, hs, hfl, hn, hmk⟩ := g.observe_kept f s.clock s.free
    have ht : t = (s.observeAt c slot f).setGang c slot ((g.observe f s.clock s.free).endWait lead (s.clock + 1)) := h.testPart_flagOver hw h0 he hm
    have hps : (g.observe f s.clock s.free).partSlices lead = g.partSlices lead := by
      simp only [Gang.partSlices, Gang.slice, hn, hs]
    have hpart (k : Nat) : (g.observe f s.clock s.free).part k = g.part k := by simp only [Gang.part, hp]
    have hslice (k : Nat) : (g.observe f s.clock s.free).slice k = g.slice k := by simp only [Gang.slice, hs]
    obtain ⟨r1, r2, r3, r4, r5⟩ := Gang.endWait_results (g := g.observe f s.clock s.free) (lead := lead)
      (by rw [hps, hs]; exact h.2.2.2.2) (s.clock + 1)
    have hgang : t.gang c slot = (g.observe f s.clock s.free).endWait lead (s.clock + 1) := by rw [ht, State.gang_setGang_self]
    refine ⟨⟨?_, fun k hk => ?_, fun k => ?_, fun d x hdx => ?_, fun a => ?_⟩, ?_, ?_⟩
    · rw [hgang, r1, hpart]
    · rw [hgang, r2 k hk, hpart]
    · rw [hgang, r3, hps, hslice]
    · rw [ht, State.gang?_setGang_ne _ _ hdx, State.observeAt_others _ _ _ _ hdx]
    · rw [ht]
      exact congrArg (Mem.read · a) (s.observeAt_mem c slot f)
    · rw [hgang, r4, hfl]
    · rw [hgang, r5, hmk]
  · subst hne
    have ht : t = _ := h.testPart_flagError hw h0 he
    rw [ht]
    exact s.takeTrapAt_trapTaken ..
  · have ht : t = _ := h.testPart_flagCounts hw h0
    rw [ht, hf]
    exact s.takeTrapAt_trapTaken ..
  · have ht := h.testPart_flagCounts hw h0
    rw [hf] at ht
    exact ht
  · obtain ⟨x, hx⟩ := Option.isSome_iff_exists.mp h.1
    have hgx : g = x := State.gang_of_gang? hx
    rw [hgx] at hw ⊢
    refine ⟨_, execWaitTimerExpiry_ends he hx hw hu, ?_, fun hy => ?_, fun hy => ?_, ?_, fun _ => rfl⟩
    · rw [State.gang_setGang_self, Gang.part_setPart, if_pos rfl]
    · rw [State.gang_setGang_self, Gang.part_setPart, if_pos rfl, hy]
      rfl
    · rw [State.gang_setGang_self, Gang.part_setPart, if_pos rfl, hy]
      rfl
    · rw [State.gang_setGang_self]
      rfl

/-! #### The merge of a REGANG -/

theorem le_foldl_max {l : List Nat} {m : Nat} : m ≤ l.foldl max m ∧ ∀ x ∈ l, x ≤ l.foldl max m := by
  induction l generalizing m with
  | nil => exact ⟨le_rfl, by simp⟩
  | cons y r ih =>
    obtain ⟨h1, h2⟩ := ih (m := max m y)
    refine ⟨(le_max_left ..).trans h1, fun x hx => ?_⟩
    obtain rfl | hx := List.mem_cons.mp hx
    · exact (le_max_right ..).trans h1
    · exact h2 x hx
/-- A largest number of a list that is not empty is one of the list. -/
theorem foldl_max_mem {l : List Nat} (h : l ≠ []) : l.foldl max 0 ∈ l := by
  have key (l : List Nat) (m : Nat) : l.foldl max m = m ∨ l.foldl max m ∈ l := by
    induction l generalizing m with
    | nil => exact .inl rfl
    | cons y r ih =>
      obtain h | h := ih (max m y)
      · rw [List.foldl_cons, h]
        obtain h | h := max_choice m y
        · exact .inl h
        · exact .inr (by rw [h]; exact List.mem_cons_self)
      · exact .inr (List.mem_cons_of_mem _ h)
  obtain h0 | h0 := key l 0
  · cases l with
    | nil => exact absurd rfl h
    | cons y r =>
      have : y ≤ 0 := h0 ▸ le_foldl_max.2 y List.mem_cons_self
      rw [h0]
      exact List.mem_cons.mpr (.inl (by omega))
  · exact h0
/-- The lowest slice that has not ended leads the others. -/
theorem Gang.liveSlices_lowest {g : Gang} {lead : Nat} (hl : lead ∈ g.liveSlices) (hm : ∀ k ∈ g.liveSlices, lead ≤ k) :
    ∃ r, g.liveSlices = lead :: r := by
  have hs : g.liveSlices.Pairwise (· < ·) := List.pairwise_lt_range.filter _
  cases hc : g.liveSlices with
  | nil => rw [hc] at hl; cases hl
  | cons x r =>
    rw [hc] at hl hm hs
    have hx := hm x List.mem_cons_self
    obtain rfl | h := List.mem_cons.mp hl
    · exact ⟨r, rfl⟩
    · have := (List.pairwise_cons.mp hs).1 lead h
      omega
/-- The part that the slices of a REGANG form: every gap has passed, and every result is written (R396). -/
def Gang.mergedPart (g : Gang) (now : Nat) (extra : List Nat) : Part :=
  { next := (g.parts.map (fun p => p.2.next) ++ g.fixedClocks ++ extra).foldl max (now + 1)
    age := (g.parts.map (fun p => p.2.age)).foldl max 0 }
theorem Gang.merge_eq {g : Gang} {lead : Nat} {r : List Nat} (h : g.liveSlices = lead :: r) (now : Nat) (extra : List Nat) :
    g.merge now extra = { (g.mapSlices (fun x => { x with pc := x.pc + 16, rgw := false, lead := lead }) g.liveSlices).noteMerge g.liveSlices with
      parts := [(lead, g.mergedPart now extra)] } := by
  unfold Gang.merge
  rw [h]
  rfl

/-- R185, R396: the part that the merge makes. -/
theorem Gang.merge_results {g : Gang} (hp : g.parts ≠ []) {lead : Nat} (hl : lead ∈ g.liveSlices) (hm : ∀ k ∈ g.liveSlices, lead ≤ k)
    (hb : ∀ k ∈ g.liveSlices, k < g.slices.length) (now : Nat) (extra : List Nat) :
    (∀ k ∈ g.liveSlices, (g.merge now extra).slice k = { g.slice k with pc := (g.slice k).pc + 16, rgw := false, lead := lead }) ∧
      ∃ p, (g.merge now extra).parts = [(lead, p)] ∧ p.wait = .none ∧ now < p.next ∧
        (∀ q ∈ g.parts, q.2.next ≤ p.next ∧ q.2.age ≤ p.age) ∧ (∃ q ∈ g.parts, p.age = q.2.age) ∧ ∀ w ∈ g.pend, w.due ≤ p.next := by
  obtain ⟨r, hr⟩ := Gang.liveSlices_lowest hl hm
  have heq := Gang.merge_eq hr now extra
  obtain ⟨h1, h2⟩ := le_foldl_max (l := g.parts.map (fun p => p.2.next) ++ g.fixedClocks ++ extra) (m := now + 1)
  have h3 := (le_foldl_max (l := g.parts.map (fun p => p.2.age)) (m := 0)).2
  refine ⟨fun k hk => ?_, g.mergedPart now extra, by rw [heq], rfl, h1,
    fun q hq => ⟨h2 _ ?_, h3 _ (List.mem_map_of_mem (f := fun p : Nat × Part => p.2.age) hq)⟩, ?_, fun w hw => h2 _ ?_⟩
  · have hnd : g.liveSlices.Nodup := List.nodup_range.filter _
    have hs := g.mapSlices_slice (fun x => { x with pc := x.pc + 16, rgw := false, lead := lead }) hnd hb k
    rw [if_pos hk] at hs
    rw [heq]
    exact hs
  · exact List.mem_append_left _ (List.mem_append_left _ (List.mem_map_of_mem (f := fun p : Nat × Part => p.2.next) hq))
  · obtain ⟨q, hq, hqa⟩ := List.mem_map.mp (foldl_max_mem (l := g.parts.map (fun p => p.2.age)) (by simpa using hp))
    exact ⟨q, hq, hqa.symm⟩
  · exact List.mem_append_left _ (List.mem_append_right _ (List.mem_append_left _ (List.mem_map_of_mem hw)))

/-- The clock at which a part began to wait at a REGANG. -/
def Part.regangAt (p : Part) : Option Nat := match p.wait with | .regang n => some n | _ => none
/-- The part that began to wait last, and when. -/
def lastRegang (ps : List (Nat × Part)) (b : Nat × Nat) : Nat × Nat :=
  ps.foldl (fun b p => if b.2 ≤ (p.2.regangAt).getD 0 then (p.1, (p.2.regangAt).getD 0) else b) b

theorem Part.regangAt_of {p : Part} {n : Nat} (h : p.wait = .regang n) : p.regangAt = some n := by rw [Part.regangAt, h]
theorem lastRegang_from {ps : List (Nat × Part)} (h : ∀ q ∈ ps, ∃ n, q.2.wait = .regang n) (b : Nat × Nat) :
    (lastRegang ps b = b ∨ ∃ q ∈ ps, (lastRegang ps b).1 = q.1 ∧ q.2.wait = .regang (lastRegang ps b).2) ∧ b.2 ≤ (lastRegang ps b).2 ∧
      ∀ x ∈ ps, ∀ m, x.2.wait = .regang m → m ≤ (lastRegang ps b).2 := by
  induction ps generalizing b with
  | nil => exact ⟨.inl rfl, le_rfl, by simp⟩
  | cons p r ih =>
    obtain ⟨n, hn⟩ := h p List.mem_cons_self
    have hstep : lastRegang (p :: r) b = lastRegang r (if b.2 ≤ n then (p.1, n) else b) := by
      rw [lastRegang, List.foldl_cons, Part.regangAt_of hn]
      rfl
    obtain ⟨h1, h2, h3⟩ := ih (fun q hq => h q (List.mem_cons_of_mem _ hq)) (if b.2 ≤ n then (p.1, n) else b)
    rw [hstep]
    refine ⟨?_, ?_, fun x hx m hm => ?_⟩
    · obtain h1 | ⟨q, hq, hq'⟩ := h1
      · rw [h1]
        by_cases hb : b.2 ≤ n
        · rw [if_pos hb]
          exact .inr ⟨p, List.mem_cons_self, rfl, hn⟩
        · exact .inl (if_neg hb)
      · exact .inr ⟨q, List.mem_cons_of_mem _ hq, hq'⟩
    · refine le_trans ?_ h2
      split
      · assumption
      · exact le_rfl
    · obtain rfl | hx := List.mem_cons.mp hx
      · obtain rfl : n = m := by simpa [hn] using hm
        refine le_trans ?_ h2
        split
        · exact le_rfl
        · omega
      · exact h3 x hx m hm
theorem lastRegang_spec {ps : List (Nat × Part)} (h : ∀ q ∈ ps, ∃ n, q.2.wait = .regang n) (hp : ps ≠ []) :
    ∃ q ∈ ps, (lastRegang ps (0, 0)).1 = q.1 ∧ q.2.wait = .regang (lastRegang ps (0, 0)).2 ∧
      ∀ x ∈ ps, ∀ m, x.2.wait = .regang m → m ≤ (lastRegang ps (0, 0)).2 := by
  cases ps with
  | nil => exact absurd rfl hp
  | cons p r =>
    obtain ⟨n, hn⟩ := h p List.mem_cons_self
    have hstep : lastRegang (p :: r) (0, 0) = lastRegang r (p.1, n) := by
      rw [lastRegang, List.foldl_cons, Part.regangAt_of hn]
      rfl
    obtain ⟨h1, h2, h3⟩ := lastRegang_from (fun q hq => h q (List.mem_cons_of_mem _ hq)) (p.1, n)
    have hall : ∀ x ∈ p :: r, ∀ m, x.2.wait = .regang m → m ≤ (lastRegang r (p.1, n)).2 := fun x hx m hm => by
      obtain rfl | hx := List.mem_cons.mp hx
      · obtain rfl : n = m := by simpa [hn] using hm
        exact h2
      · exact h3 x hx m hm
    rw [hstep]
    obtain h1 | ⟨q, hq, hq1, hqw⟩ := h1
    · exact ⟨p, List.mem_cons_self, by rw [h1], by rw [h1]; exact hn, hall⟩
    · exact ⟨q, List.mem_cons_of_mem _ hq, hq1, hqw, hall⟩

theorem State.testRegang_tests {s : State} {c slot : Nat} (hf : (s.gang c slot).frozen = false)
    (hph : (s.crew c (s.gang c slot).cslot).phase ≠ .unparked) (hp : (s.gang c slot).parts ≠ [])
    (hw : ∀ q ∈ (s.gang c slot).parts, ∃ n, q.2.wait = .regang n ∧ q.2.tests ≤ s.clock) : s.testRegang c slot =
      if (s.gang c slot).sameAddress then
        (if (s.gang c slot).parts.any (fun p => p.2.macq && (s.core c).mill.owner != some slot) then s
         else s.setGang c slot ((s.gang c slot).merge s.clock (s.sysClocks c slot)))
      else s.takeTrapAt c slot mismatch ((s.gang c slot).slice (lastRegang (s.gang c slot).parts (0, 0)).1).pc := by
  have hnone : (s.gang c slot).parts.any (fun p => (p.2.regangAt).isNone || decide (s.clock < p.2.tests)) = false := by
    rw [List.any_eq_false]
    intro q hq
    obtain ⟨n, hn, ht⟩ := hw q hq
    simp [Part.regangAt, hn, ht]
  unfold State.testRegang
  dsimp only
  refine (if_neg fun hc => ?_).trans rfl
  rw [Bool.or_eq_true] at hc
  exact hc.elim (fun h => by simp [hf, hph, hp] at h) (fun h => Bool.noConfusion (h.symm.trans hnone))

theorem regangMerges : RegangMerges := by
  intro s c slot g hg hf hph hp hw live t h
  have ht : t = _ := State.testRegang_tests hf hph hp hw
  have hlive (k : Nat) : k ∈ g.liveSlices ↔ live k := Gang.mem_liveSlices
  refine ⟨fun hsame hmill lead hl hlow hb => ?_, fun hdiff => ?_⟩
  · rw [if_pos ((Gang.sameAddress_iff g).mpr fun j k hj hk ej ek => hsame j k ⟨hj, ej⟩ ⟨hk, ek⟩), if_neg] at ht
    · have hh : h = g.merge s.clock (s.sysClocks c slot) := by
        unfold h
        rw [ht, State.gang_setGang_self]
      rw [hh]
      have hr := g.merge_results hp ((hlive lead).mpr hl) (fun k hk => hlow k ((hlive k).mp hk)) (fun k hk => hb k ((hlive k).mp hk)) s.clock
        (s.sysClocks c slot)
      exact ⟨fun k hk => hr.1 k ((hlive k).mpr hk), hr.2⟩
    · rw [Bool.not_eq_true, List.any_eq_false]
      intro q hq
      simpa using hmill q hq
  · obtain ⟨j, k, hj, hk, hjk⟩ := hdiff
    rw [if_neg fun hs => hjk ((Gang.sameAddress_iff g).mp hs j k hj.1 hk.1 hj.2 hk.2)] at ht
    obtain ⟨q, hq, hq1, hqw, hmax⟩ := lastRegang_spec (fun q hq => (hw q hq).imp fun _ h => h.1) hp
    refine ⟨q, hq, _, hqw, hmax, ?_⟩
    rw [ht, hq1]
    exact s.takeTrapAt_trapTaken ..

/-- Settles O24: the waits at issue, their ends, and the merge. -/
theorem waitResults : Obligations.WaitResults := ⟨waitIssue, waitEnds, regangMerges⟩

end Sys2Proof.Machine
end
-- Pages: what a walk reads and leaves, the leaf it reaches, and the frame a fill gives a page.
section
/-! SUPPORT. Bad words through the directory and the L2 (R68, R79), walks of both stages (R26, R27, R29), and fills (R37). -/

namespace Sys2Proof.Machine
open Sys2Proof

/-! #### Bad words and dirty lines -/

/-- A recall: the bad words stay, and a line of the L2 stays, dirty where it was. -/
structure LinesStay (s t : State) : Prop where
  poison : t.poison = s.poison
  hbmBad : t.hbmBad = s.hbmBad
  lines : ∀ x ∈ s.l2, ∃ y ∈ t.l2, y.line = x.line ∧ (x.dirty = true → y.dirty = true)

theorem LinesStay.of_l2 {s t : State} (hp : t.poison = s.poison) (hb : t.hbmBad = s.hbmBad) (hl : t.l2 = s.l2) : LinesStay s t :=
  ⟨hp, hb, fun x hx => ⟨x, hl ▸ hx, rfl, fun h => h⟩⟩
theorem LinesStay.refl (s : State) : LinesStay s s := .of_l2 rfl rfl rfl
theorem LinesStay.trans {s t u : State} (h : LinesStay s t) (k : LinesStay t u) : LinesStay s u := by
  refine ⟨k.poison.trans h.poison, k.hbmBad.trans h.hbmBad, fun x hx => ?_⟩
  obtain ⟨y, hy, hxy, hd⟩ := h.lines x hx
  obtain ⟨z, hz, hyz, he⟩ := k.lines y hy
  exact ⟨z, hz, hyz.trans hxy, fun h => he (hd h)⟩
theorem LinesStay.ite {s a b : State} {c : Prop} [Decidable c] (ha : LinesStay s a) (hb : LinesStay s b) : LinesStay s (if c then a else b) := by
  split
  · exact ha
  · exact hb
theorem LinesStay.foldl {α : Type} {f : State → α → State} (h : ∀ s a, LinesStay s (f s a)) (l : List α) (s : State) : LinesStay s (l.foldl f s) := by
  induction l generalizing s with
  | nil => exact .refl s
  | cons a r ih => exact (h s a).trans (ih _)
theorem State.dirWriteback_lines (s : State) (pl : Nat) : LinesStay s (s.dirWriteback pl) := by
  have hw : LinesStay s { s with l2 := s.l2.map (fun x => if x.line = pl then { x with dirty := true } else x) } := by
    refine ⟨rfl, rfl, fun x hx => ⟨_, List.mem_map_of_mem hx, ?_, ?_⟩⟩ <;> split <;> simp
  unfold State.dirWriteback
  exact .ite (hw.trans (.of_l2 rfl rfl rfl)) (hw.trans (.of_l2 rfl rfl rfl))
theorem State.dirDrop_lines (s : State) (pl c : Nat) : LinesStay s (s.dirDrop pl c) := by
  unfold State.dirDrop
  exact .ite (.refl s) (.ite (.of_l2 rfl rfl rfl) (.of_l2 rfl rfl rfl))
theorem State.recall_lines (s : State) (c ctx line : Nat) : LinesStay s (s.recall c ctx line) := by
  unfold State.recall
  dsimp only
  refine .ite (.trans (.trans (t := s.setCore c _) ?_ (State.dirDrop_lines ..)) (State.dirWriteback_lines ..))
    (.trans (t := s.setCore c _) ?_ (State.dirDrop_lines ..)) <;> exact .of_l2 rfl rfl rfl
theorem State.recallAll_lines (s : State) (pl : Nat) : LinesStay s (s.recallAll pl) := by
  have hf : LinesStay s ((s.holders pl).foldl (fun t h => t.recall h.1 h.2.1 h.2.2) s) := .foldl (fun t _ => t.recall_lines ..) _ s
  unfold State.recallAll
  dsimp only
  exact hf.trans (.trans (.ite (.trans (.ite (State.dirWriteback_lines ..) (.refl _)) (State.dirDrop_lines ..)) (.refl _)) (.of_l2 rfl rfl rfl))
theorem State.atSlice_lines (s : State) (pa : Nat) : LinesStay s (s.atSlice pa) := (s.recallAll_lines _).trans (.of_l2 rfl rfl rfl)

/-- Bad words come from bad words, read or beneath. -/
def BadFrom (s t : State) : Prop := (∀ w ∈ t.hbmBad, w ∈ s.hbmBad) ∧ ∀ w ∈ t.poison, w ∈ s.poison ∨ w ∈ s.hbmBad

theorem BadFrom.of_eq {s t : State} (hp : t.poison = s.poison) (hb : t.hbmBad = s.hbmBad) : BadFrom s t :=
  ⟨fun _ h => hb ▸ h, fun _ h => .inl (hp ▸ h)⟩
theorem BadFrom.refl (s : State) : BadFrom s s := .of_eq rfl rfl
theorem BadFrom.trans {s t u : State} (h : BadFrom s t) (k : BadFrom t u) : BadFrom s u :=
  ⟨fun w hw => h.1 w (k.1 w hw), fun w hw => (k.2 w hw).elim (h.2 w) (fun hb => .inr (h.1 w hb))⟩
theorem BadFrom.ite {s a b : State} {c : Prop} [Decidable c] (ha : BadFrom s a) (hb : BadFrom s b) : BadFrom s (if c then a else b) := by
  split
  · exact ha
  · exact hb
theorem State.l2Evict_bad (s : State) (x : L2Line) : BadFrom s (s.l2Evict x) := by
  have hr := s.recallAll_lines x.line
  have he (p : List Nat) (hp : p = (s.recallAll x.line).poison ∨
      p = ((s.recallAll x.line).poison ++ (s.recallAll x.line).hbmBad.filter (fun w => w / 16 == x.line)).eraseDups) {t : State}
      (h1 : t.hbmBad = (s.recallAll x.line).hbmBad.filter (fun w => w / 16 != x.line)) (h2 : t.poison = p) : BadFrom s t := by
    refine ⟨fun w hw => ?_, fun w hw => ?_⟩
    · rw [h1, hr.hbmBad] at hw
      exact (List.mem_filter.mp hw).1
    · rw [h2] at hw
      rcases hp with rfl | rfl
      · exact .inl (hr.poison ▸ hw)
      · rw [List.mem_eraseDups, List.mem_append, hr.poison, hr.hbmBad] at hw
        exact hw.imp id fun h => (List.mem_filter.mp h).1
  unfold State.l2Evict
  dsimp only
  split
  · exact he _ (.inl rfl) rfl rfl
  · exact he _ (.inr rfl) rfl rfl
/-- The place made for a line in its set. -/
def State.l2Vacate (s : State) (pl : Nat) : State :=
  if (s.l2Mates pl).length < 12 then s else (l2Victim (s.l2Mates pl)).elim s s.l2Evict
theorem State.l2Vacate_cases (s : State) (pl : Nat) : s.l2Vacate pl = s ∨ ∃ x, s.l2Vacate pl = s.l2Evict x := by
  unfold State.l2Vacate
  cases l2Victim (s.l2Mates pl) with
  | none => exact .inl (ite_self s)
  | some x =>
    by_cases h : (s.l2Mates pl).length < 12
    · exact .inl (if_pos h)
    · exact .inr ⟨x, if_neg h⟩
/-- An access of a line: what the L2 holds of it after, by whether it held it before. -/
theorem State.l2Use_cases (s : State) (pl rank : Nat) (last wr fetch : Bool) :
    (s.l2.any (·.line == pl) = true ∧ ∃ c, s.l2Use pl rank last wr fetch = { s with counts := c, l2 := s.l2.map (fun x => if x.line = pl then
        { x with rank := max x.rank rank, touched := s.clock, dirty := x.dirty || wr } else x) }) ∨
    (s.l2.any (·.line == pl) = false ∧ ∃ c, s.l2Use pl rank last wr fetch =
      { s.l2Vacate pl with counts := c, l2 := (s.l2Vacate pl).l2 ++ [⟨pl, rank, if last then 0 else s.clock, wr⟩] }) := by
  have hv (o : Option L2Line) (ho : l2Victim (s.l2Mates pl) = o) : s.l2Vacate pl = if (s.l2Mates pl).length < 12 then s else o.elim s s.l2Evict := by
    rw [← ho]
    rfl
  unfold State.l2Use
  dsimp only
  cases ho : l2Victim (s.l2Mates pl) <;> dsimp only
  case' none => rw [show (if (s.l2Mates pl).length < 12 then s else s) = s.l2Vacate pl from (hv _ ho).symm]
  case' some x => rw [show (if (s.l2Mates pl).length < 12 then s else s.l2Evict x) = s.l2Vacate pl from (hv _ ho).symm]
  all_goals
    generalize s.l2Vacate pl = v
    cases s.l2.any (·.line == pl) with
    | true => exact .inl ⟨rfl, _, rfl⟩
    | false => cases fetch <;> exact .inr ⟨rfl, _, rfl⟩
theorem State.l2Vacate_bad (s : State) (pl : Nat) : BadFrom s (s.l2Vacate pl) := by
  rcases s.l2Vacate_cases pl with h | ⟨x, h⟩ <;> rw [h]
  · exact .refl s
  · exact s.l2Evict_bad x
theorem State.l2Use_bad (s : State) (pl rank : Nat) (last wr fetch : Bool) : BadFrom s (s.l2Use pl rank last wr fetch) := by
  rcases s.l2Use_cases pl rank last wr fetch with ⟨-, c, h⟩ | ⟨-, c, h⟩ <;> rw [h]
  · exact .of_eq rfl rfl
  · exact (s.l2Vacate_bad pl).trans (.of_eq rfl rfl)
/-- What was sound stays sound. -/
theorem BadFrom.sound {s t : State} (h : BadFrom s t) {a n : Nat} (hs : s.sound a n = true) : t.sound a n = true := by
  simp only [State.sound, State.poisoned, Bool.and_eq_true, Bool.not_eq_true', List.any_eq_false, List.all_eq_true, List.contains_eq_mem,
    decide_eq_true_eq, decide_eq_false_iff_not] at hs ⊢
  obtain ⟨⟨hi, hp⟩, hb⟩ := hs
  exact ⟨⟨hi, fun w hw hq => (h.2 w hq).elim (hp w hw) (hb w hw)⟩, fun w hw hq => hb w hw (h.1 w hq)⟩
theorem State.sound_inHbm {s : State} {a n : Nat} (h : s.sound a n = true) : inHbm a n = true := by
  simp only [State.sound, Bool.and_eq_true] at h
  exact h.1.1
theorem State.sound_clean {s : State} {a n : Nat} (h : s.sound a n = true) : s.poisoned a n = false := by
  simp only [State.sound, Bool.and_eq_true, Bool.not_eq_true'] at h
  exact h.1.2

/-! #### What a walk leaves -/

/-- Nothing has changed that a walk depends on, nor memory, gangs and requests: a walk's reads go through the L2 and fill the walk cache. -/
structure Walked (s t : State) : Prop where
  rest : t = { s with cores := t.cores, poison := t.poison, hbmBad := t.hbmBad, dir := t.dir, l2 := t.l2, counts := t.counts,
                      agenda := t.agenda, walkc := t.walkc }
  kept : GangsKept s t
  bad : BadFrom s t

namespace Walked
variable {s t u : State}
theorem refl (s : State) : Walked s s := ⟨rfl, (Calm.refl s).gangs, .refl s⟩
theorem trans (h : Walked s t) (k : Walked t u) : Walked s u := by
  refine ⟨?_, h.kept.trans k.kept, h.bad.trans k.bad⟩
  rw [k.rest, h.rest]
theorem mem (h : Walked s t) : t.mem = s.mem := by rw [h.rest]
theorem reqs (h : Walked s t) : t.reqs = s.reqs := by rw [h.rest]
theorem tlb (h : Walked s t) : t.tlb = s.tlb := by rw [h.rest]
theorem ctxs (h : Walked s t) : t.ctxs = s.ctxs := by rw [h.rest]
theorem spare (h : Walked s t) : t.spare = s.spare := by rw [h.rest]
theorem fills (h : Walked s t) : t.fills = s.fills := by rw [h.rest]
theorem fillq (h : Walked s t) : t.fillq = s.fillq := by rw [h.rest]
theorem fillBad (h : Walked s t) : t.fillBad = s.fillBad := by rw [h.rest]
theorem ctx (h : Walked s t) (c : Nat) : t.ctx c = s.ctx c := by rw [State.ctx, h.ctxs, State.ctx]
theorem rd (h : Walked s t) (a n : Nat) : t.rd a n = s.rd a n := State.rd_of_mem h.mem a n
end Walked

theorem State.observe_walked (s : State) (k i j d : Nat) : Walked s (s.observe k i j d) := ⟨rfl, (s.observe_calm ..).gangs, .of_eq rfl rfl⟩
theorem State.walkNote_walked (s : State) (ctx vpn level e : Nat) : Walked s (s.walkNote ctx vpn level e) := ⟨rfl, .of_cores rfl, .of_eq rfl rfl⟩
theorem Walked.of_home {s t : State} (h : HomeOnly s t) (hc : Calm s t) (hm : t.mem = s.mem) (hb : BadFrom s t) : Walked s t := by
  have hw : t.walkc = s.walkc := by rw [h]
  refine ⟨?_, hc.gangs, hb⟩
  unfold HomeOnly at h
  rw [hm, hc.reqs] at h
  rw [hw]
  exact h
theorem State.readEntry_walked (s : State) (pa : Nat) : Walked s (s.readEntry pa) :=
  .of_home (s.l2Use_home ..) (s.l2Use_calm ..) (s.l2Use_mem ..) (s.l2Use_bad ..)

/-! #### Leaves -/

/-- What `leaf` says of an entry (R27). -/
theorem pteKind_leaf {e level : Nat} (h : pteKind e level = .leaf) : ptePpn e % 512 ^ level = 0 ∧ (pteN e = true → level = 0) := by
  unfold pteKind at h
  grind
theorem leafFrame_eq {e level : Nat} (h : pteKind e level = .leaf) (vpn : Nat) : leafFrame e level vpn = framePage e level vpn := by
  obtain ⟨h0, hn⟩ := pteKind_leaf h
  unfold leafFrame framePage pteN at *
  by_cases hb : e.testBit 63 = true
  · simp [hb]
  · simp only [hb]
    have hd := Nat.div_add_mod (ptePpn e) (512 ^ level)
    rw [h0, Nat.add_zero, Nat.mul_comm] at hd
    simp [hd]
theorem pteAD_lt {e : Nat} (h : e < 256 ^ 8) (acc : Nat) : pteAD e acc < 256 ^ 8 := by
  unfold pteAD
  exact Nat.or_lt_two_pow (n := 64) h (by split <;> decide)

/-! #### The G-stage -/

/-- The place of the entry a walk of the G-stage reads. -/
def gEntry (base level page : Nat) : Nat := base + 8 * (if level = 4 then page / 512 ^ 4 else vpnIdx page level)
theorem State.gLeaf_iff {s : State} {page acc n base level : Nat} {x : Nat × Nat} : s.gLeaf page acc (n + 1) base level = some x ↔
    s.sound (gEntry base level page) 8 = true ∧
      (let e := s.rd (gEntry base level page) 8
       (pteKind e level = .next ∧ s.gLeaf page acc n (4096 * ptePpn e) (level - 1) = some x) ∨
       (pteKind e level = .leaf ∧ pteAllows e acc = true ∧ pteAD e acc = e ∧ (framePage e level page, e) = x)) := by
  rw [State.gLeaf]
  dsimp only
  rw [← gEntry]
  generalize s.rd (gEntry base level page) 8 = e
  cases hs : s.sound (gEntry base level page) 8 with
  | false => simp
  | true => cases hk : pteKind e level <;> simp [and_assoc]
/-- What a walk of the G-stage reaches does not change by another walk. -/
theorem Walked.gLeaf {s t : State} (h : Walked s t) {page acc n base level : Nat} {x : Nat × Nat} (hx : s.gLeaf page acc n base level = some x) :
    t.gLeaf page acc n base level = some x := by
  induction n generalizing base level with
  | zero => cases hx
  | succ n ih =>
    rw [State.gLeaf_iff] at hx ⊢
    rw [h.rd]
    exact ⟨h.bad.sound hx.1, hx.2.imp (fun hn => ⟨hn.1, ih hn.2⟩) id⟩
/-- R29: a walk of the G-stage to a leaf that permits the access and has nothing to set. -/
theorem gWalk_reaches {page acc : Nat} {x : Nat × Nat} {n : Nat} {s : State} {base level : Nat} (h : s.gLeaf page acc n base level = some x) :
    ∃ t, gWalk n s base level page acc = (t, .ok x) ∧ Walked s t := by
  induction n generalizing s base level with
  | zero => cases h
  | succ n ih =>
    obtain ⟨hs, hk⟩ := State.gLeaf_iff.mp h
    unfold gWalk
    dsimp only
    rw [← gEntry, if_neg (by rw [State.sound_inHbm hs]; decide), if_neg (by rw [State.sound_clean hs]; decide)]
    rcases hk with ⟨hk, hn⟩ | ⟨hk, ha, hd, rfl⟩
    · rw [hk]
      obtain ⟨t, ht, hw⟩ := ih ((s.readEntry_walked _).gLeaf hn)
      exact ⟨t, ht, (s.readEntry_walked _).trans hw⟩
    · rw [hk]
      dsimp only
      rw [if_pos ha, if_pos hd, hd, leafFrame_eq hk]
      exact ⟨_, rfl, s.readEntry_walked _⟩

/-- The address a guest physical address has, with the G-stage leaf; itself where the context has no G-stage. -/
def State.hostOf (s : State) (ctx gpa acc : Nat) : Option (Nat × Nat) :=
  if (s.ctx ctx).chgatp.toNat / 2 ^ 60 = 0 then some (gpa, noGStage)
  else (s.guest ctx gpa acc).map fun x => (4096 * x.1 + gpa % 4096, x.2)

theorem Walked.hostOf {s t : State} (h : Walked s t) {ctx gpa acc : Nat} {x : Nat × Nat} (hx : s.hostOf ctx gpa acc = some x) :
    t.hostOf ctx gpa acc = some x := by
  unfold State.hostOf State.guest at *
  rw [h.ctx]
  split at hx
  · next hc => rwa [if_pos hc]
  · next hc =>
    rw [if_neg hc]
    split at hx
    · next hg =>
      obtain ⟨y, hy, rfl⟩ := Option.map_eq_some_iff.mp hx
      rw [if_pos hg, h.gLeaf hy]
      rfl
    · cases hx
theorem State.gAddr_of_hostOf {s : State} {ctx gpa acc : Nat} {x : Nat × Nat} (h : s.hostOf ctx gpa acc = some x) :
    ∃ t, s.gAddr ctx gpa acc = (t, .ok x) ∧ Walked s t := by
  unfold State.hostOf at h
  unfold State.gAddr
  dsimp only
  split at h
  · next hc =>
    rw [if_pos hc, ← Option.some.inj h]
    exact ⟨s, rfl, .refl s⟩
  · next hc =>
    obtain ⟨y, hy, rfl⟩ := Option.map_eq_some_iff.mp h
    unfold State.guest at hy
    split at hy
    · next hg =>
      obtain ⟨t, ht, hw⟩ := gWalk_reaches hy
      rw [if_neg hc, if_neg (by omega), ht]
      exact ⟨t, rfl, hw⟩
    · cases hy

/-! #### The first stage -/

/-- R26: a pointer takes the walk to the next table. -/
theorem walkFrom_next {s : State} {ctx base level vpn : Nat} {x : Nat × Nat} (ha : s.hostOf ctx (base + 8 * vpnIdx vpn level) 0 = some x)
    (hs : s.sound x.1 8 = true) (hk : pteKind (s.rd x.1 8) level = .next) (n acc : Nat) :
    ∃ t, walkFrom (n + 1) s ctx base level vpn acc = walkFrom n t ctx (4096 * ptePpn (s.rd x.1 8)) (level - 1) vpn acc ∧ Walked s t := by
  obtain ⟨t, ht, hw⟩ := State.gAddr_of_hostOf ha
  have hs' := hw.bad.sound hs
  refine ⟨(t.readEntry x.1).walkNote ctx vpn level (s.rd x.1 8), ?_, hw.trans ((State.readEntry_walked ..).trans (State.walkNote_walked ..))⟩
  rw [walkFrom]
  dsimp only
  rw [ht]
  dsimp only
  rw [if_neg (by rw [State.sound_inHbm hs']; decide), if_neg (by rw [State.sound_clean hs']; decide), hw.rd, hk]
/-- A chain of pointers: the table of each step, and the place of its entry for the page. -/
structure Chain (s : State) (ctx vpn level k : Nat) (tab pa : Nat → Nat) : Prop where
  found : ∀ j, j < k → ∃ g, s.hostOf ctx (tab j + 8 * vpnIdx vpn (level - j)) 0 = some (pa j, g)
  sound : ∀ j, j < k → s.sound (pa j) 8 = true
  pointer : ∀ j, j < k → pteKind (s.rd (pa j) 8) (level - j) = .next
  table : ∀ j, j < k → tab (j + 1) = 4096 * ptePpn (s.rd (pa j) 8)
theorem Chain.walk {s : State} {ctx vpn level k : Nat} {tab pa : Nat → Nat} (h : Chain s ctx vpn level k tab pa) (n acc : Nat) :
    ∃ t, walkFrom (n + k) s ctx (tab 0) level vpn acc = walkFrom n t ctx (tab k) (level - k) vpn acc ∧ Walked s t := by
  induction k generalizing n with
  | zero => exact ⟨s, rfl, .refl s⟩
  | succ k ih =>
    obtain ⟨t, ht, hw⟩ := ih ⟨fun j hj => h.found j (by omega), fun j hj => h.sound j (by omega), fun j hj => h.pointer j (by omega),
      fun j hj => h.table j (by omega)⟩ (n + 1)
    obtain ⟨g, hg⟩ := h.found k (by omega)
    have hr := hw.rd (pa k) 8
    obtain ⟨u, hu, hv⟩ := walkFrom_next (hw.hostOf hg) (hw.bad.sound (h.sound k (by omega))) (by rw [hr]; exact h.pointer k (by omega)) n acc
    refine ⟨u, ?_, hw.trans hv⟩
    rw [show n + (k + 1) = n + 1 + k by omega, ht, hu, h.table k (by omega), hr, Nat.sub_sub]

/-- An entry and its companion, found and readable (R26, R33). -/
structure EntryRead (s : State) (ctx base level vpn pa cpa : Nat) : Prop where
  entry : ∃ g, s.hostOf ctx (base + 8 * vpnIdx vpn level) 0 = some (pa, g)
  sound : s.sound pa 8 = true
  companion : ∃ g, s.hostOf ctx (base + 8 * vpnIdx vpn level + 4096) 0 = some (cpa, g)
  csound : s.sound cpa 8 = true

/-- A place found and read without a bad word. -/
def State.Reads (s : State) (ctx gpa pa : Nat) : Prop :=
  ∃ t g, s.gAddr ctx gpa 0 = (t, .ok (pa, g)) ∧ Walked s t ∧ inHbm pa 8 = true ∧ t.poisoned pa 8 = false
theorem EntryRead.reads {s : State} {ctx base level vpn pa cpa : Nat} (h : EntryRead s ctx base level vpn pa cpa) :
    s.Reads ctx (base + 8 * vpnIdx vpn level) pa := by
  obtain ⟨g, hg⟩ := h.entry
  obtain ⟨t, ht, w⟩ := State.gAddr_of_hostOf hg
  exact ⟨t, g, ht, w, State.sound_inHbm h.sound, State.sound_clean (w.bad.sound h.sound)⟩

/-- The entry a leaf's translation is cached as. -/
def cachedPte (e acc ge fa : Nat) : Nat :=
  setBits (setBits (pteAD e acc) 62 61 (if ptePbmt e = 0 then ptePbmt ge else ptePbmt e)) 53 10 (fa / 4096)

section
variable {s : State} {ctx base level vpn pa cpa : Nat} (hr : s.Reads ctx (base + 8 * vpnIdx vpn level) pa)
  (hd : ∃ g, s.hostOf ctx (base + 8 * vpnIdx vpn level + 4096) 0 = some (cpa, g)) (hcs : s.sound cpa 8 = true)
include hr hd hcs

/-- R27, R33: a leaf that permits the access ends the walk, with A, and D for a store, set by a write where one was clear. -/
theorem walkFrom_leaf (hk : pteKind (s.rd pa 8) level = .leaf) {acc : Nat}
    (ha : pteAllows (s.rd pa 8) acc = true) (hc : compBad (s.rd cpa 8) level = false) {fa ge : Nat}
    (hf : s.hostOf ctx (4096 * framePage (s.rd pa 8) level vpn) acc = some (fa, ge))
    (hm : (if ptePbmt (s.rd pa 8) = 0 then ptePbmt ge else ptePbmt (s.rd pa 8)) ≠ 2) (hi : inHbm fa 4096 = true) {wpa : Nat}
    (hw : pteAD (s.rd pa 8) acc ≠ s.rd pa 8 → ∃ g, s.hostOf ctx (base + 8 * vpnIdx vpn level) 1 = some (wpa, g)) (n : Nat) :
    ∃ t, walkFrom (n + 1) s ctx base level vpn acc = ((if pteAD (s.rd pa 8) acc = s.rd pa 8 then t else t.writeEntry wpa (pteAD (s.rd pa 8) acc)),
      .ok (fa / 4096) (cachedPte (s.rd pa 8) acc ge fa) (s.rd cpa 8) level ge) ∧ Walked s t := by
  obtain ⟨t, g, ht, w1, hi8, hp8⟩ := hr
  obtain ⟨d, hd⟩ := hd
  have w2 := w1.trans (State.readEntry_walked t pa)
  obtain ⟨u, hu, w3⟩ := State.gAddr_of_hostOf (w2.hostOf hd)
  have w4 := (w2.trans w3).trans (State.readEntry_walked u cpa)
  obtain ⟨v, hv, w5⟩ := State.gAddr_of_hostOf (w4.hostOf hf)
  have w6 := w4.trans w5
  rw [walkFrom]
  dsimp only
  rw [ht]
  dsimp only
  rw [if_neg (by rw [hi8]; decide), if_neg (by rw [hp8]; decide), w1.rd, hk]
  dsimp only
  rw [if_neg (fun x => nomatch x.1), if_neg (fun x => nomatch x.1), hu]
  dsimp only
  rw [if_neg (by rw [State.sound_inHbm hcs]; decide), if_neg (by rw [State.sound_clean ((w2.trans w3).bad.sound hcs)]; decide),
    if_neg (fun x => nomatch x), if_neg (by rw [ha]; decide), (w2.trans w3).rd, if_neg (by rw [hc]; decide), leafFrame_eq hk, hv]
  dsimp only
  rw [if_neg (not_or.mpr ⟨hm, by rw [hi]; decide⟩)]
  by_cases he : pteAD (s.rd pa 8) acc = s.rd pa 8
  · rw [if_pos he]
    exact ⟨v, by rw [if_pos he]; rfl, w6⟩
  · obtain ⟨k, hk⟩ := hw he
    obtain ⟨z, hz, w7⟩ := State.gAddr_of_hostOf (w6.hostOf hk)
    rw [if_neg he, hz]
    exact ⟨z, by rw [if_neg he]; rfl, w6.trans w7⟩
/-- R36: a prepared entry asks for a fill. -/
theorem walkFrom_prepared (h0 : level = 0) (hk : pteKind (s.rd pa 8) 0 = .absent) (hf : bitsOf (s.rd pa 8) 63 54 ≠ 0x3FF)
    (hp : (s.rd cpa 8).testBit 59 = true) (hc : compBad (s.rd cpa 8) 0 = false) {wpa : Nat}
    (hw : ∃ g, s.hostOf ctx (base + 8 * vpnIdx vpn level) 1 = some (wpa, g)) (n acc : Nat) :
    ∃ t, walkFrom (n + 1) s ctx base level vpn acc = (t, .fill wpa (s.rd pa 8) (s.rd cpa 8)) ∧ Walked s t := by
  obtain ⟨t, g, ht, w1, hi8, hp8⟩ := hr
  obtain ⟨d, hd⟩ := hd
  have w2 := w1.trans (State.readEntry_walked t pa)
  obtain ⟨u, hu, w3⟩ := State.gAddr_of_hostOf (w2.hostOf hd)
  have w4 := (w2.trans w3).trans (State.readEntry_walked u cpa)
  subst h0
  obtain ⟨k, hk'⟩ := hw
  obtain ⟨z, hz, w5⟩ := State.gAddr_of_hostOf (w4.hostOf hk')
  refine ⟨z, ?_, w4.trans w5⟩
  rw [walkFrom]
  dsimp only
  rw [ht]
  dsimp only
  rw [if_neg (by rw [hi8]; decide), if_neg (by rw [hp8]; decide), w1.rd, hk]
  dsimp only
  rw [if_neg (fun x => x.2 rfl), if_neg (fun x => hf x.2), hu]
  dsimp only
  rw [if_neg (by rw [State.sound_inHbm hcs]; decide), if_neg (by rw [State.sound_clean ((w2.trans w3).bad.sound hcs)]; decide), if_pos rfl,
    (w2.trans w3).rd, if_neg (by rw [hp]; decide), if_neg (by rw [hc]; decide), hz]
end

/-! #### Translations -/

/-- The state after a look-up that misses. -/
def State.missed (s : State) (ctx va : Nat) : State := (s.observe 2 (tslice ctx va) 3 1).observe 2 (tslice ctx va) 4 1
theorem State.missed_walked (s : State) (ctx va : Nat) : Walked s (s.missed ctx va) := (s.observe_walked ..).trans (State.observe_walked ..)

/-- A walk's translation is entered; its other ends enter nothing. -/
def State.entered (ctx vpn : Nat) : State × Trans → State × Trans
  | (t, .ok f e c l g) => (t.tlbInstall ctx vpn e c l g, .ok f e c l g)
  | r => r
theorem State.translate_missed {s : State} {ctx va acc : Nat} (hmiss : ∀ e, s.tlbFind ctx (va / 4096) = some e → e.serves acc = false) :
    s.translate ctx va acc = State.entered ctx (va / 4096)
      (walkFrom 5 (s.missed ctx va) ctx (s.walkStart ctx (va / 4096)).1 (s.walkStart ctx (va / 4096)).2 (va / 4096) acc) := by
  unfold State.translate
  dsimp only
  split
  · next e he =>
    rw [if_pos (by rw [hmiss e he]; rfl)]
    rfl
  · rfl

/-! #### What a piece becomes -/

/-- The mapping of a cached entry, which its migration fields do not touch. -/
def Tlb.sameMap (x y : Tlb) : Prop := y.ctx = x.ctx ∧ y.vpn = x.vpn ∧ y.pte = x.pte
/-- Memory and requests stay, and every cached entry keeps its mapping. -/
structure MapsStay (s t : State) : Prop where
  mem : t.mem = s.mem
  reqs : t.reqs = s.reqs
  tlb : ∃ f : Tlb → Tlb, t.tlb = s.tlb.map f ∧ ∀ x : Tlb, x.sameMap (f x)

theorem MapsStay.of_tlb {s t : State} (hm : t.mem = s.mem) (hr : t.reqs = s.reqs) (ht : t.tlb = s.tlb) : MapsStay s t :=
  ⟨hm, hr, id, by rw [ht, List.map_id], fun _ => ⟨rfl, rfl, rfl⟩⟩
theorem MapsStay.trans {s t u : State} (h : MapsStay s t) (k : MapsStay t u) : MapsStay s u := by
  obtain ⟨f, hf, hs⟩ := h.tlb
  obtain ⟨g, hg, ht⟩ := k.tlb
  refine ⟨k.mem.trans h.mem, k.reqs.trans h.reqs, g ∘ f, by rw [hg, hf, List.map_map], fun x => ?_⟩
  obtain ⟨h1, h2, h3⟩ := hs x
  obtain ⟨k1, k2, k3⟩ := ht (f x)
  exact ⟨k1.trans h1, k2.trans h2, k3.trans h3⟩
/-- An entry of which only the migration fields change. -/
theorem MapsStay.of_entry (s : State) {t u : Tlb} (h : t.sameMap u) : MapsStay s { s with tlb := s.tlb.map (fun x => if x = t then u else x) } := by
  refine ⟨rfl, rfl, _, rfl, fun x => ?_⟩
  split
  · next hx => rw [hx]; exact h
  · exact ⟨rfl, rfl, rfl⟩
theorem MapsStay.tlbFind {s t : State} (h : MapsStay s t) {ctx vpn : Nat} {x : Tlb} (hx : s.tlbFind ctx vpn = some x) :
    ∃ y, t.tlbFind ctx vpn = some y ∧ y.pte = x.pte := by
  obtain ⟨f, hf, hs⟩ := h.tlb
  refine ⟨f x, ?_, (hs x).2.2⟩
  have hp : ((fun e : Tlb => e.ctx == ctx && e.vpn == vpn) ∘ f) = fun e => e.ctx == ctx && e.vpn == vpn := by
    funext e
    obtain ⟨h1, h2, -⟩ := hs e
    simp only [Function.comp, h1, h2]
  rw [State.tlbFind] at hx ⊢
  rw [hf, List.find?_map, hp, hx]
  rfl
theorem State.migTouch_maps (s : State) (ctx vpn : Nat) (peer : Option (Nat × Nat)) : MapsStay s (s.migTouch ctx vpn peer) := by
  have hid : MapsStay s s := .of_tlb rfl rfl rfl
  unfold State.migTouch
  split
  · exact hid
  · next t ht =>
    dsimp only
    split
    · exact hid
    · split
      · exact .of_entry s ⟨rfl, rfl, rfl⟩
      · next d x =>
        obtain ⟨u, hu, hs⟩ : ∃ u, (if t.req = d ∧ t.rqctx = x then { t with cnt := min 255 (t.cnt + 1) } else { t with req := d, rqctx := x, cnt := 1 }) = u ∧
            t.sameMap u := ⟨_, rfl, by split <;> exact ⟨rfl, rfl, rfl⟩⟩
        rw [hu]
        split
        · exact .of_entry s hs
        · split
          · exact .of_entry s hs
          · exact (MapsStay.of_entry s (u := { u with cnt := 0 }) hs).trans (.of_tlb (State.send_mem ..) (State.send_reqs ..) (State.send_tlb ..))
theorem State.watchPiece_maps (s : State) (r : Req) (l : LaneAcc) : MapsStay s (s.watchPiece r l) := by
  unfold State.watchPiece State.watch
  dsimp only
  split
  · split <;> exact .of_tlb rfl rfl rfl
  · exact .of_tlb rfl rfl rfl
theorem State.setPiece_eq (s : State) (id i : Nat) (m : LaneAcc) : s.setPiece id i m = { s with reqs := (s.setPiece id i m).reqs } := by
  unfold State.setPiece
  split <;> rfl
theorem State.setPiece_tlb (s : State) (id i : Nat) (m : LaneAcc) : (s.setPiece id i m).tlb = s.tlb := by rw [State.setPiece_eq]

/-- R27, R32: a raw access with its translation is sent on at its physical address; its page stays cached. -/
theorem State.placePiece_sent {s : State} {id : Nat} {r : Req} (hr : mget? s.reqs id = some r) (i : Nat) {l : LaneAcc} (hl : l.fmt = 0) (frame pte : Nat)
    {comp : Nat} (hf : bitsOf comp 63 61 = 0) (level : Nat) :
    ∃ m, PieceBecomes s (s.placePiece id i r l frame pte comp level) id i r m ∧ m.stage = 1 ∧ m.pa = 4096 * frame + l.ia.toNat % 2 ^ 57 % 4096 ∧
      m.ia = l.ia ∧ m.cause = l.cause ∧ (s.placePiece id i r l frame pte comp level).mem = s.mem ∧
      ∀ ctx vpn x, s.tlbFind ctx vpn = some x → ∃ y, (s.placePiece id i r l frame pte comp level).tlbFind ctx vpn = some y ∧ y.pte = x.pte := by
  unfold State.placePiece
  dsimp only
  rw [if_neg (by simp [hf]), if_neg (by simp [hf, hl])]
  have hs (t : State) (h : MapsStay s t) : MapsStay s (t.watchPiece r l) := h.trans (t.watchPiece_maps r l)
  have hk : MapsStay s (if (r.lanes.any fun m => m.seen && m.lane == l.lane && m.ia.toNat / 4096 == l.ia.toNat / 4096) = true then s
      else s.migTouch r.ctx (l.ia.toNat % 2 ^ 57 / 4096) (r.peer.map fun p => (p.1, p.2.1))) := by
    split
    · exact .of_tlb rfl rfl rfl
    · exact s.migTouch_maps ..
  have hw := hs _ hk
  generalize State.watchPiece _ r l = t at hw ⊢
  refine ⟨_, State.setPiece_becomes i _ (by rw [hw.reqs]; exact hr) (.of_eq id hw.reqs), rfl, rfl, rfl, rfl, (State.setPiece_mem ..).trans hw.mem,
    fun ctx vpn x hx => ?_⟩
  obtain ⟨y, hy, hp⟩ := hw.tlbFind hx
  refine ⟨y, ?_, hp⟩
  rw [State.tlbFind, State.setPiece_tlb]
  exact hy

/-- R42, R43: a fault with an escalated cause binds the piece to an open record of its page. -/
theorem State.recordFault_open (s : State) (ctx page cause acc gpa core : Nat) : ∃ x ∈ (s.recordFault ctx page cause acc gpa core).1.recs,
    (x.ring, x.seq) = (s.recordFault ctx page cause acc gpa core).2 ∧ x.ctx = ctx ∧ x.ia = page ∧ x.cause = cause ∧ x.answer = none := by
  unfold State.recordFault
  split
  · next r hr =>
    have hp := List.find?_some hr
    simp only [Bool.and_eq_true, beq_iff_eq, Option.isNone_iff_eq_none] at hp
    obtain ⟨⟨⟨hc, hi⟩, hk⟩, ha⟩ := hp
    exact ⟨r, List.mem_of_find?_eq_some hr, rfl, hc, hi, hk, ha⟩
  · exact ⟨_, List.mem_append_right _ (List.mem_singleton.mpr rfl), rfl, rfl, rfl, rfl, rfl⟩
theorem State.recordFault_calm (s : State) (ctx page cause acc gpa core : Nat) : Calm s (s.recordFault ctx page cause acc gpa core).1 := by
  unfold State.recordFault
  split <;> exact .of_cores rfl rfl
theorem State.setPiece_recs (s : State) (id i : Nat) (m : LaneAcc) : (s.setPiece id i m).recs = s.recs := by rw [State.setPiece_eq]
theorem State.setPiece_spare (s : State) (id i : Nat) (m : LaneAcc) : (s.setPiece id i m).spare = s.spare := by rw [State.setPiece_eq]
theorem State.setPiece_fills (s : State) (id i : Nat) (m : LaneAcc) : (s.setPiece id i m).fills = s.fills := by rw [State.setPiece_eq]
theorem State.cleanLog_recs (s : State) (c : Nat) : (s.cleanLog c).recs = s.recs := by
  unfold State.cleanLog
  dsimp only
  split <;> rfl
theorem State.failPiece_faulted {s t : State} {id : Nat} {r : Req} (hr : mget? s.reqs id = some r) (ht : t.reqs = s.reqs) (i : Nat) (l : LaneAcc) {cause : Nat}
    (hc : escalated cause = true) (h1 : r.kind ≠ .lblk) (h2 : r.kind ≠ .pref) (h3 : r.slot ≠ peekSlot) (acc gpa page c : Nat) :
    Faulted s ((t.failPiece id i cause acc gpa r l page).cleanLog c) id i r cause page ∧
      MemKept t ((t.failPiece id i cause acc gpa r l page).cleanLog c) ∧ GangsKept t ((t.failPiece id i cause acc gpa r l page).cleanLog c) := by
  have hf : t.failPiece id i cause acc gpa r l page = (t.recordFault r.ctx page cause acc gpa r.core).1.setPiece id i
      { l with stage := 3, cause := cause, frec := some (t.recordFault r.ctx page cause acc gpa r.core).2 } := by
    unfold State.failPiece
    rw [if_neg (not_or.mpr ⟨h1, h2⟩)]
    exact if_pos ⟨hc, h3⟩
  rw [hf]
  have hk := t.recordFault_calm r.ctx page cause acc gpa r.core
  have hm := t.recordFault_mem r.ctx page cause acc gpa r.core
  obtain ⟨x, hx, h⟩ := t.recordFault_open r.ctx page cause acc gpa r.core
  generalize t.recordFault r.ctx page cause acc gpa r.core = u at hk hm hx h ⊢
  have hq : u.1.reqs = s.reqs := hk.reqs.trans ht
  refine ⟨⟨_, u.2, (State.setPiece_becomes i _ (by rw [hq]; exact hr) (.of_eq id hq)).of_reqs (State.cleanLog_calm _ c).reqs,
    rfl, rfl, rfl, x, ?_, h⟩, ?_, ?_⟩
  · rw [State.cleanLog_recs, State.setPiece_recs]
    exact hx
  · exact .of_eq ((State.cleanLog_mem _ c).trans ((State.setPiece_mem ..).trans hm))
  · exact (hk.gangs.trans (State.setPiece_kept ..)).trans (State.cleanLog_calm _ c).gangs

/-! #### The translation of an access -/

/-- A translation entered is found. -/
theorem State.tlbInstall_found (s : State) (ctx vpn pte comp level gpte : Nat) :
    ∃ x, (s.tlbInstall ctx vpn pte comp level gpte).tlbFind ctx vpn = some x ∧ x.pte = BitVec.ofNat 64 pte := by
  have ho : ∀ x ∈ s.tlb.filter (fun t => !(t.ctx == ctx && t.vpn == vpn)), ¬(x.ctx == ctx && x.vpn == vpn) = true := by
    intro x hx hp
    have hn := (List.mem_filter.mp hx).2
    rw [hp] at hn
    cases hn
  unfold State.tlbInstall State.tlbFind
  dsimp only
  generalize s.tlb.filter (fun t => !(t.ctx == ctx && t.vpn == vpn)) = os at ho ⊢
  rw [List.find?_append, List.find?_eq_none.mpr]
  · rw [Option.none_or, List.find?_cons_of_pos (by simp)]
    exact ⟨_, rfl, rfl⟩
  · intro x hx
    refine ho x ?_
    split at hx
    · exact hx
    · split at hx
      · exact List.mem_of_mem_erase hx
      · exact hx
theorem ptePpn_cachedPte {fa : Nat} (h : inHbm fa 4096 = true) (e acc ge : Nat) : ptePpn (BitVec.ofNat 64 (cachedPte e acc ge fa)).toNat = fa / 4096 := by
  have hf : fa + 4096 ≤ hbmSize := of_decide_eq_true h
  have hs : hbmSize < 2 ^ 56 := by decide
  rw [BitVec.toNat_ofNat]
  unfold ptePpn bitsOf cachedPte setBits
  dsimp only
  rw [Nat.shiftRight_eq_div_pow]
  omega

/-- No walk-cache entry of the context: a walk starts at the root. -/
theorem State.walkStart_cold {s : State} {ctx : Nat} (h : ∀ w ∈ s.walkc, w.ctx ≠ ctx) (vpn : Nat) :
    s.walkStart ctx vpn = (4096 * ((s.ctx ctx).catp.toNat % 2 ^ 44), 4) := by
  have hn (level : Nat) : s.walkOf ctx vpn level = none := by
    rw [State.walkOf, List.find?_eq_none]
    intro w hw
    simp [h w hw]
  simp [State.walkStart, hn]
/-- An entry of level 1 is the deepest. -/
theorem State.walkStart_of_walkOf {s : State} {ctx vpn : Nat} {w : WalkEntry} (h : s.walkOf ctx vpn 1 = some w) :
    s.walkStart ctx vpn = (4096 * ptePpn w.pte.toNat, 0) := by
  have hl : w.level = 1 := by
    have hp := List.find?_some h
    simp only [Bool.and_eq_true, beq_iff_eq] at hp
    exact hp.1.2
  simp [State.walkStart, h, hl]

theorem Chain.mono {s t : State} (w : Walked s t) {ctx vpn level k : Nat} {tab pa : Nat → Nat} (h : Chain s ctx vpn level k tab pa) :
    Chain t ctx vpn level k tab pa := by
  refine ⟨fun j hj => ?_, fun j hj => w.bad.sound (h.sound j hj), fun j hj => ?_, fun j hj => ?_⟩
  · obtain ⟨g, hg⟩ := h.found j hj
    exact ⟨g, w.hostOf hg⟩
  · rw [w.rd]
    exact h.pointer j hj
  · rw [w.rd]
    exact h.table j hj
theorem EntryRead.mono {s t : State} (w : Walked s t) {ctx base level vpn pa cpa : Nat} (h : EntryRead s ctx base level vpn pa cpa) :
    EntryRead t ctx base level vpn pa cpa := by
  obtain ⟨⟨g, hg⟩, hs, ⟨d, hd⟩, hc⟩ := h
  exact ⟨⟨g, w.hostOf hg⟩, w.bad.sound hs, ⟨d, w.hostOf hd⟩, w.bad.sound hc⟩

/-- An entry with A, and D for a store, set by a write where one was clear (R27). -/
def State.leafSet (s : State) (wpa e acc : Nat) : State := if pteAD e acc = e then s else s.writeEntry wpa (pteAD e acc)
theorem State.leafSet_calm (s : State) (wpa e acc : Nat) : Calm s (s.leafSet wpa e acc) := .ite (.refl s) (s.writeEntry_calm ..)
theorem State.leafSet_mem (s : State) (wpa : Nat) {e acc : Nat} (h : pteAD e acc = e) : (s.leafSet wpa e acc).mem = s.mem := by
  rw [State.leafSet, if_pos h]
theorem State.leafSet_kept (s : State) (wpa e acc : Nat) : KeptOutside s (s.leafSet wpa e acc) wpa 8 := by
  unfold State.leafSet
  split
  · exact fun _ _ => rfl
  · rw [← bytesLE_length 8]
    exact .of_put (s.writeEntry_mem ..)
theorem State.leafSet_rd {s : State} (hw : Mem.wf s.mem = true) (wpa acc : Nat) :
    (s.leafSet wpa (s.rd wpa 8) acc).rd wpa 8 = pteAD (s.rd wpa 8) acc := by
  unfold State.leafSet
  split
  · next h => exact h.symm
  · rw [State.rd_put hw (s.writeEntry_mem ..), Nat.mod_eq_of_lt (pteAD_lt (s.rd_lt wpa 8) acc)]

/-- The one byte range a walk changes is its leaf's. -/
theorem Walked.leaf_set {s t u : State} (w : Walked s t) (hw : Mem.wf s.mem = true) {leaf e acc : Nat} (hu : u.mem = (t.leafSet leaf e acc).mem)
    (he : s.rd leaf 8 = e) : KeptOutside s u leaf 8 ∧ u.rd leaf 8 = pteAD e acc := by
  have hk := t.leafSet_kept leaf e acc
  have hr : (t.leafSet leaf (t.rd leaf 8) acc).rd leaf 8 = pteAD (t.rd leaf 8) acc := State.leafSet_rd (by rw [w.mem]; exact hw) leaf acc
  rw [w.rd, he] at hr
  refine ⟨fun a ha => ?_, (State.rd_of_mem hu ..).trans hr⟩
  rw [hu, hk a ha, w.mem]

/-- A walk from where it begins, by a chain of pointers, to a leaf entry. -/
structure WalkPath (s : State) (ctx va acc level k : Nat) (tab pa : Nat → Nat) (cpa : Nat) : Prop where
  fuel : level + k ≤ 4
  miss : ∀ e, s.tlbFind ctx (va / 4096) = some e → e.serves acc = false
  start : s.walkStart ctx (va / 4096) = (tab 0, level + k)
  chain : Chain s ctx (va / 4096) (level + k) k tab pa
  entry : EntryRead s ctx (tab k) level (va / 4096) (pa k) cpa

theorem WalkPath.reaches {s : State} {ctx va acc level k : Nat} {tab pa : Nat → Nat} {cpa : Nat} (h : WalkPath s ctx va acc level k tab pa cpa) :
    ∃ n t, walkFrom 5 (s.missed ctx va) ctx (s.walkStart ctx (va / 4096)).1 (s.walkStart ctx (va / 4096)).2 (va / 4096) acc =
      walkFrom (n + 1) t ctx (tab k) level (va / 4096) acc ∧ Walked s t := by
  have hw := s.missed_walked ctx va
  obtain ⟨t, ht, hv⟩ := (h.chain.mono hw).walk (4 - k + 1) acc
  refine ⟨4 - k, t, ?_, hw.trans hv⟩
  have hf := h.fuel
  rw [h.start]
  rw [show 4 - k + 1 + k = 5 by omega, Nat.add_sub_cancel] at ht
  exact ht
/-- R26, R27: the walk's leaf is entered and answered. -/
theorem WalkPath.translate_leaf {s : State} {ctx va acc level k : Nat} {tab pa : Nat → Nat} {cpa : Nat} (h : WalkPath s ctx va acc level k tab pa cpa)
    (hk : pteKind (s.rd (pa k) 8) level = .leaf) (ha : pteAllows (s.rd (pa k) 8) acc = true) (hc : compBad (s.rd cpa 8) level = false) {fa ge : Nat}
    (hf : s.hostOf ctx (4096 * framePage (s.rd (pa k) 8) level (va / 4096)) acc = some (fa, ge))
    (hm : (if ptePbmt (s.rd (pa k) 8) = 0 then ptePbmt ge else ptePbmt (s.rd (pa k) 8)) ≠ 2) (hi : inHbm fa 4096 = true) {wpa : Nat}
    (hw : pteAD (s.rd (pa k) 8) acc ≠ s.rd (pa k) 8 → ∃ g, s.hostOf ctx (tab k + 8 * vpnIdx (va / 4096) level) 1 = some (wpa, g)) :
    ∃ t, Walked s t ∧ s.translate ctx va acc = ((t.leafSet wpa (s.rd (pa k) 8) acc).tlbInstall ctx (va / 4096) (cachedPte (s.rd (pa k) 8) acc ge fa)
      (s.rd cpa 8) level ge, .ok (fa / 4096) (cachedPte (s.rd (pa k) 8) acc ge fa) (s.rd cpa 8) level ge) := by
  obtain ⟨n, t, ht, hv⟩ := h.reaches
  have he := h.entry.mono hv
  obtain ⟨u, hu, hx⟩ := walkFrom_leaf he.reads he.companion he.csound (by rw [hv.rd]; exact hk) (by rw [hv.rd]; exact ha) (by rw [hv.rd]; exact hc)
    (by rw [hv.rd]; exact hv.hostOf hf) (by rw [hv.rd]; exact hm) hi (wpa := wpa) (by
      rw [hv.rd]
      exact fun hne => (hw hne).imp fun g hg => hv.hostOf hg) n
  refine ⟨u, hv.trans hx, ?_⟩
  rw [State.translate_missed h.miss, ht, hu, hv.rd, hv.rd]
  rfl
/-- R36: the walk's prepared entry asks for a fill. -/
theorem WalkPath.translate_prepared {s : State} {ctx va acc k : Nat} {tab pa : Nat → Nat} {cpa : Nat} (h : WalkPath s ctx va acc 0 k tab pa cpa)
    (hk : pteKind (s.rd (pa k) 8) 0 = .absent) (hf : bitsOf (s.rd (pa k) 8) 63 54 ≠ 0x3FF) (hp : (s.rd cpa 8).testBit 59 = true)
    (hc : compBad (s.rd cpa 8) 0 = false) {wpa : Nat} (hw : ∃ g, s.hostOf ctx (tab k + 8 * vpnIdx (va / 4096) 0) 1 = some (wpa, g)) :
    ∃ t, Walked s t ∧ s.translate ctx va acc = (t, .fill wpa (s.rd (pa k) 8) (s.rd cpa 8)) := by
  obtain ⟨n, t, ht, hv⟩ := h.reaches
  have he := h.entry.mono hv
  obtain ⟨u, hu, hx⟩ := walkFrom_prepared he.reads he.companion he.csound rfl (by rw [hv.rd]; exact hk) (by rw [hv.rd]; exact hf) (by rw [hv.rd]; exact hp)
    (by rw [hv.rd]; exact hc) (hw.imp fun g hg => hv.hostOf hg) n acc
  refine ⟨u, hv.trans hx, ?_⟩
  rw [State.translate_missed h.miss, ht, hu, hv.rd, hv.rd]
  rfl

theorem State.hostOf_bare {s : State} {ctx : Nat} (h : (s.ctx ctx).chgatp.toNat / 2 ^ 60 = 0) (gpa acc : Nat) :
    s.hostOf ctx gpa acc = some (gpa, noGStage) := if_pos h
theorem State.hostOf_guest {s : State} {ctx : Nat} (h : (s.ctx ctx).chgatp.toNat / 2 ^ 60 ≠ 0) {gpa acc : Nat} {x : Nat × Nat}
    (hx : s.guest ctx gpa acc = some x) : s.hostOf ctx gpa acc = some (4096 * x.1 + gpa % 4096, x.2) := by
  rw [State.hostOf, if_neg h, hx]
  rfl
theorem WalksTo.path {s : State} {ctx va acc level : Nat} (h : WalksTo s ctx (va / 4096) acc level) :
    WalkPath s ctx va acc level (4 - level) (s.tableAt (4096 * ((s.ctx ctx).catp.toNat % 2 ^ 44)) (va / 4096))
      (s.entryAt (4096 * ((s.ctx ctx).catp.toNat % 2 ^ 44)) (va / 4096)) (s.leafAt ctx (va / 4096) level + 4096) := by
  have hl : level ≤ 4 := h.low.trans (by decide)
  have hk : level + (4 - level) = 4 := Nat.add_sub_of_le hl
  refine ⟨hk.le, h.miss, (State.walkStart_cold h.cold _).trans (by rw [hk]; rfl),
    ⟨fun j hj => ⟨noGStage, ?_⟩, fun j hj => h.readable j hj.le, fun j hj => ?_,
    fun j hj => rfl⟩, ⟨noGStage, ?_⟩, h.readable _ (Nat.le_refl _), ⟨noGStage, ?_⟩, h.companion⟩
  · rw [State.hostOf_bare h.bare, hk]
    rfl
  · rw [hk]
    exact h.pointers j hj
  · rw [State.hostOf_bare h.bare, State.entryAt, Nat.sub_sub_self hl]
  · rw [State.hostOf_bare h.bare, State.leafAt, State.entryAt, Nat.sub_sub_self hl]
theorem GuestWalksTo.path {s : State} {ctx va acc level : Nat} {tab pa : Nat → Nat} {cpa : Nat} (h : GuestWalksTo s ctx (va / 4096) acc level tab pa cpa) :
    WalkPath s ctx va acc level (4 - level) tab pa cpa := by
  have hl : level ≤ 4 := h.low.trans (by decide)
  have hk : level + (4 - level) = 4 := Nat.add_sub_of_le hl
  have hf (j : Nat) (hj : j ≤ 4 - level) : ∃ g, s.hostOf ctx (tab j + 8 * vpnIdx (va / 4096) (4 - j)) 0 = some (pa j, g) := by
    obtain ⟨x, hx, hp⟩ := h.mapped j hj
    exact ⟨x.2, by rw [State.hostOf_guest h.staged hx, hp]⟩
  obtain ⟨hc, x, hx, hp⟩ := h.companion
  refine ⟨hk.le, h.miss, (State.walkStart_cold h.cold _).trans (by rw [hk, h.root]), ⟨fun j hj => ?_, fun j hj => h.readable j hj.le, fun j hj => ?_,
    h.tables⟩, ?_, h.readable _ (Nat.le_refl _), ⟨x.2, ?_⟩, hc⟩
  · rw [hk]
    exact hf j hj.le
  · rw [hk]
    exact h.pointers j hj
  · have := hf (4 - level) (Nat.le_refl _)
    rwa [Nat.sub_sub_self hl] at this
  · rw [State.hostOf_guest h.staged hx, hp, Nat.add_mod_right]

/-- What an access that is sent on has become: at its physical address, its page's cached translation kept. -/
structure SentOn (s t u : State) (id i : Nat) (r : Req) (l m : LaneAcc) (pa : Nat) : Prop where
  piece : PieceBecomes s u id i r m
  stage : m.stage = 1
  place : m.pa = pa
  addr : m.ia = l.ia
  cause : m.cause = l.cause
  mem : u.mem = t.mem
  cached : ∀ ctx vpn x, t.tlbFind ctx vpn = some x → ∃ y, u.tlbFind ctx vpn = some y ∧ y.pte = x.pte

section
variable {s : State} {id i : Nat} {r : Req} {l : LaneAcc} (hp : PieceAt s id i r l) (hl : l.stage = 0)
  (hm : s.migrating r.ctx (l.ia.toNat % 2 ^ 57 / 4096) = false)
include hp hl hm

theorem exec_translateAccess {t : State} {x : Trans} (ht : s.translate r.ctx (l.ia.toNat % 2 ^ 57) r.acc = (t, x)) :
    (∀ f e c lv g, x = .ok f e c lv g → exec .translateAccess s = .next (t.placePiece id i r l f e c lv)) ∧
    (∀ c g a, x = .fault c g a →
      exec .translateAccess s = .next ((t.failPiece id i c a g r l (l.ia.toNat % 2 ^ 57 / 4096 * 4096)).cleanLog r.core)) ∧
    ∀ pa e c u, x = .fill pa e c → r.kind ≠ .pref → t.startFill r.ctx (l.ia.toNat % 2 ^ 57) r.acc pa e = (u, none) →
      exec .translateAccess s = .next (u.setPiece id i { l with stage := 5 }) := by
  obtain ⟨he, hr, hi⟩ := hp
  rw [show exec .translateAccess s = execTranslateAccess s from rfl, execTranslateAccess, he]
  dsimp only
  rw [State.req, hr]
  dsimp only
  rw [hi]
  dsimp only
  rw [if_neg (not_not.mpr hl), if_neg (by rw [hm]; decide), ht]
  refine ⟨?_, ?_, ?_⟩
  · rintro f e c lv g rfl
    rfl
  · rintro c g a rfl
    rfl
  · rintro pa e c u rfl hk hu
    dsimp only
    rw [if_neg hk, hu]
theorem exec_translateAccess_sent (hf : l.fmt = 0) {t : State} {f e c lv g : Nat} (ht : s.translate r.ctx (l.ia.toNat % 2 ^ 57) r.acc = (t, .ok f e c lv g))
    (hq : t.reqs = s.reqs) (hc : bitsOf c 63 61 = 0) :
    ∃ u m, exec .translateAccess s = .next u ∧ SentOn s t u id i r l m (4096 * f + l.ia.toNat % 2 ^ 57 % 4096) := by
  obtain ⟨hx, -⟩ := exec_translateAccess hp hl hm ht
  obtain ⟨m, hb, h1, h2, h3, h4, h5, h6⟩ := State.placePiece_sent (s := t) (by rw [hq]; exact hp.2.1) i hf f e hc lv
  exact ⟨_, m, hx _ _ _ _ _ rfl, ⟨hb.1, fun j hj => by have := hb.2 j hj; rwa [hq] at this⟩, h1, h2, h3, h4, h5, h6⟩
theorem exec_translateAccess_faulted {t : State} {c g a : Nat} (ht : s.translate r.ctx (l.ia.toNat % 2 ^ 57) r.acc = (t, .fault c g a))
    (w : Walked s t) (hc : escalated c = true) (h1 : r.kind ≠ .lblk) (h2 : r.kind ≠ .pref) (h3 : r.slot ≠ peekSlot) :
    ∃ u, exec .translateAccess s = .next u ∧ MemKept s u ∧ GangsKept s u ∧ Faulted s u id i r c (4096 * (l.ia.toNat % 2 ^ 57 / 4096)) := by
  obtain ⟨-, hx, -⟩ := exec_translateAccess hp hl hm ht
  obtain ⟨hf, hk, hg⟩ := State.failPiece_faulted hp.2.1 w.reqs i l hc h1 h2 h3 a g (l.ia.toNat % 2 ^ 57 / 4096 * 4096) r.core
  refine ⟨_, hx _ _ _ rfl, fun b => (hk b).trans (by rw [w.mem]), w.kept.trans hg, ?_⟩
  rw [Nat.mul_comm 4096]
  exact hf
/-- R26, R27: an access whose walk reaches a leaf that permits it. -/
theorem exec_translateAccess_walked (hf : l.fmt = 0) {level k : Nat} {tab pa : Nat → Nat} {cpa : Nat}
    (h : WalkPath s r.ctx (l.ia.toNat % 2 ^ 57) r.acc level k tab pa cpa)
    (hk : pteKind (s.rd (pa k) 8) level = .leaf) (ha : pteAllows (s.rd (pa k) 8) r.acc = true) (hc : compBad (s.rd cpa 8) level = false)
    (h0 : bitsOf (s.rd cpa 8) 63 61 = 0) {fa ge : Nat}
    (hh : s.hostOf r.ctx (4096 * framePage (s.rd (pa k) 8) level (l.ia.toNat % 2 ^ 57 / 4096)) r.acc = some (fa, ge))
    (hb : (if ptePbmt (s.rd (pa k) 8) = 0 then ptePbmt ge else ptePbmt (s.rd (pa k) 8)) ≠ 2) (hi : inHbm fa 4096 = true) {wpa : Nat}
    (hw : pteAD (s.rd (pa k) 8) r.acc ≠ s.rd (pa k) 8 →
      ∃ g, s.hostOf r.ctx (tab k + 8 * vpnIdx (l.ia.toNat % 2 ^ 57 / 4096) level) 1 = some (wpa, g)) :
    ∃ t u m, Walked s t ∧ exec .translateAccess s = .next u ∧ u.mem = (t.leafSet wpa (s.rd (pa k) 8) r.acc).mem ∧
      PieceBecomes s u id i r m ∧ m.stage = 1 ∧ m.pa = 4096 * (fa / 4096) + l.ia.toNat % 2 ^ 57 % 4096 ∧
      ∃ x, u.tlbFind r.ctx (l.ia.toNat % 2 ^ 57 / 4096) = some x ∧ ptePpn x.pte.toNat = fa / 4096 := by
  obtain ⟨t, w, ht⟩ := h.translate_leaf hk ha hc hh hb hi hw
  obtain ⟨u, m, hu, hs⟩ := exec_translateAccess_sent hp hl hm hf ht (((t.leafSet_calm ..).reqs).trans w.reqs) h0
  obtain ⟨x, hx, hxp⟩ := State.tlbInstall_found (t.leafSet wpa (s.rd (pa k) 8) r.acc) r.ctx (l.ia.toNat % 2 ^ 57 / 4096)
    (cachedPte (s.rd (pa k) 8) r.acc ge fa) (s.rd cpa 8) level ge
  obtain ⟨y, hy, hyp⟩ := hs.cached _ _ _ hx
  refine ⟨t, u, m, w, hu, hs.mem.trans (State.tlbInstall_mem ..), hs.piece, hs.stage, hs.place, y, hy, ?_⟩
  rw [hyp, hxp, ptePpn_cachedPte hi]
end

theorem pteKind_even {e : Nat} (h : e % 2 = 0) (level : Nat) : pteKind e level = .absent := by
  unfold pteKind
  dsimp only
  rw [if_pos (by simp [Nat.testBit_zero, h])]
/-- R26: no table at the root's entry. -/
theorem walkFrom_rootless {s : State} {ctx base vpn level : Nat} (hb : (s.ctx ctx).chgatp.toNat / 2 ^ 60 = 0) (hl : level ≠ 0)
    (hi : inHbm (base + 8 * vpnIdx vpn level) 8 = true) (hp : s.poisoned (base + 8 * vpnIdx vpn level) 8 = false)
    (h : s.rd (base + 8 * vpnIdx vpn level) 8 % 2 = 0) (n acc : Nat) :
    walkFrom (n + 1) s ctx base level vpn acc = (s.readEntry (base + 8 * vpnIdx vpn level), .fault 0x10 0 acc) := by
  have hg : s.gAddr ctx (base + 8 * vpnIdx vpn level) 0 = (s, .ok (base + 8 * vpnIdx vpn level, noGStage)) := if_pos hb
  rw [walkFrom]
  dsimp only
  rw [hg]
  dsimp only
  rw [if_neg (by rw [hi]; decide), if_neg (by rw [hp]; decide), pteKind_even h]
  exact if_pos ⟨rfl, hl⟩
/-- R29: no table at the root's entry of the G-stage, or an address beyond it. -/
theorem State.gAddr_rootless {s : State} {ctx gpa acc : Nat} (hg : (s.ctx ctx).chgatp.toNat / 2 ^ 60 ≠ 0)
    (hs : s.sound (4096 * ((s.ctx ctx).chgatp.toNat % 2 ^ 44) + 8 * (gpa / 4096 / 512 ^ 4)) 8 = true)
    (h : s.rd (4096 * ((s.ctx ctx).chgatp.toNat % 2 ^ 44) + 8 * (gpa / 4096 / 512 ^ 4)) 8 % 2 = 0) :
    s.gAddr ctx gpa acc = (s, .error 0x16) := by
  have hw : gWalk 5 s (4096 * ((s.ctx ctx).chgatp.toNat % 2 ^ 44)) 4 (gpa / 4096) acc = (s, .error 0x16) := by
    rw [gWalk]
    dsimp only
    rw [if_pos rfl, if_neg (by rw [State.sound_inHbm hs]; decide), if_neg (by rw [State.sound_clean hs]; decide), pteKind_even h]
  unfold State.gAddr
  dsimp only
  rw [if_neg hg, hw, ite_self]

section
variable {s : State} {ctx va acc : Nat} (hmiss : ∀ e, s.tlbFind ctx (va / 4096) = some e → e.serves acc = false) (hcold : ∀ w ∈ s.walkc, w.ctx ≠ ctx)
include hmiss hcold

theorem State.translate_rootless (hb : (s.ctx ctx).chgatp.toNat / 2 ^ 60 = 0)
    (hi : inHbm (s.entryAt (4096 * ((s.ctx ctx).catp.toNat % 2 ^ 44)) (va / 4096) 0) 8 = true)
    (hp : s.poisoned (s.entryAt (4096 * ((s.ctx ctx).catp.toNat % 2 ^ 44)) (va / 4096) 0) 8 = false)
    (h : s.rd (s.entryAt (4096 * ((s.ctx ctx).catp.toNat % 2 ^ 44)) (va / 4096) 0) 8 % 2 = 0) :
    ∃ t, s.translate ctx va acc = (t, .fault 0x10 0 acc) ∧ Walked s t := by
  have w := s.missed_walked ctx va
  have hw := walkFrom_rootless (s := s.missed ctx va) (base := 4096 * ((s.ctx ctx).catp.toNat % 2 ^ 44)) (level := 4) (by rw [w.ctx]; exact hb) (by decide) hi hp
    (by rw [w.rd]; exact h) 4 acc
  refine ⟨_, ?_, w.trans (State.readEntry_walked _ (4096 * ((s.ctx ctx).catp.toNat % 2 ^ 44) + 8 * vpnIdx (va / 4096) 4))⟩
  rw [State.translate_missed hmiss, State.walkStart_cold hcold, hw]
  rfl
theorem State.translate_guestRootless (hg : (s.ctx ctx).chgatp.toNat / 2 ^ 60 ≠ 0) {top : Nat}
    (ht : s.entryAt (4096 * ((s.ctx ctx).catp.toNat % 2 ^ 44)) (va / 4096) 0 = top)
    (hs : s.sound (4096 * ((s.ctx ctx).chgatp.toNat % 2 ^ 44) + 8 * (top / 4096 / 512 ^ 4)) 8 = true)
    (h : s.rd (4096 * ((s.ctx ctx).chgatp.toNat % 2 ^ 44) + 8 * (top / 4096 / 512 ^ 4)) 8 % 2 = 0) :
    ∃ t, s.translate ctx va acc = (t, .fault 0x16 top 4) ∧ Walked s t := by
  have ha : (s.missed ctx va).gAddr ctx top 0 = (s.missed ctx va, .error 0x16) := State.gAddr_rootless hg hs h
  refine ⟨_, ?_, s.missed_walked ctx va⟩
  rw [State.translate_missed hmiss, State.walkStart_cold hcold, walkFrom]
  dsimp only
  rw [show 4096 * ((s.ctx ctx).catp.toNat % 2 ^ 44) + 8 * vpnIdx (va / 4096) 4 = top from ht, ha]
  rfl
end

/-- The slice of an access is its page's (R25). -/
theorem tslice_page (ctx va : Nat) : tslice ctx (4096 * (va / 4096)) = tslice ctx va := by
  have hb (hi lo : Nat) (h : 12 ≤ lo) : bitsOf (4096 * (va / 4096)) hi lo = bitsOf va hi lo := by
    unfold bitsOf
    obtain ⟨k, rfl⟩ := Nat.exists_eq_add_of_le h
    rw [Nat.shiftRight_eq_div_pow, Nat.shiftRight_eq_div_pow, pow_add, ← Nat.div_div_eq_div_mul, ← Nat.div_div_eq_div_mul]
    congr 2
    exact Nat.mul_div_cancel_left _ (by decide)
  simp only [tslice, hb _ _ (show 12 ≤ 12 by decide), hb _ _ (show 12 ≤ 18 by decide), hb _ _ (show 12 ≤ 24 by decide),
    hb _ _ (show 12 ≤ 30 by decide), hb _ _ (show 12 ≤ 36 by decide), hb _ _ (show 12 ≤ 42 by decide), hb _ _ (show 12 ≤ 48 by decide),
    hb _ _ (show 12 ≤ 54 by decide)]
/-- The state with a fill started on its slice's spare frame. -/
def State.filled (s : State) (ctx va : Nat) (f : Fill) : State :=
  { s with spare := mdel s.spare (4096 * tslice ctx va + ctx), fills := s.fills ++ [f] }
/-- R37: a fill that finds its slice's spare frame runs. -/
theorem State.startFill_runs {s : State} {ctx va frame : Nat} (hf : s.filling ctx (va / 4096) = false)
    (hb : ∀ x ∈ s.fillBad, ¬(x.1 = ctx ∧ x.2.1 = va / 4096))
    (hn : (s.fills.filter (fun f => tslice f.ctx (4096 * f.vpn) == tslice ctx va)).length < 16)
    (hs : mget? s.spare (4096 * tslice ctx va + ctx) = some frame) (acc pa e : Nat) :
    s.startFill ctx va acc pa e = (s.filled ctx va ⟨ctx, va / 4096, frame, pa, BitVec.ofNat 64 e, writesAcc acc⟩, none) := by
  have hx : s.fillBad.find? (fun x => x.1 == ctx && x.2.1 == va / 4096) = none := by
    rw [List.find?_eq_none]
    exact fun x hx h => hb x hx (by simpa using h)
  unfold State.startFill
  dsimp only
  rw [if_neg (by rw [hf]; decide), hx]
  dsimp only
  rw [if_neg (Nat.not_le.mpr hn), State.runFill, State.takeFrame]
  dsimp only
  rw [tslice_page, hs]
  rfl

/-- R26, R27, R29, R33, R37: an access that is translated. -/
theorem translationResults : TranslationResults := by
  intro s id i r l hp hl hf hw h1 h2 h3 va vpn hm
  refine ⟨fun e he hs => ⟨fun ha hc => ?_, fun ha => ?_⟩, fun ht hcold hb hi hpo h => ?_, fun level hwk hk ha hc h0 hm2 hin => ?_,
    fun level tab pa cpa hwk x hx hk ha hd hc h0 hm2 hm3 hin => ?_, fun ht hcold hg hso h => ?_, fun hwk hk h3ff hb hc hfill hbad hn f hsp => ?_,
    fun w ht hb hwo hs hcs hk ha hc h0 hm2 hin => ?_⟩
  · have ht : s.translate r.ctx va r.acc = (s.observe 2 (tslice r.ctx va) 2 1, .ok (ptePpn e.pte.toNat) e.pte.toNat e.comp.toNat e.level e.gpte.toNat) := by
      unfold State.translate
      dsimp only
      rw [he]
      dsimp only
      rw [if_neg (by rw [hs]; decide), if_neg (by rw [ha]; decide)]
    obtain ⟨u, m, hu, h⟩ := exec_translateAccess_sent hp hl hm hf ht rfl hc
    exact ⟨u, m, hu, .of_eq h.mem, h.piece, h.stage, h.place, h.addr, h.cause⟩
  · have ht : s.translate r.ctx va r.acc = (s.observe 2 (tslice r.ctx va) 2 1, .fault 0x11 0 r.acc) := by
      unfold State.translate
      dsimp only
      rw [he]
      dsimp only
      rw [if_neg (by rw [hs]; decide), if_pos (by rw [ha]; decide)]
    exact exec_translateAccess_faulted hp hl hm ht (s.observe_walked ..) (by decide) h1 h2 h3
  · obtain ⟨t, hx, w⟩ := State.translate_rootless (acc := r.acc) (fun e he => nomatch ht.symm.trans he) hcold hb hi hpo h
    exact exec_translateAccess_faulted hp hl hm hx w (by decide) h1 h2 h3
  · obtain ⟨t, u, m, w, hu, hmem, hpc, hst, hpl, x, hx, hxp⟩ := exec_translateAccess_walked hp hl hm hf hwk.path hk ha hc h0
      (State.hostOf_bare hwk.bare ..) (by split <;> [decide; exact hm2]) hin (wpa := s.leafAt r.ctx vpn level) (fun _ => ⟨noGStage, by
        rw [State.hostOf_bare hwk.bare, State.leafAt, State.entryAt, Nat.sub_sub_self (hwk.low.trans (by decide))]⟩)
    obtain ⟨hout, hrd⟩ := w.leaf_set hw hmem rfl
    rw [Nat.mul_div_cancel_left _ (by decide)] at hpl hxp
    exact ⟨u, m, hu, hout, hrd, hpc, hst, hpl, x, hx, hxp⟩
  · have hfa : (4096 * x.1 + 4096 * framePage (s.rd (pa (4 - level)) 8) level vpn % 4096) = 4096 * x.1 := by omega
    obtain ⟨t, u, m, w, hu, hmem, hpc, hst, hpl, -⟩ := exec_translateAccess_walked hp hl hm hf hwk.path hk ha hc h0 (State.hostOf_guest hwk.staged hx)
      (by split <;> [exact hm3 ‹_›; exact hm2]) (by rw [hfa]; exact hin) (wpa := 0) (fun hne => absurd hd hne)
    rw [hfa, Nat.mul_div_cancel_left _ (by decide)] at hpl
    exact ⟨u, m, hu, .of_eq (hmem.trans ((State.leafSet_mem t 0 hd).trans w.mem)), hpc, hst, hpl⟩
  · obtain ⟨t, hx, w⟩ := State.translate_guestRootless (acc := r.acc) (fun e he => nomatch ht.symm.trans he) hcold hg rfl hso h
    exact exec_translateAccess_faulted hp hl hm hx w (by decide) h1 h2 h3
  · obtain ⟨t, w, ht⟩ := hwk.path.translate_prepared hk h3ff hb hc (wpa := s.leafAt r.ctx vpn 0) ⟨noGStage, State.hostOf_bare hwk.bare ..⟩
    obtain ⟨-, -, hx⟩ := exec_translateAccess hp hl hm ht
    have hfl := State.startFill_runs (s := t) (ctx := r.ctx) (va := va) (frame := f) (by rw [State.filling, w.fills, w.fillq]; exact hfill)
      (by rw [w.fillBad]; exact hbad) (by rw [w.fills]; exact hn) (by rw [w.spare]; exact hsp) r.acc (s.leafAt r.ctx vpn 0) (s.rd (s.leafAt r.ctx vpn 0) 8)
    have hq : (t.filled r.ctx va ⟨r.ctx, vpn, f, s.leafAt r.ctx vpn 0, BitVec.ofNat 64 (s.rd (s.leafAt r.ctx vpn 0) 8), writesAcc r.acc⟩).reqs = s.reqs :=
      w.reqs
    refine ⟨_, _, hx _ _ _ _ rfl h2 hfl, .of_eq ((State.setPiece_mem ..).trans w.mem), (w.kept.trans (.of_cores rfl)).trans (State.setPiece_kept ..),
      State.setPiece_becomes i _ (by rw [hq]; exact hp.2.1) (.of_eq id hq), rfl, ?_, ?_⟩
    · rw [State.setPiece_spare, State.filled]
      exact mget?_mdel_self ..
    · rw [State.setPiece_fills, State.filled, w.fills]
  · have hpath : WalkPath s r.ctx va r.acc 0 0 (fun _ => 4096 * ptePpn w.pte.toNat) (fun _ => 4096 * ptePpn w.pte.toNat + 8 * vpnIdx vpn 0)
        (4096 * ptePpn w.pte.toNat + 8 * vpnIdx vpn 0 + 4096) :=
      ⟨by decide, fun e he => (nomatch ht.symm.trans he), State.walkStart_of_walkOf hwo, ⟨nofun, nofun, nofun, nofun⟩,
        ⟨noGStage, State.hostOf_bare hb ..⟩, hs, ⟨noGStage, State.hostOf_bare hb ..⟩, hcs⟩
    obtain ⟨t, u, m, w, hu, hmem, hpc, hst, hpl, -⟩ := exec_translateAccess_walked hp hl hm hf hpath hk ha hc h0
      (State.hostOf_bare hb ..) (by split <;> [decide; exact hm2]) hin (fun _ => ⟨noGStage, State.hostOf_bare hb ..⟩)
    obtain ⟨hout, hrd⟩ := w.leaf_set hw hmem rfl
    rw [Nat.mul_div_cancel_left _ (by decide)] at hpl
    exact ⟨u, m, hu, hout, hrd, hpc, hst, hpl⟩

/-! #### The frame of a fill -/

/-- A line is read as good, whatever leaves the L2: it holds no bad word, and none lies beneath unless the L2's data is ahead. -/
structure LineClean (s : State) (line : Nat) : Prop where
  good : ∀ w ∈ s.poison, w / 16 ≠ line
  beneath : (∃ x ∈ s.l2, x.line = line ∧ x.dirty = true) ∨ ∀ w ∈ s.hbmBad, w / 16 ≠ line

theorem LineClean.lines {s t : State} {line : Nat} (h : LineClean s line) (k : LinesStay s t) : LineClean t line := by
  refine ⟨by rw [k.poison]; exact h.good, ?_⟩
  rw [k.hbmBad]
  refine h.beneath.imp_left fun ⟨x, hx, hl, hd⟩ => ?_
  obtain ⟨y, hy, hxy, hyd⟩ := k.lines x hx
  exact ⟨y, hy, hxy.trans hl, hyd hd⟩
theorem LineClean.l2Evict {s : State} {line : Nat} (h : LineClean s line) (x : L2Line) : LineClean (s.l2Evict x) line := by
  have hr := h.lines (s.recallAll_lines x.line)
  generalize hu : s.recallAll x.line = u at hr
  have hb (p : List Nat) : (∃ y ∈ u.l2.filter (fun y => y.line != x.line), y.line = line ∧ y.dirty = true) ∨
      ∀ w ∈ u.hbmBad.filter (fun w => w / 16 != x.line), w / 16 ≠ line := by
    by_cases hx : x.line = line
    · refine .inr fun w hw hl => ?_
      have hn := (List.mem_filter.mp hw).2
      simp [hx, hl] at hn
    · refine hr.beneath.imp (fun ⟨y, hy, hl, hd⟩ => ⟨y, List.mem_filter.mpr ⟨hy, ?_⟩, hl, hd⟩) fun h w hw => h w (List.mem_filter.mp hw).1
      simpa [hl] using Ne.symm hx
  unfold State.l2Evict
  dsimp only
  rw [hu]
  split
  · exact ⟨hr.good, hb []⟩
  · next hd =>
    refine ⟨fun w hw hl => ?_, hb []⟩
    rcases List.mem_append.mp (List.mem_eraseDups.mp hw) with hp | hp
    · exact hr.good w hp hl
    · obtain ⟨hp, hx⟩ := List.mem_filter.mp hp
      rw [beq_iff_eq, hl] at hx
      rcases hr.beneath with ⟨y, hy, hyl, hyd⟩ | h
      · exact hd (List.any_eq_true.mpr ⟨y, hy, by simp [hyl, hyd, hx]⟩)
      · exact h w hp hl
theorem LineClean.l2Use {s : State} {line : Nat} (h : LineClean s line) (pl rank : Nat) (last wr fetch : Bool) :
    LineClean (s.l2Use pl rank last wr fetch) line := by
  rcases s.l2Use_cases pl rank last wr fetch with ⟨-, c, hu⟩ | ⟨-, c, hu⟩ <;> rw [hu]
  · refine h.lines ⟨rfl, rfl, fun x hx => ⟨_, List.mem_map_of_mem hx, ?_, fun hd => ?_⟩⟩
    · split <;> rfl
    · split
      · simp [hd]
      · exact hd
  · have hv : LineClean (s.l2Vacate pl) line := by
      rcases s.l2Vacate_cases pl with hv | ⟨x, hv⟩ <;> rw [hv]
      · exact h
      · exact h.l2Evict x
    exact hv.lines ⟨rfl, rfl, fun x hx => ⟨x, List.mem_append_left _ hx, rfl, fun hd => hd⟩⟩
/-- A written line is ahead of HBM. -/
theorem State.l2Use_dirty (s : State) (pl rank : Nat) (last fetch : Bool) : ∃ x ∈ (s.l2Use pl rank last true fetch).l2, x.line = pl ∧ x.dirty = true := by
  rcases s.l2Use_cases pl rank last true fetch with ⟨ha, c, hu⟩ | ⟨-, c, hu⟩ <;> rw [hu]
  · obtain ⟨x, hx, hl⟩ := List.any_eq_true.mp ha
    rw [beq_iff_eq] at hl
    exact ⟨_, List.mem_map_of_mem hx, by rw [if_pos hl]; exact hl, by rw [if_pos hl]; exact Bool.or_true _⟩
  · exact ⟨_, List.mem_append_right _ (List.mem_singleton.mpr rfl), rfl, rfl⟩
theorem LineClean.atSlice {s : State} {line : Nat} (h : LineClean s line) (pa : Nat) : LineClean (s.atSlice pa) line := h.lines (s.atSlice_lines pa)
theorem LineClean.wrLine {s : State} {line : Nat} (h : LineClean s line) (pa : Nat) (bs : List Byte) : LineClean (s.wrLine pa bs) line :=
  ⟨fun w hw => h.good w (List.mem_filter.mp hw).1, h.beneath⟩
theorem LineClean.wr {s : State} {line : Nat} (h : LineClean s line) (pa n v : Nat) : LineClean (s.wr pa n v) line := ⟨h.good, h.beneath⟩
theorem LineClean.lineWrite {s : State} {line : Nat} (h : LineClean s line) (pa : Nat) (bs : List Byte) : LineClean (s.lineWrite pa bs) line := by
  rw [State.lineWrite]
  exact ((h.l2Use ..).atSlice pa).wrLine pa bs
theorem LineClean.writeEntry {s : State} {line : Nat} (h : LineClean s line) (pa e : Nat) : LineClean (s.writeEntry pa e) line := by
  rw [State.writeEntry]
  exact ((h.l2Use ..).atSlice pa).wr pa 8 e
/-- A line written whole is good, and ahead of HBM where it was dirty (R79). -/
theorem State.wrLine_clean {s : State} {pa : Nat} (h : pa % 128 = 0) (hd : ∃ x ∈ s.l2, x.line = pa / 128 ∧ x.dirty = true) (bs : List Byte) :
    LineClean (s.wrLine pa bs) (pa / 128) := by
  refine ⟨fun w hw hl => ?_, .inl hd⟩
  have hn := of_decide_eq_true (List.mem_filter.mp hw).2
  omega
theorem State.lineWrite_clean (s : State) {pa : Nat} (h : pa % 128 = 0) (bs : List Byte) : LineClean (s.lineWrite pa bs) (pa / 128) := by
  obtain ⟨x, hx, hl, hd⟩ := s.l2Use_dirty (pa / 128) 0 false false
  obtain ⟨y, hy, hyx, hyd⟩ := (State.atSlice_lines _ pa).lines x hx
  rw [State.lineWrite]
  exact State.wrLine_clean h ⟨y, hy, hyx.trans hl, hyd hd⟩ bs
theorem State.linesWrite_clean (s : State) {frame : Nat} (h : frame % 128 = 0) (bs : List Byte) {n i : Nat} (hi : i < n) :
    LineClean (s.linesWrite frame bs n) (frame / 128 + i) := by
  induction n with
  | zero => omega
  | succ n ih =>
    rw [State.linesWrite_succ]
    by_cases hn : i < n
    · exact (ih hn).lineWrite ..
    · have hc := State.lineWrite_clean (s.linesWrite frame bs n) (pa := frame + 128 * n) (by omega) ((bs.drop (128 * n)).take 128)
      rwa [show (frame + 128 * n) / 128 = frame / 128 + i by omega] at hc
theorem State.zeroFrame_eq (s : State) (frame : Nat) : s.zeroFrame frame = s.linesWrite frame (List.replicate 4096 0) 32 := by
  refine List.foldl_ext _ _ _ fun t i hi => ?_
  have hi := List.mem_range.mp hi
  rw [List.drop_replicate, List.take_replicate, show min 128 (4096 - 128 * i) = 128 by omega]
/-- Clean lines hold no poison. -/
theorem State.poisoned_of_clean {s : State} {frame : Nat} (h : frame % 128 = 0) (hc : ∀ i, i < 32 → LineClean s (frame / 128 + i)) :
    s.poisoned frame 4096 = false := by
  rw [State.poisoned, List.any_eq_false]
  intro w hw hp
  obtain ⟨j, hj, rfl⟩ := List.mem_map.mp hw
  have hj := List.mem_range.mp hj
  exact (hc (j / 16) (by omega)).good _ (List.contains_iff_mem.mp hp) (by omega)

/-- A prepared entry with its frame: V and A, and D for a store (R37). -/
def Fill.filledPte (f : Fill) : Nat := setBits f.pte.toNat 53 10 (f.frame / 4096) ||| (if f.store then 0xC1 else 0x41)
theorem Fill.filledPte_lt (f : Fill) : f.filledPte < 2 ^ 64 := by
  refine Nat.or_lt_two_pow ?_ (by split <;> decide)
  have := f.pte.isLt
  unfold setBits
  dsimp only
  omega
/-- The entry a fill completes (R37): it takes the frame where it is unchanged, else the frame is the slice's spare. -/
def State.fillEntry (s : State) (ctx vpn : Nat) (f : Fill) : State :=
  if s.rd f.pteAddr 8 = f.pte.toNat then (s.writeEntry f.pteAddr f.filledPte).observe 2 (tslice ctx (4096 * vpn)) 5 1
  else { s with spare := mset s.spare (4096 * tslice ctx (4096 * vpn) + ctx) f.frame }

theorem State.nextFill_none {sl : Nat} {qs : List Fill} (h : ∀ q ∈ qs, tslice q.ctx (4096 * q.vpn) ≠ sl) (s : State) : State.nextFill sl qs s = (s, []) := by
  induction qs with
  | nil => rfl
  | cons q r ih =>
    rw [State.nextFill, if_pos (h q (List.mem_cons_self ..))]
    exact ih fun x hx => h x (List.mem_cons_of_mem _ hx)

theorem HomeOnly.fills {s t : State} (h : HomeOnly s t) : t.fills = s.fills := by rw [h]
theorem HomeOnly.fillq {s t : State} (h : HomeOnly s t) : t.fillq = s.fillq := by rw [h]

/-- What a fill's entry leaves, by what becomes of it. -/
theorem State.fillEntry_cases (s : State) (ctx vpn : Nat) (f : Fill) :
    (s.rd f.pteAddr 8 = f.pte.toNat ∧ ∃ u c, u = s.writeEntry f.pteAddr f.filledPte ∧ s.fillEntry ctx vpn f = { u with counts := c }) ∨
    (s.rd f.pteAddr 8 ≠ f.pte.toNat ∧
      s.fillEntry ctx vpn f = { s with spare := mset s.spare (4096 * tslice ctx (4096 * vpn) + ctx) f.frame }) := by
  by_cases h : s.rd f.pteAddr 8 = f.pte.toNat
  · exact .inl ⟨h, _, _, rfl, if_pos h⟩
  · exact .inr ⟨h, if_neg h⟩
/-- A fill's entry leaves fills, those queued, gangs, requests, and the other bytes. -/
structure EntryOnly (s t : State) (f : Fill) : Prop where
  calm : Calm s t
  fills : t.fills = s.fills
  fillq : t.fillq = s.fillq
  mem : KeptOutside s t f.pteAddr 8
  clean : ∀ line, LineClean s line → LineClean t line
theorem State.fillEntry_only (s : State) (ctx vpn : Nat) (f : Fill) : EntryOnly s (s.fillEntry ctx vpn f) f := by
  rcases s.fillEntry_cases ctx vpn f with ⟨-, u, c, hu, h⟩ | ⟨-, h⟩ <;> rw [h]
  · have hc := s.writeEntry_calm f.pteAddr f.filledPte
    have hh := s.writeEntry_home f.pteAddr f.filledPte
    have hk := KeptOutside.of_put (s.writeEntry_mem f.pteAddr f.filledPte)
    have hl (line : Nat) (hl : LineClean s line) := hl.writeEntry f.pteAddr f.filledPte
    rw [bytesLE_length] at hk
    rw [← hu] at hc hh hk hl
    exact ⟨hc.trans (.of_cores rfl rfl), hh.fills, hh.fillq, hk, fun line h => (hl line h).lines (.of_l2 rfl rfl rfl)⟩
  · exact ⟨.of_cores rfl rfl, rfl, rfl, fun _ _ => rfl, fun line h => h.lines (.of_l2 rfl rfl rfl)⟩
theorem State.fillEntry_taken {s : State} (hw : Mem.wf s.mem = true) (ctx vpn : Nat) {f : Fill} (h : s.rd f.pteAddr 8 = f.pte.toNat) :
    (s.fillEntry ctx vpn f).rd f.pteAddr 8 = f.filledPte := by
  rcases s.fillEntry_cases ctx vpn f with ⟨-, u, c, hu, hx⟩ | ⟨hn, -⟩
  · have hm : (s.fillEntry ctx vpn f).mem = Mem.put s.mem f.pteAddr (bytesLE 8 f.filledPte) := by
      rw [← State.writeEntry_mem, ← hu, hx]
    exact (State.rd_put hw hm).trans (Nat.mod_eq_of_lt f.filledPte_lt)
  · exact absurd h hn
theorem State.fillEntry_changed {s : State} (ctx vpn : Nat) {f : Fill} (h : s.rd f.pteAddr 8 ≠ f.pte.toNat) :
    (s.fillEntry ctx vpn f).rd f.pteAddr 8 = s.rd f.pteAddr 8 ∧
    mget? (s.fillEntry ctx vpn f).spare (4096 * tslice ctx (4096 * vpn) + ctx) = some f.frame := by
  rw [State.fillEntry, if_neg h]
  exact ⟨rfl, mget?_mset_self ..⟩

theorem execFillComplete_completes {s : State} {ctx vpn : Nat} {f : Fill} (he : s.ev = .page ctx vpn)
    (hf : s.fills.find? (fun x => x.ctx == ctx && x.vpn == vpn) = some f) (hq : ∀ q ∈ s.fillq, tslice q.ctx (4096 * q.vpn) ≠ tslice ctx (4096 * vpn)) :
    execFillComplete s = .next ((((({ s with fills := s.fills.erase f } : State).zeroFrame f.frame).fillEntry ctx vpn f).fillEnds ctx vpn).wakePage ctx vpn) := by
  unfold execFillComplete
  rw [he]
  dsimp only
  rw [hf]
  dsimp only
  have hev : ({ s with fills := s.fills.erase f, ev := .page ctx vpn } : State) = { s with fills := s.fills.erase f } := by rw [← he]
  rw [hev, ← Fill.filledPte, ← State.fillEntry]
  have hv : ((({ s with fills := s.fills.erase f } : State).zeroFrame f.frame).fillEntry ctx vpn f).fillq = s.fillq := by
    rw [(State.fillEntry_only ..).fillq, State.zeroFrame_eq, (State.linesWrite_home ..).fillq]
  generalize (({ s with fills := s.fills.erase f } : State).zeroFrame f.frame).fillEntry ctx vpn f = v at hv ⊢
  rw [hv, State.nextFill_none hq]
  rfl

/-- The end of a page's fill wakes the pieces that wait for it. -/
theorem State.wakePage_req (s : State) (ctx vpn id : Nat) : mget? (s.wakePage ctx vpn).reqs id = (mget? s.reqs id).map fun q =>
    if q.ctx = ctx then { q with lanes := q.lanes.map fun l => l.woken vpn } else q :=
  mget?_map_ite (fun q : Req => q.ctx = ctx) (fun q => { q with lanes := q.lanes.map fun l => l.woken vpn }) s.reqs id
/-- R37: a completed fill. -/
theorem fillResults : FillResults := by
  intro s ctx vpn f he hw hf ha hd hq
  have hu : (({ s with fills := s.fills.erase f } : State).zeroFrame f.frame) = _ := State.zeroFrame_eq ..
  have hc := State.linesWrite_calm { s with fills := s.fills.erase f } f.frame (List.replicate 4096 0) 32
  have hh := State.linesWrite_home { s with fills := s.fills.erase f } f.frame (List.replicate 4096 0) 32
  have hl (i : Nat) (hi : i < 32) := State.linesWrite_clean { s with fills := s.fills.erase f } ha (List.replicate 4096 0) hi
  have hm := State.linesWrite_read (s := { s with fills := s.fills.erase f }) hw f.frame (bs := List.replicate 4096 0) (n := 32) (by rw [List.length_replicate])
  have hwf := State.linesWrite_wf (s := { s with fills := s.fills.erase f }) hw f.frame (List.replicate 4096 0) 32
  rw [← hu] at hc hh hl hm hwf
  have hx := execFillComplete_completes he hf hq
  generalize ({ s with fills := s.fills.erase f } : State).zeroFrame f.frame = u at hc hh hl hm hwf hx
  have hr : u.rd f.pteAddr 8 = s.rd f.pteAddr 8 := State.rd_congr fun k hk => by rw [hm, if_neg (by omega)]
  have hk := u.fillEntry_only ctx vpn f
  have ht := State.fillEntry_taken hwf ctx vpn (f := f)
  have hg := State.fillEntry_changed ctx vpn (s := u) (f := f)
  generalize u.fillEntry ctx vpn f = v at hk hx ht hg
  refine ⟨_, hx, hc.gangs.trans (hk.calm.gangs.trans (.of_cores rfl)), hk.fills.trans hh.fills, fun k hk4 => ?_,
    State.poisoned_of_clean ha fun i hi => (hk.clean _ (hl i hi)).lines (.of_l2 rfl rfl rfl), fun a ho hp => ?_, fun h => ht (hr.trans h),
    fun h => ⟨(hg (by rw [hr]; exact h)).1.trans hr, (hg (by rw [hr]; exact h)).2⟩, fun id r hi => ?_⟩
  · refine (hk.mem _ (by omega)).trans ((hm _).trans ?_)
    rw [if_pos (by omega), List.getD_replicate _ (by omega)]
  · exact (hk.mem a hp).trans ((hm a).trans (if_neg (by omega)))
  · have hreqs : (v.fillEnds ctx vpn).reqs = s.reqs := hk.calm.reqs.trans hc.reqs
    rw [State.wakePage_req, hreqs, hi]
    rfl

/-- Settles O33: the access that is translated, and the fill that completes. -/
theorem pageResults : Obligations.PageResults := ⟨translationResults, fillResults⟩

end Sys2Proof.Machine
end
-- Launches: a template whose first read makes an earlier access hold its page.
section
/-! SUPPORT. The counterexample to O42: the read of a template's first 32 bytes takes a line out of the L2 (R68); the bad word of HBM that this
lays open (R79) is the table entry by which an earlier access of unknown place had been told apart from a store performed early on the
template's page. The next 32 bytes wait for that store (R126), so the event ends without the template. -/

namespace Sys2Proof.Machine
open Sys2Proof

/-- A store performed early on the template's page; access 8 comes before it where both lie at one place (R115). -/
def earlyPiece : LaneAcc := { lane := 0, ia := 0x1000, size := 4, stage := 1, pa := 0x1000, early := true }
def earlyStore : Req := { kind := .rawStore, ctx := 1, lanes := [earlyPiece], deps := [8], why := [4] }
/-- The earlier access, of another context, not yet translated. -/
def earlierPiece : LaneAcc := { lane := 0, size := 4 }
def earlierLoad : Req := { kind := .rawLoad, ctx := 2, lanes := [earlierPiece] }
/-- A lot whose template lies at 0x1000. -/
def pageLot : Launch := { kind := 1, tenant := 0, ctx := 1, pattern := 5, lotid := 9, w1 := 0x1000 }
/-- The translation of the template's page, to page `a` of HBM. -/
def pageEntry (a : Nat) : Tlb :=
  { slice := 0, set := 0, ctx := 1, vpn := 1, level := 0, pte := BitVec.ofNat 64 (1024 * a + 0xDF), comp := 0, gpte := 0xDF }
/-- The template at page `a`, the table of context 2 at page `b`, whose line fills the L2's set over a bad word. -/
def stEvict (a b : Nat) : State :=
  { State.reset with
    ev := .launch 0
    launches := [pageLot]
    mem := Mem.put [] (4096 * b) (bytesLE 8 0xDF)
    hbmBad := [512 * b]
    tlb := [pageEntry a]
    walkc := [⟨0, 2, 1, 0, BitVec.ofNat 64 (1024 * b)⟩]
    l2 := List.replicate 12 ⟨32 * b, 0, 0, false⟩
    reqs := [(7, earlyStore), (8, earlierLoad)] }

/-! #### What holds the page -/

theorem State.share_of_placed {s : State} {e c g : Nat} (h : (s.translate 2 0 0).2 = .ok 0 e c 0 g) :
    s.share earlierLoad earlyStore earlierPiece earlyPiece = false := by
  have hp : s.placeOf earlierLoad earlierPiece = some 0 := by
    unfold State.placeOf
    rw [show (s.translate earlierLoad.ctx (earlierPiece.ia.toNat % 2 ^ 57) 0).2 = .ok 0 e c 0 g from h]
    rfl
  unfold State.share
  rw [hp]
  rfl
theorem State.share_of_fault {s : State} {c g a : Nat} (h : (s.translate 2 0 0).2 = .fault c g a) :
    s.share earlierLoad earlyStore earlierPiece earlyPiece = true := by
  have hp : s.placeOf earlierLoad earlierPiece = none := by
    unfold State.placeOf
    rw [show (s.translate earlierLoad.ctx (earlierPiece.ia.toNat % 2 ^ 57) 0).2 = .fault c g a from h]
    rfl
  unfold State.share
  rw [hp]
  rfl
/-- The store keeps the template's page held while the load may touch its bytes. -/
theorem State.pageHeld_early {s : State} (hr : s.reqs = [(7, earlyStore), (8, earlierLoad)]) (hf : s.filling 1 1 = false) (hm : s.migrating 1 1 = false) :
    s.pageHeld 1 1 = s.share earlierLoad earlyStore earlierPiece earlyPiece := by
  have h8 : s.req 8 = some earlierLoad := by
    rw [State.req, hr]
    rfl
  have hb : s.binds earlyStore earlyPiece 8 4 = s.share earlierLoad earlyStore earlierPiece earlyPiece := by
    unfold State.binds State.settled
    rw [h8]
    simp only [show earlierLoad.performed = false from rfl, show earlierLoad.lanes = [earlierPiece] from rfl, show earlierPiece.stage = 0 from rfl,
      show Nat.testBit 4 0 = false from rfl, show Nat.testBit 4 1 = false from rfl, show Nat.testBit 4 2 = true from rfl, List.any_cons, List.any_nil]
    simp
  have hw : s.within earlyStore earlyPiece = if s.share earlierLoad earlyStore earlierPiece earlyPiece then 7 else 0 := by
    rw [State.within, show earlyStore.reasons = [(8, 4, 7)] from rfl, List.filter_singleton, hb]
    cases s.share earlierLoad earlyStore earlierPiece earlyPiece with
    | true =>
      have hc : s.codeNow earlyStore (8, 4, 7) = 7 := by
        unfold State.codeNow
        rw [h8]
        rfl
      simp [hc]
    | false => rfl
  unfold State.pageHeld
  rw [hf, hm, hr, Bool.false_or, Bool.false_or, List.any_cons, List.any_cons]
  simp only [show earlyStore.lanes = [earlyPiece] from rfl, List.any_cons, hw]
  cases s.share earlierLoad earlyStore earlierPiece earlyPiece <;> rfl

/-- Two pages of HBM whose lines share a set of the L2, whatever the set function is. -/
theorem exists_pages_of_one_set : ∃ a b : Nat, a ≠ b ∧ a < 131073 ∧ b < 131073 ∧ homeSlice (128 * (32 * a)) = homeSlice (128 * (32 * b)) ∧
    Config.l2Set (32 * a) % 2048 = Config.l2Set (32 * b) % 2048 := by
  have hlt (pa : Nat) : homeSlice pa < 64 := by
    have hb (hi lo : Nat) (h : hi + 1 - lo ≤ 6) : bitsOf pa hi lo < 2 ^ 6 :=
      (Nat.mod_lt _ (Nat.two_pow_pos _)).trans_le (Nat.pow_le_pow_right (by decide) h)
    exact Nat.xor_lt_two_pow (Nat.xor_lt_two_pow (Nat.xor_lt_two_pow (Nat.xor_lt_two_pow (Nat.xor_lt_two_pow (hb 12 7 (by decide)) (hb 18 13 (by decide)))
      (hb 24 19 (by decide))) (hb 30 25 (by decide))) (hb 36 31 (by decide))) (hb 39 37 (by decide))
  obtain ⟨x, y, hne, h⟩ := Fintype.exists_ne_map_eq_of_card_lt (fun n : Fin 131073 =>
    ((⟨homeSlice (128 * (32 * n.val)), hlt _⟩ : Fin 64), (⟨Config.l2Set (32 * n.val) % 2048, Nat.mod_lt _ (by decide)⟩ : Fin 2048)))
    (by rw [Fintype.card_prod, Fintype.card_fin, Fintype.card_fin, Fintype.card_fin]; decide)
  rw [Prod.mk.injEq, Fin.mk.injEq, Fin.mk.injEq] at h
  exact ⟨x, y, fun he => hne (Fin.ext he), x.isLt, y.isLt, h.1, h.2⟩

section
variable {a b : Nat}

theorem State.rd_reset (pa : Nat) : State.reset.rd pa 8 = 0 := by
  rw [State.rd, Mem.word, show Mem.bytes State.reset.mem pa 8 = List.replicate 8 0 from rfl]
  rfl
theorem stEvict_mem : (stEvict a b).mem = Mem.put State.reset.mem (4096 * b) (bytesLE 8 0xDF) := rfl
theorem stEvict_entry : (stEvict a b).rd (4096 * b) 8 = 0xDF := by
  rw [State.rd_put (s := State.reset) rfl stEvict_mem]
  exact Nat.mod_eq_of_lt (by decide)
theorem stEvict_companion : (stEvict a b).rd (4096 * b + 4096) 8 = 0 := by
  rw [State.rd_put_out (s := State.reset) stEvict_mem (.inr (by rw [bytesLE_length]; omega))]
  exact State.rd_reset _
theorem stEvict_ctx : (stEvict a b).ctx 2 = {} := rfl
theorem State.gAddr_bare {s : State} {ctx : Nat} (h : s.ctx ctx = {}) (gpa acc : Nat) : s.gAddr ctx gpa acc = (s, .ok (gpa, noGStage)) := by
  unfold State.gAddr
  rw [h]
  exact if_pos (by decide)
theorem stEvict_walkc : (stEvict a b).walkOf 2 0 1 = some ⟨0, 2, 1, 0, BitVec.ofNat 64 (1024 * b)⟩ := rfl
/-- Words of other pages are not the bad word. -/
theorem stEvict_sound {pa n : Nat} (hi : inHbm pa n = true) (hw : ∀ w ∈ wordsOf pa n, w ≠ 512 * b) : (stEvict a b).sound pa n = true := by
  have hp : (stEvict a b).poison = [] := rfl
  have hb : (stEvict a b).hbmBad = [512 * b] := rfl
  rw [State.sound, State.poisoned, hi, hp, hb]
  simp only [Bool.true_and, Bool.and_eq_true, Bool.not_eq_true', List.all_eq_true, List.any_eq_false]
  exact ⟨fun _ _ h => (nomatch h), fun w h => by simpa using hw w h⟩

variable (hb : b < 131073)
include hb

theorem walkStart_table {s : State} (h : s.walkOf 2 0 1 = some ⟨0, 2, 1, 0, BitVec.ofNat 64 (1024 * b)⟩) : s.walkStart 2 0 = (4096 * b, 0) := by
  have hp : ptePpn (BitVec.ofNat 64 (1024 * b)).toNat = b := by
    rw [BitVec.toNat_ofNat]
    unfold ptePpn bitsOf
    rw [Nat.shiftRight_eq_div_pow]
    omega
  rw [State.walkStart_of_walkOf h]
  dsimp only
  rw [hp]
theorem stEvict_table_inHbm : inHbm (4096 * b) 8 = true ∧ inHbm (4096 * b + 4096) 8 = true := by
  unfold inHbm hbmSize
  rw [decide_eq_true_eq, decide_eq_true_eq]
  omega
/-- The load's place, while its table is readable. -/
theorem stEvict_placed : ∃ e c g, ((stEvict a b).translate 2 0 0).2 = .ok 0 e c 0 g := by
  obtain ⟨hi, hj⟩ := stEvict_table_inHbm hb
  have hidx : 4096 * b + 8 * vpnIdx 0 0 = 4096 * b := by
    rw [show vpnIdx 0 0 = 0 from rfl]
    rfl
  have w := (stEvict a b).missed_walked 2 0
  have hctx := (w.ctx 2).trans stEvict_ctx
  have hbare : (((stEvict a b).missed 2 0).ctx 2).chgatp.toNat / 2 ^ 60 = 0 := by rw [hctx]; decide
  have hs : ((stEvict a b).missed 2 0).sound (4096 * b + 4096) 8 = true := w.bad.sound (stEvict_sound hj fun v hv => by
    obtain ⟨k, hk, rfl⟩ := List.mem_map.mp hv
    omega)
  have hr : ((stEvict a b).missed 2 0).Reads 2 (4096 * b + 8 * vpnIdx 0 0) (4096 * b) := by
    rw [hidx]
    exact ⟨_, _, State.gAddr_bare hctx .., .refl _, hi, List.any_eq_false.mpr fun v _ h => nomatch h⟩
  obtain ⟨t, ht, -⟩ := walkFrom_leaf hr ⟨_, State.hostOf_bare hbare ..⟩ (by rw [hidx]; exact hs) (by rw [w.rd, stEvict_entry]; decide) (acc := 0)
    (by rw [w.rd, stEvict_entry]; decide) (by rw [hidx, w.rd, stEvict_companion]; decide) (State.hostOf_bare hbare ..)
    (by rw [w.rd, stEvict_entry]; decide) (by rw [w.rd, stEvict_entry]; decide) (wpa := 0) (fun h => absurd (by rw [w.rd, stEvict_entry]; decide) h) 4
  have hmiss : ∀ e, (stEvict a b).tlbFind 2 (0 / 4096) = some e → e.serves 0 = false := fun e he => by cases he
  have hst : (stEvict a b).walkStart 2 (0 / 4096) = (4096 * b, 0) := walkStart_table hb stEvict_walkc
  rw [State.translate_missed hmiss, hst, ht, w.rd, stEvict_entry]
  exact ⟨_, _, _, rfl⟩
/-- Its place, once its table's entry is poisoned. -/
theorem translate_poisoned {u : State} (hmiss : u.tlbFind 2 0 = none) (hw : u.walkOf 2 0 1 = some ⟨0, 2, 1, 0, BitVec.ofNat 64 (1024 * b)⟩)
    (hc : u.ctx 2 = {}) (hp : 512 * b ∈ u.poison) : (u.translate 2 0 0).2 = .fault 0x20 0 4 := by
  have hst : u.walkStart 2 (0 / 4096) = (4096 * b, 0) := walkStart_table hb hw
  have hbad : u.poisoned (4096 * b) 8 = true :=
    List.any_eq_true.mpr ⟨512 * b, List.mem_map.mpr ⟨0, List.mem_range.mpr (by omega), by omega⟩, List.contains_iff_mem.mpr hp⟩
  have hnone : ∀ e, u.tlbFind 2 (0 / 4096) = some e → e.serves 0 = false := fun e he => by
    rw [hmiss] at he
    cases he
  rw [State.translate_missed hnone, hst, walkFrom]
  dsimp only
  rw [State.gAddr_bare (show (u.missed 2 0).ctx 2 = {} from hc)]
  dsimp only
  rw [show (4096 * b + 8 * vpnIdx (0 / 4096) 0) = 4096 * b from rfl, if_neg (by rw [(stEvict_table_inHbm hb).1]; decide),
    if_pos (show (u.missed 2 0).poisoned (4096 * b) 8 = true from hbad)]
  rfl
end

/-! #### The first read of the template -/

theorem State.recallAll_idle {s : State} {pl : Nat} (h : s.cores = []) (hd : s.dirOf pl = (0, 0, 0)) :
    s.recallAll pl = { s with agenda := s.agenda.filter (fun p => !p.fillOf pl) } := by
  have hh : s.holders pl = [] := by
    rw [State.holders, h]
    rfl
  unfold State.recallAll
  rw [hh, List.foldl_nil]
  dsimp only
  rw [hd]
  rfl
theorem l2Victim_replicate (n : Nat) (x : L2Line) : l2Victim (List.replicate (n + 1) x) = some x := by
  induction n with
  | zero => rfl
  | succ n ih =>
    rw [List.replicate_succ, l2Victim, ih]
    exact ite_self _
/-- The line that leaves a full set lays a bad word of HBM open (R79). -/
theorem l2Use_opens {s : State} {pl line w : Nat} (hl : s.l2 = List.replicate 12 ⟨line, 0, 0, false⟩) (hne : line ≠ pl)
    (hh : homeSlice (128 * line) = homeSlice (128 * pl))
    (hs : Config.l2Set line % 2048 = Config.l2Set pl % 2048) (hc : s.cores = []) (hd : s.dirOf line = (0, 0, 0)) (hw : w ∈ s.hbmBad) (hwl : w / 16 = line)
    (rank : Nat) (last wr fetch : Bool) : w ∈ (s.l2Use pl rank last wr fetch).poison := by
  have hm : s.l2Mates pl = List.replicate 12 ⟨line, 0, 0, false⟩ := by
    rw [State.l2Mates, hl]
    refine List.filter_eq_self.mpr fun x hx => ?_
    rw [List.eq_of_mem_replicate hx, hh, hs]
    simp
  have hv : s.l2Vacate pl = s.l2Evict ⟨line, 0, 0, false⟩ := by
    rw [State.l2Vacate, hm, l2Victim_replicate, if_neg (by rw [List.length_replicate]; decide)]
    rfl
  have hp : w ∈ (s.l2Evict ⟨line, 0, 0, false⟩).poison := by
    unfold State.l2Evict
    dsimp only
    rw [State.recallAll_idle hc hd]
    dsimp only
    rw [hl, if_neg (by simp), if_neg (by simp), List.mem_eraseDups]
    exact List.mem_append_right _ (List.mem_filter.mpr ⟨hw, beq_iff_eq.mpr hwl⟩)
  rcases s.l2Use_cases pl rank last wr fetch with ⟨ha, -⟩ | ⟨-, c, hu⟩
  · rw [hl] at ha
    exact absurd ha (by simp [hne])
  · rw [hu]
    dsimp only
    rw [hv]
    exact hp

theorem State.yields_walked (s : State) (pl : Nat) : Walked s (s.yields pl) := by
  unfold State.yields
  split
  · exact ⟨rfl, (s.setDir_calm ..).gangs, .of_eq rfl rfl⟩
  · exact .refl s
theorem State.yields_frame (s : State) (pl : Nat) : (s.yields pl).walkc = s.walkc ∧ (s.yields pl).poison = s.poison := by
  unfold State.yields
  split <;> exact ⟨rfl, rfl⟩
theorem HomeOnly.walkc {s t : State} (h : HomeOnly s t) : t.walkc = s.walkc := by rw [h]
theorem Walked.migr {s t : State} (h : Walked s t) : t.migr = s.migr := by rw [h.rest]
theorem Walked.launches {s t : State} (h : Walked s t) : t.launches = s.launches := by rw [h.rest]

/-- The template's page is cached. -/
theorem pageEntry_fields {a : Nat} (ha : a < 131073) : ptePpn (pageEntry a).pte.toNat = a ∧ pteAllows (pageEntry a).pte.toNat 0 = true := by
  have hn : (pageEntry a).pte.toNat = 1024 * a + 0xDF := by
    rw [pageEntry, BitVec.toNat_ofNat]
    omega
  rw [hn]
  refine ⟨?_, ?_⟩
  · unfold ptePpn bitsOf
    rw [Nat.shiftRight_eq_div_pow]
    omega
  · unfold pteAllows writesAcc
    simp only [Nat.testBit_eq_decide_div_mod_eq]
    have h4 : (1024 * a + 0xDF) / 2 ^ 4 % 2 = 1 := by omega
    have h1 : (1024 * a + 0xDF) / 2 ^ 1 % 2 = 1 := by omega
    rw [h4, h1]
    rfl

theorem pageEntry_serves {a : Nat} : (pageEntry a).serves 0 = true := by
  have hg : pteAllows (pageEntry a).gpte.toNat 0 = true := show pteAllows (0xDF : W64).toNat 0 = true by decide
  rw [Tlb.serves, hg]
  rfl
/-- The machine after the template's first read. -/
def stRead (a b : Nat) : State := (((stEvict a b).observe 2 (tslice 1 0x1000) 2 1).readEntry (4096 * a)).yields (32 * a)

section
variable {a b : Nat} (ha : a < 131073) (hb : b < 131073)

theorem stRead_walked : Walked (stEvict a b) (stRead a b) := (State.observe_walked ..).trans ((State.readEntry_walked ..).trans (State.yields_walked ..))
theorem stEvict_found : (stEvict a b).tlbFind 1 1 = some (pageEntry a) := rfl
theorem linesOf_page (a : Nat) : linesOf (4096 * a) 32 = [32 * a] := by
  rw [linesOf, show (4096 * a + 32 + 127) / 128 - 4096 * a / 128 = 1 by omega, show 4096 * a / 128 = 32 * a by omega]
  rfl
theorem not_lineHeld {s : State} (h : s.landing = []) (ls : List Nat) : ls.any s.lineHeld = false := by
  rw [List.any_eq_false]
  intro l _
  rw [State.lineHeld, h]
  exact Bool.false_ne_true
include hb in
theorem stEvict_free : (stEvict a b).pageHeld 1 1 = false := by
  obtain ⟨e, c, g, h⟩ := stEvict_placed (a := a) hb
  rw [State.pageHeld_early rfl rfl rfl, State.share_of_placed h]
include ha in
theorem stEvict_translates : (stEvict a b).translate 1 0x1000 0 =
    ((stEvict a b).observe 2 (tslice 1 0x1000) 2 1, .ok a (pageEntry a).pte.toNat 0 0 0xDF) := by
  obtain ⟨hp, hal⟩ := pageEntry_fields ha
  have hf : (stEvict a b).tlbFind 1 (0x1000 / 4096) = some (pageEntry a) := stEvict_found
  unfold State.translate
  dsimp only
  rw [hf]
  dsimp only
  rw [pageEntry_serves, hal, hp]
  rfl
include ha hb in
theorem stEvict_reads : (stEvict a b).unitAccess 1 0x1000 32 0 0x9005 [] false = (stRead a b, .ok (.here (4096 * a))) := by
  have hq : (stEvict a b).unitReq 1 0x1000 32 0 0x9005 = none := rfl
  have hm : ((stEvict a b).observe 2 (tslice 1 0x1000) 2 1).migTouch 1 (0x1000 / 4096) none = (stEvict a b).observe 2 (tslice 1 0x1000) 2 1 := by
    unfold State.migTouch
    rw [show ((stEvict a b).observe 2 (tslice 1 0x1000) 2 1).tlbFind 1 (0x1000 / 4096) = some (pageEntry a) from rfl]
    exact if_pos (show (!(0 : W64).getLsbD 58) = true by decide)
  unfold State.unitAccess
  rw [hq]
  dsimp only
  rw [show (stEvict a b).pageHeld 1 (0x1000 / 4096) = false from stEvict_free hb, stEvict_translates ha]
  dsimp only
  rw [hm, show 4096 * a + 0x1000 % 4096 = 4096 * a from rfl, linesOf_page, not_lineHeld rfl]
  refine (if_neg (by decide)).trans ?_
  rw [stRead, State.readEntry, show 4096 * a / 128 = 32 * a by omega]
  rfl
end

/-- Pages whose lines share a set of the L2. -/
structure OneSet (a b : Nat) : Prop where
  ne : a ≠ b
  left : a < 131073
  right : b < 131073
  home : homeSlice (128 * (32 * a)) = homeSlice (128 * (32 * b))
  set : Config.l2Set (32 * a) % 2048 = Config.l2Set (32 * b) % 2048

section
variable {a b : Nat} (h : OneSet a b)
include h

theorem OneSet.opens : 512 * b ∈ (stRead a b).poison := by
  have hn := h.ne
  rw [stRead, (State.yields_frame ..).2, State.readEntry, show 4096 * a / 128 = 32 * a by omega]
  exact l2Use_opens (line := 32 * b) rfl (by omega) h.home.symm h.set.symm rfl rfl (List.mem_singleton.mpr rfl) (by omega) ..
theorem OneSet.held : (stRead a b).pageHeld 1 1 = true := by
  have w : Walked (stEvict a b) (stRead a b) := stRead_walked
  have hw : (stRead a b).walkOf 2 0 1 = (stEvict a b).walkOf 2 0 1 := by
    rw [State.walkOf, stRead, (State.yields_frame ..).1, State.readEntry, (State.l2Use_home ..).walkc]
    rfl
  have hf := translate_poisoned h.right (u := stRead a b) (by rw [State.tlbFind, w.tlb]; rfl) (hw.trans stEvict_walkc) ((w.ctx 2).trans stEvict_ctx) h.opens
  rw [State.pageHeld_early (w.reqs.trans rfl) (by rw [State.filling, w.fills, w.fillq]; rfl) (by rw [State.migrating, w.migr]; rfl), State.share_of_fault hf]
/-- The template's bytes are good, and stay so. -/
theorem OneSet.sound {i : Nat} (hi : i ∈ [0, 32, 64]) : (stEvict a b).sound (4096 * a + i) 32 = true := by
  have hn := h.ne
  have ha := h.left
  have h64 : i ≤ 64 := by
    simp only [List.mem_cons, List.not_mem_nil, or_false] at hi
    omega
  refine stEvict_sound ?_ fun w hw => ?_
  · unfold inHbm hbmSize
    rw [decide_eq_true_eq]
    omega
  · obtain ⟨k, hk, rfl⟩ := List.mem_map.mp hw
    have hk := List.mem_range.mp hk
    omega
theorem OneSet.readTmpl : (stEvict a b).readTmpl 1 0x1000 0x9005 = (stRead a b, .error .wait) := by
  have w : Walked (stEvict a b) (stRead a b) := stRead_walked
  have h1 : (stEvict a b).unitRead 1 ((0x1000 + 0) % 2 ^ 57) 32 0x9005 false =
      (stRead a b, .ok ((stRead a b).rdBytes (4096 * a) 32, (stRead a b).poisoned (4096 * a) 32)) := by
    unfold State.unitRead
    rw [show (stEvict a b).unitAccess 1 ((0x1000 + 0) % 2 ^ 57) 32 0 0x9005 [] false = _ from stEvict_reads h.left h.right]
  have hb : (stRead a b).poisoned (4096 * a) 32 = false := State.sound_clean (w.bad.sound (h.sound (i := 0) (by decide)))
  have h2 : (stRead a b).unitRead 1 ((0x1000 + 32) % 2 ^ 57) 32 0x9005 false = (stRead a b, .error .wait) := by
    have hq : (stRead a b).unitReq 1 ((0x1000 + 32) % 2 ^ 57) 32 0 0x9005 = none := by
      rw [State.unitReq, w.reqs]
      rfl
    have hu : (stRead a b).unitAccess 1 ((0x1000 + 32) % 2 ^ 57) 32 0 0x9005 [] false = (stRead a b, .error .wait) := by
      unfold State.unitAccess
      rw [hq]
      exact if_pos h.held
    unfold State.unitRead
    rw [hu]
  unfold State.readTmpl
  rw [List.foldl_cons, List.foldl_cons, List.foldl_cons, List.foldl_nil]
  dsimp only
  rw [h1]
  dsimp only
  rw [hb, if_neg Bool.false_ne_true]
  dsimp only
  rw [h2]
theorem stEvict_due : (stEvict a b).lotHead 0 = some pageLot ∧ (stEvict a b).tmplDue 0 = true := by
  have hl : (stEvict a b).lotHead 0 = some pageLot := rfl
  have hv (va : Nat) : (stEvict a b).vaHeld 1 va 32 = false := by
    unfold State.vaHeld
    split
    · exact not_lineHeld rfl _
    · rfl
  refine ⟨hl, ?_⟩
  have h1 : (stEvict a b).pageHeld pageLot.ctx (pageLot.w1.toNat % 2 ^ 57 / 4096) = false := stEvict_free h.right
  have h2 : (stEvict a b).pageHeld pageLot.ctx ((pageLot.w1.toNat + 95) % 2 ^ 57 / 4096) = false := stEvict_free h.right
  unfold State.tmplDue
  rw [hl]
  dsimp only
  rw [h1, h2, show (stEvict a b).unitOpen (0x9000 + pageLot.pattern) = false from rfl, List.all_eq_true.mpr fun i _ => by
    rw [show (stEvict a b).vaHeld pageLot.ctx (pageLot.w1.toNat + i) 32 = false from hv _]
    rfl]
  rfl
omit h in
theorem stEvict_noUnit : NoUnitReq (stEvict a b) := by
  intro r hr
  rcases List.mem_cons.mp hr with rfl | hr
  · decide
  · rw [List.mem_singleton.mp hr]
    decide
theorem OneSet.cached {i : Nat} (hi : i ∈ [0, 32, 64]) : Cached (stEvict a b) pageLot.ctx ((pageLot.w1.toNat + i) % 2 ^ 57) 0 (4096 * a + i) := by
  obtain ⟨hp, hal⟩ := pageEntry_fields h.left
  have hv : (pageLot.w1.toNat + i) % 2 ^ 57 / 4096 = 1 ∧ (pageLot.w1.toNat + i) % 2 ^ 57 % 4096 = i := by
    simp only [List.mem_cons, List.not_mem_nil, or_false] at hi
    rcases hi with rfl | rfl | rfl <;> decide
  refine ⟨pageEntry a, ?_, pageEntry_serves, hal, by rw [hp, hv.2]⟩
  rw [hv.1]
  exact stEvict_found
/-- The event ends with the lot as it was. -/
theorem OneSet.templateRead : exec .templateReadDone (stEvict a b) = .next (stRead a b) := by
  rw [show exec .templateReadDone (stEvict a b) = execTemplateReadDone (stEvict a b) from rfl, execTemplateReadDone,
    show (stEvict a b).ev = .launch 0 from rfl]
  dsimp only
  rw [(stEvict_due h).1, (stEvict_due h).2]
  dsimp only
  rw [show (stEvict a b).readTmpl pageLot.ctx pageLot.w1.toNat (0x9000 + pageLot.pattern) = _ from h.readTmpl]
  rfl
end

/-- Refutes O42: of a template on a mapped page, neither kept nor refused, only the first 32 bytes are read; the line they take out of the L2
lays a bad word of another context's table open, and a store performed early on the template's page then holds it. -/
theorem not_launchResults : ¬ Obligations.LaunchResults := by
  intro hall
  obtain ⟨a, b, hne, ha, hb, hh, hs⟩ := exists_pages_of_one_set
  have h : OneSet a b := ⟨hne, ha, hb, hh, hs⟩
  obtain ⟨-, -, htmpl, -⟩ := hall (stEvict a b)
  obtain ⟨-, hread⟩ := htmpl 0 pageLot rfl (stEvict_due h).1 (stEvict_due h).2 stEvict_noUnit
  obtain ⟨hrefused, hkept⟩ := hread (fun i => 4096 * a + i) rfl fun i hi => ⟨h.cached hi, h.sound hi⟩
  have hl : (stRead a b).launches = [pageLot] := Walked.launches stRead_walked
  rw [h.templateRead] at hrefused hkept
  cases ht : (stEvict a b).tmplRefused pageLot.ctx ([0, 32, 64].flatMap fun i =>
      (List.range 4).map fun j => BitVec.ofNat 64 ((stEvict a b).rd (4096 * a + i + 8 * j) 8)) with
  | true =>
    obtain ⟨t, he, -, -, hx, -⟩ := hrefused ht
    cases he
    rw [hl] at hx
    cases hx
  | false =>
    obtain ⟨t, he, -, -, hx, -⟩ := hkept ht
    cases he
    rw [hl] at hx
    cases congrArg Launch.read (List.mem_singleton.mp hx)

end Sys2Proof.Machine
end

section
/-! SUPPORT. The state at reset: its granules and its device registers (R53, R176, Tables 18-2 and 19-1). -/

namespace Sys2Proof.Machine
open Sys2Proof
theorem State.reset_tag (c p : Nat) : (State.reset.core c).tag p = 0 := rfl
/-- TENCFG of each tenant (Table 18-2). -/
theorem State.reset_tenant {t : Nat} (ht : t < 16) : State.reset.dreg (0x80 + 8 * t) = 0x0000000081008000#64 := by
  show dregReset (0x80 + 8 * t) = _
  rw [dregReset, if_neg (by omega), if_neg (by omega), if_neg (by omega), if_neg (by omega), if_pos (by omega)]
  rfl

/-- Settles O56. -/
theorem resetValues : Obligations.ResetValues := by
  refine ⟨rfl, fun _ _ => rfl, fun _ _ => rfl, fun c p => ?_, fun _ => rfl, rfl, rfl, rfl, fun _ => rfl, rfl, rfl, rfl,
    fun _ => State.reset_tenant, rfl, rfl, rfl, rfl⟩
  rw [State.reset_tag]
  decide
/-- Settles O57. -/
theorem memoryFormAtReset : Obligations.MemoryFormAtReset := rfl
end Sys2Proof.Machine
end

section
/-! SUPPORT. Traps of the bundle under issue: what a precise trap leaves, V-slot rows that trap, and software traps (R218, R346, R400 to R402). -/

namespace Sys2Proof.Machine
open Sys2Proof

/-- What a gang's parts hold when it takes a trap is not in what `TrapTaken` keeps. -/
theorem TrapTaken.of_parts {s t : State} {c slot : Nat} {x : Trap} {next : W64} {ps : Map Part}
    (h : TrapTaken (s.setGang c slot { s.gang c slot with parts := ps }) t c slot x next) : TrapTaken s t c slot x next := by
  obtain ⟨hg, he, h1, h2, h3, h4, h5, h6, h7, hv, ht, hn, hc, ho, hm, hr⟩ := h
  simp only [State.gang_setGang_self, State.crew_setGang] at hg he hv hn hc
  refine ⟨hg, he, h1, h2, h3, h4, h5, h6, h7, hv, ht, hn, hc, fun d g hd => ?_, hm, hr⟩
  rw [ho d g hd, State.gang?_setGang_ne _ _ hd]
/-- Nor is the mark that the partition's bundle of the clock has met a trap. -/
theorem TrapTaken.of_tryOnce {s t : State} {c slot d g : Nat} {x : Trap} {next : W64} (h : TrapTaken s (t.tryOnce d g) c slot x next)
    (hr : t = { s with cores := t.cores, cur := t.cur }) : TrapTaken s t c slot x next := by
  obtain ⟨hg, he, h1, h2, h3, h4, h5, h6, h7, hv, ht, hn, hc, ho, hm, -⟩ := h
  simp only [State.tryOnce_gang, State.tryOnce_gang?, State.tryOnce_crew] at hg he h1 h2 h3 h4 h5 h6 h7 hv ht hn hc ho
  exact ⟨hg, he, h1, h2, h3, h4, h5, h6, h7, hv, ht, hn, hc, ho, fun a => by rw [hr], hr⟩

theorem State.takeTrap_cur (s : State) (x : Trap) : (s.takeTrap x).cur = { s.cur with trap := some x } := by
  simp [State.takeTrap, State.takeTrapAt, State.setMe]
/-- R218, R400 to R402. -/
theorem preciseTrapTaken : PreciseTrapTaken := by
  intro s x
  refine ⟨(State.takeTrap_trapTaken rfl rfl x).of_tryOnce (s.takeTrap_eq x), s.takeTrap_cur x, fun hb hx => ?_⟩
  have hg : (s.takeTrap x).me = (s.trapping x).freeze x s.cur.pc s.clock s.free := by
    rw [State.me, State.takeTrap_cur]
    exact s.takeTrap_gang_self x
  rw [hg]
  simp [Gang.freeze, Gang.endTimers, State.trapping, hb, hx]

/-- Every V-slot row tests its own encoding and registers before anything else (R218). -/
theorem exec_of_vView {i : Instr} {n : Nat} {o : VOp} (h : i.vView = some (n, o)) (s : State) :
    ∃ own t, exec i s = guarded own s t ∧ ∀ x, illegalTrap .v i s = some x → own = some x := by
  unfold Instr.vView at h
  split at h <;> cases h <;> exact ⟨_, _, rfl, fun x hx => by simp only [orTrap, hx]⟩
theorem vectorIllegal : VectorIllegal := by
  intro i n o s hv hl
  obtain ⟨own, t, he, ho⟩ := exec_of_vView hv s
  rw [he, ho (illegal .v) (by simp [illegalTrap, hl])]
  rfl

/-- A legal C-slot operation without a condition of its own has its effect. -/
theorem cRun_legal {i : Instr} {eff : State → State} {s : State} (h : opLegal i s.me.regs = true) : cRun i noCond eff s = .next (eff s) := by
  simp [cRun, illegalTrap, h, noCond, orTrap, guarded]
theorem State.softTrap_trapTaken (s : State) (tcause n : Nat) : (s.softTrap tcause n).cur = s.cur ∧
    TrapTaken s (s.softTrap tcause n) s.cur.core s.cur.slot { tcause := tcause, slot := 3, info := n } (s.cur.pc + 16) :=
  ⟨by simp [State.softTrap, State.takeTrapAt, State.setMe], TrapTaken.of_parts (State.takeTrapAt_trapTaken ..)⟩
theorem softwareTrapResults : SoftwareTrapResults := by
  intro s
  refine ⟨fun n hl => ⟨s.softTrap 0x70 n.toNat, cRun_legal (eff := fun s => s.softTrap 0x70 n.toNat) hl, s.softTrap_trapTaken ..⟩,
    fun n hl => ⟨s.softTrap 0x71 n.toNat, cRun_legal (eff := fun s => s.softTrap 0x71 n.toNat) hl, s.softTrap_trapTaken ..⟩,
    fun n hl => ⟨s.softTrap 0x72 n.toNat, cRun_legal (eff := fun s => s.softTrap 0x72 n.toNat) hl, s.softTrap_trapTaken ..⟩⟩

/-- Settles O26. -/
theorem trapResults : Obligations.TrapResults := ⟨preciseTrapTaken, vectorIllegal, softwareTrapResults⟩
end Sys2Proof.Machine
end

section
/-! SUPPORT. What writes of FERR, SLDEPTH, GTAG, RNGSEED, CPROG and MPROG change (R55, R96, R302, R324, R334, R351). -/

namespace Sys2Proof.Machine
open Sys2Proof

/-! #### Writes that reach a gang or a granule -/

theorem mget?_filter_key {α : Type} (p : Nat → Bool) (m : Map α) (k : Nat) :
    mget? (m.filter fun e => p e.1) k = if p k then mget? m k else none := by
  induction m with
  | nil => simp
  | cons q r ih =>
    rw [List.filter_cons]
    by_cases hq : q.1 = k
    · subst hq
      by_cases hp : p q.1 <;> simp [hp, mget?, ih]
    · by_cases hp : p q.1 <;> simp [hp, mget?, ih, hq]
theorem State.setCore_kept (s : State) (c : Nat) {k : Core} (hg : k.gangs = (s.core c).gangs) (hw : k.crews = (s.core c).crews) :
    GangsKept s (s.setCore c k) := (s.setCore_calm c hg hw).gangs
/-- What writing one gang leaves and gives. -/
theorem State.setGang_only (s : State) (c slot : Nat) (x : Gang) :
    MemKept s (s.setGang c slot x) ∧ OtherGangs s (s.setGang c slot x) c slot ∧ (s.setGang c slot x).gang? c slot = some x :=
  ⟨fun _ => rfl, fun _ _ h => s.gang?_setGang_ne x h, State.gang?_setGang_self ..⟩

/-- The flags of a gang once FERR has been written (R334). -/
def Gang.ferrCleared (g : Gang) (v : W64) : Gang :=
  { g with flags := g.flags.map fun f => if v.getLsbD f.1 then (f.1, { f.2 with err := false, cause := 0 }) else f }
theorem Gang.ferrCleared_flag (g : Gang) (v : W64) (n : Nat) :
    (g.ferrCleared v).flag n = if v.getLsbD n then { g.flag n with err := false, cause := 0 } else g.flag n := by
  have hf : (g.ferrCleared v).flags = g.flags.map fun f => (f.1, if v.getLsbD f.1 then { f.2 with err := false, cause := 0 } else f.2) := by
    refine List.map_congr_left fun f _ => ?_
    split <;> rfl
  rw [Gang.flag, mget, hf, mget?_mapKey (fun n (f : Flag) => if v.getLsbD n then { f with err := false, cause := 0 } else f), Gang.flag, mget]
  cases mget? g.flags n <;> simp

/-- The stacks of a gang once SLDEPTH has been written (R351). -/
def Gang.depthsSet (g : Gang) (v : W64) : Gang :=
  { g with slices := g.slices.mapIdx fun k x =>
      { x with depth := v.toNat / 16 ^ k % 16,
               stack := x.stack.filter fun e => !(decide (v.toNat / 16 ^ k % 16 ≤ e.1) && decide (e.1 < x.depth)) } }
theorem Gang.depthsSet_slice (g : Gang) (v : W64) {k : Nat} (hk : k < g.slices.length) : (g.depthsSet v).slice k =
    { g.slice k with depth := v.toNat / 16 ^ k % 16,
                     stack := (g.slice k).stack.filter fun e => !(decide (v.toNat / 16 ^ k % 16 ≤ e.1) && decide (e.1 < (g.slice k).depth)) } := by
  simp [Gang.depthsSet, Gang.slice, List.getD_eq_getElem?_getD, hk]
theorem Gang.depthsSet_stack (g : Gang) (v : W64) {k : Nat} (hk : k < g.slices.length) (i : Nat) :
    mget 0 ((g.depthsSet v).slice k).stack i =
      if v.toNat / 16 ^ k % 16 ≤ i ∧ i < (g.slice k).depth then 0 else mget 0 (g.slice k).stack i := by
  rw [g.depthsSet_slice v hk, mget, mget?_filter_key (fun n => !(decide (v.toNat / 16 ^ k % 16 ≤ n) && decide (n < (g.slice k).depth)))]
  by_cases h : v.toNat / 16 ^ k % 16 ≤ i ∧ i < (g.slice k).depth
  · rw [if_pos h, if_neg (by simpa using h)]
    rfl
  · rw [if_neg h, if_pos (by simp; omega)]
    rfl

/-- The tag of a granule once its GTAG register has been written (R55). -/
def tagWritten (t : BitVec 32) (v : W64) : BitVec 32 := BitVec.ofNat 32 (t.toNat / 2 ^ 18 * 2 ^ 18 + bitsOf v.toNat 17 4 * 16)
theorem tagWritten_fields (t : BitVec 32) (v : W64) :
    gtState (tagWritten t v) = gtState t ∧ gtGen (tagWritten t v) = gtGen t ∧ gtFmt (tagWritten t v) = bitsOf v.toNat 17 15 ∧
      gtSgran (tagWritten t v) = bitsOf v.toNat 13 7 ∧ gtSslot (tagWritten t v) = bitsOf v.toNat 6 4 := by
  have ht := t.isLt
  simp only [tagWritten, gtState, gtGen, gtFmt, gtSgran, gtSslot, bitsOf, Nat.shiftRight_eq_div_pow, BitVec.toNat_ofNat]
  refine ⟨?_, ?_, ?_, ?_, ?_⟩ <;> omega

/-- R55, R96, R334, R351. -/
theorem gangRegisterEvents : GangRegisterEvents := by
  intro s c slot reg v g he hg
  refine ⟨?_, ?_, ?_, fun p hp => ?_⟩
  · obtain ⟨hm, ho, hs⟩ := s.setGang_only c slot { g with rng := lanesOf (Num.rngSeed (v.setWidth 32)) }
    refine ⟨_, ?_, hm, ho, hs⟩
    show execRngseedWrite s = _
    rw [execRngseedWrite, he]
    dsimp only
    rw [hg]
  · obtain ⟨hm, ho, hs⟩ := s.setGang_only c slot (g.ferrCleared v)
    refine ⟨_, g.ferrCleared v, ?_, hm, ho, hs, rfl, g.ferrCleared_flag v⟩
    show execFerrClear s = _
    rw [execFerrClear, he]
    dsimp only
    rw [hg]
    rfl
  · obtain ⟨hm, ho, hs⟩ := s.setGang_only c slot (g.depthsSet v)
    refine ⟨_, g.depthsSet v, ?_, hm, ho, hs, rfl, fun k hk => ?_⟩
    · show execSldepthWrite s = _
      rw [execSldepthWrite, he]
      dsimp only
      rw [hg]
      rfl
    · have hx := g.depthsSet_slice v hk
      exact ⟨by rw [hx], by rw [hx], by rw [hx], g.depthsSet_stack v hk⟩
  · have hgang : s.gang c slot = g := State.gang_of_gang? hg
    refine ⟨s.setCore c { s.core c with gtag := mset (s.core c).gtag p (tagWritten ((s.core c).tag p) v) }, ?_, fun _ => rfl,
      s.setCore_kept c rfl rfl, ?_⟩
    · show execGtagWrite s = _
      rw [execGtagWrite, he]
      dsimp only
      rw [hgang, hp]
      rfl
    · rw [State.core_setCore_self]
      simp only [Core.tag, mget_mset_self]
      obtain ⟨h1, h2, h3, h4, h5⟩ := tagWritten_fields ((s.core c).tag p) v
      exact ⟨h1, h2, h3, h4, h5, fun q hq => mget_mset_ne _ _ _ hq⟩

/-! #### CPROG -/

theorem State.setSkid_kept (s : State) (c e : Nat) (k : Skid) :
    MemKept s (s.setSkid c e k) ∧ GangsKept s (s.setSkid c e k) ∧ mget? ((s.setSkid c e k).core c).skid e = some k := by
  refine ⟨fun _ => rfl, s.setCore_kept c rfl rfl, ?_⟩
  rw [State.setSkid, State.core_setCore_self, mget?_mset_self]

section
variable {s : State} {c x reg : Nat} {v : W64} (he : s.ev = .sysw c x reg v) {k : Skid} (hk : mget? (s.core c).skid (reg - 0x400) = some k)
include he hk

/-- The entry that stands at another unit once CPROG has been written (R302). -/
def Skid.movedTo (k : Skid) (done : Nat) : Skid :=
  { k with done := done, sub := 0, index := none, aux := none, phase := if k.kind == CopyKind.gather then 0 else 1 }

theorem execCprogWrite_moves (h1 : k.state ≠ 1) (ha : k.aux = none) (hd : v.toNat % 2 ^ 48 ≠ k.done) :
    execCprogWrite s = .next (s.setSkid c (reg - 0x400) { k.movedTo (v.toNat % 2 ^ 48) with
      state := if k.state = 2 ∧ v.toNat / 2 ^ 62 = 1 then 1 else k.state }) := by
  rw [execCprogWrite, he]
  dsimp only
  rw [hk]
  dsimp only
  rw [if_neg (not_or.mpr ⟨hd, h1⟩), if_neg hd, ha]
  split
  · next h => exact absurd h h1
  · next h =>
    by_cases hv : v.toNat / 2 ^ 62 = 1
    · rw [if_pos hv, if_pos (And.intro h hv)]
      rfl
    · rw [if_neg hv, if_neg (show ¬(k.state = 2 ∧ v.toNat / 2 ^ 62 = 1) from fun x => hv x.2)]
      rfl
  · next h =>
    rw [if_neg (show ¬(k.state = 2 ∧ v.toNat / 2 ^ 62 = 1) from fun x => h x.1)]
    rfl
theorem execCprogWrite_stops (h1 : k.state = 1) (hv : v.toNat / 2 ^ 62 = 2) :
    execCprogWrite s = .next (s.setSkid c (reg - 0x400) { k with state := 2 }) := by
  rw [execCprogWrite, he]
  dsimp only
  rw [hk]
  dsimp only
  rw [if_pos (show v.toNat % 2 ^ 48 = k.done ∨ k.state = 1 from .inr h1), h1]
  exact if_pos hv
theorem execCprogWrite_starts (h2 : k.state = 2) (hv : v.toNat / 2 ^ 62 = 1) (hd : v.toNat % 2 ^ 48 = k.done) :
    execCprogWrite s = .next (s.setSkid c (reg - 0x400) { k with state := 1 }) := by
  rw [execCprogWrite, he]
  dsimp only
  rw [hk]
  dsimp only
  rw [if_pos (show v.toNat % 2 ^ 48 = k.done ∨ k.state = 1 from .inl hd), if_pos hd, h2]
  exact congrArg (fun y => Host.Outcome.next (s.setSkid c (reg - 0x400) y)) (if_pos hv)
end

/-! #### MPROG -/

theorem State.freeElems_core (s : State) (c k : Nat) (es : List Nat) (d : Nat) :
    (s.freeElems c k es).core d = { s.core d with crews := ((s.freeElems c k es).core d).crews } := by
  unfold State.freeElems
  split
  · rfl
  · by_cases hd : d = c
    · subst hd; simp
    · simp [State.setCrew_core_ne _ _ _ hd]
theorem State.freeElems_gang? (s : State) (c k : Nat) (es : List Nat) (d g : Nat) : (s.freeElems c k es).gang? d g = s.gang? d g := by
  rw [State.gang?, State.freeElems_core, State.gang?]
theorem State.freeElems_crew_ne (s : State) {c k d j : Nat} (es : List Nat) (h : d ≠ c ∨ j ≠ k) : (s.freeElems c k es).crew d j = s.crew d j := by
  unfold State.freeElems
  split
  · rfl
  · exact s.crew_setCrew_ne _ h
/-- Of the crew the named elements alone change. -/
theorem State.freeElems_crew_self (s : State) (c k : Nat) (es : List Nat) : ∃ a, (s.freeElems c k es).crew c k = { s.crew c k with acc := a } ∧
    ∀ i, i ∉ es → mget 0 a i = mget 0 (s.crew c k).acc i := by
  have keep (l : List Nat) (m : Map W32) {i : Nat} (h : i ∉ l) :
      mget 0 (l.foldl (fun m e => mset m e (Config.freeW32 s.free e)) m) i = mget 0 m i := by
    induction l generalizing m with
    | nil => rfl
    | cons e r ih =>
      obtain ⟨he, hr⟩ := not_or.mp (mt List.mem_cons.mpr h)
      rw [List.foldl_cons, ih _ hr, mget_mset_ne _ _ _ he]
  unfold State.freeElems
  split
  · exact ⟨_, rfl, fun _ _ => rfl⟩
  · exact ⟨_, s.crew_setCrew_self .., fun i hi => keep es _ hi⟩
theorem mem_tileElems {ts : List Nat} {i : Nat} (h : i ∈ tileElems ts) : i / 256 ∈ ts := by
  simp only [tileElems, List.mem_flatMap, List.mem_map, List.mem_range] at h
  obtain ⟨t, ht, j, hj, rfl⟩ := h
  rwa [show (256 * t + j) / 256 = t by omega]

/-- A table whose entry keeps a property has it of as many entries as before. -/
theorem any_mset {α : Type} (p : Nat × α → Bool) {m : Map α} {k : Nat} {a : α} (h : p (k, a) = (mget? m k).any fun b => p (k, b)) :
    (mset m k a).any p = m.any p := by
  induction m with
  | nil => simpa [mset] using h
  | cons q r ih =>
    obtain ⟨j, b⟩ := q
    simp only [mset]
    by_cases hj : j = k
    · subst hj
      simp_all [mget?]
    · have h' : p (k, a) = (mget? r k).any fun b => p (k, b) := by simpa [mget?, hj] using h
      split
      · -- the entry read stands further on
        have hin : p (k, a) = true → r.any p = true := by
          rw [h']
          cases hr : mget? r k with
          | none => simp
          | some x => exact fun hx => List.any_eq_true.mpr ⟨_, mget?_mem hr, hx⟩
        cases hp : p (k, a) <;> simp_all
      · rw [if_neg (Ne.symm hj), List.any_cons, List.any_cons, ih h']

theorem State.inSlot_congr {s t : State} (h : ∀ c g, t.gang? c g = s.gang? c g) (c cs slot : Nat) : t.inSlot c cs slot = s.inSlot c cs slot := by
  rw [State.inSlot, h, State.inSlot]
/-- Elements that take free values leave the crews that hold the mill. -/
theorem State.freeElems_millHeld (s : State) (c k : Nat) (es : List Nat) : (s.freeElems c k es).millHeld c = s.millHeld c := by
  have hin : (s.freeElems c k es).inSlot c = s.inSlot c := by
    funext w j
    exact State.inSlot_congr (s.freeElems_gang? c k es) ..
  unfold State.millHeld
  have hm : ((s.freeElems c k es).core c).mill = (s.core c).mill := by rw [State.freeElems_core]
  dsimp only
  simp only [hin, hm]
  unfold State.freeElems
  split
  · rfl
  · simp only [State.bump_core, State.setCrew_core_self]
    refine any_mset _ ?_
    rw [State.crew, mget]
    cases mget? (s.core c).crews k <;> simp

/-- The mill that stands at another step (R324). -/
def Mill.movedTo (m : Mill) (g t : Nat) : Mill := { m with group := g, tile := t, spoiled := true }
/-- The state once MPROG's group and tile are those written (R324). -/
def State.mprogAt (s : State) (c g t : Nat) : State :=
  match (s.core c).mill.head with
  | none => s
  | some q =>
    if g = (s.core c).mill.group ∧ t = (s.core c).mill.tile then s
    else (s.setCore c { s.core c with mill := (s.core c).mill.movedTo g t }).freeElems c
      (s.gang c q.slot).cslot (tileElems q.tiles)
theorem execMprogWrite_stopped {s : State} {c x reg : Nat} {v : W64} (he : s.ev = .sysw c x reg v) (h2 : (s.core c).mill.state = 2) :
    execMprogWrite s = .next (if v.toNat / 2 ^ 62 = 1 then (s.mprogAt c (bitsOf v.toNat 39 32) (bitsOf v.toNat 31 24)).millStop c false
      else s.mprogAt c (bitsOf v.toNat 39 32) (bitsOf v.toNat 31 24)) := by
  rw [execMprogWrite, he]
  dsimp only
  rw [if_neg (by simp [h2])]
  rfl
theorem State.millHeld_setMill (s : State) (c : Nat) {m : Mill} (ho : m.owner = (s.core c).mill.owner) (hq : m.queue = (s.core c).mill.queue) :
    (s.setCore c { s.core c with mill := m }).millHeld c = s.millHeld c := by
  have hin : (s.setCore c { s.core c with mill := m }).inSlot c = s.inSlot c := by
    have hk : GangsKept s (s.setCore c { s.core c with mill := m }) := s.setCore_kept c rfl rfl
    funext w j
    exact State.inSlot_congr hk.1 ..
  unfold State.millHeld
  simp only [hin, State.core_setCore_self, ho, hq]
/-- The mill is let go: it runs unless a stopped crew holds it. -/
theorem State.millStop_go (s : State) (c : Nat) : GangsKept s (s.millStop c false) ∧
    ((s.millStop c false).core c).mill = { (s.core c).mill with held := false, state := if s.millHeld c then (s.core c).mill.state else 0 } := by
  have hh := s.millHeld_setMill c (m := { (s.core c).mill with held := false }) rfl rfl
  unfold State.millStop State.millGo
  dsimp only
  rw [if_neg (by simp), hh, State.core_setCore_self, Bool.false_or]
  cases s.millHeld c with
  | true => exact ⟨s.setCore_kept c rfl rfl, by simp⟩
  | false =>
    rw [if_neg Bool.false_ne_true]
    refine ⟨.of_core (fun d => ?_) (fun d => ?_), by simp⟩ <;>
    · rw [State.core_setCore, State.core_setCore]
      split
      · next h => rw [h]
      · rfl
/-- What MPROG makes of a stopped mill, its STATE written 1 or not (R324). -/
theorem State.millGoes_if (s : State) (c st : Nat) (h2 : (s.core c).mill.state = 2) :
    let t := if st = 1 then s.millStop c false else s
    GangsKept s t ∧ t.mem = s.mem ∧ ∃ hl, (t.core c).mill =
      { (s.core c).mill with held := hl, state := if st = 1 ∧ s.millHeld c = false then 0 else 2 } := by
  dsimp only
  by_cases hs : st = 1
  · obtain ⟨hg, hm⟩ := s.millStop_go c
    rw [if_pos hs]
    refine ⟨hg, State.millStop_mem .., false, hm.trans ?_⟩
    cases s.millHeld c <;> simp [hs, h2]
  · rw [if_neg hs, if_neg fun h => hs h.1, ← h2]
    exact ⟨.of_cores rfl, rfl, (s.core c).mill.held, rfl⟩
theorem State.mprogAt_mem (s : State) (c g t : Nat) : (s.mprogAt c g t).mem = s.mem := by
  unfold State.mprogAt
  split
  · rfl
  · split
    · rfl
    · exact State.freeElems_mem ..
theorem State.mprogAt_millHeld (s : State) (c g t : Nat) : (s.mprogAt c g t).millHeld c = s.millHeld c := by
  unfold State.mprogAt
  split
  · rfl
  · split
    · rfl
    · rw [State.freeElems_millHeld]
      exact s.millHeld_setMill c rfl rfl
theorem State.mprogAt_gang? (s : State) (c g t d j : Nat) : (s.mprogAt c g t).gang? d j = s.gang? d j := by
  unfold State.mprogAt
  split
  · rfl
  · split
    · rfl
    · rw [State.freeElems_gang?]
      have hk : GangsKept s (s.setCore c { s.core c with mill := (s.core c).mill.movedTo g t }) :=
        s.setCore_kept c rfl rfl
      exact hk.1 d j
/-- With no command queued, or at the step that the mill has recorded, nothing moves. -/
theorem State.mprogAt_stays {s : State} {c g t : Nat} (h : ∀ q, (s.core c).mill.head = some q → g = (s.core c).mill.group ∧ t = (s.core c).mill.tile) :
    s.mprogAt c g t = s := by
  unfold State.mprogAt
  split
  · rfl
  · next q hq => exact if_pos (h q hq)
/-- At another step the tiles of the head command are undefined. -/
theorem State.mprogAt_moves {s : State} {c g t : Nat} {q : MillCmd} (hq : (s.core c).mill.head = some q)
    (h : ¬(g = (s.core c).mill.group ∧ t = (s.core c).mill.tile)) :
    ((s.mprogAt c g t).core c).mill = (s.core c).mill.movedTo g t ∧
      (∀ c' k, (c' ≠ c ∨ k ≠ (s.gang c q.slot).cslot) → (s.mprogAt c g t).crew c' k = s.crew c' k) ∧
      ∀ i, i / 256 ∉ q.tiles → mget 0 ((s.mprogAt c g t).crew c (s.gang c q.slot).cslot).acc i = mget 0 (s.crew c (s.gang c q.slot).cslot).acc i := by
  have hk : GangsKept s (s.setCore c { s.core c with mill := (s.core c).mill.movedTo g t }) :=
    s.setCore_kept c rfl rfl
  rw [State.mprogAt, hq]
  dsimp only
  rw [if_neg h]
  refine ⟨?_, fun c' k hc => ?_, fun i hi => ?_⟩
  · rw [State.freeElems_core, State.core_setCore_self]
  · rw [State.freeElems_crew_ne _ _ hc, hk.2]
  · obtain ⟨a, ha, hs⟩ := State.freeElems_crew_self
      (s.setCore c { s.core c with mill := (s.core c).mill.movedTo g t }) c (s.gang c q.slot).cslot (tileElems q.tiles)
    rw [ha, hs i fun hx => hi (mem_tileElems hx), hk.2]

/-- A stopped mill once MPROG has been written (R324). -/
theorem State.mprogAt_results (s : State) {c : Nat} (h2 : (s.core c).mill.state = 2) (st g tl : Nat) :
    let t := if st = 1 then (s.mprogAt c g tl).millStop c false else s.mprogAt c g tl
    let m := (s.core c).mill
    let n := (t.core c).mill
    MemKept s t ∧ (∀ c' j, t.gang? c' j = s.gang? c' j) ∧
      n.queue = m.queue ∧ n.state = (if st = 1 ∧ s.millHeld c = false then 0 else 2) ∧
      (m.head = none → n.group = m.group ∧ n.tile = m.tile ∧ ∀ c' k, t.crew c' k = s.crew c' k) ∧
      ∀ q, m.head = some q → n.group = g ∧ n.tile = tl ∧
        (g = m.group → tl = m.tile → n.spoiled = m.spoiled ∧ ∀ c' k, t.crew c' k = s.crew c' k) ∧
        (¬(g = m.group ∧ tl = m.tile) → n.spoiled = true ∧ (∀ c' k, (c' ≠ c ∨ k ≠ (s.gang c q.slot).cslot) → t.crew c' k = s.crew c' k) ∧
          ∀ i, i / 256 ∉ q.tiles → mget 0 (t.crew c (s.gang c q.slot).cslot).acc i = mget 0 (s.crew c (s.gang c q.slot).cslot).acc i) := by
  dsimp only
  by_cases hst : ∀ q, (s.core c).mill.head = some q → g = (s.core c).mill.group ∧ tl = (s.core c).mill.tile
  · obtain ⟨hk, hm, hl, hn⟩ := s.millGoes_if c st h2
    rw [State.mprogAt_stays hst, hn]
    refine ⟨.of_eq hm, hk.1, rfl, rfl, fun _ => ⟨rfl, rfl, hk.2⟩, fun q hq => ?_⟩
    obtain ⟨hg, ht⟩ := hst q hq
    exact ⟨hg.symm, ht.symm, fun _ _ => ⟨rfl, hk.2⟩, fun h => absurd ⟨hg, ht⟩ h⟩
  · push Not at hst
    obtain ⟨q, hq, hne⟩ := hst
    have hne' : ¬(g = (s.core c).mill.group ∧ tl = (s.core c).mill.tile) := fun h => hne h.1 h.2
    obtain ⟨hmill, hcrew, hacc⟩ := State.mprogAt_moves hq hne'
    obtain ⟨hk, hm, hl, hn⟩ := (s.mprogAt c g tl).millGoes_if c st (by rw [hmill]; exact h2)
    rw [hn, hmill, State.mprogAt_millHeld]
    refine ⟨.of_eq (hm.trans (s.mprogAt_mem c g tl)), fun c' j => (hk.1 c' j).trans (s.mprogAt_gang? c g tl c' j), rfl, rfl,
      fun h => (by rw [h] at hq; cases hq), fun q' hq' => ?_⟩
    obtain rfl : q = q' := Option.some.inj (hq.symm.trans hq')
    refine ⟨rfl, rfl, fun h h' => absurd ⟨h, h'⟩ hne', fun _ => ⟨rfl, fun c' k h => ?_, fun i hi => ?_⟩⟩
    · rw [hk.2, hcrew c' k h]
    · rw [hk.2, hacc i hi]
/-- R302, R324. -/
theorem progressWriteResults : ProgressWriteResults := by
  intro s c x reg v he
  refine ⟨fun k _ hk => ⟨fun h1 ha hd => ?_, fun h1 hv => ?_, fun h2 hv hd => ?_⟩, fun h2 => ?_, fun h2 => ?_⟩
  · obtain ⟨hm, hg, hs⟩ := s.setSkid_kept c (reg - 0x400) { k.movedTo (v.toNat % 2 ^ 48) with
      state := if k.state = 2 ∧ v.toNat / 2 ^ 62 = 1 then 1 else k.state }
    exact ⟨_, _, execCprogWrite_moves he hk h1 ha hd, hm, hg, rfl, hs, rfl, rfl, rfl⟩
  · obtain ⟨hm, hg, hs⟩ := s.setSkid_kept c (reg - 0x400) { k with state := 2 }
    exact ⟨_, execCprogWrite_stops he hk h1 hv, hm, hg, hs⟩
  · obtain ⟨hm, hg, hs⟩ := s.setSkid_kept c (reg - 0x400) { k with state := 1 }
    exact ⟨_, execCprogWrite_starts he hk h2 hv hd, hm, hg, hs⟩
  · refine ⟨if v.toNat / 2 ^ 62 = 2 then s.millStop c true else s, ?_, ?_⟩
    · show execMprogWrite s = _
      rw [execMprogWrite, he]
      exact if_pos h2
    · split
      · refine ⟨.of_eq (State.millStop_mem ..), s.setCore_kept c rfl rfl, ?_⟩
        rw [State.millStop, if_pos rfl, State.core_setCore_self]
      · exact ⟨fun _ => rfl, .of_cores rfl, rfl⟩
  · exact ⟨_, execMprogWrite_stopped he h2, s.mprogAt_results h2 ..⟩

/-- Settles O49. -/
theorem registerWriteEvents : Obligations.RegisterWriteEvents := ⟨progressWriteResults, gangRegisterEvents⟩
end Sys2Proof.Machine
end

section
/-! SUPPORT. The end of gangs and crews: fields of words, granules, releases, and arrivals of a stand (R53, R188 to R192, R345). -/

namespace Sys2Proof.Machine
open Sys2Proof

/-! #### Fields of a word -/

theorem setBits_testBit (w v : Nat) {hi lo : Nat} (h : lo ≤ hi + 1) (i : Nat) :
    (setBits w hi lo v).testBit i = if lo ≤ i ∧ i ≤ hi then v.testBit (i - lo) else w.testBit i := by
  have hm : v % 2 ^ (hi + 1 - lo) < 2 ^ (hi + 1 - lo) := Nat.mod_lt _ (Nat.two_pow_pos _)
  have hw : setBits w hi lo v = 2 ^ lo * (2 ^ (hi + 1 - lo) * (w / 2 ^ lo / 2 ^ (hi + 1 - lo)) + v % 2 ^ (hi + 1 - lo)) + w % 2 ^ lo := by
    rw [setBits, Nat.mul_comm (2 ^ lo), Nat.mul_comm (2 ^ (hi + 1 - lo)) (w / _ / _)]
  rw [hw, Nat.testBit_two_pow_mul_add _ (Nat.mod_lt _ (Nat.two_pow_pos _)), Nat.testBit_two_pow_mul_add _ hm]
  by_cases h1 : i < lo
  · rw [if_pos h1, if_neg (by omega), Nat.testBit_mod_two_pow]
    simp [h1]
  rw [if_neg h1]
  by_cases h2 : i ≤ hi
  · rw [if_pos (by omega), if_pos (by omega), Nat.testBit_mod_two_pow]
    simp
    omega
  · rw [if_neg (by omega), if_neg (by omega), Nat.testBit_div_two_pow, Nat.testBit_div_two_pow]
    congr 1
    omega
theorem setBits_lt {w hi lo n : Nat} (v : Nat) (h : lo ≤ hi + 1) (hw : w < 2 ^ n) (hn : hi < n) : setBits w hi lo v < 2 ^ n := by
  refine Nat.lt_pow_two_of_testBit _ fun i hi' => ?_
  rw [setBits_testBit w v h, if_neg (by omega)]
  exact Nat.testBit_lt_two_pow (hw.trans_le (Nat.pow_le_pow_right (by decide) hi'))
theorem bitsOf_testBit (w hi lo i : Nat) : (bitsOf w hi lo).testBit i = (decide (i < hi + 1 - lo) && w.testBit (lo + i)) := by
  rw [bitsOf, Nat.testBit_mod_two_pow, Nat.testBit_shiftRight]

/-! #### Granules -/

/-- An allocation's granules retire, and no other (R53). -/
theorem Core.retire_tag (k : Core) (a : Alloc) (n : Nat) : (k.retire a).tag n =
    if gtState (k.tag n) = 1 ∧ a.grans.contains n then BitVec.ofNat 32 ((k.tag n).toNat % 2 ^ 30 + 2 * 2 ^ 30) else k.tag n := by
  have hf : (k.retire a).gtag = k.gtag.map fun t => (t.1, if gtState t.2 = 1 ∧ a.grans.contains t.1 then
      BitVec.ofNat 32 (t.2.toNat % 2 ^ 30 + 2 * 2 ^ 30) else t.2) := by
    refine List.map_congr_left fun t _ => ?_
    split <;> rfl
  rw [Core.tag, mget, hf, mget?_mapKey (fun n (t : BitVec 32) => if gtState t = 1 ∧ a.grans.contains n then
    BitVec.ofNat 32 (t.toNat % 2 ^ 30 + 2 * 2 ^ 30) else t), Core.tag, mget]
  cases mget? k.gtag n with
  | none => exact (if_neg (by simp [gtState])).symm
  | some t => rfl
theorem gtState_retired (x : Nat) : gtState (BitVec.ofNat 32 (x % 2 ^ 30 + 2 * 2 ^ 30)) = 2 := by
  rw [gtState, BitVec.toNat_ofNat]
  omega

/-- A granule that is due is zeroed (R53). -/
def Core.granuleFreed (k : Core) (g : Nat) : Core :=
  { k with gtag := mdel k.gtag g, scratch := k.scratch.filter (fun b => b.1 / 4096 != g), scrPoison := k.scrPoison.filter (fun w => w / 512 != g) }
theorem Core.granuleFreed_results (k : Core) (g : Nat) : gtState ((k.granuleFreed g).tag g) = 0 ∧
    (∀ b, b < 4096 → mget 0 (k.granuleFreed g).scratch (4096 * g + b) = 0) ∧
    (∀ a, a / 4096 ≠ g → mget 0 (k.granuleFreed g).scratch a = mget 0 k.scratch a) ∧ ∀ n, n ≠ g → (k.granuleFreed g).tag n = k.tag n := by
  refine ⟨?_, fun b hb => ?_, fun a ha => ?_, fun n hn => mget_mdel_ne _ _ hn⟩
  · rw [Core.tag, Core.granuleFreed, mget, mget?_mdel_self]
    rfl
  · rw [Core.granuleFreed, mget, mget?_filter_key (fun a => a / 4096 != g), if_neg]
    · rfl
    · simp
      omega
  · rw [Core.granuleFreed, mget, mget?_filter_key (fun a => a / 4096 != g), if_pos (by simpa using ha)]
    rfl
theorem execGranuleZeroed_frees {s : State} {c g : Nat} (he : s.ev = .entry c g) (hz : (s.core c).zeroDue g = true) :
    execGranuleZeroed s = .next (s.setCore c ((s.core c).granuleFreed g)) := by
  rw [execGranuleZeroed, he]
  dsimp only
  rw [hz]
  rfl

/-! #### Release -/

section
variable {s : State} {c slot : Nat} {g : Gang} {w : Crew} (hg : s.gang? c slot = some g) (hw : mget? (s.core c).crews g.cslot = some w)

/-- The crew of a gang that is released (R189). -/
def Crew.without (w : Crew) (g : Gang) : Crew :=
  { w with released := w.released ||| 2 ^ g.cgang, errored := w.errored || g.flags.any (fun f => f.2.err) }
/-- The state once a gang's slot is free. -/
def State.slotFreed (s : State) (c slot : Nat) (g : Gang) (w : Crew) : State :=
  let m : Mill := { (s.core c).mill with uses := (s.core c).mill.uses.filter (fun u => u.slot != slot),
                                         owners := (s.core c).mill.owners.filter (· != slot) }
  (s.setCore c ({ s.core c with gangs := mdel (s.core c).gangs slot, mill := m } : Core).lapse).setCrew c g.cslot (w.without g)

theorem State.slotFreed_gangs (s : State) (c slot : Nat) (g : Gang) (w : Crew) :
    (s.slotFreed c slot g w).gang? c slot = none ∧ OtherGangs s (s.slotFreed c slot g w) c slot := by
  have hg (d j : Nat) : (s.slotFreed c slot g w).gang? d j = mget? (if d = c then mdel (s.core c).gangs slot else (s.core d).gangs) j := by
    rw [State.slotFreed, State.gang?_setCrew, State.gang?, State.core_setCore]
    split <;> rfl
  refine ⟨?_, fun d j h => ?_⟩
  · rw [hg, if_pos rfl, mget?_mdel_self]
  · rw [hg]
    split
    · next hd =>
      subst hd
      rw [mget?_mdel_ne _ (by simpa using h), State.gang?]
    · rfl
theorem State.slotFreed_core (s : State) (c slot : Nat) (g : Gang) (w : Crew) :
    ((s.slotFreed c slot g w).core c).gtag = (s.core c).gtag := by
  rw [State.slotFreed, State.setCrew_core_self, State.core_setCore_self]
  rfl

include hg hw in
theorem State.releaseGang_eq : s.releaseGang c slot =
    if popNat 16 (w.released ||| 2 ^ g.cgang) = w.ngangs then (s.slotFreed c slot g w).endCrew c g.cslot else s.slotFreed c slot g w := by
  have hc : s.crew c g.cslot = w := by rw [State.crew, mget, hw]; rfl
  rw [State.releaseGang, State.gang_of_gang? hg, hc]
  rfl
include hg in
theorem execGangRelease_releases (he : s.ev = .gang c slot) (hend : g.ended = true) (hz : ∀ f ∈ g.flags, f.2.count = 0) :
    execGangRelease s = .next (s.releaseGang c slot) := by
  rw [execGangRelease, he]
  dsimp only
  rw [hg]
  exact if_pos (by simpa [hend] using hz)
end

/-- The state once the core of a crew has let it go (R190). -/
def State.crewFreed (s : State) (c cs : Nat) : State :=
  let k := (s.core c).retire (s.crew c cs).alloc
  s.setCore c { k with crews := mdel k.crews cs,
                       chutes := k.chutes.map fun x => if x.2.holder = some cs then (x.1, ({} : Chute)) else x }
theorem State.endCrew_alone {s : State} {c cs : Nat} (h0 : (s.crew c cs).standN = 0) : s.endCrew c cs =
    if (s.crew c cs).lot = 0 then s.crewFreed c cs else (s.crewFreed c cs).memberEnded (s.crew c cs).lot (s.crew c cs).errored := by
  have hp : (s.standCrews c cs).filter (fun p => !(p.2.1 == c && p.2.2 == cs)) = [] := by
    rw [State.standCrews, if_pos h0]
    simp
  unfold State.endCrew
  rw [hp]
  rfl
theorem State.crewFreed_results (s : State) (c cs : Nat) : (∀ d j, (s.crewFreed c cs).gang? d j = s.gang? d j) ∧
    mget? ((s.crewFreed c cs).core c).crews cs = none ∧
    ∀ n, ((s.crewFreed c cs).core c).tag n = ((s.core c).retire (s.crew c cs).alloc).tag n := by
  refine ⟨fun d j => ?_, ?_, fun n => ?_⟩
  · exact s.gang?_setCore_gangs c _ d j rfl
  · rw [State.crewFreed, State.core_setCore_self, mget?_mdel_self]
  · rw [State.crewFreed, State.core_setCore_self]
    rfl
/-- The end of a member leaves all but its lot's record and the agenda. -/
theorem State.memberEnded_eq (s : State) (lot : Nat) (e : Bool) :
    s.memberEnded lot e = { s with lots := (s.memberEnded lot e).lots, agenda := (s.memberEnded lot e).agenda } := by
  unfold State.memberEnded
  split
  · rfl
  · dsimp only
    split <;> rfl
theorem State.memberEnded_last {s : State} {lot : Nat} {l : Lot} (h : mget? s.lots lot = some l) (h1 : l.left = 1) (e : Bool) :
    mget? (s.memberEnded lot e).lots lot = none ∧ (s.memberEnded lot e).agenda = s.agenda ++ [⟨.messageArrival,
      .msg ⟨l.cport, completionWord (l.errored || e) l.ctx l.lotid, 4, l.ctx, s.devId, 0, 0, 0⟩, 0⟩] := by
  rw [State.memberEnded, h]
  dsimp only
  rw [if_neg (by omega)]
  exact ⟨mget?_mdel_self .., rfl⟩
theorem State.memberEnded_earlier {s : State} {lot : Nat} {l : Lot} (h : mget? s.lots lot = some l) (h1 : 1 < l.left) (e : Bool) :
    (s.memberEnded lot e).agenda = s.agenda ∧
      mget? (s.memberEnded lot e).lots lot = some { l with left := l.left - 1, errored := l.errored || e } := by
  rw [State.memberEnded, h]
  dsimp only
  rw [if_pos (by omega)]
  exact ⟨rfl, mget?_mset_self ..⟩

/-- R189 to R192: a gang's release that is not its crew's last. -/
theorem releaseGang_keeps {s : State} {c slot : Nat} {g : Gang} {w : Crew} (hg : s.gang? c slot = some g)
    (hw : mget? (s.core c).crews g.cslot = some w) (hn : popNat 16 (w.released ||| 2 ^ g.cgang) ≠ w.ngangs) :
    let t := s.releaseGang c slot
    MemKept s t ∧ t.gang? c slot = none ∧ OtherGangs s t c slot ∧ (t.crew c g.cslot).released = w.released ||| 2 ^ g.cgang ∧
      (t.crew c g.cslot).errored = (w.errored || g.flags.any (fun f => f.2.err)) ∧ t.lots = s.lots ∧ t.agenda = s.agenda := by
  obtain ⟨h1, h2⟩ := s.slotFreed_gangs c slot g w
  have hc : (s.slotFreed c slot g w).crew c g.cslot = w.without g := State.crew_setCrew_self ..
  rw [State.releaseGang_eq hg hw, if_neg hn]
  dsimp only
  rw [hc]
  exact ⟨fun _ => rfl, h1, h2, rfl, rfl, rfl, rfl⟩
/-- What is left of a crew of no stand when its last gang is released (R190, R191). -/
structure CrewGone (s t : State) (c slot : Nat) (g : Gang) (w : Crew) : Prop where
  mem : MemKept s t
  gang : t.gang? c slot = none
  others : OtherGangs s t c slot
  crew : mget? (t.core c).crews g.cslot = none
  retired : ∀ n, n ∈ w.granules → gtState ((s.core c).tag n) = 1 → gtState ((t.core c).tag n) = 2
  kept : ∀ n, n ∉ w.granules → (t.core c).tag n = (s.core c).tag n
/-- The lot's record and the message are beside it. -/
theorem CrewGone.of_crewFreed {s t : State} {c slot : Nat} {g : Gang} {w : Crew} (hm : t.mem = s.mem)
    (hcores : t.cores = ((s.slotFreed c slot g w).crewFreed c g.cslot).cores) : CrewGone s t c slot g w := by
  have hc : (s.slotFreed c slot g w).crew c g.cslot = w.without g := State.crew_setCrew_self ..
  have hcore (d : Nat) : t.core d = ((s.slotFreed c slot g w).crewFreed c g.cslot).core d := by rw [State.core, hcores, State.core]
  obtain ⟨h1, h2⟩ := s.slotFreed_gangs c slot g w
  obtain ⟨k1, k2, k3⟩ := (s.slotFreed c slot g w).crewFreed_results c g.cslot
  have hgang (d j : Nat) : t.gang? d j = (s.slotFreed c slot g w).gang? d j := by rw [← k1 d j, State.gang?, hcore, State.gang?]
  have htag (n : Nat) : (t.core c).tag n = ((s.core c).retire w.alloc).tag n := by
    rw [hcore, k3, hc, Core.retire_tag, Core.retire_tag, Core.tag, State.slotFreed_core]
    rfl
  constructor
  case mem => exact .of_eq hm
  case gang => rw [hgang, h1]
  case others => exact fun d j h => (hgang d j).trans (h2 d j h)
  case crew => rw [hcore, k2]
  case retired =>
    intro n hn hs
    rw [htag, Core.retire_tag, if_pos ⟨hs, by simpa [Crew.alloc] using hn⟩, gtState_retired]
  case kept =>
    intro n hn
    rw [htag, Core.retire_tag, if_neg fun h => hn (by simpa [Crew.alloc] using h.2)]

/-- R190 to R192: the last release of a crew that is of no stand. -/
theorem releaseGang_ends {s : State} {c slot : Nat} {g : Gang} {w : Crew} (hg : s.gang? c slot = some g)
    (hw : mget? (s.core c).crews g.cslot = some w) (hn : popNat 16 (w.released ||| 2 ^ g.cgang) = w.ngangs) (h0 : w.standN = 0) :
    let t := s.releaseGang c slot
    let err := w.errored || g.flags.any (fun f => f.2.err)
    CrewGone s t c slot g w ∧ (w.lot = 0 → t.lots = s.lots ∧ t.agenda = s.agenda) ∧
      ∀ l, w.lot ≠ 0 → mget? s.lots w.lot = some l →
        (l.left = 1 → mget? t.lots w.lot = none ∧ t.agenda = s.agenda ++ [⟨.messageArrival,
          .msg ⟨l.cport, completionWord (l.errored || err) l.ctx l.lotid, 4, l.ctx, s.devId, 0, 0, 0⟩, 0⟩]) ∧
        (1 < l.left → t.agenda = s.agenda ∧ mget? t.lots w.lot = some { l with left := l.left - 1, errored := l.errored || err }) := by
  have hc : (s.slotFreed c slot g w).crew c g.cslot = w.without g := State.crew_setCrew_self ..
  have hr : s.releaseGang c slot = if w.lot = 0 then (s.slotFreed c slot g w).crewFreed c g.cslot
      else ((s.slotFreed c slot g w).crewFreed c g.cslot).memberEnded w.lot (w.without g).errored := by
    rw [State.releaseGang_eq hg hw, if_pos hn, State.endCrew_alone (by rw [hc]; exact h0), hc]
    rfl
  rw [hr]
  by_cases hl : w.lot = 0
  · rw [if_pos hl]
    exact ⟨.of_crewFreed rfl rfl, fun _ => ⟨rfl, rfl⟩, fun l h => absurd hl h⟩
  · rw [if_neg hl]
    refine ⟨.of_crewFreed ?_ ?_, fun h => absurd h hl, fun l _ h => ⟨fun h1 => ?_, fun h1 => ?_⟩⟩
    · rw [State.memberEnded_eq]
      rfl
    · rw [State.memberEnded_eq]
    · exact State.memberEnded_last (s := (s.slotFreed c slot g w).crewFreed c g.cslot) h h1 _
    · exact State.memberEnded_earlier (s := (s.slotFreed c slot g w).crewFreed c g.cslot) h h1 _

/-! #### Arrivals of a stand (R345) -/

/-- In a table whose keys rise an entry is written in its place: a search that does not see the difference finds the same key. -/
theorem find?_mset_key {α : Type} {m : Map α} (hr : KeysRise m) {k : Nat} {a b : α} (h : mget? m k = some a) {p : Nat × α → Bool}
    (hp : p (k, b) = p (k, a)) : ((mset m k b).find? p).map Prod.fst = (m.find? p).map Prod.fst := by
  induction m with
  | nil => cases h
  | cons q r ih =>
    obtain ⟨j, x⟩ := q
    obtain ⟨hq, hr'⟩ := List.pairwise_cons.mp hr
    simp only [mset]
    by_cases hj : j = k
    · subst hj
      obtain rfl : x = a := by simpa [mget?] using h
      rw [if_neg (Nat.lt_irrefl _), if_pos rfl, List.find?_cons, List.find?_cons, hp]
      cases p (j, x) <;> rfl
    · have h' : mget? r k = some a := by simpa [mget?, hj] using h
      have hlt : j < k := hq _ (mget?_mem h')
      rw [if_neg (by omega), if_neg (by omega), List.find?_cons, List.find?_cons]
      cases p (j, x) with
      | true => rfl
      | false => exact ih hr' h'
/-- The crews of a stand are where they were when one of them changes nothing that places it. -/
theorem State.standPeer_setCrew {s : State} {c cs : Nat} {w x : Crew} (hr : KeysRise (s.core c).crews) (hw : mget? (s.core c).crews cs = some w)
    (hx : x.standN = w.standN ∧ x.stand = w.stand ∧ x.spos = w.spos) (d k p : Nat) :
    (s.setCrew c cs x).standPeer d k p = s.standPeer d k p := by
  obtain ⟨hN, hS, hP⟩ := hx
  have hme : ((s.setCrew c cs x).crew d k).standN = (s.crew d k).standN ∧ ((s.setCrew c cs x).crew d k).stand = (s.crew d k).stand := by
    by_cases hdk : d = c ∧ k = cs
    · obtain ⟨rfl, rfl⟩ := hdk
      rw [State.crew_setCrew_self, State.crew, mget, hw]
      exact ⟨hN, hS⟩
    · rw [State.crew_setCrew_ne _ _ (by tauto)]
      exact ⟨rfl, rfl⟩
  have hfind (N : Nat) (e : Nat) : (((s.setCrew c cs x).core e).crews.find? (fun y => y.2.standN != 0 && y.2.stand == N && y.2.spos == p)).map Prod.fst =
      ((s.core e).crews.find? (fun y => y.2.standN != 0 && y.2.stand == N && y.2.spos == p)).map Prod.fst := by
    by_cases he : e = c
    · subst he
      rw [State.setCrew_core_self]
      exact find?_mset_key hr hw (by simp only [hN, hS, hP])
    · rw [State.setCrew_core_ne _ _ _ he]
  unfold State.standPeer
  dsimp only
  rw [hme.1, hme.2]
  have hmap (o : Option (Nat × Crew)) (e : Nat) : o.map (fun y => (e, y.1)) = (o.map Prod.fst).map (fun j => (e, j)) := by cases o <;> rfl
  rw [hmap, hmap, hfind]
theorem State.standCrews_setCrew {s : State} {c cs : Nat} {w x : Crew} (hr : KeysRise (s.core c).crews) (hw : mget? (s.core c).crews cs = some w)
    (hx : x.standN = w.standN ∧ x.stand = w.stand ∧ x.spos = w.spos) : (s.setCrew c cs x).standCrews c cs = s.standCrews c cs := by
  have hc : s.crew c cs = w := by rw [State.crew, mget, hw]; rfl
  unfold State.standCrews
  dsimp only
  rw [State.crew_setCrew_self, hc, hx.1, hx.2.2, funext (State.standPeer_setCrew hr hw hx c cs)]

theorem State.noteMet_crew (s : State) (c cs n d k : Nat) : (s.noteMet c cs n).crew d k = s.crew d k :=
  State.crew_setCore_crews _ _ _ _ _ rfl

/-- The stand word once its phase has completed (R345). -/
def sbstDone (b : Nat) : Nat :=
  setBits (setBits (setBits (setBits b 15 0 (b % 65536 ||| bitsOf b 31 16)) 31 16 0) 55 48 0) 62 62 (1 - bitsOf b 62 62)
theorem sbstDone_lt {b : Nat} (h : b < 2 ^ 64) : sbstDone b < 2 ^ 64 := by
  refine setBits_lt _ (by decide) (setBits_lt _ (by decide) (setBits_lt _ (by decide) (setBits_lt _ (by decide) h ?_) ?_) ?_) ?_ <;> decide
theorem sbstDone_fields (b : Nat) : bitsOf (sbstDone b) 55 48 = 0 ∧ bitsOf (sbstDone b) 31 16 = 0 ∧
    bitsOf (sbstDone b) 15 0 = (bitsOf b 15 0 ||| bitsOf b 31 16) ∧ (sbstDone b).testBit 62 = !b.testBit 62 := by
  have ht (i : Nat) : (sbstDone b).testBit i = if i = 62 then !b.testBit 62 else if 48 ≤ i ∧ i ≤ 55 then false
      else if 16 ≤ i ∧ i ≤ 31 then false else if i ≤ 15 then (b.testBit i || b.testBit (16 + i)) else b.testBit i := by
    have hflip : (1 - bitsOf b 62 62).testBit 0 = !b.testBit 62 := by
      have hb : bitsOf b 62 62 = (b.testBit 62).toNat := by rw [Nat.toNat_testBit, bitsOf, Nat.shiftRight_eq_div_pow]; rfl
      rw [hb]
      cases b.testBit 62 <;> rfl
    unfold sbstDone
    rw [setBits_testBit _ _ (by decide), setBits_testBit _ _ (by decide), setBits_testBit _ _ (by decide), setBits_testBit _ _ (by decide)]
    by_cases h62 : i = 62
    · subst h62
      simpa using hflip
    rw [if_neg (by omega), if_neg h62, Nat.zero_testBit, Nat.zero_testBit]
    congr 1
    congr 1
    by_cases h15 : i ≤ 15
    · rw [if_pos (by omega), if_pos h15, Nat.sub_zero, Nat.testBit_or, show (65536 : Nat) = 2 ^ 16 from rfl, Nat.testBit_mod_two_pow, bitsOf_testBit]
      simp [show i < 16 by omega]
    · rw [if_neg (by omega), if_neg h15]
  refine ⟨?_, ?_, ?_, ?_⟩
  · refine Nat.eq_of_testBit_eq fun i => ?_
    rw [bitsOf_testBit, ht, Nat.zero_testBit]
    by_cases hi : i < 8
    · rw [if_neg (by omega), if_pos (by omega), Bool.and_false]
    · simp [hi]
  · refine Nat.eq_of_testBit_eq fun i => ?_
    rw [bitsOf_testBit, ht, Nat.zero_testBit]
    by_cases hi : i < 16
    · rw [if_neg (by omega), if_neg (by omega), if_pos (by omega), Bool.and_false]
    · simp [hi]
  · refine Nat.eq_of_testBit_eq fun i => ?_
    rw [Nat.testBit_or, bitsOf_testBit, bitsOf_testBit, bitsOf_testBit, ht]
    by_cases hi : i < 16
    · rw [if_neg (by omega), if_neg (by omega), if_neg (by omega), if_pos (by omega)]
      simp [hi]
    · simp [hi]
  · rw [ht, if_pos rfl]

section
variable {s : State} {c cs pos : Nat} {ids : List Nat} {w : Crew} (hw : mget? (s.core c).crews cs = some w)
include hw

theorem State.crew_of_mget? : s.crew c cs = w := by rw [State.crew, mget, hw]; rfl
theorem execSbarCarrArrival_arrives {stand : Nat} {ph : Bool} (he : s.ev = .carr c cs stand pos ph ids) (hN : w.standN ≠ 0) (hS : w.stand = stand) :
    execSbarCarrArrival s = .next (s.carrArrive c cs pos ph ids) := by
  rw [execSbarCarrArrival, he]
  dsimp only
  rw [hw]
  exact if_pos ⟨hN, hS⟩

/-- The stand word of a crew once a crew's bit has entered CARR. -/
theorem Crew.carr_sbst (hp : pos < 8) : (w.carr pos ids).sbst.toNat = setBits (s.crew c cs).sbst.toNat (48 + pos) (48 + pos) 1 := by
  rw [State.crew_of_mget? hw]
  exact Nat.mod_eq_of_lt (setBits_lt 1 (by omega) w.sbst.isLt (by omega))
theorem State.standCrews_carr (hr : KeysRise (s.core c).crews) : (s.setCrew c cs (w.carr pos ids)).standCrews c cs = s.standCrews c cs :=
  State.standCrews_setCrew hr hw ⟨rfl, rfl, rfl⟩
/-- A bit that is not the last. -/
theorem State.carrArrive_more (hr : KeysRise (s.core c).crews) (hp : pos < 8) 
    (ha : (s.standCrews c cs).all (fun p => (setBits (s.crew c cs).sbst.toNat (48 + pos) (48 + pos) 1).testBit (48 + p.1)) = false) :
    s.carrArrive c cs pos (w.sbst.getLsbD 62) ids = s.setCrew c cs (w.carr pos ids) := by
  have hc := State.crew_of_mget? hw
  unfold State.carrArrive
  dsimp only
  rw [hc, if_pos rfl, State.sbarCheck]
  dsimp only
  rw [State.standCrews_carr hw hr, State.crew_setCrew_self, Crew.carr_sbst hw hp, ha]
  rfl
/-- The last one. -/
theorem State.carrArrive_last (hr : KeysRise (s.core c).crews) (hp : pos < 8) (hn : w.carrNext = [])
    (ha : (s.standCrews c cs).all (fun p => (setBits (s.crew c cs).sbst.toNat (48 + pos) (48 + pos) 1).testBit (48 + p.1)) = true) :
    ((s.carrArrive c cs pos (w.sbst.getLsbD 62) ids).crew c cs).sbst.toNat =
      sbstDone (setBits (s.crew c cs).sbst.toNat (48 + pos) (48 + pos) 1) := by
  have hc := State.crew_of_mget? hw
  unfold State.carrArrive
  dsimp only
  rw [hc, if_pos rfl, State.sbarCheck]
  dsimp only
  rw [State.standCrews_carr hw hr, State.crew_setCrew_self, Crew.carr_sbst hw hp, if_pos ha, State.noteMet_crew,
    State.crew_setCrew_self, show (w.carr pos ids).carrNext = [] from hn]
  have hlt : sbstDone (setBits (s.crew c cs).sbst.toNat (48 + pos) (48 + pos) 1) < 2 ^ 64 :=
    sbstDone_lt (setBits_lt 1 (by omega) (s.crew c cs).sbst.isLt (by omega))
  show (BitVec.ofNat 64 (sbstDone (setBits (s.crew c cs).sbst.toNat (48 + pos) (48 + pos) 1))).toNat = _
  rw [BitVec.toNat_ofNat, Nat.mod_eq_of_lt hlt, hc]
end

/-- Settles O43. -/
theorem crewEndResults : Obligations.CrewEndResults := by
  intro s
  refine ⟨fun c slot g w he hg hend hz hw => ?_, fun c g he hz => ?_, fun c cs stand pos ph ids he hno => ?_,
    fun c cs stand pos ph ids w he hw hN hS hph => ?_, fun c cs stand pos ph ids w he hp hw hN hS hph hn hr => ?_⟩
  · refine ⟨fun hn => ⟨_, execGangRelease_releases hg he hend hz, releaseGang_keeps hg hw hn⟩, fun hn h0 => ?_⟩
    obtain ⟨⟨h1, h2, h3, h4, h5, h6⟩, h7, h8⟩ := releaseGang_ends hg hw hn h0
    exact ⟨_, execGangRelease_releases hg he hend hz, h1, h2, h3, h4, h5, h6, h7, h8⟩
  · obtain ⟨h1, h2, h3, h4⟩ := (s.core c).granuleFreed_results g
    refine ⟨_, execGranuleZeroed_frees he hz, fun _ => rfl, s.setCore_kept c rfl rfl, ?_⟩
    rw [State.core_setCore_self]
    exact ⟨h1, h2, h3, h4⟩
  · show execSbarCarrArrival s = _
    rw [execSbarCarrArrival, he]
    dsimp only
    cases hw : mget? (s.core c).crews cs with
    | none => rfl
    | some w => exact if_neg fun h => (hno w hw).elim h.1 fun x => x h.2
  · refine ⟨_, execSbarCarrArrival_arrives hw he hN hS, ?_⟩
    rw [State.carrArrive, State.crew_of_mget? hw, if_neg hph]
    exact ⟨fun _ => rfl, fun _ _ => State.gang?_setCrew .., State.crew_setCrew_self ..⟩
  · subst hph
    refine ⟨fun ha => ⟨_, execSbarCarrArrival_arrives hw he hN hS, ?_⟩, fun ha => ⟨_, execSbarCarrArrival_arrives hw he hN hS, ?_, ?_⟩⟩
    · rw [State.carrArrive_more hw hr hp ha]
      exact ⟨fun _ => rfl, fun _ _ => State.gang?_setCrew .., by rw [State.crew_setCrew_self, Crew.carr_sbst hw hp]⟩
    · exact .of_eq (State.carrArrive_mem ..)
    · dsimp only
      rw [State.carrArrive_last hw hr hp hn ha]
      obtain ⟨h1, h2, h3, h4⟩ := sbstDone_fields (setBits (s.crew c cs).sbst.toNat (48 + pos) (48 + pos) 1)
      exact ⟨h1, h2, h3, h4⟩
end Sys2Proof.Machine
end

section
/-! SUPPORT. The lines that cores hold and their recall; what directory reads, ownership and write-backs leave (R61 to R71, R144, Table 2-5). -/

namespace Sys2Proof.Machine
open Sys2Proof

/-! #### The lines a core holds -/

theorem Block.holds_iff {b : Block} {ctx line : Nat} :
    b.holds ctx line = true ↔ b.ctx = ctx ∧ b.base ≤ line ∧ line < b.base + b.lines.length := by
  simp [Block.holds, and_assoc]
/-- A block with a line of it written. -/
def Block.put (b : Block) (ctx line : Nat) (x : Line) : Block :=
  if b.holds ctx line then { b with lines := b.lines.set (line - b.base) x } else b
theorem Block.put_holds (b : Block) (ctx line : Nat) (x : Line) (d j : Nat) : (b.put ctx line x).holds d j = b.holds d j := by
  unfold Block.put
  split
  · simp [Block.holds]
  · rfl
theorem Block.put_line {b : Block} {d j : Nat} (h : b.holds d j = true) (ctx line : Nat) (x : Line) :
    (b.put ctx line x).lines.getD (j - (b.put ctx line x).base) {} = if d = ctx ∧ j = line then x else b.lines.getD (j - b.base) {} := by
  obtain ⟨hd, hb, hl⟩ := Block.holds_iff.mp h
  unfold Block.put
  by_cases hh : b.holds ctx line = true
  · obtain ⟨hc, hb', hl'⟩ := Block.holds_iff.mp hh
    rw [if_pos hh]
    by_cases hj : j = line
    · rw [if_pos ⟨hd.symm.trans hc, hj⟩, hj]
      simp only [List.getD_eq_getElem?_getD]
      rw [List.getElem?_set_self (by omega)]
      rfl
    · rw [if_neg fun x => hj x.2]
      simp only [List.getD_eq_getElem?_getD]
      rw [List.getElem?_set_ne (by omega)]
  · rw [if_neg hh, if_neg]
    rintro ⟨rfl, rfl⟩
    exact hh h
theorem Core.setLine_block? (k : Core) (ctx line : Nat) (x : Line) (d j : Nat) :
    (k.setLine ctx line x).block? d j = (k.block? d j).map (·.put ctx line x) := by
  have hp : (fun b : Block => b.holds d j) ∘ (fun b : Block => b.put ctx line x) = fun b => b.holds d j := funext fun b => b.put_holds ctx line x d j
  show (k.blocks.map fun b => b.put ctx line x).find? (fun b => b.holds d j) = _
  rw [List.find?_map, hp]
  rfl
/-- A line written is the line read, where a block holds it. -/
theorem Core.setLine_stLine (k : Core) (ctx line : Nat) (x : Line) :
    (k.setLine ctx line x).stLine ctx line = if (k.block? ctx line).isSome then x else {} := by
  rw [Core.stLine, Core.setLine_block?]
  cases hb : k.block? ctx line with
  | none => rfl
  | some b => 
    have hh : b.holds ctx line = true := List.find?_some (p := fun b : Block => b.holds ctx line) hb
    exact (Block.put_line hh ctx line x).trans (if_pos ⟨rfl, rfl⟩)
theorem Core.block?_of_stLine {k : Core} {ctx line : Nat} (h : (k.stLine ctx line).st ≠ 0) : (k.block? ctx line).isSome = true := by
  unfold Core.stLine at h
  cases hb : k.block? ctx line with
  | none => rw [hb] at h; exact absurd rfl h
  | some b => rfl

/-- A core's stash holds a copy of a physical line under a line of a context. -/
def Core.stashes (k : Core) (pl ctx line : Nat) : Prop :=
  ∃ b ∈ k.blocks, b.holds ctx line = true ∧ (b.lines.getD (line - b.base) {}).st ≠ 0 ∧ (b.lines.getD (line - b.base) {}).pl = pl
/-- A core holds a copy of it, there or in its read-only L1 (R69). -/
def Core.keeps (k : Core) (pl ctx line : Nat) : Prop := k.stashes pl ctx line ∨ (ctx, line, pl) ∈ k.roL1
theorem State.mem_holders {s : State} {pl c ctx line : Nat} :
    (c, ctx, line) ∈ s.holders pl ↔ ∃ x ∈ s.cores, x.1 = c ∧ x.2.keeps pl ctx line := by
  unfold State.holders Core.keeps Core.stashes
  simp only [List.mem_flatMap, List.mem_append, List.mem_map, List.mem_filter, List.mem_range, Prod.mk.injEq, Bool.and_eq_true, bne_iff_ne,
    beq_iff_eq]
  constructor
  · rintro ⟨x, hx, ⟨b, hb, i, ⟨hi, hst, hpl⟩, rfl, rfl, rfl⟩ | ⟨r, ⟨hr, rfl⟩, rfl, rfl, rfl⟩⟩
    · refine ⟨x, hx, rfl, .inl ⟨b, hb, Block.holds_iff.mpr ⟨rfl, by omega, by omega⟩, ?_⟩⟩
      rw [Nat.add_sub_cancel_left]
      exact ⟨hst, hpl⟩
    · exact ⟨x, hx, rfl, .inr hr⟩
  · rintro ⟨x, hx, rfl, ⟨b, hb, hh, hst, hpl⟩ | hr⟩
    · obtain ⟨rfl, hle, hlt⟩ := Block.holds_iff.mp hh
      exact ⟨x, hx, .inl ⟨b, hb, line - b.base, ⟨by omega, hst, hpl⟩, rfl, rfl, by omega⟩⟩
    · exact ⟨x, hx, .inr ⟨_, ⟨hr, rfl⟩, rfl, rfl, rfl⟩⟩
theorem mget?_of_mem {α : Type} {m : Map α} (hr : KeysRise m) {k : Nat} {a : α} (h : (k, a) ∈ m) : mget? m k = some a := by
  induction m with
  | nil => cases h
  | cons q r ih =>
    obtain ⟨hq, hr'⟩ := List.pairwise_cons.mp hr
    rcases List.mem_cons.mp h with rfl | h
    · simp [mget?]
    · rw [mget?, if_neg (Nat.ne_of_lt (hq _ h)), ih hr' h]
/-- The snoop filters name every copy (R69). -/
theorem Core.keeps.mem_holders {s : State} {pl c ctx line : Nat} (h : (s.core c).keeps pl ctx line) : (c, ctx, line) ∈ s.holders pl := by
  rw [State.core, mget] at h
  cases hc : mget? s.cores c with
  | none =>
    rw [hc] at h
    rcases h with ⟨b, hb, -⟩ | h
    · cases hb
    · cases h
  | some k =>
    rw [hc] at h
    exact State.mem_holders.mpr ⟨(c, k), mget?_mem hc, rfl, h⟩
/-- And none that is not there. -/
theorem State.keeps_of_holders {s : State} (hr : KeysRise s.cores) {pl : Nat} {h : Nat × Nat × Nat} (hh : h ∈ s.holders pl) :
    (s.core h.1).keeps pl h.2.1 h.2.2 := by
  obtain ⟨c, ctx, line⟩ := h
  obtain ⟨⟨d, k⟩, hx, rfl, hk⟩ := State.mem_holders.mp hh
  rw [State.core, mget, mget?_of_mem hr hx]
  exact hk

/-- Of the copies in a stash a line written touches its own alone. -/
theorem Core.stashes_setLine {k : Core} {pl ctx line d j : Nat} {x : Line} (h : (k.setLine ctx line x).stashes pl d j) :
    (d = ctx ∧ j = line ∧ x.st ≠ 0) ∨ k.stashes pl d j ∧ ¬(d = ctx ∧ j = line) := by
  obtain ⟨b', hb', hh, hst, hpl⟩ := h
  obtain ⟨b, hb, rfl⟩ := List.mem_map.mp hb'
  change (b.put ctx line x).holds d j = true at hh
  change ((b.put ctx line x).lines.getD (j - (b.put ctx line x).base) {}).st ≠ 0 at hst
  change ((b.put ctx line x).lines.getD (j - (b.put ctx line x).base) {}).pl = pl at hpl
  rw [Block.put_holds] at hh
  rw [Block.put_line hh] at hst hpl
  by_cases he : d = ctx ∧ j = line
  · rw [if_pos he] at hst
    exact .inl ⟨he.1, he.2, hst⟩
  · rw [if_neg he] at hst hpl
    exact .inr ⟨⟨b, hb, hh, hst, hpl⟩, he⟩
theorem Core.keeps_setLine {k : Core} {pl ctx line d j : Nat} {x : Line} (h : (k.setLine ctx line x).keeps pl d j) :
    (d = ctx ∧ j = line) ∨ k.keeps pl d j := by
  rcases h with h | h
  · exact (Core.stashes_setLine h).imp (fun ⟨hd, hj, _⟩ => ⟨hd, hj⟩) fun ⟨hk, _⟩ => .inl hk
  · exact .inr (.inr h)

/-! #### Recalls -/

/-- A core without a line of a context. -/
def Core.without (k : Core) (ctx line : Nat) : Core :=
  { k.setLine ctx line {} with roL1 := k.roL1.filter (fun r => !(r.1 == ctx && r.2.1 == line)) }
theorem Core.keeps_without {k : Core} {pl ctx line d j : Nat} (h : (k.without ctx line).keeps pl d j) : k.keeps pl d j ∧ ¬(d = ctx ∧ j = line) := by
  rcases h with h | h
  · rcases Core.stashes_setLine h with ⟨-, -, hst⟩ | ⟨hk, hne⟩
    · exact absurd rfl hst
    · exact ⟨.inl hk, hne⟩
  · obtain ⟨hm, hf⟩ := List.mem_filter.mp h
    refine ⟨.inr hm, fun he => ?_⟩
    simp [he.1, he.2] at hf
theorem State.dirWriteback_cores (s : State) (pl : Nat) : (s.dirWriteback pl).cores = s.cores := by
  unfold State.dirWriteback
  dsimp only
  split <;> rfl
theorem State.dirDrop_cores (s : State) (pl c : Nat) : (s.dirDrop pl c).cores = s.cores := by
  unfold State.dirDrop
  dsimp only
  generalize (if (s.dirOf pl).2.2.testBit c = true then (s.dirOf pl).2.2 - 2 ^ c else (s.dirOf pl).2.2) = sh
  split
  · rfl
  · split <;> rfl
theorem State.recall_cores (s : State) (c ctx line : Nat) : (s.recall c ctx line).cores = (s.setCore c ((s.core c).without ctx line)).cores := by
  unfold State.recall
  dsimp only
  split
  · rw [State.dirWriteback_cores, State.dirDrop_cores]
    rfl
  · rw [State.dirDrop_cores]
    rfl
/-- No gang changes where one core alone changes, and in what is not of its gangs. -/
theorem State.gang?_of_core {s t : State} {c : Nat} (ho : ∀ d, d ≠ c → t.core d = s.core d) (hg : (t.core c).gangs = (s.core c).gangs) (d g : Nat) :
    t.gang? d g = s.gang? d g := by
  by_cases hd : d = c
  · rw [State.gang?, State.gang?, hd, hg]
  · rw [State.gang?, State.gang?, ho d hd]
theorem State.core_of_cores {s t : State} (h : t.cores = s.cores) (c : Nat) : t.core c = s.core c := by rw [State.core, h, State.core]
theorem State.recall_core (s : State) (c ctx line d : Nat) :
    (s.recall c ctx line).core d = if d = c then (s.core c).without ctx line else s.core d := by
  rw [State.core_of_cores (s.recall_cores c ctx line), State.core_setCore]
theorem State.setCore_rise {s : State} (h : KeysRise s.cores) (c : Nat) (k : Core) : KeysRise (s.setCore c k).cores := mset_rising h c k
theorem State.recall_rise {s : State} (h : KeysRise s.cores) (c ctx line : Nat) : KeysRise (s.recall c ctx line).cores := by
  rw [State.recall_cores]
  exact State.setCore_rise h ..

/-- Some first-level copies are recalled, one after another. -/
def State.recallEach (s : State) (hs : List (Nat × Nat × Nat)) : State := hs.foldl (fun t h => t.recall h.1 h.2.1 h.2.2) s
theorem State.recallEach_rise (hs : List (Nat × Nat × Nat)) {s : State} (h : KeysRise s.cores) : KeysRise (s.recallEach hs).cores := by
  induction hs generalizing s with
  | nil => exact h
  | cons a r ih => exact ih (State.recall_rise h ..)
/-- What a core then still holds it held before, and it has not been recalled. -/
theorem State.recallEach_keeps (hs : List (Nat × Nat × Nat)) {s : State} {pl d ctx line : Nat} (h : ((s.recallEach hs).core d).keeps pl ctx line) :
    (s.core d).keeps pl ctx line ∧ (d, ctx, line) ∉ hs := by
  induction hs generalizing s with
  | nil => exact ⟨h, List.not_mem_nil⟩
  | cons a r ih =>
    obtain ⟨hk, hr⟩ := ih h
    rw [State.recall_core] at hk
    by_cases hd : d = a.1
    · rw [if_pos hd] at hk
      obtain ⟨hk, hne⟩ := Core.keeps_without hk
      refine ⟨hd ▸ hk, fun hm => ?_⟩
      rcases List.mem_cons.mp hm with rfl | hm
      · exact hne ⟨rfl, rfl⟩
      · exact hr hm
    · rw [if_neg hd] at hk
      refine ⟨hk, fun hm => ?_⟩
      rcases List.mem_cons.mp hm with rfl | hm
      · exact hd rfl
      · exact hr hm
theorem State.recallAll_cores (s : State) (pl : Nat) : (s.recallAll pl).cores = (s.recallEach (s.holders pl)).cores := by
  unfold State.recallAll
  dsimp only
  split
  · rw [State.dirDrop_cores]
    split
    · rw [State.dirWriteback_cores]
      rfl
    · rfl
  · rfl
theorem State.recallAll_rise {s : State} (h : KeysRise s.cores) (pl : Nat) : KeysRise (s.recallAll pl).cores := by
  rw [State.recallAll_cores]
  exact State.recallEach_rise _ h
/-- No first-level copy of the line is left. -/
theorem State.recallAll_keeps (s : State) (pl d ctx line : Nat) : ¬((s.recallAll pl).core d).keeps pl ctx line := by
  intro h
  rw [State.core_of_cores (s.recallAll_cores pl)] at h
  obtain ⟨hk, hn⟩ := State.recallEach_keeps _ h
  exact hn hk.mem_holders

/-! #### The set of a line in the L2 -/

theorem l2Victim_mem {xs : List L2Line} {v : L2Line} (h : l2Victim xs = some v) : v ∈ xs := by
  induction xs generalizing v with
  | nil => cases h
  | cons x xs ih =>
    rw [l2Victim] at h
    cases hy : l2Victim xs with
    | none =>
      rw [hy] at h
      cases h
      exact List.mem_cons_self
    | some y =>
      rw [hy] at h
      dsimp only at h
      split at h <;> cases h
      · exact List.mem_cons_self
      · exact List.mem_cons_of_mem _ (ih hy)
/-- The victim's rank is the least of its set (R144). -/
theorem l2Victim_least {xs : List L2Line} {v : L2Line} (h : l2Victim xs = some v) : ∀ y ∈ xs, v.rank ≤ y.rank := by
  induction xs generalizing v with
  | nil => cases h
  | cons x xs ih =>
    rw [l2Victim] at h
    cases hy : l2Victim xs with
    | none =>
      have he : xs = [] := by
        cases xs with
        | nil => rfl
        | cons z zs =>
          rw [l2Victim] at hy
          split at hy
          · cases hy
          · split at hy <;> cases hy
      rw [hy] at h
      cases h
      subst he
      simp
    | some w =>
      rw [hy] at h
      dsimp only at h
      intro y hm
      rcases List.mem_cons.mp hm with rfl | hm
      · split at h <;> cases h <;> omega
      · have hw := ih hy y hm
        split at h <;> cases h <;> omega

/-- An access leaves the line in the L2 (R67). -/
theorem State.l2Use_holds (s : State) (pl rank : Nat) (last wr fetch : Bool) : (s.l2Use pl rank last wr fetch).l2.any (fun y => y.line == pl) = true := by
  rcases s.l2Use_cases pl rank last wr fetch with ⟨hh, c, h⟩ | ⟨-, c, h⟩ <;> rw [h]
  · obtain ⟨x, hx, he⟩ := List.any_eq_true.mp hh
    have he' : x.line = pl := by simpa using he
    refine List.any_eq_true.mpr ⟨_, List.mem_map.mpr ⟨x, hx, rfl⟩, ?_⟩
    rw [if_pos he']
    exact he
  · simp
/-- An access of a line for which there is room changes the directory of none. -/
theorem State.l2Use_dir {s : State} {pl : Nat} (hr : s.l2Room pl) (rank : Nat) (last wr fetch : Bool) :
    (s.l2Use pl rank last wr fetch).dir = s.dir := by
  rcases s.l2Use_cases pl rank last wr fetch with ⟨-, c, h⟩ | ⟨hn, c, h⟩ <;> rw [h]
  have hm : (s.l2Mates pl).length < 12 := hr.resolve_left (by simp [hn])
  show (s.l2Vacate pl).dir = s.dir
  rw [State.l2Vacate, if_pos hm]
/-- Without room the victim leaves. -/
theorem State.l2Use_victim {s : State} {pl : Nat} (hr : ¬ s.l2Room pl) {v : L2Line} (hv : l2Victim (s.l2Mates pl) = some v) (rank : Nat)
    (last wr fetch : Bool) : (s.l2Use pl rank last wr fetch).l2.any (fun y => y.line == v.line) = false := by
  obtain ⟨hn, hm⟩ := not_or.mp hr
  have hvm : v ∈ s.l2 := (List.mem_filter.mp (l2Victim_mem hv)).1
  have hne : v.line ≠ pl := fun he => hn (List.any_eq_true.mpr ⟨v, hvm, by simp [he]⟩)
  have hl : ∀ y ∈ (s.l2Evict v).l2, y.line ≠ v.line := by
    unfold State.l2Evict
    dsimp only
    intro y hy
    split at hy
    · simpa using (List.mem_filter.mp hy).2
    · simpa using (List.mem_filter.mp hy).2
  rcases s.l2Use_cases pl rank last wr fetch with ⟨hh, -⟩ | ⟨-, c, h⟩
  · exact absurd hh hn
  rw [h, State.l2Vacate, if_neg hm, hv]
  simpa using ⟨hl, Ne.symm hne⟩
theorem State.l2Evict_rise {s : State} (h : KeysRise s.cores) (x : L2Line) : KeysRise (s.l2Evict x).cores := by
  unfold State.l2Evict
  dsimp only
  split <;> exact State.recallAll_rise h _
theorem State.l2Use_rise {s : State} (h : KeysRise s.cores) (pl rank : Nat) (last wr fetch : Bool) :
    KeysRise (s.l2Use pl rank last wr fetch).cores := by
  rcases s.l2Use_cases pl rank last wr fetch with ⟨-, c, hu⟩ | ⟨-, c, hu⟩ <;> rw [hu]
  · exact h
  · show KeysRise (s.l2Vacate pl).cores
    rcases s.l2Vacate_cases pl with hv | ⟨x, hv⟩ <;> rw [hv]
    · exact h
    · exact State.l2Evict_rise h x

/-! #### Lines granted -/

theorem State.grant_counts (s : State) (c : Nat) : ∃ n, s.grant c = { s with counts := n } := ⟨_, rfl⟩
theorem State.grant_power_counts (s : State) (c j d : Nat) : ∃ n, (s.grant c).power c j d = { s with counts := n } := ⟨_, rfl⟩

/-! #### The directory -/

@[simp] theorem State.dirOf_setDir_self (s : State) (pl : Nat) (d : Nat × Nat × Nat) : (s.setDir pl d).dirOf pl = d := mget_mset_self ..
theorem State.dirOf_setDir_ne (s : State) {pl q : Nat} (d : Nat × Nat × Nat) (h : q ≠ pl) : (s.setDir pl d).dirOf q = s.dirOf q :=
  mget_mset_ne _ _ _ h
/-- What a read makes of a line's entry (Table 2-5). -/
theorem State.dirRead_self (s : State) (pl k : Nat) : (s.dirRead pl k).dirOf pl =
    if (s.dirOf pl).1 = 0 then (2, k, 2 ^ k) else if (s.dirOf pl).1 = 2 then (1, 0, (s.dirOf pl).2.2 ||| 2 ^ k)
      else if (s.dirOf pl).1 = 4 then (3, (s.dirOf pl).2.1, (s.dirOf pl).2.2 ||| 2 ^ k)
      else ((s.dirOf pl).1, (s.dirOf pl).2.1, (s.dirOf pl).2.2 ||| 2 ^ k) := by
  unfold State.dirRead
  obtain ⟨m, o, sh⟩ := s.dirOf pl
  dsimp only
  split <;> simp_all
theorem State.dirRead_ne (s : State) {pl q : Nat} (k : Nat) (h : q ≠ pl) : (s.dirRead pl k).dirOf q = s.dirOf q := by
  unfold State.dirRead
  dsimp only
  split <;> exact s.dirOf_setDir_ne _ h
theorem State.dirRead_kept (s : State) (pl k : Nat) : (s.dirRead pl k).cores = s.cores ∧ (s.dirRead pl k).l2 = s.l2 := by
  unfold State.dirRead
  dsimp only
  split <;> exact ⟨rfl, rfl⟩
theorem State.dirWriteback_self (s : State) (pl : Nat) :
    (s.dirWriteback pl).dirOf pl = if (s.dirOf pl).2.2 = 0 then (0, 0, 0) else (1, 0, (s.dirOf pl).2.2) := by
  unfold State.dirWriteback
  dsimp only
  split <;> exact State.dirOf_setDir_self ..
theorem State.dirWriteback_ne (s : State) {pl q : Nat} (h : q ≠ pl) : (s.dirWriteback pl).dirOf q = s.dirOf q := by
  unfold State.dirWriteback
  dsimp only
  split <;> exact State.dirOf_setDir_ne _ _ h

/-! #### A read -/

/-- A copy of a line after its owner lost sole ownership of it. -/
def Line.downgraded (l : Line) (pl : Nat) : Line :=
  if l.pl = pl then (if l.st = 2 then ⟨1, pl, fullLine, []⟩ else if l.st = 4 then ⟨3, pl, fullLine, []⟩ else l) else l
theorem Line.downgraded_st (l : Line) (pl : Nat) (h : (l.downgraded pl).pl = pl) : (l.downgraded pl).st ≠ 2 ∧ (l.downgraded pl).st ≠ 4 := by
  unfold Line.downgraded at h ⊢
  by_cases hp : l.pl = pl
  · rw [if_pos hp]
    split
    · simp
    · split
      · simp
      · exact ⟨‹_›, ‹_›⟩
  · rw [if_neg hp] at h
    exact absurd h hp
theorem State.downgrade_gangs (s : State) (pl : Nat) : GangsKept s (s.downgrade pl) :=
  have h := State.core_map (f := fun k => { k with blocks := k.blocks.map fun b => { b with lines := b.lines.map (·.downgraded pl) } })
    (s := s) (t := s.downgrade pl) rfl rfl
  .of_core (fun c => by rw [h c]) (fun c => by rw [h c])
theorem State.downgrade_sole (s : State) (pl : Nat) {p : Nat × Core} (hp : p ∈ (s.downgrade pl).cores) {b : Block} (hb : b ∈ p.2.blocks) {y : Line}
    (hy : y ∈ b.lines) (h : y.pl = pl) : y.st ≠ 2 ∧ y.st ≠ 4 := by
  obtain ⟨p, -, rfl⟩ := List.mem_map.mp hp
  obtain ⟨b, -, rfl⟩ := List.mem_map.mp hb
  obtain ⟨l, -, rfl⟩ := List.mem_map.mp hy
  exact l.downgraded_st pl h
/-- What a read request changes at the home slice. -/
def State.lineRead (s : State) (c ctx line pl : Nat) : State := ((s.l2Ask c ctx line pl true).dirRead pl (c / 8)).downgrade pl
theorem State.lineRead_gangs (s : State) (c ctx line pl : Nat) : GangsKept s (s.lineRead c ctx line pl) :=
  ((s.l2Use_calm ..).gangs.trans (.of_cores (State.dirRead_kept ..).1)).trans (State.downgrade_gangs ..)
theorem State.lineRead_l2 (s : State) (c ctx line pl : Nat) : (s.lineRead c ctx line pl).l2 = (s.l2Ask c ctx line pl true).l2 :=
  (State.dirRead_kept ..).2

/-- The claim of `Obligations.CoherenceResults` on DIRECTORY_READ. -/
theorem directoryRead_result {s : State} {c ctx line pl : Nat} (he : s.ev = .line c ctx line pl) :
    ∃ t, exec .directoryRead s = .next t ∧ MemKept s t ∧ GangsKept s t ∧
      (∀ p ∈ t.cores, ∀ b ∈ p.2.blocks, ∀ y ∈ b.lines, y.pl = pl → y.st ≠ 2 ∧ y.st ≠ 4) ∧
      (c < 128 → ∃ p ∈ t.agenda, p.op = .stashLineFill ∧ p.arg = .line c ctx line pl) ∧
      t.l2.any (fun y => y.line == pl) = true ∧
      (s.l2Room pl →
        t.dirOf pl = (if (s.dirOf pl).1 = 0 then (2, c / 8, 2 ^ (c / 8)) else if (s.dirOf pl).1 = 2 then (1, 0, (s.dirOf pl).2.2 ||| 2 ^ (c / 8))
          else if (s.dirOf pl).1 = 4 then (3, (s.dirOf pl).2.1, (s.dirOf pl).2.2 ||| 2 ^ (c / 8))
          else ((s.dirOf pl).1, (s.dirOf pl).2.1, (s.dirOf pl).2.2 ||| 2 ^ (c / 8))) ∧
        ∀ y, y ≠ pl → t.dirOf y = s.dirOf y) ∧
      (¬ s.l2Room pl → ∀ v, l2Victim (s.l2Mates pl) = some v →
        (∀ y ∈ s.l2Mates pl, v.rank ≤ y.rank) ∧ t.l2.any (fun y => y.line == v.line) = false) := by
  obtain ⟨u, hu⟩ : ∃ u, u = s.lineRead c ctx line pl := ⟨_, rfl⟩
  have hx : exec .directoryRead s = .next (if ofComplex c then u else (u.grant c).later .stashLineFill (.line c ctx line pl)) := by
    show execDirectoryRead s = _
    rw [execDirectoryRead, he, hu]
    rfl
  obtain ⟨t, ht⟩ : ∃ t, t = if ofComplex c then u else (u.grant c).later .stashLineFill (.line c ctx line pl) := ⟨_, rfl⟩
  have hk : t.mem = u.mem ∧ t.cores = u.cores ∧ t.l2 = u.l2 ∧ t.dir = u.dir := by
    obtain ⟨n, hn⟩ := u.grant_counts c
    rw [ht, hn]
    split <;> exact ⟨rfl, rfl, rfl, rfl⟩
  obtain ⟨hm, hcr, hl, hd⟩ := hk
  have hd' (q : Nat) : t.dirOf q = ((s.l2Ask c ctx line pl true).dirRead pl (c / 8)).dirOf q := by
    rw [State.dirOf, hd, hu]
    rfl
  have hl' : t.l2 = (s.l2Ask c ctx line pl true).l2 := by rw [hl, hu, State.lineRead_l2]
  refine ⟨t, ht ▸ hx, .of_eq ?_, ?_, ?_, ?_, ?_, fun hr => ?_, fun hr v hv => ⟨l2Victim_least hv, ?_⟩⟩
  · rw [hm, hu, State.lineRead, State.downgrade_mem, State.dirRead_mem, State.l2Ask_mem]
  · exact (hu ▸ State.lineRead_gangs ..).trans (.of_cores hcr)
  · rw [hcr, hu]
    exact fun p hp b hb y hy => State.downgrade_sole _ _ hp hb hy
  · intro hc
    have hn : ofComplex c = false := by simp [ofComplex, Nat.ne_of_lt hc]
    rw [ht, hn]
    exact ⟨_, List.mem_append_right _ (List.mem_singleton.mpr rfl), rfl, rfl⟩
  · rw [hl']
    exact State.l2Use_holds ..
  · have hs (q : Nat) : (s.l2Ask c ctx line pl true).dirOf q = s.dirOf q := by
      rw [State.dirOf, State.l2Ask, State.l2Use_dir hr]
      rfl
    refine ⟨?_, fun q hq => ?_⟩
    · rw [hd', State.dirRead_self, hs]
    · rw [hd', State.dirRead_ne _ _ hq, hs]
  · rw [hl']
    exact State.l2Use_victim hr hv ..

/-! #### Ownership -/

/-- The claim of `Obligations.CoherenceResults` on DIRECTORY_OWNERSHIP. -/
theorem directoryOwnership_result {s : State} {c ctx line pl : Nat} (he : s.ev = .line c ctx line pl) (hc : c < 128) (hr : KeysRise s.cores) :
    ∃ t, exec .directoryOwnership s = .next t ∧ MemKept s t ∧ GangsKept s t ∧ t.dirOf pl = (4, c / 8, 2 ^ (c / 8)) ∧
      (∀ h ∈ t.holders pl, h = (c, ctx, line)) ∧ ∃ p ∈ t.agenda, p.op = .stashLineFill ∧ p.arg = .line c ctx line pl := by
  obtain ⟨x, hx⟩ : ∃ x, x = (s.core c).stLine ctx line := ⟨_, rfl⟩
  obtain ⟨u, hu⟩ : ∃ u, u = (s.l2Ask c ctx line pl (decide (x.st = 4))).recallAll pl := ⟨_, rfl⟩
  obtain ⟨v, hv⟩ : ∃ v, v = if x.st = 0 then u.dirOwn pl (c / 8)
    else (u.dirOwn pl (c / 8)).setCore c (((u.dirOwn pl (c / 8)).core c).setLine ctx line (if x.st = 4 then x else { x with st := 1 })) := ⟨_, rfl⟩
  have hn : ofComplex c = false := by simp [ofComplex, Nat.ne_of_lt hc]
  have ht : exec .directoryOwnership s = .next ((v.grant c).later .stashLineFill (.line c ctx line pl)) := by
    show execDirectoryOwnership s = _
    rw [execDirectoryOwnership, he]
    dsimp only
    rw [← hx, ← hu, hn, hv]
    rfl
  have hum : u.mem = s.mem := by rw [hu, State.recallAll_mem, State.l2Ask_mem]
  have hug : GangsKept s u := by
    rw [hu]
    exact (s.l2Use_calm ..).gangs.trans (State.recallAll_calm ..).gangs
  have hur : KeysRise u.cores := by
    rw [hu]
    exact State.recallAll_rise (State.l2Use_rise hr ..) _
  have huk (d i j : Nat) : ¬(u.core d).keeps pl i j := by
    rw [hu]
    exact fun h => State.recallAll_keeps _ _ _ _ _ h
  have hvk : v.mem = u.mem ∧ GangsKept u v ∧ v.dirOf pl = (4, c / 8, 2 ^ (c / 8)) ∧ KeysRise v.cores ∧
      ∀ d i j, (v.core d).keeps pl i j → d = c ∧ i = ctx ∧ j = line := by
    rw [hv]
    split
    · exact ⟨rfl, .of_cores rfl, State.dirOf_setDir_self .., hur, fun d i j h => absurd h (huk d i j)⟩
    · refine ⟨rfl, State.setCore_kept _ c rfl rfl, State.dirOf_setDir_self .., State.setCore_rise hur .., fun d i j h => ?_⟩
      rw [State.core_setCore] at h
      split at h
      · rcases Core.keeps_setLine h with ⟨hi, hj⟩ | h
        · exact ⟨‹_›, hi, hj⟩
        · exact absurd h (huk c i j)
      · exact absurd h (huk d i j)
  obtain ⟨hvm, hvg, hvd, hvr, hvh⟩ := hvk
  obtain ⟨n, hn⟩ := v.grant_counts c
  rw [hn] at ht
  refine ⟨_, ht, .of_eq (hvm.trans hum), (hug.trans hvg).trans (.of_cores rfl), hvd, fun h hh => ?_, _,
    List.mem_append_right _ (List.mem_singleton.mpr rfl), rfl, rfl⟩
  obtain ⟨hd, hi, hj⟩ := hvh _ _ _ (State.keeps_of_holders hvr hh)
  exact Prod.ext hd (Prod.ext hi hj)

/-! #### Write-backs -/

/-- What a dirty line with all its bytes leaves as it is written back. -/
theorem State.cleanLine_whole {s : State} {c ctx line : Nat} (h3 : 3 ≤ ((s.core c).stLine ctx line).st)
    (hv : ((s.core c).stLine ctx line).valid = fullLine) :
    (s.cleanLine c ctx line).cores = (s.setCore c ((s.core c).setLine ctx line { (s.core c).stLine ctx line with st := 1 })).cores ∧
      ∀ q, (s.cleanLine c ctx line).dirOf q = (s.dirWriteback ((s.core c).stLine ctx line).pl).dirOf q := by
  unfold State.cleanLine
  dsimp only
  rw [if_neg (Nat.not_lt.mpr h3), if_pos hv]
  obtain ⟨n, hn⟩ := State.grant_power_counts ((s.setCore c ((s.core c).setLine ctx line { (s.core c).stLine ctx line with st := 1 })).dirWriteback
    ((s.core c).stLine ctx line).pl) c 2 16
  rw [hn]
  refine ⟨State.dirWriteback_cores .., fun q => ?_⟩
  generalize ((s.core c).stLine ctx line).pl = pl
  show State.dirOf (State.dirWriteback (s.setCore _ _) pl) q = _
  by_cases hq : q = pl
  · rw [hq, State.dirWriteback_self, State.dirWriteback_self]
    rfl
  · rw [State.dirWriteback_ne _ hq, State.dirWriteback_ne _ hq]
    rfl
theorem State.cleanLine_partial {s : State} {c ctx line : Nat} (h3 : 3 ≤ ((s.core c).stLine ctx line).st)
    (hv : ((s.core c).stLine ctx line).valid ≠ fullLine) : (s.cleanLine c ctx line).cores = (s.setCore c ((s.core c).setLine ctx line {})).cores := by
  unfold State.cleanLine
  dsimp only
  rw [if_neg (Nat.not_lt.mpr h3), if_neg hv]
  obtain ⟨n, hn⟩ := State.grant_power_counts (((s.setCore c ((s.core c).setLine ctx line {})).dirWriteback
    ((s.core c).stLine ctx line).pl).dirDrop ((s.core c).stLine ctx line).pl (c / 8)) c 2 16
  rw [hn]
  exact (State.dirDrop_cores ..).trans (State.dirWriteback_cores ..)
theorem State.cleanLine_gangs (s : State) (c ctx line : Nat) : GangsKept s (s.cleanLine c ctx line) := by
  by_cases h3 : ((s.core c).stLine ctx line).st < 3
  · rw [State.cleanLine, if_pos h3]
    exact (Calm.refl s).gangs
  · have h3 := Nat.not_lt.mp h3
    have hk (l : Line) : GangsKept s (s.setCore c ((s.core c).setLine ctx line l)) := State.setCore_kept _ c rfl rfl
    by_cases hv : ((s.core c).stLine ctx line).valid = fullLine
    · exact (hk _).trans (.of_cores (State.cleanLine_whole h3 hv).1)
    · exact (hk _).trans (.of_cores (State.cleanLine_partial h3 hv))
theorem exec_directoryWriteback {s : State} {c ctx line pl : Nat} (he : s.ev = .line c ctx line pl) (hc : c < 128) :
    exec .directoryWriteback s = .next (if ((s.core c).stLine ctx line).pl = pl then s.cleanLine c ctx line else s) := by
  have hn : ofComplex c = false := by simp [ofComplex, Nat.ne_of_lt hc]
  show execDirectoryWriteback s = _
  rw [execDirectoryWriteback, he]
  dsimp only
  rw [hn]
  rfl
/-- The claim of `Obligations.CoherenceResults` on DIRECTORY_WRITEBACK of a dirty line. -/
theorem directoryWriteback_result {s : State} {c ctx line pl : Nat} (he : s.ev = .line c ctx line pl) (hc : c < 128)
    (hp : ((s.core c).stLine ctx line).pl = pl) (h3 : 3 ≤ ((s.core c).stLine ctx line).st) :
    ∃ t, exec .directoryWriteback s = .next t ∧ MemKept s t ∧ GangsKept s t ∧
      (((s.core c).stLine ctx line).valid = fullLine → (t.core c).lineState ctx line = 1 ∧
        t.dirOf pl = (if (s.dirOf pl).2.2 = 0 then (0, 0, 0) else (1, 0, (s.dirOf pl).2.2)) ∧ ∀ y, y ≠ pl → t.dirOf y = s.dirOf y) ∧
      (((s.core c).stLine ctx line).valid ≠ fullLine → (t.core c).lineState ctx line = 0) := by
  refine ⟨s.cleanLine c ctx line, ?_, .of_eq (s.cleanLine_mem ..), s.cleanLine_gangs .., fun hv => ?_, fun hv => ?_⟩
  · rw [exec_directoryWriteback he hc, if_pos hp]
  · obtain ⟨hcr, hd⟩ := State.cleanLine_whole h3 hv
    refine ⟨?_, ?_, fun y hy => ?_⟩
    · have hb := Core.block?_of_stLine (k := s.core c) (ctx := ctx) (line := line) (by omega)
      rw [Core.lineState, State.core_of_cores hcr, State.core_setCore_self, Core.setLine_stLine, hb]
      rfl
    · rw [hd, hp, State.dirWriteback_self]
    · rw [hd, hp, State.dirWriteback_ne _ hy]
  · rw [Core.lineState, State.core_of_cores (State.cleanLine_partial h3 hv), State.core_setCore_self, Core.setLine_stLine, ite_self]
theorem directoryWriteback_idle {s : State} {c ctx line pl : Nat} (he : s.ev = .line c ctx line pl) (hc : c < 128)
    (h : ((s.core c).stLine ctx line).pl ≠ pl ∨ ((s.core c).stLine ctx line).st < 3) : exec .directoryWriteback s = .next s := by
  rw [exec_directoryWriteback he hc]
  rcases h with h | h
  · rw [if_neg h]
  · rw [State.cleanLine, if_pos h, ite_self]

/-! #### Recalls -/

/-- The claim of `Obligations.CoherenceResults` on COHERENCE_RECALL. -/
theorem coherenceRecall_result {s : State} {c ctx line pl : Nat} (he : s.ev = .line c ctx line pl) :
    ∃ t, exec .coherenceRecall s = .next t ∧ MemKept s t ∧ GangsKept s t ∧ (t.core c).lineState ctx line = 0 ∧
      (∀ y ∈ (t.core c).roL1, ¬(y.1 = ctx ∧ y.2.1 = line)) ∧ ∀ d, d ≠ c → t.core d = s.core d := by
  refine ⟨s.recall c ctx line, ?_, .of_eq (s.recall_mem ..), (s.recall_calm ..).gangs, ?_, fun y hy h => ?_, fun d hd => ?_⟩
  · show execCoherenceRecall s = _
    rw [execCoherenceRecall, he]
  · rw [State.recall_core, if_pos rfl]
    show (((s.core c).setLine ctx line {}).stLine ctx line).st = 0
    rw [Core.setLine_stLine, ite_self]
  · rw [State.recall_core, if_pos rfl] at hy
    have hf := (List.mem_filter.mp hy).2
    simp [h.1, h.2] at hf
  · rw [State.recall_core, if_neg hd]
end Sys2Proof.Machine
end

section
/-! SUPPORT. Fills of the stash and of the read-only L1 (R61 to R66), and what the directory keeps of a line. -/

namespace Sys2Proof.Machine
open Sys2Proof

/-! #### Room in the stash -/

/-- One core's blocks change, and nothing else that the cores hold. -/
structure BlocksOnly (c : Nat) (s t : State) : Prop where
  others : ∀ d, d ≠ c → t.core d = s.core d
  own : ∃ bs, t.core c = { s.core c with blocks := bs }

namespace BlocksOnly

theorem of_cores {c : Nat} {s t : State} (h : t.cores = s.cores) : BlocksOnly c s t :=
  ⟨fun d _ => State.core_of_cores h d, (s.core c).blocks, State.core_of_cores h c⟩
theorem trans {c : Nat} {s t u : State} (h : BlocksOnly c s t) (k : BlocksOnly c t u) : BlocksOnly c s u := by
  obtain ⟨bs, hb⟩ := h.own
  obtain ⟨cs, hk⟩ := k.own
  refine ⟨fun d hd => (k.others d hd).trans (h.others d hd), cs, ?_⟩
  rw [hk, hb]
theorem of_setCore (s : State) (c : Nat) (bs : List Block) : BlocksOnly c s (s.setCore c { s.core c with blocks := bs }) :=
  ⟨fun _ hd => State.core_setCore_ne _ _ hd, bs, State.core_setCore_self ..⟩
theorem foldl {α : Type} {c : Nat} {f : State → α → State} (h : ∀ s a, BlocksOnly c s (f s a)) (xs : List α) (s : State) :
    BlocksOnly c s (xs.foldl f s) := by
  induction xs generalizing s with
  | nil => exact of_cores rfl
  | cons a r ih => exact (h s a).trans (ih _)
theorem roL1 {c : Nat} {s t : State} (h : BlocksOnly c s t) : (t.core c).roL1 = (s.core c).roL1 := by
  obtain ⟨bs, hb⟩ := h.own
  rw [hb]
theorem gang? {c : Nat} {s t : State} (h : BlocksOnly c s t) (d g : Nat) : t.gang? d g = s.gang? d g := by
  obtain ⟨bs, hb⟩ := h.own
  exact State.gang?_of_core h.others (by rw [hb]) d g

end BlocksOnly

theorem State.releaseBlock_blocks (s : State) (c : Nat) (b : Block) : BlocksOnly c s (s.releaseBlock c b) := by
  refine (BlocksOnly.of_setCore s c ((s.core c).blocks.erase b)).trans (.foldl (fun t l => ?_) _ _)
  split
  · exact .of_cores rfl
  · exact .of_cores (State.dirDrop_cores ..)
theorem State.makeRoom_blocks {fuel c n : Nat} {s t : State} (h : State.makeRoom fuel s c n = .ok t) : BlocksOnly c s t := by
  induction fuel generalizing s with
  | zero => cases h
  | succ fuel ih =>
    rw [State.makeRoom] at h
    split at h
    · cases h
      exact .of_cores rfl
    · split at h
      · cases h
      · split at h
        · exact (s.releaseBlock_blocks c _).trans (ih h)
        · cases h
theorem State.stashRoom_blocks {s t : State} {c ctx base n : Nat} (h : s.stashRoom c ctx base n = .ok t) : BlocksOnly c s t := by
  rw [State.stashRoom] at h
  dsimp only at h
  split at h
  · cases h
  · exact (BlocksOnly.foldl (fun t b => t.releaseBlock_blocks c b) _ s).trans (State.makeRoom_blocks h)
theorem State.enterBlock_blocks {s t : State} {c ctx base n rank : Nat} {declared : Bool} (h : s.enterBlock c ctx base n rank declared = some t) :
    BlocksOnly c s t := by
  rw [State.enterBlock] at h
  split at h
  · cases h
  · cases h
    exact (State.stashRoom_blocks ‹_›).trans (.of_setCore ..)
theorem State.enterBlock_waits {s : State} {c ctx base n : Nat} (h : ∀ u, s.stashRoom c ctx base n ≠ .ok u) (rank : Nat) (declared : Bool) :
    s.enterBlock c ctx base n rank declared = none := by
  rw [State.enterBlock]
  split
  · rfl
  · exact absurd ‹_› (h _)

/-! #### A line that enters the stash -/

theorem Core.touch_block? (k : Core) (ctx line rank now d j : Nat) :
    ((k.touch ctx line rank now).block? d j).isSome = (k.block? d j).isSome := by
  rw [Core.touch, Core.block?, Core.block?, List.find?_map, Option.isSome_map]
  congr 2
  funext b
  rw [Function.comp_apply]
  split <;> rfl
/-- A line as it enters the stash at the state that the directory gives a cluster (R63). -/
def State.lineFilled (s : State) (c ctx line pl : Nat) : Line :=
  let st := if ((s.dirOf pl).1 = 4 ∨ (s.dirOf pl).1 = 2) ∧ (s.dirOf pl).2.1 = c / 8 then (s.dirOf pl).1 else 1
  ⟨st, pl, if st = 4 ∧ ((s.core c).stLine ctx line).st = 0 then 0 else fullLine, []⟩
theorem State.stashEnter_blocks {s t : State} {c ctx line pl : Nat} {asks : List (Req × LaneAcc)} (h : s.stashEnter c ctx line pl asks = some t) :
    BlocksOnly c s t := by
  rw [State.stashEnter] at h
  dsimp only at h
  obtain ⟨u, hu, rfl⟩ := Option.map_eq_some_iff.mp h
  have hs : BlocksOnly c s u := by
    split at hu
    · cases hu
      exact .of_setCore ..
    · exact State.enterBlock_blocks hu
  exact (hs.trans (.of_setCore u c _)).trans (.of_cores rfl)
/-- A line with a block of its own is present there. -/
theorem State.stashEnter_block {s : State} {c ctx line pl : Nat} (hb : ((s.core c).block? ctx line).isSome = true) (asks : List (Req × LaneAcc)) :
    ∃ t, s.stashEnter c ctx line pl asks = some t ∧ (t.core c).stLine ctx line = s.lineFilled c ctx line pl := by
  obtain ⟨b, hb'⟩ := Option.isSome_iff_exists.mp hb
  rw [State.stashEnter]
  dsimp only
  rw [hb']
  refine ⟨_, rfl, ?_⟩
  rw [State.core_of_cores (State.power_cores ..), State.core_setCore_self, Core.setLine_stLine, State.core_setCore_self, Core.touch_block?, hb]
  rfl
theorem State.stashEnter_waits {s : State} {c ctx line pl : Nat} (hb : (s.core c).block? ctx line = none)
    (h : ∀ u, s.stashRoom c ctx line 1 ≠ .ok u) (asks : List (Req × LaneAcc)) : s.stashEnter c ctx line pl asks = none := by
  rw [State.stashEnter]
  dsimp only
  rw [hb]
  dsimp only
  rw [State.enterBlock_waits h]
  rfl

/-! #### A line that enters the read-only L1 -/

theorem roRoom_length {xs : List (Nat × Nat × Nat)} (h : xs.length ≤ 512) : (roRoom xs).length ≤ 511 := by
  rw [roRoom]
  split
  · omega
  · rw [List.length_drop]
    omega
/-- What a fill does for the loads that the read-only L1 serves (R66). -/
def State.roFilled (s : State) (c ctx line pl : Nat) : State :=
  if (roAsks (s.askers c ctx line)).isEmpty then s else (s.roEnter c ctx line pl).lineArrived c ctx line true
/-- The lines of a core's read-only L1 once one has entered it. -/
def Core.roWith (k : Core) (ctx line pl : Nat) : List (Nat × Nat × Nat) :=
  roRoom (k.roL1.filter (fun r => !(r.1 == ctx && r.2.1 == line))) ++ [(ctx, line, pl)]
theorem State.roFilled_none {s : State} {c ctx line : Nat} (h : roAsks (s.askers c ctx line) = []) (pl : Nat) : s.roFilled c ctx line pl = s := by
  rw [State.roFilled, h]
  rfl
theorem State.roFilled_some {s : State} {c ctx line : Nat} (h : roAsks (s.askers c ctx line) ≠ []) (pl : Nat) :
    (s.roFilled c ctx line pl).mem = s.mem ∧ (s.roFilled c ctx line pl).dir = s.dir ∧
      (s.roFilled c ctx line pl).cores = (s.setCore c { s.core c with roL1 := (s.core c).roWith ctx line pl }).cores := by
  rw [State.roFilled, if_neg (by simpa using h)]
  exact ⟨rfl, rfl, rfl⟩
theorem Core.roWith_length {k : Core} (h : k.roL1.length ≤ 512) (ctx line pl : Nat) : (k.roWith ctx line pl).length ≤ 512 := by
  rw [Core.roWith, List.length_append]
  exact Nat.succ_le_succ (roRoom_length ((List.length_filter_le ..).trans h))

/-- What the read-only L1 takes leaves the rest. -/
structure RoOnly (c : Nat) (s t : State) : Prop where
  mem : t.mem = s.mem
  dir : t.dir = s.dir
  others : ∀ d, d ≠ c → t.core d = s.core d
  own : ∃ r, t.core c = { s.core c with roL1 := r }
theorem State.roFilled_only (s : State) (c ctx line pl : Nat) : RoOnly c s (s.roFilled c ctx line pl) := by
  by_cases h : roAsks (s.askers c ctx line) = []
  · rw [State.roFilled_none h]
    exact ⟨rfl, rfl, fun _ _ => rfl, _, rfl⟩
  · obtain ⟨hm, hd, hc⟩ := State.roFilled_some h pl
    refine ⟨hm, hd, fun d hd => ?_, (s.core c).roWith ctx line pl, ?_⟩
    · rw [State.core_of_cores hc, State.core_setCore_ne _ _ hd]
    · rw [State.core_of_cores hc, State.core_setCore_self]
namespace RoOnly
variable {c : Nat} {s t : State} (h : RoOnly c s t)
include h
theorem blocks : (t.core c).blocks = (s.core c).blocks := by
  obtain ⟨r, hr⟩ := h.own
  rw [hr]
theorem gang? (d g : Nat) : t.gang? d g = s.gang? d g := by
  obtain ⟨r, hr⟩ := h.own
  exact State.gang?_of_core h.others (by rw [hr]) d g
theorem block? (ctx line : Nat) : (t.core c).block? ctx line = (s.core c).block? ctx line := by rw [Core.block?, h.blocks, Core.block?]
theorem lineFilled (ctx line pl : Nat) : t.lineFilled c ctx line pl = s.lineFilled c ctx line pl := by
  have hs : (t.core c).stLine ctx line = (s.core c).stLine ctx line := by rw [Core.stLine, h.block?, Core.stLine]
  rw [State.lineFilled, hs, State.dirOf, h.dir]
  rfl
end RoOnly

/-! #### What a fill leaves -/

/-- What follows a line's entry: its accesses are done with it, and the fill is counted. -/
def State.fillDone (s : State) (c ctx line : Nat) (asks : List (Req × LaneAcc)) : State :=
  ((s.lineArrived c ctx line false).observe 1 c 11 1).countFill c asks
/-- One core's crews change, and nothing else that the cores hold. -/
structure CrewsOnly (c : Nat) (s t : State) : Prop where
  mem : t.mem = s.mem
  others : ∀ d, d ≠ c → t.core d = s.core d
  own : ∃ w, t.core c = { s.core c with crews := w }
theorem State.countFill_crews (s : State) (c : Nat) (asks : List (Req × LaneAcc)) : CrewsOnly c s (s.countFill c asks) := by
  refine ⟨s.countFill_mem c asks, fun d hd => ?_, ?_⟩
  all_goals
    rw [State.countFill]
    split
  · exact State.core_setCore_ne _ _ hd
  · rfl
  · exact ⟨_, State.core_setCore_self ..⟩
  · exact ⟨_, rfl⟩
theorem State.fillDone_crews (s : State) (c ctx line : Nat) (asks : List (Req × LaneAcc)) : CrewsOnly c s (s.fillDone c ctx line asks) :=
  have h := State.countFill_crews ((s.lineArrived c ctx line false).observe 1 c 11 1) c asks
  ⟨h.mem, h.others, h.own⟩
namespace CrewsOnly
variable {c : Nat} {s t : State} (h : CrewsOnly c s t)
include h
theorem roL1 : (t.core c).roL1 = (s.core c).roL1 := by
  obtain ⟨w, hw⟩ := h.own
  rw [hw]
theorem stLine (ctx line : Nat) : (t.core c).stLine ctx line = (s.core c).stLine ctx line := by
  obtain ⟨w, hw⟩ := h.own
  rw [hw]
  rfl
theorem gang? (d g : Nat) : t.gang? d g = s.gang? d g := by
  obtain ⟨w, hw⟩ := h.own
  exact State.gang?_of_core h.others (by rw [hw]) d g
end CrewsOnly

/-- What a fill leaves, whether the line enters the stash or not. -/
structure FillKept (c : Nat) (s t : State) : Prop where
  mem : t.mem = s.mem
  gang? : ∀ d g, t.gang? d g = s.gang? d g
  others : ∀ d, d ≠ c → t.core d = s.core d
  roL1 : (t.core c).roL1 = (s.core c).roL1

/-- A fill of a line that the cluster has lost. -/
theorem stashLineFill_lost {s : State} {c ctx line pl : Nat} (he : s.ev = .line c ctx line pl)
    (h : (s.dirOf pl).2.2.testBit (c / 8) = false) : exec .stashLineFill s = .next s := by
  show execStashLineFill s = _
  rw [execStashLineFill, he]
  dsimp only
  rw [h]
  rfl
/-- The ways in which a fill of one that it still shares can end. -/
theorem stashLineFill_cases {s : State} {c ctx line pl : Nat} (he : s.ev = .line c ctx line pl)
    (h : (s.dirOf pl).2.2.testBit (c / 8) = true) : ∃ t, exec .stashLineFill s = .next t ∧
      ((stashAsks (s.askers c ctx line) = [] ∧ s.askers c ctx line ≠ [] ∧ t = s.roFilled c ctx line pl) ∨
        (stashAsks (s.askers c ctx line) ≠ [] ∨ s.askers c ctx line = []) ∧
          ((∃ v, (s.roFilled c ctx line pl).stashEnter c ctx line pl (stashAsks (s.askers c ctx line)) = some v ∧
              t = v.fillDone c ctx line (s.askers c ctx line)) ∨
            (s.roFilled c ctx line pl).stashEnter c ctx line pl (stashAsks (s.askers c ctx line)) = none ∧
              t = (s.roFilled c ctx line pl).later .stashLineFill (.line c ctx line pl))) := by
  have hx : exec .stashLineFill s =
      if (stashAsks (s.askers c ctx line)).isEmpty && !(s.askers c ctx line).isEmpty then .next (s.roFilled c ctx line pl)
      else match (s.roFilled c ctx line pl).stashEnter c ctx line pl (stashAsks (s.askers c ctx line)) with
        | some v => .next (v.fillDone c ctx line (s.askers c ctx line))
        | none => .next ((s.roFilled c ctx line pl).later .stashLineFill (.line c ctx line pl)) := by
    show execStashLineFill s = _
    rw [execStashLineFill, he]
    dsimp only
    rw [h]
    rfl
  have hc : ((stashAsks (s.askers c ctx line)).isEmpty && !(s.askers c ctx line).isEmpty) = true ↔
      stashAsks (s.askers c ctx line) = [] ∧ s.askers c ctx line ≠ [] := by
    rw [Bool.and_eq_true, List.isEmpty_iff, Bool.not_eq_true', List.isEmpty_eq_false_iff]
  by_cases hb : stashAsks (s.askers c ctx line) = [] ∧ s.askers c ctx line ≠ []
  · rw [hx, if_pos (hc.mpr hb)]
    exact ⟨_, rfl, .inl ⟨hb.1, hb.2, rfl⟩⟩
  · rw [hx, if_neg (mt hc.mp hb)]
    replace hb := (not_and_or.mp hb).imp_right not_not.mp
    cases hv : (s.roFilled c ctx line pl).stashEnter c ctx line pl (stashAsks (s.askers c ctx line)) with
    | some v => exact ⟨_, rfl, .inr ⟨hb, .inl ⟨v, rfl, rfl⟩⟩⟩
    | none => exact ⟨_, rfl, .inr ⟨hb, .inr ⟨rfl, rfl⟩⟩⟩
/-- A line that enters the stash leaves what the read-only L1 took. -/
theorem State.fillDone_kept {s v : State} {c ctx line pl : Nat} {xs : List (Req × LaneAcc)} (h : s.stashEnter c ctx line pl xs = some v)
    (asks : List (Req × LaneAcc)) : FillKept c s (v.fillDone c ctx line asks) :=
  have hb := State.stashEnter_blocks h
  have hw := v.fillDone_crews c ctx line asks
  ⟨hw.mem.trans (State.stashEnter_mem h), fun d g => (hw.gang? d g).trans (hb.gang? d g), fun d hd => (hw.others d hd).trans (hb.others d hd),
    hw.roL1.trans hb.roL1⟩

/-- Where no access waits for the stash or the read-only L1, none waits. -/
theorem askers_nil {xs : List (Req × LaneAcc)} (hr : roAsks xs = []) (hs : stashAsks xs = []) : xs = [] := by
  cases xs with
  | nil => rfl
  | cons x r =>
    have h1 := List.filter_eq_nil_iff.mp hr x List.mem_cons_self
    have h2 := List.filter_eq_nil_iff.mp hs x List.mem_cons_self
    exact absurd (by simpa using h1) (by simpa using h2)

/-- The claim of `Obligations.CoherenceResults` on STASH_LINE_FILL of a line that the cluster still shares. -/
theorem stashLineFill_result {s : State} {c ctx line pl : Nat} (he : s.ev = .line c ctx line pl) (hk : (s.dirOf pl).2.2.testBit (c / 8) = true) :
    ∃ t, exec .stashLineFill s = .next t ∧ MemKept s t ∧ (∀ c g, t.gang? c g = s.gang? c g) ∧ (∀ d, d ≠ c → t.core d = s.core d) ∧
      (roAsks (s.askers c ctx line) ≠ [] →
        (ctx, line, pl) ∈ (t.core c).roL1 ∧ ((s.core c).roL1.length ≤ 512 → (t.core c).roL1.length ≤ 512)) ∧
      (roAsks (s.askers c ctx line) = [] → (t.core c).roL1 = (s.core c).roL1) ∧
      (stashAsks (s.askers c ctx line) = [] → s.askers c ctx line ≠ [] → (t.core c).blocks = (s.core c).blocks) ∧
      (roAsks (s.askers c ctx line) = [] → (s.core c).block? ctx line = none → (∀ u, s.stashRoom c ctx line 1 ≠ .ok u) →
        (t.core c).blocks = (s.core c).blocks ∧ ∃ p ∈ t.agenda, p.op = .stashLineFill ∧ p.arg = .line c ctx line pl) ∧
      ((stashAsks (s.askers c ctx line) ≠ [] ∨ s.askers c ctx line = []) → ((s.core c).block? ctx line).isSome = true →
        (t.core c).stLine ctx line = s.lineFilled c ctx line pl) := by
  obtain ⟨u, hu⟩ : ∃ u, u = s.roFilled c ctx line pl := ⟨_, rfl⟩
  have hro : RoOnly c s u := hu ▸ s.roFilled_only c ctx line pl
  obtain ⟨t, hx, hcase⟩ := stashLineFill_cases he hk
  rw [← hu] at hcase
  have ht : FillKept c u t := by
    rcases hcase with ⟨-, -, rfl⟩ | ⟨-, ⟨v, hv, rfl⟩ | ⟨-, rfl⟩⟩
    · exact ⟨rfl, fun _ _ => rfl, fun _ _ => rfl, rfl⟩
    · exact State.fillDone_kept hv _
    · exact ⟨rfl, fun _ _ => rfl, fun _ _ => rfl, rfl⟩
  refine ⟨t, hx, .of_eq (ht.mem.trans hro.mem), fun d g => (ht.gang? d g).trans (hro.gang? d g),
    fun d hd => (ht.others d hd).trans (hro.others d hd), fun hr => ?_, fun hr => ?_, fun hs hn => ?_, fun hr hb hw => ?_, fun ha hb => ?_⟩
  · have hl : (t.core c).roL1 = (s.core c).roWith ctx line pl := by
      rw [ht.roL1, hu, State.core_of_cores (State.roFilled_some hr pl).2.2, State.core_setCore_self]
    rw [hl]
    exact ⟨List.mem_append_right _ (List.mem_singleton.mpr rfl), fun h => Core.roWith_length h ..⟩
  · rw [ht.roL1, hu, State.roFilled_none hr]
  · rcases hcase with ⟨-, -, rfl⟩ | ⟨ha, -⟩
    · exact hro.blocks
    · exact absurd hs (ha.resolve_right hn)
  · rw [State.roFilled_none hr] at hu
    rw [hu] at hcase
    rcases hcase with ⟨hs, hn, -⟩ | ⟨-, ⟨v, hv, -⟩ | ⟨-, rfl⟩⟩
    · exact absurd (askers_nil hr hs) hn
    · rw [State.stashEnter_waits hb hw] at hv
      cases hv
    · exact ⟨rfl, _, List.mem_append_right _ (List.mem_singleton.mpr rfl), rfl, rfl⟩
  · obtain ⟨w, hw, hl⟩ := State.stashEnter_block (s := u) (pl := pl) (hro.block? ctx line ▸ hb) (stashAsks (s.askers c ctx line))
    rcases hcase with ⟨hs, hn, -⟩ | ⟨-, ⟨v, hv, rfl⟩ | ⟨hv, -⟩⟩
    · exact absurd hs (ha.resolve_right hn)
    · cases hv.symm.trans hw
      rw [(w.fillDone_crews ..).stLine, hl, hro.lineFilled]
    · cases hv.symm.trans hw

/-- Settles O35, by the claim on each event of a line; a fill is split by whether the cluster still shares the line. -/
theorem coherenceResults : Obligations.CoherenceResults := by
  intro s c ctx line pl he _
  refine ⟨directoryRead_result he, directoryOwnership_result he, fun hc hp h3 => directoryWriteback_result he hc hp h3,
    fun hc h => directoryWriteback_idle he hc h, coherenceRecall_result he, ?_⟩
  cases hk : (s.dirOf pl).2.2.testBit (c / 8) with
  | false =>
    exact ⟨s, stashLineFill_lost he hk, .of_eq rfl, fun _ _ => rfl, fun _ => rfl, fun _ _ => rfl, nofun, nofun, nofun, nofun, nofun⟩
  | true =>
    obtain ⟨t, hx, hm, hg, ho, hro, hkeep, hnone, hwait, hline⟩ := stashLineFill_result he hk
    exact ⟨t, hx, hm, hg, nofun, ho, fun _ => hro, fun _ => hkeep, fun _ => hnone, fun _ => hwait, fun _ => hline⟩
end Sys2Proof.Machine
end

-- Mill: what a grant, a step of the head command and its completion leave and give.
section
/-! SUPPORT. The rules of the mill's events (R105, R136, R311 to R322): each command's step by the elements and chutes it writes, and what its
completion leaves. -/

namespace Sys2Proof.Machine
open Sys2Proof Sys2Proof.Num

/-! #### An operation that completes on its flag -/

theorem State.dec_core (s : State) (c g f cause d : Nat) :
    (s.dec c g f cause).core d = { s.core d with gangs := ((s.dec c g f cause).core d).gangs } := by
  unfold State.dec
  split
  · by_cases hd : d = c
    · subst hd
      rw [State.setGang_core_self]
    · rw [State.setGang_core_ne _ _ _ hd]
  · rfl
theorem State.dec_others (s : State) (c g f cause : Nat) : OtherGangs s (s.dec c g f cause) c g := by
  intro c' g' h
  unfold State.dec
  split
  · exact s.gang?_setGang_ne _ h
  · rfl
/-- R217. -/
theorem State.dec_flagDown (s : State) (c g f cause : Nat) : FlagDown s (s.dec c g f cause) c g f cause := by
  intro x hx
  rw [State.dec, hx]
  dsimp only
  rw [State.gang_setGang_self]
  exact ⟨fun n hn => mget_mset_ne _ _ _ hn, mget_mset_self ..⟩
theorem OtherGangs.of_gangs {s u t : State} {c g : Nat} (h : ∀ c' n, u.gang? c' n = s.gang? c' n) (ho : OtherGangs u t c g) : OtherGangs s t c g :=
  fun c' n hn => (ho c' n hn).trans (h c' n)
theorem FlagDown.of_gangs {s u t : State} {c g f cause : Nat} (h : ∀ c' n, u.gang? c' n = s.gang? c' n) (hf : FlagDown u t c g f cause) :
    FlagDown s t c g f cause :=
  fun x hx => hf x ((h c g).trans hx)

/-! #### What a step of the mill leaves -/

/-- Memory, the gangs and a core's mill are as before. -/
structure MillKept (s t : State) (c : Nat) : Prop where
  mem : t.mem = s.mem
  gangs : ∀ d g, t.gang? d g = s.gang? d g
  mill : (t.core c).mill = (s.core c).mill

theorem MillKept.refl (s : State) (c : Nat) : MillKept s s c := ⟨rfl, fun _ _ => rfl, rfl⟩
theorem MillKept.trans {s t u : State} {c : Nat} (h : MillKept s t c) (k : MillKept t u c) : MillKept s u c :=
  ⟨k.mem.trans h.mem, fun d g => (k.gangs d g).trans (h.gangs d g), k.mill.trans h.mill⟩
theorem MillKept.of_cores {s t : State} {c : Nat} (hc : t.cores = s.cores) (hm : t.mem = s.mem) : MillKept s t c :=
  ⟨hm, (GangsKept.of_cores hc).1, by rw [State.core_of_cores hc]⟩
theorem State.setCore_millKept (s : State) (c : Nat) {k : Core} (hg : k.gangs = (s.core c).gangs) (hm : k.mill = (s.core c).mill) :
    MillKept s (s.setCore c k) c :=
  ⟨rfl, fun _ _ => State.gang?_setCore_gangs _ _ _ _ _ hg, by rw [State.core_setCore_self, hm]⟩
theorem State.setCrew_millKept (s : State) (c k : Nat) (x : Crew) : MillKept s (s.setCrew c k x) c := s.setCore_millKept c rfl rfl
theorem State.pmcAdd_millKept (s : State) (c k n d : Nat) : MillKept s (s.pmcAdd c k n d) c := by
  unfold State.pmcAdd
  split
  · exact .refl s c
  · exact s.setCrew_millKept ..
theorem State.pmcAdd_chutes (s : State) (c k n d : Nat) : ((s.pmcAdd c k n d).core c).chutes = (s.core c).chutes := by
  unfold State.pmcAdd
  split
  · rfl
  · dsimp only
    rw [State.setCrew_core_self]

/-! #### The steps of the head command -/

/-- What the head command does in its next step, and its cause. -/
def State.headStep (s : State) (c : Nat) (q : MillCmd) : State × Nat :=
  s.millStep c (s.gang c q.slot).cslot q (s.core c).mill.tile (s.core c).mill.group
/-- The state once the step has been taken and its clocks counted. -/
def State.millStepped (s : State) (c : Nat) (q : MillCmd) : State :=
  ((s.headStep c q).1.pmcAdd c (s.gang c q.slot).cslot 9 (q.stepClocks (s.core c).mill.group)).observe 1 c 9 (q.stepClocks (s.core c).mill.group)
/-- The cause of the command once the step has been taken. -/
def State.millCause (s : State) (c : Nat) (q : MillCmd) : Nat := if q.cause = 0 then (s.headStep c q).2 else q.cause
/-- The mill once a step that was not the command's last has been taken. -/
def Mill.stepped (m : Mill) (q : MillCmd) (cause : Nat) : Mill :=
  { m with
    queue := m.queue.map fun y => if y.id = q.id then { y with cause := cause } else y
    group := if q.groups ≤ m.group + 1 then 0 else m.group + 1
    tile := if q.groups ≤ m.group + 1 then m.tile + 1 else m.tile }

theorem State.millStepped_acc (s : State) (c : Nat) (q : MillCmd) (k : Nat) :
    ((s.millStepped c q).crew c k).acc = ((s.headStep c q).1.crew c k).acc := by
  show ((State.pmcAdd _ _ _ _ _).crew c k).acc = _
  rw [State.crew_pmcAdd]
theorem State.millStepped_chutes (s : State) (c : Nat) (q : MillCmd) :
    ((s.millStepped c q).core c).chutes = ((s.headStep c q).1.core c).chutes :=
  State.pmcAdd_chutes ..
theorem MillKept.stepped {s : State} {c : Nat} {q : MillCmd} (h : MillKept s (s.headStep c q).1 c) : MillKept s (s.millStepped c q) c :=
  h.trans ((State.pmcAdd_millKept ..).trans (.of_cores rfl rfl))
theorem State.millCause_of_none {s : State} {c : Nat} {q : MillCmd} (h : (s.headStep c q).2 = 0) : s.millCause c q = q.cause := by
  unfold State.millCause
  split
  · next hq => rw [h, hq]
  · rfl

section
variable {s : State} {c : Nat} {q : MillCmd} (he : s.ev = .core c) (hh : (s.core c).mill.head = some q) (hd : s.millDue c = true)
include he hh hd

/-- The last step completes the command. -/
theorem execMillCommandDone_completes (hg : q.groups ≤ (s.core c).mill.group + 1) (ht : q.steps ≤ (s.core c).mill.tile + 1) :
    exec .millCommandDone s = .next ((s.millStepped c q).millRetire c (s.gang c q.slot).cslot q (s.millCause c q)) := by
  show execMillCommandDone s = _
  rw [execMillCommandDone, he]
  dsimp only
  rw [hd, hh]
  exact if_pos (by rw [decide_eq_true hg, decide_eq_true ht]; rfl)
/-- Another step leaves it at the head. -/
theorem execMillCommandDone_steps (hk : ((s.millStepped c q).core c).mill = (s.core c).mill)
    (h : ¬(q.groups ≤ (s.core c).mill.group + 1 ∧ q.steps ≤ (s.core c).mill.tile + 1)) :
    exec .millCommandDone s = .next ((s.millStepped c q).setCore c
      { (s.millStepped c q).core c with mill := (s.core c).mill.stepped q (s.millCause c q) }) := by
  show execMillCommandDone s = _
  rw [execMillCommandDone, he]
  dsimp only
  rw [hd, hh]
  refine (if_neg (by simpa using h)).trans ?_
  show Host.Outcome.next ((s.millStepped c q).setCore c { (s.millStepped c q).core c with mill := { ((s.millStepped c q).core c).mill with
    queue := ((s.millStepped c q).core c).mill.queue.map fun y => if y.id = q.id then { y with cause := s.millCause c q } else y
    group := _, tile := _ } }) = _
  rw [hk, Mill.stepped]
  simp only [decide_eq_true_eq]
end

/-! #### Completion -/

/-- What the completion of a command leaves in `t` of the state `u` after its last step, which began in `s`. -/
structure Completed (s u t : State) (c : Nat) (q : MillCmd) : Prop where
  mem : MemKept s t
  others : OtherGangs s t c q.slot
  queue : (t.core c).mill.queue = (s.core c).mill.queue.filter fun x => x.id != q.id
  crews : ∀ d k, t.crew d k = u.crew d k
  chutes : (t.core c).chutes = (u.core c).chutes

/-- The state once a command has left the mill, which is then `m`, and its operation has completed on the gang's flag. -/
def State.millLeft (u : State) (c : Nat) (q : MillCmd) (m : Mill) (cause : Nat) : State :=
  (u.setCore c { u.core c with mill := m }).dec c q.slot q.flag cause
theorem State.millLeft_mill (u : State) (c : Nat) (q : MillCmd) (m : Mill) (cause : Nat) : ((u.millLeft c q m cause).core c).mill = m := by
  rw [State.millLeft, State.dec_core, State.core_setCore_self]
theorem Completed.of_left {s u : State} {c : Nat} {q : MillCmd} (h : MillKept s u c) {m : Mill}
    (hq : m.queue = (s.core c).mill.queue.filter fun x => x.id != q.id) (cause : Nat) :
    Completed s u (u.millLeft c q m cause) c q ∧ FlagDown s (u.millLeft c q m cause) c q.slot q.flag cause := by
  have hk : GangsKept u (u.setCore c { u.core c with mill := m }) := State.setCore_kept _ _ rfl rfl
  have hg (d g : Nat) : (u.setCore c { u.core c with mill := m }).gang? d g = s.gang? d g := (hk.1 d g).trans (h.gangs d g)
  refine ⟨⟨.of_eq ?_, .of_gangs hg (State.dec_others _ _ _ _ _), ?_, fun d k => ?_, ?_⟩, .of_gangs hg (State.dec_flagDown _ _ _ _ _)⟩
  · exact (State.dec_mem ..).trans h.mem
  · rw [State.millLeft_mill]
    exact hq
  · rw [State.crew, State.millLeft, State.dec_core]
    exact hk.2 d k
  · rw [State.millLeft, State.dec_core, State.core_setCore_self]

theorem State.freeElems_nil (s : State) (c k : Nat) : s.freeElems c k [] = s := rfl
/-- A command that closes its batch (R314). -/
def MillCmd.isFence (q : MillCmd) : Bool := match q.op with | .mfence _ => true | _ => false
theorem MillCmd.isFence_of_ne {q : MillCmd} (h : ∀ f, q.op ≠ .mfence f) : q.isFence = false := by
  unfold MillCmd.isFence
  split
  · next f hf => exact absurd hf (h f)
  · rfl

section
variable {s u : State} {c : Nat} {q : MillCmd} (h : MillKept s u c) (hsp : (s.core c).mill.spoiled = false)
  (hu : ∀ x ∈ (s.core c).mill.uses, x.id = q.id → x.spoilt = [])
include h hsp hu

/-- A command whose elements stay leaves the mill, and MFENCE takes its batch's cause with it. -/
theorem MillKept.retires (cs cause : Nat) : ∃ m : Mill,
    u.millRetire c cs q cause = u.millLeft c q m (if q.isFence then (s.core c).mill.batchCause else cause) ∧
      m.queue = ((s.core c).mill.queue.filter fun x => x.id != q.id) ∧
      m.doneBatch = (if q.isFence then q.ofs else (s.core c).mill.doneBatch) ∧
      m.batchCause = if q.isFence then 0 else if (s.core c).mill.batchCause = 0 then cause else (s.core c).mill.batchCause := by
  have hl : (((s.core c).mill.uses.find? fun x => x.id == q.id).map fun x => x.spoilt.eraseDups).getD [] = [] := by
    cases hf : (s.core c).mill.uses.find? fun x => x.id == q.id with
    | none => rfl
    | some x =>
      have hx : x.id = q.id := by simpa using List.find?_some hf
      rw [Option.map_some, hu x (List.mem_of_find?_eq_some hf) hx]
      rfl
  unfold State.millRetire
  dsimp only
  rw [h.mill, hsp, if_neg Bool.false_ne_true, hl, State.freeElems_nil, h.mill]
  exact ⟨_, rfl, rfl, rfl, rfl⟩
theorem MillKept.completed (hn : ∀ f, q.op ≠ .mfence f) (cs cause : Nat) :
    Completed s u (u.millRetire c cs q cause) c q ∧ FlagDown s (u.millRetire c cs q cause) c q.slot q.flag cause := by
  obtain ⟨m, he, hq, -⟩ := h.retires hsp hu cs cause
  rw [MillCmd.isFence_of_ne hn, if_neg Bool.false_ne_true] at he
  rw [he]
  exact Completed.of_left h hq cause
/-- R314. -/
theorem MillKept.batchClosed {f : BitVec 5} (hf : q.op = .mfence f) (cs cause : Nat) :
    Completed s u (u.millRetire c cs q cause) c q ∧ FlagDown s (u.millRetire c cs q cause) c q.slot q.flag (s.core c).mill.batchCause ∧
      ((u.millRetire c cs q cause).core c).mill.doneBatch = q.ofs ∧ ((u.millRetire c cs q cause).core c).mill.batchCause = 0 := by
  obtain ⟨m, he, hq, hd, hb⟩ := h.retires hsp hu cs cause
  have ht : q.isFence = true := by rw [MillCmd.isFence, hf]
  rw [ht, if_pos rfl] at he hd hb
  rw [he, State.millLeft_mill]
  obtain ⟨hc, hf⟩ := Completed.of_left h hq (s.core c).mill.batchCause
  exact ⟨hc, hf, hd, hb⟩
end

/-! #### Elements -/

/-- Consecutive entries written from a function. -/
theorem mget_foldl_mset_range {α : Type} (d : α) (base n : Nat) (v : Nat → α) (m : Map α) (i : Nat) :
    mget d ((List.range n).foldl (fun m x => mset m (base + x) (v x)) m) i = if base ≤ i ∧ i < base + n then v (i - base) else mget d m i := by
  induction n with
  | zero => exact (if_neg (by omega)).symm
  | succ n ih =>
    rw [List.range_succ, List.foldl_append, List.foldl_cons, List.foldl_nil, mget_mset, ih]
    by_cases h : i = base + n
    · rw [if_pos h, if_pos (by omega), h, Nat.add_sub_cancel_left]
    · rw [if_neg h]
      exact if_congr (by omega) rfl rfl

theorem State.zeroTiles_kept (s : State) (c cs t n : Nat) : MillKept s (s.zeroTiles c cs t n) c := s.setCrew_millKept ..
/-- R319, R322. -/
theorem State.zeroTiles_acc (s : State) (c cs t n i : Nat) : mget 0 ((s.zeroTiles c cs t n).crew c cs).acc i =
    if 256 * t ≤ i ∧ i < 256 * (t + n) then 0 else mget 0 (s.crew c cs).acc i := by
  rw [State.zeroTiles, State.crew_setCrew_self]
  refine (mget_foldl_mset_range 0 (256 * t) (256 * n) (fun _ => 0) _ i).trans ?_
  rw [Nat.mul_add]
theorem State.zeroTiles_chutes (s : State) (c cs t n : Nat) : ((s.zeroTiles c cs t n).core c).chutes = (s.core c).chutes := by
  rw [State.zeroTiles, State.setCrew_core_self]

/-! #### Multiplication -/

/-- Element x of K of row i of A in a step of a multiply: its value, its poison, and the tag format of its granule (R316). -/
def State.mmaA (s : State) (c cs : Nat) (q : MillCmd) (o : MmaOp) (tile g i x : Nat) : XR × Bool × Nat :=
  (s.core c).millA (s.crew c cs).alloc (q.ofs + (tile / (o.ncols / 16) * 16 + i) * q.pitch) o.z.toNat q.fa (16 * g + x)
/-- The weight slot of a step. -/
def MillCmd.mmaSlot (q : MillCmd) (o : MmaOp) (sp : Bool) (tile g : Nat) : Nat :=
  o.w.toNat + tile % (o.ncols / 16) * o.panel (kslot q.fb sp) + 16 * g / kslot q.fb sp
/-- Element (i, j) of the tile after a step, and its poison. -/
def State.mmaElem (s : State) (c cs : Nat) (q : MillCmd) (o : MmaOp) (sp : Bool) (tile g i j : Nat) : W32 × Bool :=
  let w := s.crew c cs
  let e := 256 * (o.t.toNat + tile) + 16 * i + j
  let row := ((List.range 16).map fun i => (List.range 16).map (s.mmaA c cs q o tile g i)).getD i []
  let p := w.wPoison.contains (q.mmaSlot o sp tile g) || row.any (·.2.1) || w.accPoison.contains e
  if (mget 0 w.wstag (q.mmaSlot o sp tile g)).toNat != q.tb || row.any (fun x => x.2.2 != q.ta) then (Config.freeW32 s.free e, p)
  else (BitVec.ofNat 32 (macGroup (mget 0 w.acc e).toNat (fun x => (row.getD x (.nan, false, 0)).1)
    (w.bGroup q.fb sp (q.mmaSlot o sp tile g) j (16 * g % kslot q.fb sp / 16))), p)

/-- A test that fails of every value. -/
theorem filter_map_range_nil {α : Type} {f : Nat → α} {n : Nat} {p : α → Bool} (h : ∀ x < n, p (f x) = false) :
    ((List.range n).map f).filter p = [] := by
  rw [List.filter_eq_nil_iff, List.forall_mem_map]
  exact fun x hx => by simp [h x (List.mem_range.mp hx)]
theorem any_map_range_false {α : Type} {f : Nat → α} {n : Nat} {p : α → Bool} (h : ∀ x < n, p (f x) = false) :
    ((List.range n).map f).any p = false := by
  rw [List.any_eq_false, List.forall_mem_map]
  exact fun x hx => by simp [h x (List.mem_range.mp hx)]
/-- A value multiplied counts by its index alone. -/
theorem macGroup_congr {a a' : Nat → XR} {b : List (Nat × XR)} (h : ∀ t ∈ b, a t.1 = a' t.1) (acc : Nat) :
    macGroup acc a b = macGroup acc a' b := by
  rw [macGroup, macGroup, List.map_congr_left fun t ht => by rw [h t ht]]
/-- The indices of a group's terms are below 16 (R310). -/
theorem Crew.bGroup_index {w : Crew} {f : Nat} {sp : Bool} {slot col g : Nat} {t : Nat × XR} (h : t ∈ w.bGroup f sp slot col g) : t.1 < 16 := by
  cases sp with
  | false =>
    obtain ⟨x, hx, rfl⟩ := List.mem_map.mp h
    exact List.mem_range.mp hx
  | true =>
    simp only [Crew.bGroup, Bool.not_true, Bool.false_eq_true, if_false, List.mem_flatMap, List.mem_range, List.mem_cons, List.not_mem_nil,
      or_false] at h
    obtain ⟨x, hx, rfl | rfl⟩ := h
    · dsimp only; omega
    · dsimp only; omega

section
variable (s : State) (c cs : Nat) (q : MillCmd) (o : MmaOp) (sp : Bool) (tile g : Nat)

theorem State.mmaRow {i : Nat} (hi : i < 16) : ((List.range 16).map fun i => (List.range 16).map (s.mmaA c cs q o tile g i)).getD i [] =
    (List.range 16).map (s.mmaA c cs q o tile g i) := by
  rw [List.getD_eq_getElem?_getD, List.getElem?_map, List.getElem?_range hi]
  rfl
/-- R105, R317, R318: under the tags it was issued with an element takes its group's sum. -/
theorem State.mmaElem_value {i j : Nat} (hi : i < 16) (hw : (mget 0 (s.crew c cs).wstag (q.mmaSlot o sp tile g)).toNat = q.tb)
    (ha : ∀ x < 16, (s.mmaA c cs q o tile g i x).2.2 = q.ta) :
    (s.mmaElem c cs q o sp tile g i j).1 = BitVec.ofNat 32 (macGroup (mget 0 (s.crew c cs).acc (256 * (o.t.toNat + tile) + 16 * i + j)).toNat
      (fun x => (s.mmaA c cs q o tile g i x).1)
      ((s.crew c cs).bGroup q.fb sp (q.mmaSlot o sp tile g) j (16 * g % kslot q.fb sp / 16))) := by
  have htag : ((List.range 16).map (s.mmaA c cs q o tile g i)).any (fun x => x.2.2 != q.ta) = false :=
    any_map_range_false fun x hx => by simp [ha x hx]
  rw [State.mmaElem, State.mmaRow s c cs q o tile g hi, hw, htag, bne_self_eq_false, Bool.or_false, if_neg Bool.false_ne_true]
  refine congrArg (BitVec.ofNat 32) (macGroup_congr (fun t ht => ?_) _)
  rw [List.getD_eq_getElem?_getD, List.getElem?_map, List.getElem?_range (Crew.bGroup_index ht)]
  rfl
/-- Table 2-9. -/
theorem State.mmaElem_sound {i j : Nat} (hi : i < 16) (hs : q.mmaSlot o sp tile g ∉ (s.crew c cs).wPoison)
    (ha : ∀ x < 16, (s.mmaA c cs q o tile g i x).2.1 = false) (he : 256 * (o.t.toNat + tile) + 16 * i + j ∉ (s.crew c cs).accPoison) :
    (s.mmaElem c cs q o sp tile g i j).2 = false := by
  have hrow : ((List.range 16).map (s.mmaA c cs q o tile g i)).any (·.2.1) = false :=
    any_map_range_false ha
  rw [State.mmaElem, State.mmaRow s c cs q o tile g hi, hrow]
  simp only [apply_ite Prod.snd, ite_self]
  simpa using ⟨hs, he⟩

theorem State.mmaStep_kept : MillKept s (s.mmaStep c cs q o sp tile g).1 c :=
  (s.setCrew_millKept ..).trans (.of_cores rfl rfl)
theorem State.mmaStep_acc (e : Nat) : mget 0 ((s.mmaStep c cs q o sp tile g).1.crew c cs).acc e =
    if 256 * (o.t.toNat + tile) ≤ e ∧ e < 256 * (o.t.toNat + tile + 1) then
      (s.mmaElem c cs q o sp tile g ((e - 256 * (o.t.toNat + tile)) / 16) ((e - 256 * (o.t.toNat + tile)) % 16)).1
    else mget 0 (s.crew c cs).acc e := by
  show mget 0 (State.crew (s.setCrew c cs _) c cs).acc e = _
  rw [State.crew_setCrew_self]
  dsimp only
  rw [List.foldl_map]
  refine (mget_foldl_mset_range 0 (256 * (o.t.toNat + tile)) 256 (fun n => (s.mmaElem c cs q o sp tile g (n / 16) (n % 16)).1) _ e).trans ?_
  rw [Nat.mul_succ]
theorem State.mmaStep_cause (h : ∀ n < 256, (s.mmaElem c cs q o sp tile g (n / 16) (n % 16)).2 = false) : (s.mmaStep c cs q o sp tile g).2 = 0 := by
  show (if (List.map Prod.fst (((List.range 256).map fun n => (256 * (o.t.toNat + tile) + n, s.mmaElem c cs q o sp tile g (n / 16) (n % 16))).filter
    fun x => x.2.2)).isEmpty then 0 else 0x20) = 0
  rw [filter_map_range_nil fun n hn => ?_]
  · rfl
  · exact h n hn
end

/-! #### Loads of tiles -/

section
variable (s : State) (c cs : Nat) (q : MillCmd) (o : MldtOp)

/-- The bytes of an element of MLDT. -/
def mldtWidth (o : MldtOp) : Nat := if o.sf = 0 then 4 else 2
/-- Where element x of an MLDT lies. -/
def MillCmd.mldtPlace (q : MillCmd) (o : MldtOp) (x : Nat) : Nat := swizzle o.z.toNat (q.ofs + x / 16 * q.pitch + x % 16 * mldtWidth o)
/-- The value it has there (R320). -/
def State.mldtValue (x : Nat) : Nat :=
  let raw := (s.core c).srd (s.crew c cs).alloc (q.mldtPlace o x) (mldtWidth o)
  if o.sf = 0 then raw else round f32 false 0 0 (decode (if o.sf = 1 then f16 else bf16) raw)
/-- What the tile's element becomes. -/
def State.mldtElem (x : Nat) : Nat :=
  if o.add = 1 then fadd f32 0 0 (mget 0 (s.crew c cs).acc (256 * o.t.toNat + x)).toNat (s.mldtValue c cs q o x) else s.mldtValue c cs q o x

theorem State.mldt_kept : MillKept s (s.mldt c cs q o).1 c := (s.setCrew_millKept ..).trans (.of_cores rfl rfl)
theorem State.mldt_acc (e : Nat) : mget 0 ((s.mldt c cs q o).1.crew c cs).acc e =
    if 256 * o.t.toNat ≤ e ∧ e < 256 * o.t.toNat + 256 * (o.n.toNat + 1) then BitVec.ofNat 32 (s.mldtElem c cs q o (e - 256 * o.t.toNat))
    else mget 0 (s.crew c cs).acc e := by
  show mget 0 (State.crew (s.setCrew c cs _) c cs).acc e = _
  rw [State.crew_setCrew_self]
  dsimp only
  rw [List.foldl_map]
  exact mget_foldl_mset_range 0 (256 * o.t.toNat) (256 * (o.n.toNat + 1)) (fun x => BitVec.ofNat 32 (s.mldtElem c cs q o x)) _ e
theorem State.mldt_cause (h : ∀ x < 256 * (o.n.toNat + 1), (s.core c).spoison (s.crew c cs).alloc (q.mldtPlace o x) (mldtWidth o) = false ∧
    (o.add = 1 → 256 * o.t.toNat + x ∉ (s.crew c cs).accPoison)) : (s.mldt c cs q o).2 = 0 := by
  show (if (List.map Prod.fst (((List.range (256 * (o.n.toNat + 1))).map fun x => (256 * o.t.toNat + x, s.mldtElem c cs q o x,
    (s.core c).spoison (s.crew c cs).alloc (q.mldtPlace o x) (mldtWidth o) ||
      (o.add == 1 && (s.crew c cs).accPoison.contains (256 * o.t.toNat + x)))).filter fun x => x.2.2)).isEmpty then 0 else 0x20) = 0
  rw [filter_map_range_nil fun x hx => ?_]
  · rfl
  · obtain ⟨hp, ha⟩ := h x hx
    simpa [hp] using ha
end

/-! #### Drained entries -/

theorem k4Mags_code {t : Nat} {neg : Bool} : ∀ p ∈ k4Mags t neg, p.2 < 16 := by
  intro p hp
  unfold k4Mags at hp
  by_cases ht : t = 0
  · rw [if_pos ht] at hp
    cases neg with
    | false =>
      obtain ⟨i, hi, rfl⟩ := List.mem_map.mp hp
      exact Nat.lt_trans (List.mem_range.mp hi) (by decide)
    | true =>
      obtain rfl | hp := List.mem_cons.mp hp
      · decide
      · obtain ⟨i, hi, rfl⟩ := List.mem_map.mp hp
        exact Nat.sub_lt (by decide) (Nat.succ_pos i)
  · rw [if_neg ht] at hp
    obtain ⟨i, hi, rfl⟩ := List.mem_map.mp hp
    have := List.mem_range.mp hi
    dsimp only
    split <;> omega
theorem k4Pick_code {l : List (Nat × Nat)} (h : ∀ p ∈ l, p.2 < 16) (mode : Nat) (neg : Bool) (num den r : Nat) :
    k4Pick mode neg num den r l < 16 := by
  induction l with
  | nil => exact Nat.zero_lt_succ _
  | cons a l ih =>
    cases l with
    | nil => exact h a (.head _)
    | cons b l =>
      have ha := h a (.head _)
      have hb := h b (.tail _ (.head _))
      unfold k4Pick
      split
      · split
        · exact hb
        · split
          · exact hb
          · exact ha
      · exact ih fun p hp => h p (.tail _ hp)
/-- A K4 code has four bits. -/
theorem k4Encode_code (mode r s : Nat) (x : XR) : k4Encode mode r s x < 16 := by
  unfold k4Encode
  dsimp only
  split
  · decide
  · next neg =>
    cases hl : (k4Mags (s / 64 % 4) neg).getLast? with
    | none => decide
    | some p => exact k4Mags_code p (List.mem_of_getLast? hl)
  · split
    · split
      · decide
      · split <;> decide
    · exact k4Pick_code k4Mags_code ..
/-- A scale byte is a byte. -/
theorem k4Scale_byte {t : Nat} (ht : t < 4) (emin : Nat) (xs : List XR) : k4Scale t emin xs < 256 := by
  unfold k4Scale
  dsimp only
  cases hf : (List.range 64).find? fun e => decide (emin ≤ e) && xs.all fun x => k4Fits x (k4Max t) e with
  | none => dsimp only [Option.getD_none]; omega
  | some e =>
    have := List.mem_range.mp (List.mem_of_find?_eq_some hf)
    dsimp only [Option.getD_some]
    omega

/-- An element of a list made of pieces of one length. -/
theorem getD_flatMap_range {α : Type} {f : Nat → List α} {w : Nat} (hf : ∀ k, (f k).length = w) (d : α) {n j b : Nat} (hj : j < n) (hb : b < w) :
    ((List.range n).flatMap f).getD (j * w + b) d = (f j).getD b d := by
  induction n with
  | zero => omega
  | succ n ih =>
    have hl : ((List.range n).flatMap f).length = n * w := by simp [List.length_flatMap, hf]
    rw [List.range_succ, List.flatMap_append, List.flatMap_singleton, List.getD_eq_getElem?_getD]
    obtain h | rfl := Nat.lt_succ_iff_lt_or_eq.mp hj
    · have : j * w + w ≤ n * w := by rw [← Nat.succ_mul]; exact Nat.mul_le_mul_right w h
      rw [List.getElem?_append_left (by omega), ← List.getD_eq_getElem?_getD]
      exact ih h
    · rw [List.getElem?_append_right (by omega), hl, Nat.add_sub_cancel_left, List.getD_eq_getElem?_getD]

section
variable (o : MdrainOp) (x : Nat → Nat → Nat) (p : Nat → Nat → Bool)

/-- The scale byte of a row (R252, R322). -/
def drainScale (i : Nat) : Nat :=
  k4Scale o.kt.toNat o.emin.toNat (((List.range 16).map fun j => decode f32 (x i j)).filter fun v => !v.isNan && !v.isInf)
/-- The K4 code of an element. -/
def drainCode (i j : Nat) : Nat := k4Encode o.mode.toNat 0 (drainScale o x i) (decode f32 (x i j))
/-- The width of an element that is not K4. -/
def drainWidth : Nat := if o.df.toNat ≤ 1 then 2 else 1
/-- Its pattern. -/
def drainValue (k : Nat) : Nat :=
  round (if o.df.toNat = 0 then bf16 else if o.df.toNat = 1 then f16 else if o.df.toNat = 2 then e4m3 else e5m2)
    (decide (2 ≤ o.df.toNat) && o.inf == 0) o.mode.toNat 0 (decode f32 (x (k / 16) (k % 16)))

theorem drainEntry_ready : (drainEntry o x p).df = o.df.toNat ∧ (drainEntry o x p).ready = true := by
  unfold drainEntry
  dsimp only
  split
  · next h => exact ⟨h.symm, rfl⟩
  · exact ⟨rfl, rfl⟩
theorem drainEntry_k4 (h : o.df.toNat = 4) : (drainEntry o x p).units =
    [(List.range 128).map fun b => BitVec.ofNat 8 (drainCode o x (b / 8) (b % 8 * 2) + 16 * drainCode o x (b / 8) (b % 8 * 2 + 1)),
      (List.range 128).map fun b => if b < 16 then BitVec.ofNat 8 (drainScale o x b) else 0] := by
  unfold drainEntry
  dsimp only
  rw [h]
  rfl
theorem drainEntry_floats (h : o.df.toNat ≠ 4) : (drainEntry o x p).units =
    (List.range (256 / (128 / drainWidth o))).map fun u => (List.range (128 / drainWidth o)).flatMap fun k =>
      bytesLE (drainWidth o) (drainValue o x (128 / drainWidth o * u + k)) := by
  unfold drainEntry
  dsimp only
  split
  · next h4 => exact absurd h4 h
  · rfl

/-- Byte b of unit u of an entry. -/
def ChuteEntry.unitByte (e : ChuteEntry) (u b : Nat) : Nat := ((e.units.getD u []).getD b 0).toNat

theorem drainEntry_scaleByte (h : o.df.toNat = 4) {i : Nat} (hi : i < 16) : (drainEntry o x p).unitByte 1 i = drainScale o x i := by
  have hs : drainScale o x i < 256 := k4Scale_byte o.kt.isLt ..
  rw [ChuteEntry.unitByte, drainEntry_k4 o x p h, List.getD_cons_succ, List.getD_cons_zero, List.getD_eq_getElem?_getD, List.getElem?_map,
    List.getElem?_range (by omega)]
  dsimp only [Option.map_some, Option.getD_some]
  rw [if_pos hi, BitVec.toNat_ofNat]
  exact Nat.mod_eq_of_lt hs
theorem drainEntry_code (h : o.df.toNat = 4) {k : Nat} (hk : k < 256) :
    (drainEntry o x p).unitByte 0 (k / 2) / 16 ^ (k % 2) % 16 = drainCode o x (k / 16) (k % 16) := by
  have h0 : drainCode o x (k / 2 / 8) (k / 2 % 8 * 2) < 16 := k4Encode_code ..
  have h1 : drainCode o x (k / 2 / 8) (k / 2 % 8 * 2 + 1) < 16 := k4Encode_code ..
  rw [ChuteEntry.unitByte, drainEntry_k4 o x p h, List.getD_cons_zero, List.getD_eq_getElem?_getD, List.getElem?_map, List.getElem?_range (by omega)]
  dsimp only [Option.map_some, Option.getD_some]
  rw [BitVec.toNat_ofNat, show k / 16 = k / 2 / 8 by omega]
  obtain hp | hp := Nat.mod_two_eq_zero_or_one k
  · rw [hp, pow_zero, Nat.div_one, show k % 16 = k / 2 % 8 * 2 by omega]
    omega
  · rw [hp, pow_one, show k % 16 = k / 2 % 8 * 2 + 1 by omega]
    omega
theorem drainEntry_value (h : o.df.toNat ≠ 4) {k b : Nat} (hk : k < 256) (hb : b < drainWidth o) :
    (drainEntry o x p).unitByte (k * drainWidth o / 128) (k * drainWidth o % 128 + b) = drainValue o x k / 256 ^ b % 256 := by
  have hw : drainWidth o = 2 ∨ drainWidth o = 1 := by unfold drainWidth; split <;> simp
  have hu : k * drainWidth o / 128 < 256 / (128 / drainWidth o) := by obtain h | h := hw <;> rw [h] <;> omega
  have hj : k % (128 / drainWidth o) < 128 / drainWidth o := Nat.mod_lt _ (by obtain h | h := hw <;> rw [h] <;> decide)
  have hb' : k * drainWidth o % 128 + b = k % (128 / drainWidth o) * drainWidth o + b := by obtain h | h := hw <;> rw [h] <;> omega
  have hk' : 128 / drainWidth o * (k * drainWidth o / 128) + k % (128 / drainWidth o) = k := by obtain h | h := hw <;> rw [h] <;> omega
  rw [ChuteEntry.unitByte, drainEntry_floats o x p h, List.getD_eq_getElem?_getD (l := List.map _ _), List.getElem?_map, List.getElem?_range hu]
  dsimp only [Option.map_some, Option.getD_some]
  rw [hb', getD_flatMap_range (fun _ => bytesLE_length ..) 0 hj hb, bytesLE_getD _ hb, hk', BitVec.toNat_ofNat]

/-- R322: the entry of a tile whose element (i, j) is `y (16 i + j)`. -/
theorem drainEntry_drainsTo (hd : o.df.toNat < 5) {y : Nat → Nat} (hx : ∀ i j, i < 16 → j < 16 → x i j = y (16 * i + j)) :
    DrainsTo o y (drainEntry o x p) := by
  have hscale {i : Nat} (hi : i < 16) : drainScale o x i =
      k4Scale o.kt.toNat o.emin.toNat (((List.range 16).map fun j => decode f32 (y (16 * i + j))).filter fun v => !v.isNan && !v.isInf) := by
    rw [drainScale, List.map_congr_left fun j hj => by rw [hx i j hi (List.mem_range.mp hj)]]
  have hel {k : Nat} (hk : k < 256) : x (k / 16) (k % 16) = y k := by
    rw [hx _ _ (by omega) (by omega), Nat.div_add_mod]
  obtain ⟨hdf, hr⟩ := drainEntry_ready o x p
  refine ⟨hdf, hr, fun h4 k b hk hb => ?_, fun h4 => ?_⟩
  · refine (drainEntry_value o x p (by omega) hk hb).trans ?_
    rw [drainValue, hel hk]
    simp only [BitVec.toNat_eq]
    rfl
  · have h4 : o.df.toNat = 4 := by rw [h4]; rfl
    refine ⟨fun i hi => (drainEntry_scaleByte o x p h4 hi).trans (hscale hi), fun k hk => (drainEntry_code o x p h4 hk).trans ?_⟩
    rw [drainCode, hel hk, hscale (by omega)]
end

/-! #### Drains -/

/-- The chute with entries behind its own. -/
def Chute.taking (h : Chute) (es : List ChuteEntry) : Chute := { h with entries := h.entries ++ es }
/-- A tile of an MDRAIN (R321, R322). -/
def State.drainTile (c cs : Nat) (o : MdrainOp) (a : State × Nat) (i : Nat) : State × Nat :=
  let w := a.1.crew c cs
  let k := a.1.core c
  let h := mget {} k.chutes o.ch.toNat
  let t := o.t.toNat + i
  let e := drainEntry o (fun r j => (mget 0 w.acc (256 * t + 16 * r + j)).toNat) (fun r j => w.accPoison.contains (256 * t + 16 * r + j))
  if 16 ≤ h.entries.length then (a.1, if a.2 = 0 then 0x51 else a.2)
  else
    let u := a.1.setCore c { k with chutes := mset k.chutes o.ch.toNat (h.taking [e]) }
    (if o.zero = 1 then u.zeroTiles c cs t 1 else u, if a.2 = 0 ∧ (e.bad.any fun b => !b.isEmpty) = true then 0x20 else a.2)
/-- The tiles of an MDRAIN, one after another. -/
def State.drained (s : State) (c cs : Nat) (o : MdrainOp) (n : Nat) : State × Nat := (List.range n).foldl (State.drainTile c cs o) (s, 0)
theorem State.drained_succ (s : State) (c cs : Nat) (o : MdrainOp) (n : Nat) :
    s.drained c cs o (n + 1) = State.drainTile c cs o (s.drained c cs o n) n := by
  rw [State.drained, List.range_succ, List.foldl_append]
  rfl
/-- The chute once a drain into it is no longer pending. -/
def Chute.drainDone (h : Chute) : Chute := { h with drains := h.drains - 1 }.settle
theorem Chute.drainDone_of_entries {h : Chute} (hn : h.entries ≠ []) : h.drainDone = { h with drains := h.drains - 1 } := by
  unfold Chute.drainDone Chute.settle
  exact if_neg (by simp [hn])
/-- The state once a drain into chute n is no longer pending. -/
def State.drainEnds (s : State) (c n : Nat) : State :=
  s.setCore c { s.core c with chutes := mset (s.core c).chutes n (mget {} (s.core c).chutes n).drainDone }
theorem State.mdrain_eq {s : State} {c cs : Nat} {o : MdrainOp} (h : (mget {} (s.core c).chutes o.ch.toNat).holder = some cs) :
    s.mdrain c cs o = ((s.drained c cs o (o.n.toNat + 1)).1.drainEnds c o.ch.toNat, (s.drained c cs o (o.n.toNat + 1)).2) := by
  unfold State.mdrain
  dsimp only
  rw [if_neg (not_not_intro h)]
  rfl
theorem State.drainEnds_kept (s : State) (c n : Nat) : MillKept s (s.drainEnds c n) c := s.setCore_millKept c rfl rfl
theorem State.drainEnds_crew (s : State) (c n d k : Nat) : (s.drainEnds c n).crew d k = s.crew d k :=
  State.crew_setCore_crews _ _ _ _ _ rfl
theorem State.drainEnds_chutes (s : State) (c n : Nat) : ((s.drainEnds c n).core c).chutes = mset (s.core c).chutes n
    (mget {} (s.core c).chutes n).drainDone := by
  rw [State.drainEnds, State.core_setCore_self]

/-- What n tiles drained with room leave: their entries `es` behind the chute's, and their elements as ZERO says. -/
structure Drained (s : State) (c cs : Nat) (o : MdrainOp) (n : Nat) (t : State) (es : List ChuteEntry) : Prop where
  kept : MillKept s t c
  acc : ∀ i, mget 0 (t.crew c cs).acc i =
    if o.zero = 1 ∧ 256 * o.t.toNat ≤ i ∧ i < 256 * (o.t.toNat + n) then 0 else mget 0 (s.crew c cs).acc i
  count : es.length = n
  entries : ∀ i e, es[i]? = some e → DrainsTo o (fun k => (mget 0 (s.crew c cs).acc (256 * (o.t.toNat + i) + k)).toNat) e
  chute : mget {} (t.core c).chutes o.ch.toNat = (mget {} (s.core c).chutes o.ch.toNat).taking es
  others : ∀ k, k ≠ o.ch.toNat → mget {} (t.core c).chutes k = mget {} (s.core c).chutes k

section
variable {s : State} {c cs : Nat} {o : MdrainOp} (hd : o.df.toNat < 5)
include hd

/-- A further tile enters behind them. -/
theorem Drained.tile {n x : Nat} {t : State} {es : List ChuteEntry} (h : Drained s c cs o n t es)
    (hr : (mget {} (s.core c).chutes o.ch.toNat).entries.length + n < 16) :
    ∃ e, Drained s c cs o (n + 1) (State.drainTile c cs o (t, x) n).1 (es ++ [e]) := by
  let e := drainEntry o (fun r j => (mget 0 (t.crew c cs).acc (256 * (o.t.toNat + n) + 16 * r + j)).toNat)
    (fun r j => (t.crew c cs).accPoison.contains (256 * (o.t.toNat + n) + 16 * r + j))
  let u := t.setCore c { t.core c with chutes := mset (t.core c).chutes o.ch.toNat ((mget {} (t.core c).chutes o.ch.toNat).taking [e]) }
  have he : (State.drainTile c cs o (t, x) n).1 = if o.zero = 1 then u.zeroTiles c cs (o.t.toNat + n) 1 else u := by
    unfold State.drainTile
    dsimp only
    rw [if_neg]
    rw [h.chute, Chute.taking, List.length_append, h.count]
    omega
  have hu : MillKept t u c := t.setCore_millKept c rfl rfl
  have huc : (u.core c).chutes = mset (t.core c).chutes o.ch.toNat ((mget {} (t.core c).chutes o.ch.toNat).taking [e]) := by
    rw [State.core_setCore_self]
  have hua : u.crew c cs = t.crew c cs := State.crew_setCore_crews _ _ _ _ _ rfl
  have hc : ((State.drainTile c cs o (t, x) n).1.core c).chutes = (u.core c).chutes := by
    rw [he]
    split
    · exact State.zeroTiles_chutes ..
    · rfl
  refine ⟨e, ⟨?_, fun i => ?_, ?_, fun i f hf => ?_, ?_, fun k hk => ?_⟩⟩
  · rw [he]
    refine h.kept.trans (hu.trans ?_)
    split
    · exact State.zeroTiles_kept ..
    · exact .refl u c
  · rw [he]
    by_cases hz : o.zero = 1
    · rw [if_pos hz, State.zeroTiles_acc, hua, h.acc]
      simp only [hz, true_and]
      split
      · rw [if_pos (by omega)]
      · exact if_congr (by omega) rfl rfl
    · rw [if_neg hz, hua, h.acc, if_neg fun x => hz x.1, if_neg fun x => hz x.1]
  · rw [List.length_append, h.count]
    rfl
  · obtain hi | hi := Nat.lt_or_ge i es.length
    · rw [List.getElem?_append_left hi] at hf
      exact h.entries i f hf
    · have hin : i = n := by
        have := (List.getElem?_eq_some_iff.mp hf).1
        simp only [List.length_append, List.length_cons, List.length_nil] at this
        have := h.count
        omega
      rw [List.getElem?_append_right hi, hin, h.count, Nat.sub_self] at hf
      cases hf
      rw [hin]
      refine drainEntry_drainsTo o _ _ hd fun i j hi hj => ?_
      rw [h.acc, if_neg (by omega), Nat.add_assoc]
  · rw [hc, huc, mget_mset_self, h.chute, Chute.taking, Chute.taking, Chute.taking, List.append_assoc]
  · rw [hc, huc, mget_mset_ne _ _ _ hk, h.others k hk]
theorem State.drained_drained (n : Nat) (hr : (mget {} (s.core c).chutes o.ch.toNat).entries.length + n ≤ 16) :
    ∃ es, Drained s c cs o n (s.drained c cs o n).1 es := by
  induction n with
  | zero =>
    refine ⟨[], .refl s c, fun i => (if_neg (by omega)).symm, rfl, fun i e he => (nomatch he), ?_, fun _ _ => rfl⟩
    rw [Chute.taking, List.append_nil]
    rfl
  | succ n ih =>
    obtain ⟨es, h⟩ := ih (by omega)
    obtain ⟨e, h'⟩ := h.tile hd (x := (s.drained c cs o n).2) (by omega)
    rw [State.drained_succ]
    exact ⟨_, h'⟩
end
/-- A full chute takes no tile (R322). -/
theorem State.drained_full {s : State} {c cs : Nat} {o : MdrainOp} (h : 16 ≤ (mget {} (s.core c).chutes o.ch.toNat).entries.length) (n : Nat) :
    s.drained c cs o (n + 1) = (s, 0x51) := by
  induction n with
  | zero => exact if_pos h
  | succ n ih =>
    rw [State.drained_succ, ih]
    exact if_pos h

/-! #### Events of the mill -/

/-- A multiply that has the step that MPROG names performs it. -/
theorem State.headStep_mma {s : State} {c : Nat} {q : MillCmd} {o : MmaOp} {sp : Bool} (hq : q.op = if sp = true then .mmas o else .mma o)
    (ht : (s.core c).mill.tile < o.tiles) (hg : (s.core c).mill.group < o.k / 16) :
    s.headStep c q = s.mmaStep c (s.gang c q.slot).cslot q o sp (s.core c).mill.tile (s.core c).mill.group := by
  have hn : ¬(decide (o.tiles ≤ (s.core c).mill.tile) || decide (o.k / 16 ≤ (s.core c).mill.group)) = true := by
    simpa using ⟨ht, hg⟩
  rw [State.headStep, State.millStep, MillCmd.steps, MillCmd.groups, hq]
  cases sp with
  | false => exact if_neg hn
  | true => exact if_neg hn
theorem MillCmd.groups_mma {q : MillCmd} {o : MmaOp} {sp : Bool} (hq : q.op = if sp = true then .mmas o else .mma o) :
    q.groups = o.k / 16 ∧ q.steps = o.tiles := by
  rw [MillCmd.groups, MillCmd.steps, hq]
  cases sp <;> exact ⟨rfl, rfl⟩
theorem MillCmd.single {q : MillCmd} (h1 : ∀ o, q.op ≠ .mma o) (h2 : ∀ o, q.op ≠ .mmas o) : q.groups = 1 ∧ q.steps = 1 := by
  unfold MillCmd.groups MillCmd.steps
  split
  · next o ho => exact absurd ho (h1 o)
  · next o ho => exact absurd ho (h2 o)
  · exact ⟨rfl, rfl⟩
/-- The step of an MDRAIN into a chute that its crew holds. -/
theorem State.headStep_mdrain {s : State} {c : Nat} {q : MillCmd} {o : MdrainOp} (hq : q.op = .mdrain o)
    (hhold : (mget {} (s.core c).chutes o.ch.toNat).holder = some (s.gang c q.slot).cslot) :
    s.headStep c q = ((s.drained c (s.gang c q.slot).cslot o (o.n.toNat + 1)).1.drainEnds c o.ch.toNat,
      (s.drained c (s.gang c q.slot).cslot o (o.n.toNat + 1)).2) := by
  rw [State.headStep, State.millStep, hq]
  exact State.mdrain_eq hhold

section
variable {s : State} {c : Nat} {q : MillCmd} (he : s.ev = .core c) (hh : (s.core c).mill.head = some q) (hd : s.millDue c = true)
  (hsp : (s.core c).mill.spoiled = false) (hu : ∀ u ∈ (s.core c).mill.uses, u.id = q.id → u.spoilt = [])
include he hh hd hsp hu

/-- The last step of a command but MFENCE. -/
theorem execMillCommandDone_last (hk : MillKept s (s.headStep c q).1 c) (hn : ∀ f, q.op ≠ .mfence f)
    (hg : q.groups ≤ (s.core c).mill.group + 1) (ht : q.steps ≤ (s.core c).mill.tile + 1) :
    ∃ t, exec .millCommandDone s = .next t ∧ Completed s (s.millStepped c q) t c q ∧ FlagDown s t c q.slot q.flag (s.millCause c q) := by
  obtain ⟨hc, hf⟩ := hk.stepped.completed hsp hu hn (s.gang c q.slot).cslot (s.millCause c q)
  exact ⟨_, execMillCommandDone_completes he hh hd hg ht, hc, hf⟩

/-- Nor is it a multiply: the command has one step. -/
theorem execMillCommandDone_single (hk : MillKept s (s.headStep c q).1 c) (hone : q.groups = 1 ∧ q.steps = 1) (hn : ∀ f, q.op ≠ .mfence f) :
    ∃ t, exec .millCommandDone s = .next t ∧ Completed s (s.millStepped c q) t c q ∧ FlagDown s t c q.slot q.flag (s.millCause c q) :=
  execMillCommandDone_last he hh hd hsp hu hk hn (hone.1 ▸ Nat.le_add_left ..) (hone.2 ▸ Nat.le_add_left ..)

/-- R319. -/
theorem execMillCommandDone_mzero {f : BitVec 5} {tl : BitVec 11} {n : BitVec 7} (hq : q.op = .mzero f tl n) :
    ∃ t, exec .millCommandDone s = .next t ∧ MemKept s t ∧ OtherGangs s t c q.slot ∧ FlagDown s t c q.slot q.flag q.cause ∧
      (t.core c).mill.queue = (s.core c).mill.queue.filter (fun x => x.id != q.id) ∧
      ∀ i, mget 0 (t.crew c (s.gang c q.slot).cslot).acc i =
        if 256 * tl.toNat ≤ i ∧ i < 256 * (tl.toNat + n.toNat + 1) then 0 else mget 0 (s.crew c (s.gang c q.slot).cslot).acc i := by
  have hs : s.headStep c q = (s.zeroTiles c (s.gang c q.slot).cslot tl.toNat (n.toNat + 1), 0) := by
    rw [State.headStep, State.millStep, hq]
  obtain ⟨t, hx, hc, hf⟩ := execMillCommandDone_single he hh hd hsp hu (by rw [hs]; exact State.zeroTiles_kept ..)
    (MillCmd.single (by rw [hq]; nofun) (by rw [hq]; nofun)) (by rw [hq]; nofun)
  rw [State.millCause_of_none (by rw [hs])] at hf
  refine ⟨t, hx, hc.mem, hc.others, hf, hc.queue, fun i => ?_⟩
  rw [hc.crews, State.millStepped_acc, hs]
  exact State.zeroTiles_acc ..
/-- R314. -/
theorem execMillCommandDone_mfence {f : BitVec 5} (hq : q.op = .mfence f) :
    ∃ t, exec .millCommandDone s = .next t ∧ MemKept s t ∧ OtherGangs s t c q.slot ∧ FlagDown s t c q.slot q.flag (s.core c).mill.batchCause ∧
      (t.core c).mill.queue = (s.core c).mill.queue.filter (fun x => x.id != q.id) ∧ (t.core c).mill.doneBatch = q.ofs ∧
      (t.core c).mill.batchCause = 0 := by
  have hs : s.headStep c q = (s, 0) := by rw [State.headStep, State.millStep, hq]
  have hk : MillKept s (s.headStep c q).1 c := by rw [hs]; exact .refl s c
  obtain ⟨hc, hf, hb, h0⟩ := hk.stepped.batchClosed hsp hu hq (s.gang c q.slot).cslot (s.millCause c q)
  obtain ⟨hg, ht⟩ := MillCmd.single (q := q) (by rw [hq]; nofun) (by rw [hq]; nofun)
  exact ⟨_, execMillCommandDone_completes he hh hd (hg ▸ Nat.le_add_left ..) (ht ▸ Nat.le_add_left ..), hc.mem, hc.others, hf, hc.queue, hb, h0⟩

/-- R320. -/
theorem execMillCommandDone_mldt {o : MldtOp} (hq : q.op = .mldt o) :
    let w := s.crew c (s.gang c q.slot).cslot
    let lo := 256 * o.t.toNat
    let n := 256 * (o.n.toNat + 1)
    ∃ t, exec .millCommandDone s = .next t ∧ MemKept s t ∧ OtherGangs s t c q.slot ∧
      (t.core c).mill.queue = (s.core c).mill.queue.filter (fun x => x.id != q.id) ∧
      (∀ x, x < n → mget 0 (t.crew c (s.gang c q.slot).cslot).acc (lo + x) = BitVec.ofNat 32 (s.mldtElem c (s.gang c q.slot).cslot q o x)) ∧
      (∀ i, (i < lo ∨ lo + n ≤ i) → mget 0 (t.crew c (s.gang c q.slot).cslot).acc i = mget 0 w.acc i) ∧
      ((∀ x, x < n → (s.core c).spoison w.alloc (q.mldtPlace o x) (mldtWidth o) = false ∧ (o.add = 1 → lo + x ∉ w.accPoison)) →
        FlagDown s t c q.slot q.flag q.cause) := by
  intro w lo n
  have hs : s.headStep c q = s.mldt c (s.gang c q.slot).cslot q o := by rw [State.headStep, State.millStep, hq]
  obtain ⟨t, hx, hc, hf⟩ := execMillCommandDone_single he hh hd hsp hu (by rw [hs]; exact State.mldt_kept ..)
    (MillCmd.single (by rw [hq]; nofun) (by rw [hq]; nofun)) (by rw [hq]; nofun)
  refine ⟨t, hx, hc.mem, hc.others, hc.queue, fun x hlt => ?_, fun i hi => ?_, fun hp => ?_⟩
  · rw [hc.crews, State.millStepped_acc, hs, State.mldt_acc, if_pos ⟨Nat.le_add_right .., Nat.add_lt_add_left hlt _⟩, Nat.add_sub_cancel_left]
  · rw [hc.crews, State.millStepped_acc, hs, State.mldt_acc, if_neg (show ¬(lo ≤ i ∧ i < lo + n) by omega)]
  · rwa [State.millCause_of_none (by rw [hs]; exact s.mldt_cause c _ q o hp)] at hf

/-- R105, R316 to R318. -/
theorem execMillCommandDone_mma {o : MmaOp} {sp : Bool} (hq : q.op = if sp = true then .mmas o else .mma o)
    (ht : (s.core c).mill.tile < o.tiles) (hg : (s.core c).mill.group < o.k / 16) :
    let cs := (s.gang c q.slot).cslot
    let w := s.crew c cs
    let m := (s.core c).mill
    let tl := o.t.toNat + m.tile
    let slot := q.mmaSlot o sp m.tile m.group
    let a := s.mmaA c cs q o m.tile m.group
    let last := o.k / 16 ≤ m.group + 1
    let ended := last ∧ o.tiles ≤ m.tile + 1
    (mget 0 w.wstag slot).toNat = q.tb → (∀ i x, i < 16 → x < 16 → (a i x).2.2 = q.ta) →
    ∃ t, exec .millCommandDone s = .next t ∧ MemKept s t ∧ OtherGangs s t c q.slot ∧
      (¬ended → (∀ c' g, t.gang? c' g = s.gang? c' g) ∧ (last → (t.core c).mill.group = 0 ∧ (t.core c).mill.tile = m.tile + 1) ∧
        (¬last → (t.core c).mill.group = m.group + 1 ∧ (t.core c).mill.tile = m.tile)) ∧
      (ended → (t.core c).mill.queue = m.queue.filter (fun x => x.id != q.id) ∧
        (slot ∉ w.wPoison → (∀ i x, i < 16 → x < 16 → (a i x).2.1 = false) → (∀ e ∈ w.accPoison, e / 256 ≠ tl) →
          FlagDown s t c q.slot q.flag q.cause)) ∧
      (∀ i j, i < 16 → j < 16 → mget 0 (t.crew c cs).acc (256 * tl + 16 * i + j) =
        BitVec.ofNat 32 (macGroup (mget 0 w.acc (256 * tl + 16 * i + j)).toNat (fun x => (a i x).1)
          (w.bGroup q.fb sp slot j (16 * m.group % kslot q.fb sp / 16)))) ∧
      ∀ i, (i < 256 * tl ∨ 256 * (tl + 1) ≤ i) → mget 0 (t.crew c cs).acc i = mget 0 w.acc i := by
  intro cs w m tl slot a last ended hw ha
  have hs : s.headStep c q = s.mmaStep c cs q o sp m.tile m.group := State.headStep_mma hq ht hg
  obtain ⟨hgroups, hsteps⟩ := MillCmd.groups_mma hq
  have hk : MillKept s (s.headStep c q).1 c := by rw [hs]; exact State.mmaStep_kept ..
  have hacc (e : Nat) : mget 0 ((s.millStepped c q).crew c cs).acc e = if 256 * tl ≤ e ∧ e < 256 * (tl + 1) then
      (s.mmaElem c cs q o sp m.tile m.group ((e - 256 * tl) / 16) ((e - 256 * tl) % 16)).1 else mget 0 w.acc e := by
    rw [State.millStepped_acc, hs]
    exact State.mmaStep_acc ..
  have hin (i j : Nat) (hi : i < 16) (hj : j < 16) : mget 0 ((s.millStepped c q).crew c cs).acc (256 * tl + 16 * i + j) =
      BitVec.ofNat 32 (macGroup (mget 0 w.acc (256 * tl + 16 * i + j)).toNat (fun x => (a i x).1)
        (w.bGroup q.fb sp slot j (16 * m.group % kslot q.fb sp / 16))) := by
    rw [hacc, if_pos (by omega), show (256 * tl + 16 * i + j - 256 * tl) / 16 = i by omega,
      show (256 * tl + 16 * i + j - 256 * tl) % 16 = j by omega]
    exact State.mmaElem_value s c cs q o sp _ _ hi hw fun x hx => ha i x hi hx
  have hout (i : Nat) (hi : i < 256 * tl ∨ 256 * (tl + 1) ≤ i) : mget 0 ((s.millStepped c q).crew c cs).acc i = mget 0 w.acc i := by
    rw [hacc, if_neg (by omega)]
  by_cases hend : ended
  · obtain ⟨t, hx, hc, hf⟩ := execMillCommandDone_last he hh hd hsp hu hk (by rw [hq]; cases sp <;> nofun) (hgroups ▸ hend.1) (hsteps ▸ hend.2)
    refine ⟨t, hx, hc.mem, hc.others, fun h => absurd hend h, fun _ => ⟨hc.queue, fun hs1 hp he1 => ?_⟩, ?_, ?_⟩
    · rwa [State.millCause_of_none] at hf
      rw [hs]
      exact State.mmaStep_cause s c cs q o sp _ _ fun n hn => State.mmaElem_sound s c cs q o sp _ _ (by omega) hs1
        (fun x hx => hp _ x (by omega) hx) fun hm => he1 _ hm (by omega)
    · rw [hc.crews]
      exact hin
    · rw [hc.crews]
      exact hout
  · have hx := execMillCommandDone_steps he hh hd hk.stepped.mill (by rw [hgroups, hsteps]; exact hend)
    have hkept := State.setCore_kept (s.millStepped c q) c
      (k := { (s.millStepped c q).core c with mill := (s.core c).mill.stepped q (s.millCause c q) }) rfl rfl
    have hgangs (d g : Nat) := (hkept.1 d g).trans (hk.stepped.gangs d g)
    refine ⟨_, hx, .of_eq hk.stepped.mem, fun d g _ => hgangs d g, fun _ => ⟨hgangs, fun hl => ?_, fun hl => ?_⟩, fun h => absurd h hend, ?_, ?_⟩
    · rw [State.core_setCore_self]
      exact ⟨if_pos (hgroups ▸ hl), if_pos (hgroups ▸ hl)⟩
    · rw [State.core_setCore_self]
      exact ⟨if_neg (hgroups ▸ hl), if_neg (hgroups ▸ hl)⟩
    · rw [hkept.2]
      exact hin
    · rw [hkept.2]
      exact hout

section
variable {o : MdrainOp} (hq : q.op = .mdrain o) (hhold : (mget {} (s.core c).chutes o.ch.toNat).holder = some (s.gang c q.slot).cslot)
include hq hhold

/-- R321, R322. -/
theorem execMillCommandDone_mdrain (hdf : o.df.toNat < 5)
    (hr : (mget {} (s.core c).chutes o.ch.toNat).entries.length + (o.n.toNat + 1) ≤ 16) :
    let w := s.crew c (s.gang c q.slot).cslot
    let h := mget {} (s.core c).chutes o.ch.toNat
    let n := o.n.toNat + 1
    ∃ t es, exec .millCommandDone s = .next t ∧ MemKept s t ∧ OtherGangs s t c q.slot ∧
      (t.core c).mill.queue = (s.core c).mill.queue.filter (fun x => x.id != q.id) ∧ es.length = n ∧
      mget {} (t.core c).chutes o.ch.toNat = { h with entries := h.entries ++ es, drains := h.drains - 1 } ∧
      (∀ (i : Nat) (e : ChuteEntry), es[i]? = some e → DrainsTo o (fun k => (mget 0 w.acc (256 * (o.t.toNat + i) + k)).toNat) e) ∧
      (∀ k, k ≠ o.ch.toNat → mget {} (t.core c).chutes k = mget {} (s.core c).chutes k) ∧
      ∀ i, mget 0 (t.crew c (s.gang c q.slot).cslot).acc i =
        if o.zero = 1 ∧ 256 * o.t.toNat ≤ i ∧ i < 256 * (o.t.toNat + n) then 0 else mget 0 w.acc i := by
  intro w h n
  have hs := State.headStep_mdrain hq hhold
  obtain ⟨es, hdr⟩ := State.drained_drained (cs := (s.gang c q.slot).cslot) hdf n hr
  have hk : MillKept s (s.headStep c q).1 c := by rw [hs]; exact hdr.kept.trans (State.drainEnds_kept ..)
  obtain ⟨t, hx, hc, -⟩ := execMillCommandDone_single he hh hd hsp hu hk (MillCmd.single (by rw [hq]; nofun) (by rw [hq]; nofun)) (by rw [hq]; nofun)
  have hch : (t.core c).chutes = mset ((s.drained c (s.gang c q.slot).cslot o n).1.core c).chutes o.ch.toNat (h.taking es).drainDone := by
    rw [hc.chutes, State.millStepped_chutes, hs, State.drainEnds_chutes, hdr.chute]
  have hne : (h.taking es).entries ≠ [] := by
    intro h0
    have := congrArg List.length h0
    rw [Chute.taking, List.length_append, hdr.count] at this
    exact absurd this (by simp [n])
  refine ⟨t, es, hx, hc.mem, hc.others, hc.queue, hdr.count, ?_, hdr.entries, fun k hk => ?_, fun i => ?_⟩
  · rw [hch, mget_mset_self, Chute.drainDone_of_entries hne]
    rfl
  · rw [hch, mget_mset_ne _ _ _ hk, hdr.others k hk]
  · rw [hc.crews, State.millStepped_acc, hs, State.drainEnds_crew, hdr.acc]
/-- R322. -/
theorem execMillCommandDone_mdrain_full (hr : (mget {} (s.core c).chutes o.ch.toNat).entries.length = 16) :
    ∃ t, exec .millCommandDone s = .next t ∧ MemKept s t ∧ OtherGangs s t c q.slot ∧
      FlagDown s t c q.slot q.flag (if q.cause = 0 then 0x51 else q.cause) ∧
      (mget {} (t.core c).chutes o.ch.toNat).entries = (mget {} (s.core c).chutes o.ch.toNat).entries ∧
      ∀ i, mget 0 (t.crew c (s.gang c q.slot).cslot).acc i = mget 0 (s.crew c (s.gang c q.slot).cslot).acc i := by
  have hs := State.headStep_mdrain hq hhold
  rw [State.drained_full hr.ge] at hs
  have hk : MillKept s (s.headStep c q).1 c := by rw [hs]; exact State.drainEnds_kept ..
  obtain ⟨t, hx, hc, hf⟩ := execMillCommandDone_single he hh hd hsp hu hk (MillCmd.single (by rw [hq]; nofun) (by rw [hq]; nofun)) (by rw [hq]; nofun)
  have hne : (mget {} (s.core c).chutes o.ch.toNat).entries ≠ [] := fun h0 => by rw [h0] at hr; cases hr
  rw [State.millCause, hs] at hf
  refine ⟨t, hx, hc.mem, hc.others, hf, ?_, fun i => ?_⟩
  · rw [hc.chutes, State.millStepped_chutes, hs, State.drainEnds_chutes, mget_mset_self, Chute.drainDone_of_entries hne]
  · rw [hc.crews, State.millStepped_acc, hs, State.drainEnds_crew]
end
end

/-- Operations that complete on flags of a gang leave all but that gang. -/
theorem State.foldl_dec (c slot : Nat) (fs : List Nat) (s : State) :
    let t := fs.foldl (fun t f => t.dec c slot f 0) s
    t.mem = s.mem ∧ OtherGangs s t c slot ∧ (t.core c).mill = (s.core c).mill := by
  induction fs generalizing s with
  | nil => exact ⟨rfl, fun _ _ _ => rfl, rfl⟩
  | cons f fs ih =>
    obtain ⟨hm, ho, hk⟩ := ih (s.dec c slot f 0)
    refine ⟨hm.trans (State.dec_mem ..), fun d g h => (ho d g h).trans (s.dec_others c slot f 0 d g h), hk.trans ?_⟩
    rw [State.dec_core]
/-- R188, R312. -/
theorem execMillGrant_grants {s : State} {c slot : Nat} {fs : List Nat} (he : s.ev = .core c)
    (hg : (s.core c).mill.grantee = some (slot, fs)) (hr : (s.core c).mill.resume = []) :
    ∃ t, exec .millGrant s = .next t ∧ MemKept s t ∧ (t.core c).mill.owner = some slot ∧
      (t.core c).mill.waiters = (s.core c).mill.waiters.filter (fun w => w.1 != slot) ∧ (t.core c).mill.queue = (s.core c).mill.queue ∧
      OtherGangs s t c slot ∧ ∀ f, fs = [f] → FlagDown s t c slot f 0 := by
  let u := s.setCore c { s.core c with mill := (s.core c).mill.granted (slot, fs) }
  have hx : exec .millGrant s = .next (fs.foldl (fun t f => t.dec c slot f 0) u) := by
    show execMillGrant s = _
    rw [execMillGrant, he]
    dsimp only
    rw [hg]
  have hu : GangsKept s u := s.setCore_kept c rfl rfl
  have hm : (u.core c).mill = (s.core c).mill.granted (slot, fs) := by rw [State.core_setCore_self]
  obtain ⟨hmem, ho, hk⟩ := u.foldl_dec c slot fs
  rw [Mill.granted, hr] at hm
  refine ⟨_, hx, .of_eq hmem, ?_, ?_, ?_, .of_gangs hu.1 ho, fun f hf => ?_⟩
  · rw [hk, hm]
    rfl
  · rw [hk, hm]
    rfl
  · rw [hk, hm]
    rfl
  · rw [hf]
    exact .of_gangs hu.1 (u.dec_flagDown c slot f 0)
/-- R313. -/
theorem execMreadyDone_completes {s : State} {c id : Nat} {q : MillCmd} (he : s.ev = .entry c id)
    (hq : (s.core c).mill.queue.find? (fun x => x.id == id) = some q) (hd : s.mreadyDue c id = true) :
    ∃ t, exec .mreadyDone s = .next t ∧ MemKept s t ∧ OtherGangs s t c q.slot ∧ FlagDown s t c q.slot q.flag 0 ∧
      (t.core c).mill.queue = (s.core c).mill.queue.filter (fun x => x.id != id) := by
  have hid : q.id = id := by simpa using List.find?_some hq
  let m : Mill := { (s.core c).mill with queue := (s.core c).mill.queue.filter fun x => x.id != id }.leaves s.clock 1
  have hx : exec .mreadyDone s = .next (s.millLeft c q m 0) := by
    show execMreadyDone s = _
    rw [execMreadyDone, he]
    dsimp only
    rw [hd, Bool.not_true, if_neg Bool.false_ne_true, hq]
    rfl
  obtain ⟨hc, hf⟩ := Completed.of_left (q := q) (MillKept.refl s c) (m := m) (by rw [hid]; rfl) 0
  exact ⟨_, hx, hc.mem, hc.others, hf, hid ▸ hc.queue⟩

/-- Settles O46, command by command. -/
theorem millResults : Obligations.MillResults := by
  intro s c
  refine ⟨fun slot fs he hg hr => execMillGrant_grants he hg hr, fun q he hh hd hsp hu => ?_,
    fun id q f he hq _ hd => execMreadyDone_completes he hq hd⟩
  refine ⟨fun f tl n hq => execMillCommandDone_mzero he hh hd hsp hu hq, fun f hq => execMillCommandDone_mfence he hh hd hsp hu hq,
    fun o sp hq ht hg => execMillCommandDone_mma he hh hd hsp hu hq ht hg, fun o hq _ => execMillCommandDone_mldt he hh hd hsp hu hq,
    fun o hq hdf hhold => ⟨fun hr => execMillCommandDone_mdrain he hh hd hsp hu hq hhold hdf hr,
      fun hr => execMillCommandDone_mdrain_full he hh hd hsp hu hq hhold hr⟩⟩
end Sys2Proof.Machine
end

-- Completion: what a completed request writes in its gang.
section
/-! SUPPORT. The completion of a request (R131, R213, R217, R267): the registers it delivers, its queues and its flag. -/

namespace Sys2Proof.Machine
open Sys2Proof

/-! #### What a completed request leaves of its gang -/

/-- The kinds whose completion writes a group of vector registers. -/
def groupKinds : List ReqKind := [.load, .rawLoad, .ldx, .atom, .cas, .accld]
/-- The kinds whose completion writes scalar registers. -/
def scalarKinds : List ReqKind := [.loadS, .qpop, .qtry, .gquery, .mstat, .join]

/-- A request of kind k writes registers that its kind has, and nothing else of a gang. -/
structure Delivered (k : ReqKind) (g h : Gang) : Prop where
  rest : h = { g with v := h.v, s := h.s, p := h.p, desc := h.desc }
  vectors : k ∉ groupKinds → h.v = g.v
  scalars : k ∉ scalarKinds → h.s = g.s
  preds : k ≠ .qtry → h.p = g.p

theorem Delivered.refl (k : ReqKind) (g : Gang) : Delivered k g g := ⟨rfl, fun _ => rfl, fun _ => rfl, fun _ => rfl⟩
theorem Delivered.trans {k : ReqKind} {g h j : Gang} (a : Delivered k g h) (b : Delivered k h j) : Delivered k g j where
  rest := by
    rw [b.rest, a.rest]
  vectors n := (b.vectors n).trans (a.vectors n)
  scalars n := (b.scalars n).trans (a.scalars n)
  preds n := (b.preds n).trans (a.preds n)
theorem Delivered.ite {k : ReqKind} {g a b : Gang} {c : Prop} [Decidable c] (ha : Delivered k g a) (hb : Delivered k g b) :
    Delivered k g (if c then a else b) := by
  split
  · exact ha
  · exact hb
theorem Delivered.foldl {α : Type} {k : ReqKind} {f : Gang → α → Gang} (h : ∀ g a, Delivered k g (f g a)) (l : List α) (g : Gang) :
    Delivered k g (l.foldl f g) := by
  induction l generalizing g with
  | nil => exact .refl k g
  | cons a l ih => exact (h g a).trans (ih _)
theorem Delivered.setV {k : ReqKind} (hk : k ∈ groupKinds) (g : Gang) (v : Map Lanes) : Delivered k g { g with v := v } :=
  ⟨rfl, (absurd hk ·), fun _ => rfl, fun _ => rfl⟩
theorem Delivered.setS {k : ReqKind} (hk : k ∈ scalarKinds) (g : Gang) (s : Map W64) : Delivered k g { g with s := s } :=
  ⟨rfl, fun _ => rfl, (absurd hk ·), fun _ => rfl⟩
theorem Delivered.setP {k : ReqKind} (hk : k = .qtry) (g : Gang) (p : Map (BitVec 32)) : Delivered k g { g with p := p } :=
  ⟨rfl, fun _ => rfl, fun _ => rfl, (absurd hk ·)⟩
theorem Delivered.setDesc (k : ReqKind) (g : Gang) (d : Map W64) : Delivered k g { g with desc := d } :=
  ⟨rfl, fun _ => rfl, fun _ => rfl, fun _ => rfl⟩

/-! #### A group of vector registers -/

/-- The lanes that take a value: those with pieces, none of which has failed. -/
def Req.doneLanes (r : Req) : List Nat := (List.range 32).filter (fun l => r.laneNos.contains (r.source l) && r.laneOk (r.source l))
/-- What register j of the group takes in a lane; k draws the undefined values. -/
def Req.result (r : Req) (k j l : Nat) : W32 :=
  if r.laneUndef (r.source l) then Config.freeW32 k (2048 + 32 * j + l) else BitVec.ofNat 32 (r.value (r.source l) j)
/-- Register j of the group with the values of the lanes that take one. -/
def Req.merged (r : Req) (k j : Nat) (old : Lanes) : Lanes := mergeLanes (maskOf r.doneLanes) (lanesOf (r.result k j)) old
/-- The gang with the first n registers of the group written. -/
def Gang.takesGroup (g : Gang) (r : Req) (k n : Nat) : Gang :=
  (List.range n).foldl (fun g j => { g with v := mset g.v (r.dest + j) (r.merged k j (g.vreg (r.dest + j))) }) g

theorem Gang.deliver_group {r : Req} (h : r.kind ∈ groupKinds) (g : Gang) (k : Nat) : g.deliver r k = g.takesGroup r k r.group := by
  simp only [groupKinds, List.mem_cons, List.not_mem_nil, or_false] at h
  unfold Gang.deliver
  rcases h with h | h | h | h | h | h <;> rw [h] <;> rfl
theorem Gang.takesGroup_succ (g : Gang) (r : Req) (k n : Nat) : g.takesGroup r k (n + 1) = { g.takesGroup r k n with
    v := mset (g.takesGroup r k n).v (r.dest + n) (r.merged k n ((g.takesGroup r k n).vreg (r.dest + n))) } := by
  rw [Gang.takesGroup, List.range_succ, List.foldl_append]
  rfl
theorem Gang.takesGroup_vreg (g : Gang) (r : Req) (k n m : Nat) : (g.takesGroup r k n).vreg m =
    if r.dest ≤ m ∧ m < r.dest + n then r.merged k (m - r.dest) (g.vreg m) else g.vreg m := by
  induction n with
  | zero => exact (if_neg (by omega)).symm
  | succ n ih =>
    have hv : (g.takesGroup r k (n + 1)).vreg m =
        if m = r.dest + n then r.merged k n ((g.takesGroup r k n).vreg (r.dest + n)) else (g.takesGroup r k n).vreg m := by
      rw [Gang.takesGroup_succ]
      exact mget_mset ..
    rw [hv]
    by_cases hm : m = r.dest + n
    · subst hm
      rw [if_pos rfl, ih, if_neg (by omega), if_pos (by omega), Nat.add_sub_cancel_left]
    · rw [if_neg hm, ih]
      exact if_congr (by omega) rfl rfl

theorem Gang.deliver_delivered (g : Gang) (r : Req) (k : Nat) : Delivered r.kind g (g.deliver r k) := by
  by_cases hg : r.kind ∈ groupKinds
  · rw [Gang.deliver_group hg]
    exact .foldl (fun g j => .setV hg g _) _ g
  unfold Gang.deliver
  extract_lets ls lanes x y z n got g1
  split
  case h_7 hk => exact .ite (.setS (by rw [hk]; decide) g _) (.refl _ g)
  case h_8 => exact .ite (.foldl (fun g w => .setDesc _ g _) _ g) (.refl _ g)
  case h_9 hk | h_10 hk =>
    have h1 : Delivered r.kind g g1 := .ite (.foldl (fun g i => .setS (by rw [hk]; decide) g _) _ g) (.refl _ g)
    split
    next h => exact h1.trans (.setP h.1 g1 _)
    next => exact h1
  case h_11 hk | h_12 hk => exact .ite (.setS (by rw [hk]; decide) g _) (.refl _ g)
  case h_13 hk =>
    split
    · exact .ite (.setS (by rw [hk]; decide) g _) (.refl _ g)
    · exact .refl _ g
  case h_14 => exact .refl _ g
  all_goals exact absurd (by simp only [*]; decide) hg

/-! #### The value a lane takes -/

theorem laneGet_mergeLanes {l : Nat} (hl : l < 32) (m : BitVec 32) (new old : Lanes) :
    laneGet (mergeLanes m new old) l = if m.getLsbD l then laneGet new l else laneGet old l := by
  simp [mergeLanes, laneGet, lanesOf, List.getD, hl]
theorem laneGet_lanesOf {l : Nat} (hl : l < 32) (f : Nat → W32) : laneGet (lanesOf f) l = f l := by
  simp [laneGet, lanesOf, List.getD, hl]
theorem Req.of_ne_nil (r : Req) (lane : Nat) : r.of lane ≠ [] ↔ lane ∈ r.laneNos := by
  rw [Req.laneNos, List.mem_eraseDups, List.mem_map, Req.of, ne_eq, List.filter_eq_nil_iff]
  simp
theorem Req.mem_doneLanes {r : Req} {l : Nat} (hl : l < 32) :
    l ∈ r.doneLanes ↔ r.of (r.source l) ≠ [] ∧ ∀ p ∈ r.of (r.source l), p.stage = 2 := by
  rw [Req.of_ne_nil]
  simp [Req.doneLanes, Req.laneOk, hl]
/-- R131, R213: the lanes whose pieces have all been performed take their values, the others keep theirs. -/
theorem Gang.deliver_lane {r : Req} (hk : r.kind ∈ groupKinds) (g : Gang) (k : Nat) {j l : Nat} (hj : j < r.group) (hl : l < 32) :
    laneGet ((g.deliver r k).vreg (r.dest + j)) l = if l ∈ r.doneLanes then r.result k j l else laneGet (g.vreg (r.dest + j)) l := by
  rw [Gang.deliver_group hk, Gang.takesGroup_vreg, if_pos (by omega), Nat.add_sub_cancel_left, Req.merged, laneGet_mergeLanes hl,
    maskOf_getLsbD _ hl, laneGet_lanesOf hl]
  simp only [List.contains_iff_mem]
theorem Req.raw_of_fmt {r : Req} {l : Nat} (h : ∀ p ∈ r.of l, p.fmt = 0) : r.raw l = (r.of l).foldl (fun a p => a + p.out * 256 ^ p.off) 0 :=
  List.foldl_ext _ _ _ fun _ p hp => if_pos (h p hp)
theorem ofNat_mod_two_pow (w x : Nat) : BitVec.ofNat w (x % 2 ^ w) = BitVec.ofNat w x :=
  BitVec.eq_of_toNat_eq (by rw [BitVec.toNat_ofNat, BitVec.toNat_ofNat, Nat.mod_mod])
theorem ofNat_sext {w : Nat} (hw : 0 < w) (x : Nat) : BitVec.ofNat 32 (wrapInt (sextInt x w) 32) = (BitVec.ofNat w x).signExtend 32 := by
  have hx : sextInt x w = (BitVec.ofNat w x).toInt := by
    rw [← ofNat_mod_two_pow, ← sextInt_eq_toInt hw (Nat.mod_lt x (Nat.two_pow_pos w))]
    simp only [sextInt, Nat.mod_mod]
  rw [BitVec.signExtend, ← hx]
  apply BitVec.eq_of_toNat_eq
  rw [BitVec.toNat_ofInt, BitVec.toNat_ofNat, wrapInt]
  omega
/-- R267, R272: the value of register j of a lane whose pieces are of no format. -/
theorem Req.value_raw {r : Req} {l : Nat} (h : ∀ p ∈ r.of l, p.fmt = 0) (j : Nat) : BitVec.ofNat 32 (r.value l j) =
    if r.kind = .load ∧ r.opc = 2 then (BitVec.ofNat 8 (r.raw l)).signExtend 32
    else if r.kind = .load ∧ r.opc = 4 then (BitVec.ofNat 16 (r.raw l)).signExtend 32
    else if r.kind = .ldx ∧ r.z = 8 then (BitVec.ofNat 8 (r.raw l)).signExtend 32
    else if r.kind = .ldx ∧ r.z = 9 then (BitVec.ofNat 16 (r.raw l)).signExtend 32
    else BitVec.ofNat 32 (r.raw l / 2 ^ (32 * j)) := by
  have hn : (r.of l).find? (fun p => p.fmt != 0 && p.fmt != 14 && p.off == j) = none :=
    List.find?_eq_none.mpr fun p hp => by simp [h p hp]
  rw [← ofNat_sext (by decide : 0 < 8), ← ofNat_sext (by decide : 0 < 16), Req.value, hn]
  dsimp only
  split
  next hk =>
    simp only [hk, reduceCtorEq, false_and, true_and, if_false]
    split
    · rfl
    · split
      · rfl
      · exact ofNat_mod_two_pow ..
  next hk =>
    simp only [hk, reduceCtorEq, false_and, true_and, if_false]
    split
    · rfl
    · split
      · rfl
      · exact ofNat_mod_two_pow ..
  next hl hx =>
    rw [if_neg (hl ·.1), if_neg (hl ·.1), if_neg (hx ·.1), if_neg (hx ·.1)]
    exact ofNat_mod_two_pow ..
/-- R267: register j of a decoding load takes element j of its lane. -/
theorem Req.value_element {r : Req} {l j : Nat} {p : LaneAcc} (hp : p ∈ r.of l) (hf : p.fmt ≠ 0) (h14 : p.fmt ≠ 14) (ho : p.off = j)
    (hu : ∀ q ∈ r.of l, q.fmt ≠ 0 → q.fmt ≠ 14 → q.off = j → q = p) : r.value l j = p.out := by
  have hs : (r.of l).find? (fun p => p.fmt != 0 && p.fmt != 14 && p.off == j) = some p := by
    obtain ⟨q, hq⟩ := Option.isSome_iff_exists.mp (List.find?_isSome (p := fun p => p.fmt != 0 && p.fmt != 14 && p.off == j).mpr
      ⟨p, hp, by simp [hf, h14, ho]⟩)
    have hc := List.find?_some hq
    simp only [Bool.and_eq_true, bne_iff_ne, beq_iff_eq] at hc
    rw [hq, hu q (List.mem_of_find?_eq_some hq) hc.1.1 hc.1.2 hc.2]
  rw [Req.value, hs]

/-! #### A request leaves its gang -/

/-- The request with the word that MSTAT or GQUERY returns. -/
def State.worded (s : State) (r : Req) : Req :=
  if r.kind = .mstat then { r with words := [s.mstatWord r.core r.slot] }
  else if r.kind = .gquery then { r with words := [(mget {} s.groups (groupKey r.ctx r.z)).record] }
  else r
theorem State.worded_eq (s : State) (r : Req) : s.worded r = { r with words := (s.worded r).words } := by
  unfold State.worded
  (repeat' split) <;> rfl
theorem State.worded_kind (s : State) (r : Req) : (s.worded r).kind = r.kind := by rw [State.worded_eq]

/-- The gang once the request has been delivered, taken out of its queues and counted off its flag. -/
def Gang.finished (g : Gang) (id : Nat) (r : Req) (k : Nat) : Gang := ((g.deliver r k).dequeue id).flagDec r.flag r.firstCause

theorem State.stgEnded_calm (s : State) (r : Req) : Calm s (s.stgEnded r) := by
  unfold State.stgEnded State.failGroup
  split
  · exact .ite (.ite (.refl s) (.of_cores rfl rfl)) (.refl s)
  · exact .refl s
theorem State.complete_gang {s : State} {r : Req} {g : Gang} (id : Nat) (hp : r.peer = none) (hs : r.slot < 64) (hk : r.kind ≠ .limg)
    (hg : s.gang? r.core r.slot = some g) : ∃ u, GangsKept s u ∧ u.reqs = mdel s.reqs id ∧ u.mem = s.mem ∧
      s.complete id r = (u.setGang r.core r.slot (g.finished id (s.worded r) s.free)).bump := by
  unfold State.complete
  extract_lets r' k m s0 s1
  have hr : r' = { r with words := r'.words } := s.worded_eq r
  have hl : r'.kind ≠ .limg := by rwa [hr]
  have hc : Calm s s0 ∧ s0.mem = s.mem := by
    unfold s0
    rw [if_neg (hl ·.1)]
    split
    · exact ⟨s.stgEnded_calm r', s.stgEnded_mem r'⟩
    · split
      · split
        · exact ⟨s.setCore_calm _ rfl rfl, rfl⟩
        · exact ⟨.refl s, rfl⟩
      · exact ⟨.refl s, rfl⟩
  have h1 : s1.gang? r'.core r'.slot = some g := by
    rw [hr]
    exact (hc.1.gangs.1 _ _).trans hg
  have hslot (n : Nat) (hn : 64 ≤ n) : r'.slot ≠ n := by
    rw [hr]
    exact (Nat.lt_of_lt_of_le hs hn).ne
  refine ⟨s1, hc.1.gangs.trans (.of_cores rfl), congrArg (mdel · id) hc.1.reqs, hc.2, ?_⟩
  rw [show r'.peer = none by rw [hr]; exact hp]
  dsimp only
  rw [if_neg (hslot scaleSlot (by decide)), if_neg (hslot peekSlot (by decide)), if_neg (hslot pcieSlot (by decide)), h1]
  dsimp only
  rw [show r'.core = r.core by rw [hr], show r'.slot = r.slot by rw [hr]]
  rfl

/-- What completion leaves of the machine and of the other gangs, and what it makes of its own gang. -/
theorem exec_memoryOpComplete {s : State} {id i : Nat} {r : Req} {g : Gang} (he : s.ev = .req id i) (hr : mget? s.reqs id = some r)
    (hp : r.peer = none) (hs : r.slot < 64) (hk : r.kind ≠ .limg) (hg : s.gang? r.core r.slot = some g) :
    ∃ t, exec .memoryOpComplete s = .next t ∧ t.reqs = mdel s.reqs id ∧ MemKept s t ∧ OtherGangs s t r.core r.slot ∧
      t.gang r.core r.slot = g.finished id (s.worded r) s.free := by
  obtain ⟨u, hu, hq, hm, hc⟩ := State.complete_gang id hp hs hk hg
  have hx : exec .memoryOpComplete s = .next ((s.complete id r).cleanLog r.core) := by
    show execMemoryOpComplete s = _
    rw [execMemoryOpComplete, he]
    dsimp only
    rw [State.req, hr]
  obtain ⟨hk, hq'⟩ := State.cleanLog_calm (s.complete id r) r.core
  refine ⟨_, hx, hq'.trans (by rw [hc]; exact hq), .of_eq ?_, fun c n hn => (hk.1 c n).trans ?_, ?_⟩
  · rw [State.cleanLog_mem, hc]
    exact hm
  · rw [hc]
    exact (u.gang?_setGang_ne _ hn).trans (hu.1 c n)
  · refine State.gang_of_gang? ((hk.1 _ _).trans ?_)
    rw [hc]
    exact u.gang?_setGang_self ..

/-! #### The gang of a completed request -/

theorem Gang.flagDec_flag (g : Gang) (f cause n : Nat) : (g.flagDec f cause).flag n = if n = f then
    { count := (g.flag f).count - 1, err := (g.flag f).err || cause != 0,
      cause := if (g.flag f).err then (g.flag f).cause else if cause = 0 then (g.flag f).cause else cause } else g.flag n :=
  mget_mset ..
theorem Gang.deliver_dequeue_flag (g : Gang) (id : Nat) (r : Req) (k n : Nat) : ((g.deliver r k).dequeue id).flag n = g.flag n := by
  have hd : (g.deliver r k).flags = g.flags := by rw [(g.deliver_delivered r k).rest]
  exact congrArg (mget {} · n) hd

section
variable (g : Gang) (id : Nat) (r : Req) (k : Nat)
theorem Gang.finished_v : (g.finished id r k).v = (g.deliver r k).v := rfl
theorem Gang.finished_s : (g.finished id r k).s = (g.deliver r k).s := rfl
theorem Gang.finished_p : (g.finished id r k).p = (g.deliver r k).p := rfl
theorem Gang.finished_vreg (n : Nat) : (g.finished id r k).vreg n = (g.deliver r k).vreg n := rfl
theorem Gang.finished_sreg (n : Nat) : (g.finished id r k).sreg n = (g.deliver r k).sreg n := rfl
theorem Gang.finished_queues : (g.finished id r k).loadQ = g.loadQ.filter (· != id) ∧ (g.finished id r k).storeQ = g.storeQ.filter (· != id) ∧
    (g.finished id r k).barQ = g.barQ.filter (· != id) ∧ (g.finished id r k).heldQ = g.heldQ.filter (· != id) := by
  rw [Gang.finished, (g.deliver_delivered r k).rest]
  exact ⟨rfl, rfl, rfl, rfl⟩
end
theorem Gang.finished_flag (g : Gang) (id : Nat) (r : Req) (k n : Nat) : (g.finished id r k).flag n = if n = r.flag then
    { count := (g.flag r.flag).count - 1, err := (g.flag r.flag).err || r.firstCause != 0,
      cause := if (g.flag r.flag).err then (g.flag r.flag).cause else if r.firstCause = 0 then (g.flag r.flag).cause else r.firstCause }
    else g.flag n := by
  rw [Gang.finished, Gang.flagDec_flag, Gang.deliver_dequeue_flag, Gang.deliver_dequeue_flag]
theorem Gang.deliver_loadS {r : Req} (hk : r.kind = .loadS) (g : Gang) (k : Nat) : g.deliver r k = if r.laneOk 0 then { g with
    s := mset g.s (r.dest - 0x80) (if r.laneUndef 0 then Config.freeW64 k 2048 else BitVec.ofNat 64 (r.raw 0)) } else g := by
  unfold Gang.deliver
  rw [hk]
theorem Gang.deliver_word {r : Req} (hk : r.kind = .gquery ∨ r.kind = .mstat) (hc : r.firstCause = 0) (g : Gang) (k : Nat) (w : W64) :
    (g.deliver { r with words := [w] } k).sreg r.dest = w := by
  have hd : g.deliver { r with words := [w] } k = { g with s := mset g.s r.dest w } := by
    unfold Gang.deliver
    rcases hk with hk | hk <;> dsimp only <;> rw [hk] <;> exact if_pos hc
  rw [hd]
  exact mget_mset_self ..

theorem State.worded_firstCause (s : State) (r : Req) : (s.worded r).firstCause = r.firstCause := by
  rw [State.worded_eq]
  rfl
theorem State.worded_of_kind (s : State) {r : Req} (hm : r.kind ≠ .mstat) (hq : r.kind ≠ .gquery) : s.worded r = r := by
  rw [State.worded, if_neg hm, if_neg hq]
theorem State.worded_group (s : State) {r : Req} (hk : r.kind ∈ groupKinds) : s.worded r = r := by
  have h : ∀ k ∈ groupKinds, k ≠ .mstat ∧ k ≠ .gquery := by decide
  exact s.worded_of_kind (h _ hk).1 (h _ hk).2

/-- R131, R217. -/
theorem Completes.of_finished {s t : State} {id : Nat} {r : Req} (hq : t.reqs = mdel s.reqs id) (hm : MemKept s t)
    (ho : OtherGangs s t r.core r.slot) (hg : t.gang r.core r.slot = (s.gang r.core r.slot).finished id (s.worded r) s.free) :
    Completes s t id r := by
  have hd := (s.gang r.core r.slot).deliver_delivered (s.worded r) s.free
  rw [s.worded_kind] at hd
  have hf : (s.worded r).flag = r.flag := by rw [State.worded_eq]
  obtain ⟨hl, hst, hb, hh⟩ := (s.gang r.core r.slot).finished_queues id (s.worded r) s.free
  rw [← hg] at hl hst hb hh
  refine ⟨hq, hm, ho, ?_, fun n hn => ?_, hl, hst, hb, hh, fun hn => ?_, fun hn => ?_⟩
  · rw [hg, Gang.finished_flag, hf, s.worded_firstCause, if_pos rfl]
  · rw [hg, Gang.finished_flag, hf, if_neg hn]
  · rw [hg, Gang.finished_p]
    exact hd.preds hn
  · rw [hg, Gang.finished_s]
    exact hd.scalars hn

/-- R131, R213: registers outside the request's group are as before. -/
theorem Gang.deliver_vreg_ne (g : Gang) {r : Req} {n : Nat} (h : (∀ j, j < r.group → n ≠ r.dest + j) ∨ r.kind ∉ groupKinds) (k : Nat) :
    (g.deliver r k).vreg n = g.vreg n := by
  by_cases hk : r.kind ∈ groupKinds
  · have hn := h.resolve_right (absurd hk)
    rw [Gang.deliver_group hk, Gang.takesGroup_vreg, if_neg fun hc => hn (n - r.dest) (by omega) (by omega)]
  · exact congrArg (mget [] · n) ((g.deliver_delivered r k).vectors hk)
/-- R131, R213, R267: what a lane of register j of the group holds once its pieces are in. -/
theorem Gang.deliver_lane_cases {r : Req} (hk : r.kind ∈ groupKinds) (g : Gang) (k : Nat) {j l : Nat} (hj : j < r.group) (hl : l < 32) :
    ((r.of (r.source l) = [] ∨ ∃ p ∈ r.of (r.source l), p.stage ≠ 2) →
      laneGet ((g.deliver r k).vreg (r.dest + j)) l = laneGet (g.vreg (r.dest + j)) l) ∧
    (r.of (r.source l) ≠ [] → (∀ p ∈ r.of (r.source l), p.stage = 2 ∧ p.undef = false) →
      laneGet ((g.deliver r k).vreg (r.dest + j)) l = BitVec.ofNat 32 (r.value (r.source l) j)) := by
  rw [Gang.deliver_lane hk g k hj hl]
  refine ⟨fun h => if_neg fun hm => ?_, fun h0 h2 => ?_⟩
  · obtain ⟨h0, h2⟩ := (Req.mem_doneLanes hl).mp hm
    rcases h with h | ⟨p, hp, hs⟩
    · exact h0 h
    · exact hs (h2 p hp)
  · rw [if_pos ((Req.mem_doneLanes hl).mpr ⟨h0, fun p hp => (h2 p hp).1⟩), Req.result, if_neg]
    simpa [Req.laneUndef] using fun p hp => (h2 p hp).2
/-- R268: the scalar registers after a scalar load. -/
theorem Gang.deliver_loadS_sreg {r : Req} (hk : r.kind = .loadS) (g : Gang) (k n : Nat) : (g.deliver r k).sreg n =
    if n = r.dest - 0x80 ∧ r.laneOk 0 = true ∧ r.laneUndef 0 = false then BitVec.ofNat 64 (r.raw 0)
    else if n = r.dest - 0x80 ∧ r.laneOk 0 = true then (g.deliver r k).sreg n else g.sreg n := by
  split
  next h =>
    rw [Gang.deliver_loadS hk, if_pos h.2.1, h.2.2, h.1]
    exact mget_mset_self ..
  next =>
    split
    next => rfl
    next h =>
      rw [Gang.deliver_loadS hk]
      split
      next ho => exact mget_mset_ne _ _ _ fun hn => h ⟨hn, ho⟩
      next => rfl

/-- Settles O32: the gang's queues and flag by `Completes.of_finished`, its registers by what the request delivers. -/
theorem completionResults : Obligations.CompletionResults := by
  intro s id i r he hr hp hs hg hk
  obtain ⟨g, hg⟩ := Option.isSome_iff_exists.mp hg
  obtain ⟨t, hx, hq, hm, ho, ht⟩ := exec_memoryOpComplete he hr hp hs hk hg
  rw [← State.gang_of_gang? hg] at ht
  have hw := s.worded_eq r
  refine ⟨t, hx, .of_finished hq hm ho ht, fun n hn => ?_, fun hk j hj l hl => ?_, fun hk => ?_, fun hk hc => ?_, fun hk hc => ?_⟩
  · rw [ht, Gang.finished_vreg]
    refine Gang.deliver_vreg_ne _ ?_ _
    rw [hw]
    exact hn
  · rw [ht, s.worded_group hk, Gang.finished_vreg]
    obtain ⟨hold, hnew⟩ := Gang.deliver_lane_cases hk (s.gang r.core r.slot) s.free hj hl
    refine ⟨hold, fun h0 h2 => ?_, fun _ h2 p hp hf h14 hj hu => ?_⟩
    · have hf : ∀ p ∈ r.of (r.source l), p.fmt = 0 := fun p hp => (h2 p hp).2.2
      have hv := (hnew h0 fun p hp => ⟨(h2 p hp).1, (h2 p hp).2.1⟩).trans (Req.value_raw hf j)
      rw [Req.raw_of_fmt hf] at hv
      exact hv
    · rw [← Req.value_element hp hf h14 hj hu]
      exact hnew (List.ne_nil_of_mem hp) h2
  · obtain ⟨hm, hq, hv⟩ : r.kind ≠ .mstat ∧ r.kind ≠ .gquery ∧ r.kind ∉ groupKinds := by
      rw [hk]
      decide
    rw [ht, s.worded_of_kind hm hq, Gang.finished_v]
    simp only [Gang.finished_sreg]
    exact ⟨(Gang.deliver_delivered ..).vectors hv, Gang.deliver_loadS_sreg hk _ _⟩
  · have hs : s.worded r = { r with words := [(mget {} s.groups (groupKey r.ctx r.z)).record] } := by
      rw [State.worded, if_neg (by rw [hk]; decide), if_pos hk]
    rw [ht, hs, Gang.finished_sreg]
    exact Gang.deliver_word (.inl hk) hc ..
  · have hs : s.worded r = { r with words := [s.mstatWord r.core r.slot] } := if_pos hk
    rw [ht, hs, Gang.finished_sreg]
    exact Gang.deliver_word (.inr hk) hc ..

end Sys2Proof.Machine
end

-- Barriers: a checker record changes the directory, which the frame of a barrier operation leaves out.
section
/-! SUPPORT. An arrival that the checker records (R72, R344, R456): the record is written at the home slice of its line, whose directory
entry is then that of a line nobody holds. `BFrame` lets a barrier operation change the checker's ring, but not the directory. -/

namespace Sys2Proof.Machine
open Sys2Proof

/-- The checker is on, its ring at address 0; a gang whose slice has left lanes behind issues a bundle, and barrier 0 of its crew is set. -/
def divergedArrival : State := { State.reset with
  dregs := [(0x3900, 0x8000000000000000)]
  cores := [(0, { gangs := [(0, { slices := [{ mask := 1 }] })], crews := [(0, { bst := [(0, 0x8000000000000000)] })] })]
  cur := { slices := [0] } }

/-- The directory that an outcome leaves. -/
def dirAfter : Out → Map (Nat × Nat × Nat)
  | .next t => t.dir
  | _ => []

/-- R456, R72: the record of kind 2 reaches line 0 at its home slice. -/
theorem divergedArrival_dir : dirAfter (exec (.bara 0) divergedArrival) = [(0, 0, 0, 0)] := rfl

theorem BFrame.dir {s t : State} (h : BFrame s t) : t.dir = s.dir := by rw [h.rest]

/-- Refutes O25: where the checker (R456) records the arrival of a diverged part, BARA changes the directory, which `BFrame` says it
leaves as it is. -/
theorem not_barrierOperationResults : ¬ Obligations.BarrierOperationResults := by
  rintro ⟨hb, -⟩
  obtain ⟨-, hbara, -⟩ := hb divergedArrival 0 (by decide) rfl
  obtain ⟨t, hx, hf, -⟩ := hbara (by decide) (by decide)
  have hd := divergedArrival_dir
  rw [hx] at hd
  exact absurd (hd.symm.trans hf.dir) (by decide)

end Sys2Proof.Machine
end

-- System registers: what MFS reads, and what MTS, MPSET and WINSET write.
section
/-! SUPPORT. The system registers (R19, R348 to R352): a C-slot operation by its conditions, the words that MFS gathers from the fields of
Table 11-9, and the words of a context's windows after a write. -/

namespace Sys2Proof.Machine
open Sys2Proof

/-! #### Conditions and fixed-latency writes -/

theorem cRun_runs {i : Instr} {own : State → Option Trap} {eff : State → State} {s : State} (h : opLegal i s.me.regs = true)
    (ho : own s = none) : cRun i own eff s = .next (eff s) := by
  rw [cRun, illegalTrap, if_pos h, ho]
  rfl
theorem cRun_traps {i : Instr} {own : State → Option Trap} {eff : State → State} {s : State} {t : Trap} (h : opLegal i s.me.regs = true)
    (ho : own s = some t) : cRun i own eff s = .next (s.takeTrap t) := by
  rw [cRun, illegalTrap, if_pos h, ho]
  rfl
/-- R211, R213. -/
theorem Writes.write {s t : State} {p : Pend} (h : t.me = s.me.write p) : Writes s t [p] := by
  rw [Writes, h]
  refine ⟨rfl, List.map_congr_left fun m _ => ?_⟩
  simp only [List.any_cons, List.any_nil, Bool.or_false, beq_iff_eq, eq_comm (a := p.dest)]
theorem Gang.write_eq (g : Gang) (p : Pend) : g.write p = { g with pend := (g.write p).pend, marks := (g.write p).marks } := rfl

/-! #### Digits of a sum of powers -/

/-- The number whose digit k in base b is f k, for k below n. -/
def digitSum (b : Nat) (f : Nat → Nat) (n : Nat) : Nat := (List.range n).foldl (fun a k => a + f k * b ^ k) 0

theorem digitSum_succ (b : Nat) (f : Nat → Nat) (n : Nat) : digitSum b f (n + 1) = digitSum b f n + f n * b ^ n := by
  rw [digitSum, List.range_succ, List.foldl_append]
  rfl
theorem digitSum_lt {b : Nat} {f : Nat → Nat} {n : Nat} (hf : ∀ k < n, f k < b) : digitSum b f n < b ^ n := by
  induction n with
  | zero => exact Nat.one_pos
  | succ n ih =>
    have h := ih fun k hk => hf k (by omega)
    have hn : (f n + 1) * b ^ n ≤ b * b ^ n := Nat.mul_le_mul_right _ (hf n (by omega))
    rw [digitSum_succ, Nat.pow_succ']
    rw [Nat.add_mul] at hn
    omega
theorem digitSum_digit {b : Nat} {f : Nat → Nat} {n k : Nat} (hb : 0 < b) (hf : ∀ k < n, f k < b) (hk : k < n) :
    digitSum b f n / b ^ k % b = f k := by
  induction n with
  | zero => omega
  | succ n ih =>
    have hp (j : Nat) : 0 < b ^ j := Nat.pow_pos hb
    rw [digitSum_succ]
    by_cases h : k = n
    · subst h
      rw [Nat.add_mul_div_right _ _ (hp k), Nat.div_eq_of_lt (digitSum_lt fun j hj => hf j (by omega)), Nat.zero_add]
      exact Nat.mod_eq_of_lt (hf k hk)
    · have he : f n * b ^ n = f n * b ^ (n - k - 1) * b * b ^ k := by
        rw [Nat.mul_assoc, Nat.mul_assoc, ← Nat.pow_succ', ← Nat.pow_add]
        congr 2
        omega
      rw [he, Nat.add_mul_div_right _ _ (hp k), Nat.add_mul_mod_self_right]
      exact ih (fun j hj => hf j (by omega)) (by omega)
theorem foldl_bits (c : Nat → Bool) (n : Nat) :
    (List.range n).foldl (fun a l => if c l then a + 2 ^ l else a) 0 = digitSum 2 (fun l => (c l).toNat) n := by
  refine List.foldl_ext _ _ _ fun a l _ => ?_
  dsimp only
  cases c l
  · rw [if_neg Bool.false_ne_true, Bool.toNat_false, Nat.zero_mul, Nat.add_zero]
  · rw [if_pos rfl, Bool.toNat_true, Nat.one_mul]
/-- The number made of the bits of a function. -/
theorem foldl_bits_testBit (c : Nat → Bool) (n l : Nat) :
    ((List.range n).foldl (fun a l => if c l then a + 2 ^ l else a) 0).testBit l = (decide (l < n) && c l) := by
  have hc : ∀ k < n, (c k).toNat < 2 := fun k _ => Bool.toNat_lt (c k)
  rw [foldl_bits]
  by_cases hl : l < n
  · rw [Nat.testBit_eq_decide_div_mod_eq, digitSum_digit (by decide) hc hl, decide_eq_true hl, Bool.true_and]
    cases c l <;> rfl
  · rw [Nat.testBit_lt_two_pow ((digitSum_lt hc).trans_le (Nat.pow_le_pow_right (by decide) (by omega))), decide_eq_false hl, Bool.false_and]
theorem ofNat_bits (c : Nat → Bool) (m : BitVec 32) (h : ∀ l < 32, c l = m.getLsbD l) :
    BitVec.ofNat 64 ((List.range 32).foldl (fun a l => if c l then a + 2 ^ l else a) 0) = m.setWidth 64 := by
  refine BitVec.eq_of_getLsbD_eq fun l hl => ?_
  rw [BitVec.getLsbD_ofNat, foldl_bits_testBit, BitVec.getLsbD_setWidth]
  by_cases hl : l < 32
  · rw [h l hl, decide_eq_true hl, Bool.true_and]
  · rw [BitVec.getLsbD_of_ge m l (by omega), decide_eq_false hl, Bool.false_and]
/-- A word of hexadecimal digits, eight at most. -/
theorem ofNat_digits {f : Nat → Nat} {n k : Nat} (hn : n ≤ 8) (hf : ∀ k < n, f k < 16) (hk : k < n) :
    (BitVec.ofNat 64 (digitSum 16 f n)).toNat / 16 ^ k % 16 = f k := by
  have hlt : digitSum 16 f n < 2 ^ 64 :=
    (digitSum_lt hf).trans_le ((Nat.pow_le_pow_right (by decide) hn).trans (by decide))
  rw [BitVec.toNat_ofNat, Nat.mod_eq_of_lt hlt, digitSum_digit (by decide) hf hk]

/-! #### The register an access reaches -/

/-- The scope of the registers of Table 11-8, by number. -/
def scopeAt (reg : Nat) : SysScope :=
  if reg < 0xC0 then .gang else if reg < 0x380 then .crew else if reg = 0x381 then .device else if reg = 0x382 then .context
  else if reg < 0x460 then .core else if reg < 0x4C0 then .context else if reg < 0x540 then .gang else .crew

theorem sysRow_scope {reg : Nat} {r : SysRow} (h : sysRow reg = some r) : r.scope = scopeAt reg := by
  have hm : r ∈ sysTable := List.mem_of_find?_eq_some h
  have hb : r.lo ≤ reg ∧ reg ≤ r.hi := by simpa using List.find?_some h
  simp only [sysTable, List.mem_cons, List.not_mem_nil, or_false] at hm
  unfold scopeAt
  rcases hm with rfl | rfl | rfl | rfl | rfl | rfl | rfl | rfl | rfl | rfl | rfl | rfl | rfl | rfl | rfl | rfl | rfl | rfl | rfl | rfl | rfl |
    rfl | rfl <;> dsimp only at hb ⊢ <;> simp (disch := omega) only [if_pos, if_neg]
theorem sysScopeOf_row {reg : Nat} {r : SysRow} (h : sysRow reg = some r) : sysScopeOf reg = some (scopeAt reg) := by
  rw [sysScopeOf, h, Option.map_some, sysRow_scope h]

section
variable {s : State} {reg : Nat} {r : SysRow} (h : sysRow reg = some r)
include h
theorem readSys_gang (hr : scopeAt reg = .gang) : s.readSys reg = s.readGangReg s.cur.core s.selected reg := by
  rw [State.readSys, sysScopeOf_row h, hr]
theorem readSys_crew (hr : scopeAt reg = .crew) : s.readSys reg = s.readCrewReg s.cur.core (s.gang s.cur.core s.selected).cslot reg
    (if s.selected = s.cur.slot then s.cur.pmc else (s.crew s.cur.core (s.gang s.cur.core s.selected).cslot).pmc) := by
  rw [State.readSys, sysScopeOf_row h, hr]
theorem readSys_context (hr : scopeAt reg = .context) : s.readSys reg =
    if reg = 0x382 then BitVec.ofNat 64 (s.ctxOf s.cur.core s.selected % 4096)
    else (s.copy s.cur.core (s.ctxOf s.cur.core s.selected)).word s.clock (copyWord reg) := by
  rw [State.readSys, sysScopeOf_row h, hr]
theorem readSys_core (hr : scopeAt reg = .core) : s.readSys reg =
    let k := s.core s.cur.core
    if reg = 0x380 then BitVec.ofNat 64 k.scrstale
    else if reg = 0x383 then BitVec.ofNat 64 s.clock
    else if reg = 0x384 then k.selgang
    else if reg = 0x385 then k.mill.mprog
    else if reg = 0x386 then k.engstop.word
    else ((mget? k.skid (reg - 0x400)).map Skid.cprog).getD 0 := by
  rw [State.readSys, sysScopeOf_row h, hr]
end

/-! #### The words of Table 11-9 -/

theorem getLsbD_of_digit {v : W64} {i : Nat} {c : Bool} (h : v.toNat / 2 ^ i % 2 = c.toNat) : v.getLsbD i = c := by
  rw [BitVec.getLsbD, Nat.testBit_eq_decide_div_mod_eq, h]
  cases c <;> rfl
theorem Flag.word_eq (f : Flag) (flt : Bool) :
    f.word flt = f.count % 64 + 64 * flt.toNat + 128 * f.err.toNat + 256 * (f.cause % 256) := by
  unfold Flag.word
  cases flt <;> cases f.err <;> simp <;> omega
theorem Flag.word_fields (f : Flag) (flt : Bool) : let v : W64 := BitVec.ofNat 64 (f.word flt)
    v.toNat % 64 = f.count % 64 ∧ v.getLsbD 6 = flt ∧ v.getLsbD 7 = f.err ∧ v.toNat / 256 = f.cause % 256 := by
  intro v
  have h1 := Bool.toNat_lt flt
  have h2 := Bool.toNat_lt f.err
  have hw : v.toNat = f.count % 64 + 64 * flt.toNat + 128 * f.err.toNat + 256 * (f.cause % 256) := by
    rw [BitVec.toNat_ofNat, Flag.word_eq, Nat.mod_eq_of_lt (by omega)]
  exact ⟨by omega, getLsbD_of_digit (by omega), getLsbD_of_digit (by omega), by omega⟩
theorem Skid.cprog_fields (e : Skid) : e.cprog.toNat / 2 ^ 62 = e.state % 4 ∧ e.cprog.toNat / 2 ^ 48 % 256 = e.cause % 256 ∧
    e.cprog.toNat % 2 ^ 48 = e.done % 2 ^ 48 := by
  rw [Skid.cprog, BitVec.toNat_ofNat]
  omega
theorem Mill.mprog_fields (m : Mill) : m.mprog.toNat / 2 ^ 62 = (if m.state = 2 then 2 else if m.queue = [] then 0 else 1) ∧
    m.mprog.toNat / 2 ^ 32 % 256 = m.group % 256 ∧ m.mprog.toNat / 2 ^ 24 % 256 = m.tile % 256 ∧
    m.mprog.toNat / 2 ^ 12 % 4096 = m.queue.length % 4096 := by
  have hs : (if m.state = 2 then 2 else if m.queue.isEmpty then 0 else 1) = if m.state = 2 then 2 else if m.queue = [] then 0 else 1 := by
    simp only [List.isEmpty_iff]
  have h3 : (if m.state = 2 then 2 else if m.queue = [] then 0 else 1) < 3 := by
    split
    · decide
    · split <;> decide
  rw [Mill.mprog, hs, BitVec.toNat_ofNat]
  generalize (if m.state = 2 then 2 else if m.queue = [] then 0 else 1) = st at *
  omega
theorem Engstop.word_fields (e : Engstop) : e.word.getLsbD 59 = e.busy ∧ e.word.toNat / 16 % 16 = e.res % 16 ∧
    e.word.getLsbD 1 = e.cstop ∧ e.word.getLsbD 0 = e.mstop := by
  have h1 := Bool.toNat_lt e.busy
  have h2 := Bool.toNat_lt e.cstop
  have h3 := Bool.toNat_lt e.mstop
  have hn : e.word = BitVec.ofNat 64 (e.busy.toNat * 2 ^ 59 + e.res % 16 * 16 + e.cstop.toNat * 2 + e.mstop.toNat) := by
    unfold Engstop.word
    cases e.busy <;> cases e.cstop <;> cases e.mstop <;> rfl
  have hw : e.word.toNat = e.busy.toNat * 2 ^ 59 + e.res % 16 * 16 + e.cstop.toNat * 2 + e.mstop.toNat := by
    rw [hn, BitVec.toNat_ofNat, Nat.mod_eq_of_lt (by omega)]
  exact ⟨getLsbD_of_digit (by omega), by omega, getLsbD_of_digit (by omega), getLsbD_of_digit (by omega)⟩
theorem Slice.slpc_fields (x : Slice) : x.slpc.getLsbD 63 = x.ended ∧ x.slpc.getLsbD 62 = x.rgw ∧
    x.slpc &&& 0x01FFFFFFFFFFFFF0 = x.pc &&& 0x01FFFFFFFFFFFFF0 := by
  have ha : ∀ c : Bool, (if c then 0x8000000000000000 else 0 : W64) &&& 0x01FFFFFFFFFFFFF0 = 0#64 := by decide
  have hb : ∀ c : Bool, (if c then 0x4000000000000000 else 0 : W64) &&& 0x01FFFFFFFFFFFFF0 = 0#64 := by decide
  refine ⟨?_, ?_, ?_⟩
  · cases he : x.ended <;> cases hr : x.rgw <;> simp [Slice.slpc, pcBits, he, hr]
  · cases he : x.ended <;> cases hr : x.rgw <;> simp [Slice.slpc, pcBits, he, hr]
  · rw [Slice.slpc, BitVec.and_comm, BitVec.and_or_distrib_left, BitVec.and_or_distrib_left, BitVec.and_comm, ha, BitVec.and_comm, hb, pcBits,
      BitVec.zero_or, BitVec.zero_or, BitVec.and_comm, BitVec.and_assoc, BitVec.and_self]

/-! #### What MFS reads -/

theorem copyWord_eq (reg : Nat) : copyWord reg = if reg < 0x480 then reg - 0x460 else reg - 0x440 := by
  rw [copyWord]
  split
  · rfl
  · omega

theorem scopeAt_gang {reg : Nat} (h : reg < 0xC0 ∨ (0x4C0 ≤ reg ∧ reg < 0x540)) : scopeAt reg = .gang := by
  rcases h with h | h <;> simp (disch := omega) only [scopeAt, if_pos, if_neg]
theorem scopeAt_crew {reg : Nat} (h : (0xC0 ≤ reg ∧ reg < 0x380) ∨ 0x540 ≤ reg) : scopeAt reg = .crew := by
  rcases h with h | h <;> simp (disch := omega) only [scopeAt, if_pos, if_neg]
theorem scopeAt_core {reg : Nat} (h : 0x380 ≤ reg ∧ reg < 0x460) (h1 : reg ≠ 0x381) (h2 : reg ≠ 0x382) : scopeAt reg = .core := by
  simp (disch := omega) only [scopeAt, if_pos, if_neg]

theorem State.readCarry_settled {s : State} {slot : Nat} {g : Gang} (ho : ∀ l, l < 32 → g.carryOpen s.clock l = false) (hb : s.cur.bad = false)
    (hu : ∀ k, s.unmerged .lx1 k = false) : s.readCarry slot g = g.lx1.setWidth 64 := by
  refine ofNat_bits _ _ fun l hl => ?_
  rw [ho l hl, hu, hb, Bool.or_false, Bool.and_false, Bool.or_false, if_neg Bool.false_ne_true]
theorem State.readPred_settled {s : State} {slot n : Nat} {g : Gang} (hb : g.busy s.clock (.p n) = false) (hu : ∀ k, s.unmerged (.p n) k = false) :
    s.readPred slot n g = (g.preg n).setWidth 64 := by
  have hn : (List.range 8).any (s.unmerged (.p n)) = false := List.any_eq_false.mpr fun k _ => by simp [hu k]
  rw [State.readPred, hb, if_neg Bool.false_ne_true, hn, if_neg (fun hc => Bool.false_ne_true hc.2)]

section
variable (s : State) (c slot cs : Nat) (pmc : Map W64) {reg : Nat}
theorem readGangReg_ferr : s.readGangReg c slot 0x20 =
    BitVec.ofNat 64 ((List.range 32).foldl (fun a n => if ((s.gang c slot).flag n).err then a + 2 ^ n else a) 0) := rfl
theorem readGangReg_mask : s.readGangReg c slot 0x70 =
    BitVec.ofNat 64 (digitSum 16 (fun k => ((s.gang c slot).slice k).mask.toNat) (s.gang c slot).nsl) := rfl
theorem readGangReg_depth : s.readGangReg c slot 0x71 =
    BitVec.ofNat 64 (digitSum 16 (fun k => ((s.gang c slot).slice k).depth) (s.gang c slot).nsl) := rfl
theorem readGangReg_part : s.readGangReg c slot 0x72 =
    BitVec.ofNat 64 (digitSum 16 (fun k => ((s.gang c slot).slice k).lead % 8) (s.gang c slot).nsl) := rfl
theorem readGangReg_policy (h : 0x28 ≤ reg) (h' : reg < 0x30) :
    s.readGangReg c slot reg = ((s.gang c slot).mpreg (reg - 0x28)).setWidth 64 := by
  simp (disch := omega) only [State.readGangReg, if_pos, if_neg]
theorem readGangReg_rng (h : 0x40 ≤ reg) (h' : reg < 0x60) :
    s.readGangReg c slot reg = (laneGet (s.gang c slot).rng (reg - 0x40)).setWidth 64 := by
  simp (disch := omega) only [State.readGangReg, if_pos, if_neg]
theorem readGangReg_pred (h : 0x60 ≤ reg) (h' : reg < 0x67) : s.readGangReg c slot reg = s.readPred slot (reg - 0x60) (s.gang c slot) := by
  simp (disch := omega) only [State.readGangReg, if_pos, if_neg]
theorem readGangReg_pc (h : 0x78 ≤ reg) (h' : reg < 0x80) : s.readGangReg c slot reg = ((s.gang c slot).slice (reg - 0x78)).slpc := by
  simp (disch := omega) only [State.readGangReg, if_pos, if_neg]
theorem readGangReg_stack (h : 0x80 ≤ reg) (h' : reg < 0xC0) :
    s.readGangReg c slot reg = mget 0 ((s.gang c slot).slice ((reg - 0x80) / 8)).stack ((reg - 0x80) % 8) := by
  simp (disch := omega) only [State.readGangReg, if_pos, if_neg]
theorem readGangReg_desc (h : 0x500 ≤ reg) (h' : reg < 0x540) (hb : (s.gang c slot).busy s.clock (.d ((reg - 0x500) / 4)) = false) :
    s.readGangReg c slot reg = mget 0 (s.gang c slot).desc (reg - 0x500) := by
  simp (disch := omega) only [State.readGangReg, if_pos, if_neg, hb, Bool.false_eq_true, if_false]
theorem readCrewReg_gtag (h : 0x100 ≤ reg) (h' : reg < 0x180) : s.readCrewReg c cs reg pmc =
    (match (s.crew c cs).granules[reg - 0x100]? with | some p => ((s.core c).tag p).setWidth 64 | none => 0) :=
  (if_neg (by omega)).trans ((if_neg (by omega)).trans (if_pos h'))
theorem readCrewReg_wstag (h : 0x180 ≤ reg) (h' : reg < 0x380) : s.readCrewReg c cs reg pmc =
    if reg - 0x180 < (s.crew c cs).wslots then (mget 0 (s.crew c cs).wstag (reg - 0x180)).setWidth 64 else 0 := by
  simp (disch := omega) only [State.readCrewReg, if_pos, if_neg]
theorem readCrewReg_pmc (h : 0x600 ≤ reg) (h' : reg < 0x610) : s.readCrewReg c cs reg pmc = mget 0 pmc (reg - 0x600) := by
  simp (disch := omega) only [State.readCrewReg, if_pos, if_neg]
theorem readCrewReg_pmcs (h : 0x610 ≤ reg) : s.readCrewReg c cs reg pmc = 0 := by
  simp (disch := omega) only [State.readCrewReg, if_neg]
end

section
variable {s : State} {reg : Nat} {r : SysRow} (h : sysRow reg = some r)
include h

/-- R350. -/
theorem mfsValue : MfsValue s reg (s.readSys reg) := by
  have gang {v : W64} (hr : reg < 0xC0 ∨ (0x4C0 ≤ reg ∧ reg < 0x540)) (hv : s.readGangReg s.cur.core s.selected reg = v) : s.readSys reg = v :=
    (readSys_gang h (scopeAt_gang hr)).trans hv
  have crew {v : W64} (hr : (0xC0 ≤ reg ∧ reg < 0x380) ∨ 0x540 ≤ reg)
      (hv : ∀ pmc, s.readCrewReg s.cur.core (s.gang s.cur.core s.selected).cslot reg pmc = v) : s.readSys reg = v :=
    (readSys_crew h (scopeAt_crew hr)).trans (hv _)
  constructor
  case flag =>
    intro hr f
    rw [gang (.inl (by omega)) (if_pos hr)]
    exact f.word_fields _
  case carry =>
    rintro rfl ho hb hu
    exact gang (.inl (by decide)) (State.readCarry_settled ho hb hu)
  case ferr =>
    rintro rfl n hn
    rw [gang (.inl (by decide)) (readGangReg_ferr ..), BitVec.getLsbD_ofNat, foldl_bits_testBit]
    simp (disch := omega) only [decide_eq_true, Bool.true_and]
  case policy => exact fun h1 h2 => gang (.inl (by omega)) (readGangReg_policy s _ _ h1 h2)
  case seed =>
    rintro rfl
    exact gang (.inl (by decide)) rfl
  case rng => exact fun h1 h2 => gang (.inl (by omega)) (readGangReg_rng s _ _ h1 h2)
  case pred =>
    exact fun h1 h2 hb hu => gang (.inl (by omega)) ((readGangReg_pred s _ _ h1 h2).trans (State.readPred_settled hb hu))
  case pc =>
    intro h1 h2 x
    rw [gang (.inl (by omega)) (readGangReg_pc s _ _ h1 h2)]
    exact x.slpc_fields
  case mask =>
    rintro rfl hn k hk
    rw [gang (.inl (by decide)) (readGangReg_mask ..)]
    exact ofNat_digits hn (fun k _ => ((s.gang s.cur.core s.selected).slice k).mask.isLt) hk
  case depth =>
    rintro rfl hn hd k hk
    rw [gang (.inl (by decide)) (readGangReg_depth ..)]
    exact ofNat_digits hn (fun k _ => (hd k).trans_lt (by decide)) hk
  case part =>
    rintro rfl hn k hk
    rw [gang (.inl (by decide)) (readGangReg_part ..)]
    exact ofNat_digits hn (fun k _ => (Nat.mod_lt _ (by decide)).trans (by decide)) hk
  case stack => exact fun h1 h2 => gang (.inl (by omega)) (readGangReg_stack s _ _ h1 h2)
  case gtag => exact fun h1 h2 => crew (.inl (by omega)) (readCrewReg_gtag s _ _ · h1 h2)
  case wstag => exact fun h1 h2 => crew (.inl (by omega)) (readCrewReg_wstag s _ _ · h1 h2)
  case window =>
    intro h1 h2
    have hs : scopeAt reg = .context := by simp (disch := omega) only [scopeAt, if_pos, if_neg]
    rw [readSys_context h hs, if_neg (by omega), copyWord_eq]
  case cprog =>
    intro h1 h2
    have hs := readSys_core h (s := s) (scopeAt_core ⟨by omega, h2⟩ (by omega) (by omega))
    simp (disch := omega) only [if_neg] at hs
    rw [hs]
    cases hk : mget? (s.core s.cur.core).skid (reg - 0x400) with
    | none => rfl
    | some e => exact e.cprog_fields
  case mprog =>
    rintro rfl m
    rw [readSys_core h rfl]
    exact m.mprog_fields
  case engstop =>
    rintro rfl e
    rw [readSys_core h rfl]
    exact e.word_fields
  case desc => exact fun h1 h2 hb => gang (.inr (by omega)) (readGangReg_desc s _ _ h1 h2 hb)
  case bar => exact fun h1 h2 => crew (.inl (by omega)) fun _ => if_pos h2
  case sbar =>
    rintro rfl
    exact crew (.inl (by decide)) fun _ => rfl
  case pmc =>
    intro h1 h2 hs
    rw [readSys_crew h (scopeAt_crew (.inr (by omega))), readCrewReg_pmc _ _ _ _ h1 h2, if_pos hs]
  case pmcOther =>
    intro h1 h2 hs
    rw [readSys_crew h (scopeAt_crew (.inr (by omega))), readCrewReg_pmc _ _ _ _ h1 h2, if_neg hs]
  case pmcs => exact fun h1 => crew (.inr (by omega)) (readCrewReg_pmcs s _ _ · h1)
  case stale =>
    rintro rfl
    exact readSys_core h rfl
  case dev =>
    rintro rfl
    rw [State.readSys, sysScopeOf_row h]
    rfl
  case ctx =>
    rintro rfl
    exact readSys_context h rfl
  case clock =>
    rintro rfl
    exact readSys_core h rfl
  case sel =>
    rintro rfl
    exact readSys_core h rfl
end

/-! #### Conditions of MFS and MTS -/

theorem State.selTrap_none {s : State} {r : SysRow} {wr : Bool} (h : redirected r.scope → s.selectable (wr && r.scope == .crew) = true) :
    s.selTrap r wr = none := by
  unfold State.selTrap
  by_cases hp : perGang r = true
  · have hr : redirected r.scope := by simpa only [redirected, perGang, Bool.or_eq_true, beq_iff_eq, or_assoc] using hp
    rw [h hr, Bool.or_true, if_pos rfl]
  · rw [Bool.not_eq_true] at hp
    rw [hp, Bool.not_false, Bool.true_or, if_pos rfl]
theorem State.sysPriv_none {s : State} {ok : Bool} (h : ok = true ∨ s.isSuper = true) : s.sysPriv ok = none :=
  if_pos (Bool.or_eq_true_iff.mpr h)
theorem State.sysPriv_some {s : State} (h : s.isSuper = false) : s.sysPriv false = some { tcause := 0x62, slot := 3 } := by
  rw [State.sysPriv, h]
  rfl
/-- The values that a register takes (R55, R118, R351). -/
theorem State.writeTrap_none {s : State} {reg : Nat} {v : W64} (hp : 0x28 ≤ reg → reg < 0x30 → policyOk (v.setWidth 8) = true)
    (hd : reg = 0x71 → ∀ k, k < 8 → v.toNat / 16 ^ k % 16 ≤ 8)
    (hg : let w := s.crew s.cur.core (s.gang s.cur.core s.selected).cslot
      0x100 ≤ reg → reg < 0x180 → reg - 0x100 < w.granules.length ∧ gtagBad v w.granules.length = false) : s.writeTrap reg v = none := by
  unfold State.writeTrap
  refine if_neg (Bool.not_eq_true _ ▸ ?_)
  split
  case isTrue h => rw [hp h.1 h.2, Bool.not_true]
  case isFalse =>
    split
    case isTrue h =>
      refine List.any_eq_false.mpr fun k hk => ?_
      simpa using hd h k (List.mem_range.mp hk)
    case isFalse =>
      split
      case isTrue h =>
        obtain ⟨hl, hb⟩ := hg h.1 h.2
        rw [hb, Bool.or_false, decide_eq_false (by omega)]
      case isFalse => rfl

/-! #### The copy of a context's words (R19) -/

/-- Writing the words of some pending writes. -/
def wordsPut (m : Map W64) (l : List (Nat × Nat × W64)) : Map W64 := l.foldl (fun m p => mset m p.2.1 p.2.2) m

theorem wordsPut_append (m : Map W64) (l l' : List (Nat × Nat × W64)) : wordsPut m (l ++ l') = wordsPut (wordsPut m l) l' := List.foldl_append
theorem mget_wordsPut (m : Map W64) (l : List (Nat × Nat × W64)) (i : Nat) :
    mget 0 (wordsPut m l) i = match (l.filter (fun p => p.2.1 == i)).getLast? with
      | some p => p.2.2
      | none => mget 0 m i := by
  induction l using List.reverseRecOn with
  | nil => rfl
  | append_singleton l p ih =>
    rw [wordsPut_append, List.filter_append]
    change mget 0 (mset (wordsPut m l) p.2.1 p.2.2) i = _
    rw [mget_mset]
    by_cases h : p.2.1 = i
    · rw [if_pos h.symm, List.filter_singleton, beq_iff_eq.mpr h]
      simp
    · rw [if_neg (Ne.symm h), List.filter_singleton, beq_eq_false_iff_ne.mpr h, ih]
      simp
/-- What a copy reads at a clock is its words with the writes due by then put in, in order. -/
theorem CtxCopy.word_eq (k : CtxCopy) (now i : Nat) : k.word now i = mget 0 (wordsPut k.words (k.pend.filter (fun p => p.1 ≤ now))) i := by
  rw [mget_wordsPut, List.filter_filter]
  rfl

/-- The writes due by a clock stand before the others. -/
def CtxCopy.InOrder (k : CtxCopy) (now : Nat) : Prop := k.pend.filter (fun p => p.1 ≤ now) ++ k.pend.filter (fun p => now < p.1) = k.pend

theorem CtxCopy.inOrder_of_sorted {k : CtxCopy} (h : k.pend.Pairwise (fun a b => a.1 ≤ b.1)) (now : Nat) : k.InOrder now := by
  unfold CtxCopy.InOrder
  induction hp : k.pend generalizing k with
  | nil => rfl
  | cons p l ih =>
    obtain ⟨hp', hl⟩ := List.pairwise_cons.mp (hp ▸ h)
    by_cases hn : p.1 ≤ now
    · rw [List.filter_cons_of_pos (by simpa using hn), List.filter_cons_of_neg (by simpa using hn), List.cons_append,
        ih (k := { k with pend := l }) hl rfl]
    · have hlate : ∀ q ∈ l, now < q.1 := fun q hq => (not_le.mp hn).trans_le (hp' q hq)
      rw [List.filter_cons_of_neg (by simpa using hn), List.filter_cons_of_pos (by simpa using hn),
        List.filter_eq_nil_iff.mpr fun q hq => by simpa using hlate q hq, List.filter_eq_self.mpr fun q hq => by simpa using hlate q hq,
        List.nil_append]

section
variable {k : CtxCopy} {now due i : Nat} {v : W64}
theorem CtxCopy.write_inOrder (hd : now < due) : (k.write now due i v).InOrder now := by
  have hlate : ∀ q ∈ (k.write now due i v).pend, now < q.1 := by
    intro q hq
    rcases List.mem_append.mp hq with hq | hq
    · simpa using (List.mem_filter.mp hq).2
    · rw [List.mem_singleton.mp hq]
      exact hd
  unfold CtxCopy.InOrder
  rw [List.filter_eq_nil_iff.mpr fun q hq => by simpa using hlate q hq, List.filter_eq_self.mpr fun q hq => by simpa using hlate q hq,
    List.nil_append]
/-- A write is not in effect before it is due. -/
theorem CtxCopy.word_write_now (hd : now < due) (j : Nat) : (k.write now due i v).word now j = k.word now j := by
  have he : (k.write now due i v).pend.filter (fun p => p.1 ≤ now) = [] := by
    rw [CtxCopy.write, List.filter_append, List.filter_filter]
    simp [List.filter_eq_nil_iff, hd]
  rw [CtxCopy.word_eq, CtxCopy.word_eq k, he]
  rfl
/-- A write is in effect when it is due, and the writes before it too. -/
theorem CtxCopy.word_write_due (hd : now < due) (ho : k.InOrder now) (j : Nat) :
    (k.write now due i v).word due j = if j = i then v else k.word due j := by
  have he : wordsPut (k.write now due i v).words ((k.write now due i v).pend.filter (fun p => p.1 ≤ due)) =
      mset (wordsPut k.words (k.pend.filter (fun p => p.1 ≤ due))) i v := by
    have hold : (k.pend.filter (fun p => p.1 ≤ now)).filter (fun p => p.1 ≤ due) = k.pend.filter (fun p => p.1 ≤ now) :=
      List.filter_eq_self.mpr fun p hp => by
        have := (List.mem_filter.mp hp).2
        simp only [decide_eq_true_eq] at this ⊢
        omega
    calc wordsPut (k.write now due i v).words ((k.write now due i v).pend.filter (fun p => p.1 ≤ due))
      _ = wordsPut (wordsPut k.words (k.pend.filter (fun p => p.1 ≤ now)))
            ((k.pend.filter (fun p => now < p.1)).filter (fun p => p.1 ≤ due) ++ [(due, i, v)]) := by
          rw [CtxCopy.write, List.filter_append, List.filter_singleton, decide_eq_true (le_refl due)]
          rfl
      _ = mset (wordsPut k.words
            ((k.pend.filter (fun p => p.1 ≤ now) ++ k.pend.filter (fun p => now < p.1)).filter (fun p => p.1 ≤ due))) i v := by
          rw [wordsPut_append, List.filter_append, hold, wordsPut_append _ (k.pend.filter fun p => p.1 ≤ now)]
          rfl
      _ = _ := by rw [ho]
  rw [CtxCopy.word_eq, CtxCopy.word_eq k, he, mget_mset]
end

/-- The issuing core with a context's copy replaced. -/
def State.withCopy (s : State) (ctx : Nat) (k : CtxCopy) : State :=
  s.setCore s.cur.core { s.core s.cur.core with copies := mset (s.core s.cur.core).copies ctx k }

theorem State.copy_withCopy (s : State) (ctx : Nat) (k : CtxCopy) : (s.withCopy ctx k).copy s.cur.core ctx = k := by
  rw [State.copy, State.withCopy, State.core_setCore_self, mget_mset_self]
theorem State.gang?_withCopy (s : State) (ctx : Nat) (k : CtxCopy) (c g : Nat) : (s.withCopy ctx k).gang? c g = s.gang? c g :=
  s.gang?_setCore_gangs _ _ _ _ rfl
theorem State.crew_withCopy (s : State) (ctx : Nat) (k : CtxCopy) (c w : Nat) : (s.withCopy ctx k).crew c w = s.crew c w :=
  s.crew_setCore_crews _ _ _ _ rfl
theorem State.me_withCopy (s : State) (ctx : Nat) (k : CtxCopy) : (s.withCopy ctx k).me = s.me := s.gang_setCore_gangs _ _ _ _ rfl

/-! #### The statements -/

theorem exec_mfs (s : State) (sd : BitVec 5) (reg : BitVec 16) : exec (.mfs sd reg) s = execMfs sd reg s := rfl
theorem exec_mts (s : State) (sa : BitVec 5) (reg : BitVec 16) : exec (.mts sa reg) s = execMts sa reg s := rfl
theorem exec_mpset (s : State) (n : BitVec 3) (v : BitVec 8) : exec (.mpset n v) s = execMpset n v s := rfl
theorem exec_winset (s : State) (a : BitVec 5) (n : BitVec 4) : exec (.winset a n) s = execWinset a n s := rfl

theorem systemReadResults : SystemReadResults := by
  intro s sd reg r
  refine ⟨?_, ?_⟩
  · rintro ⟨hl, hr, hp, hsel⟩
    let p : Pend := ⟨s.clock + 4, s.clock, .s sd.toNat, 0, [], s.readSys reg.toNat⟩
    refine ⟨(s.setMe (s.me.write p)).bump, s.readSys reg.toNat, (exec_mfs ..).trans (cRun_runs hl ?_), CFrame.setMe s _, rfl, ?_,
      Writes.write (s.me_setMe _), mfsValue hr⟩
    · rw [hr]
      dsimp only
      rw [State.sysPriv_none hp, State.selTrap_none hsel]
      rfl
    · rw [State.bump_me, State.me_setMe]
      exact s.me.write_eq p
  · intro hl hr hg hs
    refine (exec_mfs ..).trans (cRun_traps hl ?_)
    rw [hr]
    dsimp only
    rw [hg, State.sysPriv_some hs]
    rfl

/-! What MTS leaves, by the kind of its register. -/

theorem State.writeSys_context {s : State} {reg : Nat} {v : W64} (h : sysScopeOf reg = some .context) :
    s.writeSys reg v = s.withCopy (s.ctxOf s.cur.core s.selected)
      ((s.copy s.cur.core (s.ctxOf s.cur.core s.selected)).write s.clock (s.clock + 4) (copyWord reg) (v &&& copyMask reg)) := if_pos h
theorem State.writeSys_plain {s : State} {reg : Nat} {v : W64} (h : sysScopeOf reg ≠ some .context) (he : sysEvents reg v = []) :
    s.writeSys reg v = s.setMe (s.me.write ⟨s.clock + 4, s.clock, .sys s.selected reg, 0, [], v⟩) := by
  simp only [State.writeSys, if_neg h, he]
theorem State.writeSys_events {s : State} {reg : Nat} {v : W64} (h : sysScopeOf reg ≠ some .context) (he : sysEvents reg v ≠ []) :
    s.writeSys reg v = { s with agenda := s.agenda ++ (sysEvents reg v).map fun op =>
      { op := op, arg := .sysw s.cur.core s.selected reg v, due := s.clock + 4 } } := by
  obtain ⟨op, ops, ho⟩ := List.exists_cons_of_ne_nil he
  simp only [State.writeSys, if_neg h, ho]

/-- What MTS leaves as it is. -/
structure SysFrame (s t : State) : Prop where
  cur : t.cur = s.cur
  free : t.free = s.free
  mem : ∀ a, Mem.read t.mem a = Mem.read s.mem a
  crew : ∀ c k, t.crew c k = s.crew c k
  gang : ∀ c g, c ≠ s.cur.core ∨ g ≠ s.cur.slot → t.gang? c g = s.gang? c g

theorem SysFrame.withCopy (s : State) (ctx : Nat) (k : CtxCopy) : SysFrame s (s.withCopy ctx k) :=
  ⟨rfl, rfl, fun _ => rfl, s.crew_withCopy ctx k, fun c g _ => s.gang?_withCopy ctx k c g⟩
theorem State.writeSys_frame (s : State) (reg : Nat) (v : W64) : SysFrame s (s.writeSys reg v) := by
  by_cases h : sysScopeOf reg = some .context
  · rw [State.writeSys_context h]
    exact .withCopy ..
  · by_cases he : sysEvents reg v = []
    · rw [State.writeSys_plain h he]
      exact ⟨rfl, rfl, fun _ => rfl, s.setMe_crew _, fun c g hn => s.gang?_setGang_ne _ hn⟩
    · rw [State.writeSys_events h he]
      exact ⟨rfl, rfl, fun _ => rfl, fun _ _ => rfl, fun _ _ _ => rfl⟩
theorem MtsExecutes.exec_eq {s : State} {sa : BitVec 5} {reg : BitVec 16} {r : SysRow} (h : MtsExecutes s sa reg r) :
    exec (.mts sa reg) s = .next (s.writeSys reg.toNat (s.sregNow sa.toNat 20)).bump := by
  obtain ⟨hl, hr, hp, hsel, hpol, hdep, hgt⟩ := h
  refine (exec_mts ..).trans (cRun_runs hl ?_)
  rw [hr]
  dsimp only
  rw [State.sysPriv_none hp, State.selTrap_none (by simpa only [Bool.true_and] using hsel), State.writeTrap_none hpol hdep hgt]
  rfl

theorem MtsExecutes.scopeOf_ne {s : State} {sa : BitVec 5} {reg : BitVec 16} {r : SysRow} (h : MtsExecutes s sa reg r)
    (hn : r.scope ≠ .context) : sysScopeOf reg.toNat ≠ some .context := by
  obtain ⟨-, hr, -⟩ := h
  rw [sysScopeOf_row hr, ← sysRow_scope hr]
  exact fun hc => hn (Option.some.inj hc)
theorem MtsExecutes.scopeOf_eq {s : State} {sa : BitVec 5} {reg : BitVec 16} {r : SysRow} (h : MtsExecutes s sa reg r)
    (hc : r.scope = .context) : sysScopeOf reg.toNat = some .context := by
  obtain ⟨-, hr, -⟩ := h
  rw [sysScopeOf_row hr, ← sysRow_scope hr, hc]

/-- R19: both words of the window, one write after the other. -/
theorem CtxCopy.word_write_write {k : CtxCopy} {now due i j : Nat} {v w : W64} (hd : now < due) (ho : k.InOrder now) (hij : i < j) (x : Nat) :
    ((k.write now due i v).write now due j w).word due x = if x = i then v else if x = j then w else k.word due x := by
  rw [CtxCopy.word_write_due hd (CtxCopy.write_inOrder hd), CtxCopy.word_write_due hd ho]
  by_cases hx : x = j
  · rw [if_pos hx, if_neg (by omega), if_pos hx]
  · rw [if_neg hx, if_neg hx]

theorem systemWriteResults : SystemWriteResults := by
  refine ⟨?mts, ?mpset, ?winset⟩
  case mts =>
    intro s sa reg r h v
    obtain ⟨hcur, hfree, hmem, hcrew, hgang⟩ := s.writeSys_frame reg.toNat v
    refine ⟨(s.writeSys reg.toNat v).bump, h.exec_eq, hcur, congrArg (· + 1) hfree, hmem, hcrew, hgang, ?context, ?events, ?plain⟩
    case context =>
      intro hc ctx n m
      have hd : s.clock < s.clock + 4 := by omega
      have hn : copyWord reg.toNat = n := copyWord_eq _
      have ht : (s.writeSys reg.toNat v).copy s.cur.core ctx = (s.copy s.cur.core ctx).write s.clock (s.clock + 4) n (v &&& m) := by
        rw [State.writeSys_context (h.scopeOf_eq hc), State.copy_withCopy, hn]
        rfl
      refine ⟨?_, ?_, fun hs i => ?_, fun i => ?_⟩
      · rw [State.bump_me, State.writeSys_context (h.scopeOf_eq hc), State.me_withCopy]
      · rw [State.writeSys_context (h.scopeOf_eq hc)]
        rfl
      · exact (congrArg (CtxCopy.word · _ i) ht).trans (CtxCopy.word_write_due hd (CtxCopy.inOrder_of_sorted hs _) i)
      · exact (congrArg (CtxCopy.word · _ i) ht).trans (CtxCopy.word_write_now hd i)
    case events =>
      intro hc he
      rw [State.writeSys_events (h.scopeOf_ne hc) he]
      exact ⟨rfl, rfl⟩
    case plain =>
      intro hc he
      rw [State.writeSys_plain (h.scopeOf_ne hc) he]
      refine ⟨rfl, ?_, Writes.write (s.me_setMe _)⟩
      rw [State.bump_me, State.me_setMe]
      exact s.me.write_eq _
  case mpset =>
    intro s n v hl
    let p : Pend := ⟨s.clock + 4, s.clock, .mp n.toNat, 0, [], v.setWidth 64⟩
    refine ⟨s.setMe (s.me.write p), (exec_mpset ..).trans (cRun_legal hl), CFrame.setMe s _, rfl, ?_, Writes.write (s.me_setMe _)⟩
    rw [State.me_setMe]
    exact s.me.write_eq p
  case winset =>
    intro s a n hl
    refine ⟨fun hs => (exec_winset ..).trans (cRun_traps hl ?_), fun hs hsel ho => ?_⟩
    · rw [privTrap, hs]
      rfl
    · intro ctx
      let k := ((s.copy s.cur.core ctx).write s.clock (s.clock + 4) (2 * n.toNat) (s.sregNow a.toNat 20 &&& winAMask)).write s.clock (s.clock + 4)
        (2 * n.toNat + 1) (s.sregNow (a.toNat + 1) 21 &&& winBMask)
      have hown : orTrap (privTrap s) (if s.selectable false then none else some (illegal .c)) = none := by
        rw [privTrap, if_pos hs, if_pos hsel]
        rfl
      obtain ⟨hcur, -, hmem, hcrew, -⟩ := SysFrame.withCopy s ctx k
      refine ⟨(s.withCopy ctx k).bump, (exec_winset ..).trans (cRun_runs hl hown), hcur, s.me_withCopy ctx k, hmem, hcrew, fun i => ?_⟩
      exact (congrArg (CtxCopy.word · _ i) (s.copy_withCopy ctx k)).trans
        (CtxCopy.word_write_write (by omega) (CtxCopy.inOrder_of_sorted ho _) (by omega) i)

/-- Settles O28: a read gathers the fields of Table 11-9; a window's write is one more of the copy's pending writes, which count once due. -/
theorem systemRegisterResults : Obligations.SystemRegisterResults := ⟨systemReadResults, systemWriteResults⟩

end Sys2Proof.Machine
end
